-- ==== Sys2Proof/Word.lean ====
section
/-! DEFINITION. The word types of the SP48 and their plainest arithmetic. -/

namespace Sys2Proof

/-- A byte of a byte-addressed memory, a header or a parameter block. -/
abbrev Byte := BitVec 8

/-- A block register (Chapters 3, 4, 6, 12, 14-17: 32 bits wide). -/
abbrev Word32 := BitVec 32

/-- A word of Garnet DMEM or of an X or Y register (R224, R231). -/
abbrev Word48 := BitVec 48

/-- A 24-bit lane of a Garnet word (R5). -/
abbrev Lane := BitVec 24

/-- A 56-bit accumulator lane (R241). -/
abbrev AccLane := BitVec 56

/-- A one-bit field as a Boolean. -/
def bit (w : Word32) (k : Nat) : Bool := (w.toNat / 2 ^ k) % 2 == 1

/-- A Boolean as 0 or 1. -/
def b2n (b : Bool) : Nat := if b then 1 else 0

end Sys2Proof
end

