-- ==== Sys2Proof/Syntax.lean ====
section
/-! DEFINITION. The commands of the block: one constructor of Instr per row of the table of operations and events,
with the row's operands. Host commands carry their parameters in the order of Chapter 7; events carry what the
outside world supplies at that step. -/

namespace Sys2Proof

/-! ### Operand types -/

/-- What the submission entry of a host command says beside its parameters (Table 6.3). -/
structure Hdr where
  queue : Fin 4
  seq : BitVec 16
  /-- FLAGS[0] EMERG (R176). -/
  emerg : Bool
  /-- FLAGS[1] NOACK (R149). -/
  noack : Bool
  /-- FLAGS[2] INDIRECT (R169). -/
  indirect : Bool
  /-- RESULT_LEN. -/
  resultLen : BitVec 32
  /-- CHECK of the entry, kept in its ledger entry (Table 8.3). -/
  check : BitVec 32
  deriving DecidableEq, Repr

/-- A 12-bit MAC field (R256). -/
structure MacF where
  op : BitVec 2
  acc : BitVec 2
  xs : BitVec 3
  ys : BitVec 3
  pair : BitVec 2
  deriving DecidableEq, Repr

/-- Operands of one MAC operation whose OP is given by the mnemonic (R256). -/
structure MacU where
  acc : BitVec 2
  xs : BitVec 3
  ys : BitVec 3
  pair : BitVec 2
  deriving DecidableEq, Repr

/-- Where the named operation of MPY, MAC or MSU sits: in U0 with U1 given, or in U1 with U0 empty. -/
inductive MacPos where
  | inU0 (u1 : MacF)
  | inU1
  deriving DecidableEq, Repr

/-- A parallel-move field (R258). -/
structure PMove where
  kind : BitVec 2
  r : BitVec 4
  pn : BitVec 3
  inc : BitVec 1
  deriving DecidableEq, Repr

/-- The address fields of LD, ST, LDAW and STAW (R260). -/
structure EA where
  pn : BitVec 3
  am : BitVec 2
  disp : BitVec 24
  deriving DecidableEq, Repr

/-- The fields of CH_CREATE after CHAN (Table 7.8, R285). -/
structure ChParams where
  codec : BitVec 8
  ptime : BitVec 8
  echoTail : BitVec 8
  jbMode : BitVec 8
  jbMin : BitVec 16
  jbMax : BitVec 16
  prio : BitVec 8
  flags : BitVec 16
  deriving DecidableEq, Repr

/-- A Work Header (Table 2.1). -/
structure WH where
  wclass : BitVec 4
  prio : BitVec 3
  assured : Bool
  dest : BitVec 8
  src : BitVec 8
  chan : BitVec 13
  seq : BitVec 16
  len : BitVec 16
  lref : BitVec 14
  rsvd : BitVec 2
  settle : Bool
  err : Bool
  last : Bool
  stamp : BitVec 40
  deriving DecidableEq, Repr

/-- A Speolo Service Tag as received (Table 2.9). -/
structure Sst where
  ver : BitVec 4
  prio : BitVec 3
  assured : Bool
  rsvd1 : BitVec 3
  chan : BitVec 13
  seq : BitVec 16
  settle : Bool
  err : Bool
  last : Bool
  rsvd2 : BitVec 5
  deriving DecidableEq, Repr

/-- A tag found after the source address, in the order received (R319). -/
inductive Tag where
  | sTag (vid : BitVec 12)
  | cTag (vid : BitVec 12)
  | sst (t : Sst)
  deriving DecidableEq, Repr

/-- Where the destination address of a received frame points (R324). -/
inductive DstKind where
  | own | broadcast | multicastKnown | other
  deriving DecidableEq, Repr

/-- The IP header of a received frame as far as R323 looks at it. -/
structure IpInfo where
  v6 : Bool
  version : BitVec 4
  ihl : BitVec 4
  checksumOk : Bool
  lengthOk : Bool
  fragment : Bool
  /-- IPv6 Next Header, or IPv4 protocol. -/
  next : BitVec 8
  src : BitVec 128
  dst : BitVec 128
  deriving DecidableEq, Repr

/-- How the UDP checksum of a received frame came out (R323 step 4). -/
inductive UdpSum where
  | good | bad | zero
  deriving DecidableEq, Repr

/-- The RTP header of a received frame (R326). -/
structure RtpInfo where
  version : BitVec 2
  short : Bool
  pt : BitVec 7
  marker : Bool
  seq : BitVec 16
  ts : BitVec 32
  ssrc : BitVec 32
  deriving DecidableEq, Repr

/-- What SRTP authentication of a received packet found: the packet index, and whether its tag verifies under the
newer and under the older receive key (R328, R329). -/
structure SrtpInfo where
  index : BitVec 48
  authNew : Bool
  authOld : Bool
  deriving DecidableEq, Repr

/-- A received Ethernet frame, field by field. -/
structure EthFrame where
  fcsOk : Bool
  /-- Destination address to FCS, in bytes (R311). -/
  length : Nat
  srcMac : BitVec 48
  dst : DstKind
  tags : List Tag
  etherType : BitVec 16
  ip : Option IpInfo
  sport : BitVec 16
  dport : BitVec 16
  udpSum : UdpSum
  rtp : Option RtpInfo
  srtp : Option SrtpInfo
  /-- PRP trailer: SeqNr and whether suffix and LSDUsize are consistent (R333). -/
  prpSeq : Option (BitVec 16)
  payload : List Byte
  deriving DecidableEq, Repr

/-- An acknowledgement frame (Table 12.5). -/
structure AckFrame where
  srcMac : BitVec 48
  tags : List Tag
  typ : BitVec 8
  credit : BitVec 8
  rsvd : BitVec 16
  deriving DecidableEq, Repr

/-- A powerline link header (Table 14.1). -/
structure LinkHdr where
  netid : BitVec 16
  txa : BitVec 12
  rxa : BitVec 12
  orig : BitVec 12
  ttl : BitVec 4
  final : BitVec 12
  prio : BitVec 3
  assured : Bool
  lchan : BitVec 13
  last : Bool
  err : Bool
  settle : Bool
  seq : BitVec 16
  deriving DecidableEq, Repr

/-- The kind of slot, or the polling region, a powerline frame was heard in (R382, R394). -/
inductive SlotKind where
  | beacon | emergency | voice | assured | contention | management | polling | idle
  deriving DecidableEq, Repr

/-- A powerline frame as delivered by R375 and R379: its link header, whether the item carries ERR or its link check
fails, the slot it was heard in and that slot's owner. -/
structure PlcFrame where
  hdr : LinkHdr
  bad : Bool
  slot : SlotKind
  owner : BitVec 12
  /-- MODE of the frame (Table 13.7). -/
  enclosed : Bool
  deriving DecidableEq, Repr

/-- A beacon body (Table 14.4). -/
structure Beacon where
  txrtb : BitVec 64
  sfno : BitVec 32
  sfcfg : BitVec 8
  smgen : BitVec 8
  hops : BitVec 8
  cost : BitVec 8
  flags : BitVec 16
  emown : BitVec 12
  empeer : BitVec 12
  enr : BitVec 8
  erelay : List (BitVec 12)
  deriving DecidableEq, Repr

/-- One neighbour of an NBR_REPORT (Table 14.5). -/
structure NbrEntry where
  node : BitVec 12
  cost : BitVec 8
  margin : BitVec 8
  tmi : BitVec 8
  deriving DecidableEq, Repr

/-- What keeps a Topaz job from ending as its input has it: an uncorrectable error in its context or source, or a mismatch of its verifier, with the
positions reached in its input and its output (R448, Table 16.4). -/
inductive TpzUpset where
  | none
  | memUe (inBytes outBytes : BitVec 32)
  | verifyData (inBytes outBytes : BitVec 32)
  | verifyCheck
  deriving DecidableEq, Repr

/-- One failing cell found by Agate: row and physical column of a macro (R465), and how it was found: the ALG bit and the march element, the word
within the row and the bit within the word (R474). -/
structure FailCell where
  mac : BitVec 16
  row : Nat
  col : Nat
  alg : Nat := 0
  elem : Nat := 0
  word : Nat := 0
  bit : Nat := 0
  deriving DecidableEq, Repr

/-- What a march test found: the failing cells, and the macros whose retest failed too (R459). -/
structure MarchFound where
  cells : List FailCell
  again : List (BitVec 16)
  deriving DecidableEq, Repr

/-- What else a test of clusters found: cores whose logic signature differs, and clusters whose fabric loopback failed (R115, R459). -/
structure ClusterFound where
  logic : List Nat
  loop : List Nat
  deriving DecidableEq, Repr

/-- An edge of an input, stamped in ns of RTB, with its polarity (R65). -/
structure PinEdge where
  stamp : BitVec 64
  rising : Bool
  deriving DecidableEq, Repr

/-- A change of level at a ZC input, stamped at its first sample, and how many samples the new level has held (R74). -/
structure ZcEdge where
  stamp : BitVec 64
  rising : Bool
  held : Nat
  deriving DecidableEq, Repr

/-- What a TDM port received in a frame time, and when its first bit was sampled (R424). -/
structure TdmData where
  bytes : List Byte
  stamp : BitVec 64
  deriving DecidableEq, Repr

/-- A run of S10: the shadow's digest matches (R128), how many entries it replays, and the entries whose retained record fails its check (R209). -/
structure ReplayRun where
  shadowOk : Bool
  count : Nat
  bad : List Nat
  deriving DecidableEq, Repr

/-- What an Onyx restart finds in the retained memories: whether IMEM and the copy of the DMEM data read without an uncorrectable error (R479), and
the entries whose retained record fails its check (R209). -/
structure RetainedRead where
  image : Bool
  bad : List Nat
  deriving DecidableEq, Repr

/-- The parameters of a LIFECYCLE without a token (R561). -/
structure LcMove where
  target : BitVec 8
  uidLo : BitVec 32
  deriving DecidableEq, Repr

/-- What a DMA or a read of host memory returned: the bytes, or an error (R167). -/
inductive Dma where
  | data (b : List Byte)
  | error
  deriving DecidableEq, Repr

/-- The end of a Topaz job (R445-R449): what it has read of its source in host memory, and what upset it. -/
structure TpzEnd where
  src : Dma
  upset : TpzUpset
  deriving DecidableEq, Repr

/-- The kinds of host link reset (R160, R139). -/
inductive LinkResetKind where
  | hotReset | linkDown | flr | perstN | d3hotToD0
  deriving DecidableEq, Repr

/-- Outcome of a boot or bring-up action that the board and the silicon decide. -/
inductive Verdict where
  | pass | fail (cause : BitVec 8) (detail : BitVec 32)
  deriving DecidableEq, Repr

/-- A signed return token (Table 5.12) or repair token (Table 17.5), as bytes. -/
abbrev Token := List Byte

/-- The commands of the block: one constructor per row of spec/opcode_table.json. Each docstring gives the row's
mnemonic, its governing rule and the row's summary. -/
inductive Instr where
  /-- NOP_COMMAND (R168): SCP command NOP completes with a FINAL entry of status OK and no result. -/
  | nopCommand (h : Hdr)
  /-- DEV_INFO (R178): Returns release, stepping, life cycle, mode, slots, DDR speed, state, cores and unique ID. -/
  | devInfo (h : Hdr)
  /-- DEV_RESET (R179): Starts a warm reset with its ledger entry live, and writes FINAL OK with REPLAYED at S12 of the next start. -/
  | devReset (h : Hdr) (kind : BitVec 8)
  /-- TIME_SET (R179): With FLAGS[0] = 0, steps RTB to TIME_NS in UNSYNCED, HOLDOVER or FREE, or sets whole seconds with PPS. -/
  | timeSet (h : Hdr) (timeNs : BitVec 64) (flags : BitVec 8)
  /-- TIME_SET_WITH_WARM_RESET (R179): With FLAGS[0] = 1, loads TIME_NS as the RTB seed and starts a warm reset. -/
  | timeSetWithWarmReset (h : Hdr) (timeNs : BitVec 64)
  /-- RTB_CFG (R517): Claims or releases the discipline source and sets the RTB discipline parameters. -/
  | rtbCfg (h : Hdr) (src port : BitVec 8) (srcto : BitVec 16) (holdover stepthr : BitVec 32) (lockthr slewmax : BitVec 16)
  /-- DOMAIN_POWER (R91): Switches a domain on or off after the refusal check of Table 4.4; a cluster switch-off waits for the master-frame boundary. -/
  | domainPower (h : Hdr) (dom on : BitVec 8)
  /-- HIBERNATE (R97): Refused with BUSY while work is active; otherwise completes, sets HIBERNATE and arms hibernate entry. -/
  | hibernate (h : Hdr) (wakeAt : BitVec 64) (flags : BitVec 8)
  /-- IMAGE_SLOT_ERASE (R179): Erases 64 KiB of the slot that is not in use. -/
  | imageSlotErase (h : Hdr) (slot : BitVec 8) (offset len : BitVec 32)
  /-- IMAGE_SLOT_WRITE (R179): Writes LEN data bytes into the slot that is not in use. -/
  | imageSlotWrite (h : Hdr) (slot : BitVec 8) (offset len : BitVec 32) (data : List Byte)
  /-- IMAGE_SLOT_VERIFY (R179): Applies the checks of R127 and EXT_DIGEST to the whole slot in flash. -/
  | imageSlotVerify (h : Hdr) (slot : BitVec 8) (offset len : BitVec 32)
  /-- IMAGE_SLOT_SET_ACTSLOT (R179): Sets ACTSLOT to a slot that has passed verify since it was last written. -/
  | imageSlotSetActslot (h : Hdr) (slot : BitVec 8) (offset len : BitVec 32)
  /-- SECMIN_RAISE (R179): Raises the SECMIN fuse thermometer, refusing values not above SECMIN or above the SECVER in use. -/
  | secminRaise (h : Hdr) (value : BitVec 8)
  /-- KEY_REVOKE (R179): Blows the revocation fuse of key slot 1 or 2 unless R126 forbids it. -/
  | keyRevoke (h : Hdr) (slot : BitVec 8)
  /-- LIFECYCLE_TO_FIELD (R130): Moves a PROVISIONED part to FIELD after checking UID_LO; takes effect at the next S1. -/
  | lifecycleToField (h : Hdr) (m : LcMove)
  /-- LIFECYCLE_TO_RETURN (R561): Checks the signed return token, clears ledger, digest, shadow and SRTP keys, and blows the RETURN fuses. -/
  | lifecycleToReturn (h : Hdr) (uidLo : BitVec 32) (token : Token)
  /-- FUSE_PROG (R179): Programs board options, kernel key hash or subsystem IDs in the customer fuse region in PROVISIONED only. -/
  | fuseProg (h : Hdr) (field : BitVec 8) (data : List Byte)
  /-- BOOT_OPTIONS (R128): Writes the boot options ETH_EN, PLC_EN, HOSTIF and DDRSPEED of the configuration digest. -/
  | bootOptions (h : Hdr) (ethEn plcEn hostif ddrspeed : BitVec 8)
  /-- CONFIG_COMMIT (R128): Writes the configuration shadow, its digest and length, then increments GEN. -/
  | configCommit (h : Hdr)
  /-- ADMIT_CFG (R181): Sets EMERG_RESERVE for channel admission. -/
  | admitCfg (h : Hdr) (reserve : BitVec 16)
  /-- CH_CREATE (R285): Creates a channel context in state CREATED with the given codec, PTIME, echo tail, jitter buffer, PRIO and flags. -/
  | chCreate (h : Hdr) (chan : BitVec 16) (p : ChParams)
  /-- CH_ACTIVATE (R286): Binds the local side, admits the channel against capacity and assigns a core and phase. -/
  | chActivate (h : Hdr) (chan : BitVec 16) (inB outB : BitVec 32)
  /-- CH_MODIFY (R181): Changes the selected channel fields, effective at the channel's first frame boundary after the next commit. -/
  | chModify (h : Hdr) (chan mask : BitVec 16) (p : ChParams)
  /-- CH_DEACTIVATE (R284): Returns an ACTIVE channel to CREATED. -/
  | chDeactivate (h : Hdr) (chan : BitVec 16)
  /-- CH_DELETE (R284): Frees a CREATED channel that has no group, recorder or kernel. -/
  | chDelete (h : Hdr) (chan : BitVec 16)
  /-- CH_STATS (R297): Returns the 128-byte channel statistics, clearing the counters when FLAGS[0] is 1. -/
  | chStats (h : Hdr) (chan : BitVec 16) (flags : BitVec 8)
  /-- TONE_GEN (R295): Starts or stops a generated tone on the local side, the network side or both. -/
  | toneGen (h : Hdr) (chan : BitVec 16) (dir toneset tone : BitVec 8) (dur : BitVec 16)
  /-- TONESET_LOAD (R295): Loads a tone set of up to 16 tone records. -/
  | tonesetLoad (h : Hdr) (toneset : BitVec 8) (defn : List Byte)
  /-- GROUP_CREATE (R299): Creates a mixer group, effective at the schedule commit. -/
  | groupCreate (h : Hdr) (group maxl : BitVec 16) (mix prio : BitVec 8)
  /-- GROUP_JOIN (R299): Adds a channel to a group as talker or listener with a gain. -/
  | groupJoin (h : Hdr) (group chan : BitVec 16) (role gain : BitVec 8)
  /-- GROUP_LEAVE (R299): Removes a channel from a group. -/
  | groupLeave (h : Hdr) (group chan : BitVec 16)
  /-- GROUP_DELETE (R181): Removes a group at the schedule commit. -/
  | groupDelete (h : Hdr) (group : BitVec 16)
  /-- REC_START (R301): Starts a recorder fork of a channel into host buffers, taking the recorder Topaz context if needed. -/
  | recStart (h : Hdr) (chan : BitVec 16) (queue : BitVec 8) (segMs : BitVec 16) (bufaddr : BitVec 64) (buflen : BitVec 32) (nbuf : BitVec 16)
  /-- REC_STOP (R301): Stops a recorder and returns its last segment number. -/
  | recStop (h : Hdr) (rec : BitVec 16)
  /-- EMERG_RULE (R300): Defines or enables an emergency rule that Onyx applies without the host. -/
  | emergRule (h : Hdr) (rule trigger : BitVec 8) (src : BitVec 32) (group : BitVec 16) (flags : BitVec 8)
  /-- PORT_CFG (R309): Sets an Ethernet port's mode, maximum frame, PAUSE, SST and timers. -/
  | portCfg (h : Hdr) (port mode : BitVec 8) (maxframe : BitVec 16) (flags : BitVec 8) (hold settle age pauseWd : BitVec 16)
  /-- PORT_ENABLE (R337): PORT_STATE action 1: brings up a DISABLED port and enters UP at link up. -/
  | portEnable (h : Hdr) (port : BitVec 8)
  /-- PORT_DISABLE (R337): PORT_STATE action 0: ends held items as at hold expiry, forces the link down and enters DISABLED. -/
  | portDisable (h : Hdr) (port : BitVec 8)
  /-- PORT_OUT_OF_SERVICE (R496): PORT_STATE action 2: forces the link down, treats it as link loss and ends in OUT_OF_SERVICE. -/
  | portOutOfService (h : Hdr) (port : BitVec 8)
  /-- PORT_RETURN (R496): PORT_STATE action 3: returns a port through SETTLING, with FINAL written at link up. -/
  | portReturn (h : Hdr) (port : BitVec 8)
  /-- FLOW_ADD (R321): Adds a flow table entry with its match key, channel, PRIO, egress and flags. -/
  | flowAdd (h : Hdr) (flow : BitVec 16) (kind portIn : BitVec 8) (vlan chan linkchan : BitVec 16) (prio egress flags : BitVec 8) (mtch : List Byte)
  /-- FLOW_TX (R325): Loads the transmit header template of a flow. -/
  | flowTx (h : Hdr) (flow : BitVec 16) (tlen : BitVec 8) (template : List Byte)
  /-- FLOW_DEL (R322): Removes a flow table entry. -/
  | flowDel (h : Hdr) (flow : BitVec 16)
  /-- SRTP_KEY (R329): Installs an SRTP key and salt for one direction of a flow, keeping the old receive key for 2 s. -/
  | srtpKey (h : Hdr) (flow : BitVec 16) (dir suite kdr : BitVec 8) (roc : BitVec 32) (keylen saltlen : BitVec 8) (key : List Byte)
  /-- PRP_PAIR (R332): Joins two ports of the same mode into a PRP pair with a duplicate window. -/
  | prpPair (h : Hdr) (pair portA portB : BitVec 8) (window : BitVec 16)
  /-- PTP_CFG (R335): Configures the PTP slave on a port: one-step, domain and sync interval. -/
  | ptpCfg (h : Hdr) (port flags domain logsync : BitVec 8)
  /-- ASSURED_SEND (R183): Accepts an assured message on an assured flow and completes once it is delivered. -/
  | assuredSend (h : Hdr) (flow len : BitVec 16) (payload : List Byte)
  /-- NET_STATS (R342): Returns flow, PRP pair or port counters, clearing them when FLAGS[0] is 1. -/
  | netStats (h : Hdr) (port : BitVec 8) (flow : BitVec 16) (flags : BitVec 8)
  /-- PLC_PORT_CFG (R351): Sets a PLC port's link mode, role, network, band plan, zero-crossing mode, K, PHASE and TXLEVEL. -/
  | plcPortCfg (h : Hdr) (port linkmode role : BitVec 8) (netid node : BitVec 16) (bandplan : BitVec 8) (cstart cend : BitVec 16) (zcmode k : BitVec 8) (phase : BitVec 16) (txlevel : BitVec 8)
  /-- PLC_PORT_OUT_OF_SERVICE (R495): PLC_PORT_STATE action 0: takes the port out of service and releases its claims. -/
  | plcPortOutOfService (h : Hdr) (port : BitVec 8)
  /-- PLC_PORT_IN_SERVICE (R497): PLC_PORT_STATE action 1: claims the Opal slot, calibrates, then joins or starts superframes. -/
  | plcPortInService (h : Hdr) (port : BitVec 8)
  /-- PLC_SLOTMAP (R383): Checks and accepts a slot map at the coordinator or master and distributes it under a new SMGEN. -/
  | plcSlotmap (h : Hdr) (port : BitVec 8) (map : List Byte)
  /-- PLC_JOIN (R389): Listens for beacons, sends JOIN_REQ and completes when JOINED with the map. -/
  | plcJoin (h : Hdr) (port : BitVec 8) (netid node : BitVec 16)
  /-- PLC_LEAVE (R391): Leaves the powerline network, freeing the node address. -/
  | plcLeave (h : Hdr) (port : BitVec 8)
  /-- PLC_ROUTE (R395): Fixes a relay chain to a destination node. -/
  | plcRoute (h : Hdr) (port : BitVec 8) (dest : BitVec 16) (nrelay : BitVec 8) (relays : List (BitVec 16))
  /-- FALLOVER_CFG (R401): Pairs an ETH port with a PLC port and sets automatic fallover and return. -/
  | falloverCfg (h : Hdr) (ethport plcport flags : BitVec 8)
  /-- FALLOVER_TO_POWERLINE (R401): FALLOVER action 0: moves priority-0 voice and assured flows of the ETH port to the powerline. -/
  | falloverToPowerline (h : Hdr) (ethport : BitVec 8)
  /-- FALLOVER_BACK_TO_ETHERNET (R402): FALLOVER action 1: moves flows back to Ethernet and releases the emergency slot. -/
  | falloverBackToEthernet (h : Hdr) (ethport : BitVec 8)
  /-- PLC_STATS (R407): Returns the PLC port counters and neighbour table, clearing when FLAGS[0] is 1. -/
  | plcStats (h : Hdr) (port flags : BitVec 8)
  /-- SSC_SLOT_CFG (R410): Configures an Opal slot's source, preset or ratio, rank filter, phase, shifts and channel. -/
  | sscSlotCfg (h : Hdr) (slot src preset : BitVec 8) (ratio : BitVec 16) (median phase : BitVec 8) (shift : BitVec 32) (chan : BitVec 16)
  /-- SSC_COEF (R415): Loads FIR coefficients into the idle bank, switching at once or by cross-fade. -/
  | sscCoef (h : Hdr) (slot : BitVec 8) (taps fade : BitVec 16) (flags : BitVec 8) (coefs : List (BitVec 24))
  /-- SSC_THRESH (R419): Sets and arms one threshold comparator of a slot. -/
  | sscThresh (h : Hdr) (slot idx : BitVec 8) (level hyst : BitVec 24) (flags : BitVec 8)
  /-- SSC_SLOT_ENABLE (R418): SSC_SLOT_STATE action 1: enables a slot and starts settling. -/
  | sscSlotEnable (h : Hdr) (slot : BitVec 8)
  /-- SSC_SLOT_DISABLE (R185): SSC_SLOT_STATE action 0: disables a slot. -/
  | sscSlotDisable (h : Hdr) (slot : BitVec 8)
  /-- TDM_PORT_CFG (R421): Sets a TDM port's rate, mapped slots and clocking and framing flags. -/
  | tdmPortCfg (h : Hdr) (port rate flags slots : BitVec 8)
  /-- TDM_SLOTMAP (R423): Loads a TDM port's slot-map entries. -/
  | tdmSlotmap (h : Hdr) (port n : BitVec 8) (entries : List (BitVec 32))
  /-- TDM_PORT_ENABLE (R425): TDM_PORT_STATE action 1: starts the port; FINAL follows 16 frames later with ALIGN. -/
  | tdmPortEnable (h : Hdr) (port : BitVec 8)
  /-- TDM_PORT_DISABLE (R425): TDM_PORT_STATE action 0: stops the port. -/
  | tdmPortDisable (h : Hdr) (port : BitVec 8)
  /-- SSC_STATUS (R185): Returns the status words of a slot or port without clearing them. -/
  | sscStatus (h : Hdr) (kind index : BitVec 8)
  /-- TPZ_CTX_ALLOC (R186): Allocates a named or any free Topaz context to the host. -/
  | tpzCtxAlloc (h : Hdr) (ctx : BitVec 8)
  /-- TPZ_JOB_DEFLATE (R441): Submits a deflate job on a context with wrapper, effort and optional verification. -/
  | tpzJobDeflate (h : Hdr) (ctx wrap effort flags : BitVec 8) (src : BitVec 64) (srclen : BitVec 32) (chain : BitVec 64) (nchain : BitVec 16)
  /-- TPZ_JOB_INFLATE (R443): Submits an inflate job on a context with a raw, zlib or gzip wrapper. -/
  | tpzJobInflate (h : Hdr) (ctx wrap effort flags : BitVec 8) (src : BitVec 64) (srclen : BitVec 32) (chain : BitVec 64) (nchain : BitVec 16)
  /-- TPZ_CTX_SAVE (R450): Writes a 36,864-byte image of a context to host memory. -/
  | tpzCtxSave (h : Hdr) (ctx : BitVec 8) (addr : BitVec 64)
  /-- TPZ_CTX_RESTORE (R450): Checks a saved image and replaces the context's window and state from it. -/
  | tpzCtxRestore (h : Hdr) (ctx : BitVec 8) (addr : BitVec 64) (image : Dma)
  /-- TPZ_CTX_FREE (R186): Frees a host Topaz context. -/
  | tpzCtxFree (h : Hdr) (ctx : BitVec 8)
  /-- AGT_RUN (R461): Starts a sliced field test of an out-of-service macro, core or domain. -/
  | agtRun (h : Hdr) (target : BitVec 8) (index : BitVec 16) (alg : BitVec 8) (slice : BitVec 16)
  /-- AGT_RESULTS (R474): Returns a kept Agate results record and its repair plan. -/
  | agtResults (h : Hdr) (result : BitVec 16)
  /-- AGT_REPAIR_SOFT (R466): Applies a result's repair plan as soft mappings. -/
  | agtRepairSoft (h : Hdr) (result : BitVec 16)
  /-- AGT_REPAIR_FUSE (R469): Writes a soft-applied plan into the fuse store, with a signed repair token where required. -/
  | agtRepairFuse (h : Hdr) (result : BitVec 16) (token : Token)
  /-- CORE_OUT_OF_SERVICE (R492): CORE_SERVICE action 0: moves a core's channels within its cluster and takes it out of service. -/
  | coreOutOfService (h : Hdr) (core : BitVec 8)
  /-- CORE_RETURN (R491): CORE_SERVICE action 1: tests if needed and returns a core as STANDBY at the next commit. -/
  | coreReturn (h : Hdr) (core : BitVec 8)
  /-- CORE_RETIRE (R492): CORE_SERVICE action 2: records a faulted, out-of-service or excluded core in RETIRED. -/
  | coreRetire (h : Hdr) (core : BitVec 8)
  /-- REBALANCE (R188): Moves channels from one core to another of the same cluster at their frame boundaries. -/
  | rebalance (h : Hdr) (fromC toC : BitVec 8) (count : BitVec 16)
  /-- REG_READ (R189): Reads block registers for diagnostics, clearing RC fields when FLAGS[0] is 1. -/
  | regRead (h : Hdr) (block flags : BitVec 8) (offset count : BitVec 16)
  /-- COUNTERS (R190): Returns a counter group, clearing it when FLAGS[0] is 1. -/
  | counters (h : Hdr) (group : BitVec 8) (index : BitVec 16) (flags : BitVec 8)
  /-- JOURNAL_READ (R501): Returns fault journal records from a sequence number. -/
  | journalRead (h : Hdr) (fromSeq : BitVec 32) (max : BitVec 16)
  /-- PVL_READ (R502): Returns Protocol Violation Log records from an index. -/
  | pvlRead (h : Hdr) (fromIdx : BitVec 32) (max : BitVec 16)
  /-- BOOTLEDGER_READ (R189): Returns the 4 KiB boot ledger. -/
  | bootledgerRead (h : Hdr)
  /-- NOTIFY_CFG (R191): Sets the mask of notification codes written. -/
  | notifyCfg (h : Hdr) (mask : BitVec 32)
  /-- LOG_EXPORT (R189): Compresses the journal or violation log into host memory through Topaz. -/
  | logExport (h : Hdr) (log : BitVec 8) (fromSeq : BitVec 32) (addr : BitVec 64) (len : BitVec 32) (wrap : BitVec 8)
  /-- ECHO (R189): Returns its parameter bytes unchanged. -/
  | echo (h : Hdr) (data : List Byte)
  /-- KRN_LOAD (R192): Verifies a signed kernel image and places it in matching IMEM and DMEM windows on every core. -/
  | krnLoad (h : Hdr) (kid : BitVec 8) (addr : BitVec 64) (len : BitVec 32) (image : Dma)
  /-- KRN_BIND (R307): Binds a kernel to a stage of a channel, adding an admitted KRN job. -/
  | krnBind (h : Hdr) (kid : BitVec 8) (chan : BitVec 16) (stage : BitVec 8)
  /-- KRN_UNBIND (R192): Removes a kernel binding from a channel. -/
  | krnUnbind (h : Hdr) (kid : BitVec 8) (chan : BitVec 16)
  /-- KRN_UNLOAD (R192): Removes an unbound kernel and frees its windows. -/
  | krnUnload (h : Hdr) (kid : BitVec 8)
  /-- KRN_STATUS (R308): Returns a kernel's state, fault count, cause and core. -/
  | krnStatus (h : Hdr) (kid : BitVec 8)
  /-- COMMAND_ACCEPT (R146): Onyx checks a fetched command, refuses it with a FINAL entry or commits its ledger entry. -/
  | commandAccept
  /-- HB_SQDB (R144): Doorbell write: checks epoch, ownership and window, records TAILSEQ, or stops the queue. -/
  | hbSqdb (q : Fin 4) (value : BitVec 32)
  /-- HB_CQHEAD (R151): HEAD write acknowledges completion entries and retires commands. -/
  | hbCqhead (q : Fin 4) (value : BitVec 32)
  /-- HB_HEARTBEAT (R157): Host writes a heartbeat value; a changed value ends HOST_ABSENT. -/
  | hbHeartbeat (value : BitVec 32)
  /-- HB_SEGACK (R152): Host acknowledges recorder segments up to a number, releasing their ledger entries. -/
  | hbSegack (value : BitVec 32)
  /-- HB_CQCFG_ENABLE (R147): Setting EN resets the device's write index to 0 and PHASE to 1. -/
  | hbCqcfgEnable (q : Fin 4) (value : BitVec 32)
  /-- HB_CTRL_RUN (R162): RUN written 1 lets rings be served and restarts a queue stopped by HB_QERR. -/
  | hbCtrlRun (value : BitVec 32)
  /-- REGISTER_WRITE (R9): A write to a register with no row of its own, applied under its access code. -/
  | registerWrite (block : BitVec 8) (offset : BitVec 16) (size : BitVec 8) (value : BitVec 32)
  /-- RC_REGISTER_READ (R9): A read of an RC field returns its value and clears it. -/
  | rcRegisterRead (block : BitVec 8) (offset : BitVec 16)
  /-- RTB_NOW_LO_READ (R64): A read of RTB_NOW_LO latches RTB_NOW_HI and RTB_NOW_FRAC. -/
  | rtbNowLoRead
  /-- LATCHING_LO_READ (R78): A read of CLK_AO_CNT_LO, CLK_USEC_LO or CLK_ZCn_LAST_LO latches its HI register. -/
  | latchingLoRead (offset : BitVec 16)
  /-- PWR_SCRUB_UECNT_READ (R95): A read returns the uncorrectable-word count and frees all eight index registers. -/
  | pwrScrubUecntRead
  /-- SUBMISSION_FETCH (R145): Host DMA fetches the next submission entry by queue priority and sends it to Onyx as a command item. -/
  | submissionFetch (q : Fin 4) (entry params : Dma)
  /-- COMPLETION_WRITE (R148): The device writes a held completion entry once the ring has room, then the result, then signals. -/
  | completionWrite (q : Fin 4) (ok : Bool)
  /-- CQ_IRQ_DELAY_EXPIRY (R155): HB_CQIRQ_n.DELAY expires after the first unsignalled entry and the vector is signalled. -/
  | cqIrqDelayExpiry (q : Fin 4)
  /-- HOST_LINK_RESET (R160): Hot reset, link down, FLR, PERST_N or D3hot to D0: DMA stops, unaccepted commands are discarded and the epoch increments. -/
  | hostLinkReset (kind : LinkResetKind)
  /-- PCIE_LINK_UP (R110): The PCI Express link trains up after S4 DONE and PERST_N release. -/
  | pcieLinkUp
  /-- HEARTBEAT_PERIOD_END (R157): At each heartbeat period the device compares HB_HEARTBEAT and counts a miss. -/
  | heartbeatPeriodEnd
  /-- DEVBEAT_INCREMENT (R141): Onyx increments HB_DEVBEAT every 100 ms. -/
  | devbeatIncrement
  /-- MSPI_REG_READ (R164): MSPI transaction reading an HB_ register. -/
  | mspiRegRead (offset : BitVec 16)
  /-- MSPI_REG_WRITE (R164): MSPI transaction writing an HB_ register. -/
  | mspiRegWrite (offset : BitVec 16) (value : BitVec 32)
  /-- SUBMIT (R164): MSPI SUBMIT writes an entry to an on-chip submission ring and acts as its doorbell. -/
  | submit (q : BitVec 8) (entry params : List Byte)
  /-- FETCH_CQ (R164): MSPI FETCH_CQ returns the next completion entry at the read cursor and advances it. -/
  | fetchCq (q : BitVec 8)
  /-- RESYNC (R165): MSPI RESYNC is a host link reset of the MSPI-owned queues and returns the new epoch. -/
  | resync
  /-- MSPI_BAD_REQUEST (R164): An MSPI request with a CRC error, unknown OP or bad LEN is answered with an error status and not acted on. -/
  | mspiBadRequest (crcOk : Bool)
  /-- POR (R104): VDD_AO first applied or below its threshold resets the whole device. -/
  | por
  /-- COLD_RESET (R104): RESET_N held low resets the whole device except the eFuse array. -/
  | coldReset
  /-- WARM_RESET (R107): Stops dispatch, seals the ledger, hands DDR to self-refresh, revokes leases, cycles PD_CTRL and runs the warm boot. -/
  | warmReset (cause : BitVec 8) (ddrConfirmed : Bool)
  /-- DOMAIN_RESET (R106): Switches one domain off and on again. -/
  | domainReset (dom : Fin 12)
  /-- AO_POWER_GOOD (R109): S0: after VDD_AO power-good is held 1 ms, CORE_EN rises and the core ramp begins. -/
  | aoPowerGood
  /-- CORE_RAMP_END (R565): End of PWR_CORERAMP: CK_REF monitor armed, CLK_USEC advanced, PD_CTRL switched on and PLLs enabled. -/
  | coreRampEnd
  /-- FUSE_AND_LIFE_CYCLE_READ (R121): S1: fuse image to shadow, life cycle decoded, boot ledger header updated. -/
  | fuseAndLifeCycleRead
  /-- AGATE_TEST_OF_MEMORIES (R459): S2: Agate march-tests PD_AO and PD_CTRL memories, or reads Beryl through ECC in the warm form. -/
  | agateTestOfMemories (v : Verdict) (found : MarchFound) (ueWords : List Nat) (shadowUe : Bool)
  /-- SOFT_REPAIR_LOAD (R109): S3: repairs found at S2 merged into the fuse shadow and memories remapped. -/
  | softRepairLoad (v : Verdict)
  /-- ONYX_ROM_START (R110): S4: IMEM and DMEM in use, PD_HOST on, PCIe and MSPI enabled, xSPI initialised. -/
  | onyxRomStart (v : Verdict) (comparatorOk : Bool)
  /-- IMAGE_READ_AND_SIGNATURE_CHECK (R127): S5: the ROM reads and verifies an image in the attempt order of R113 or NEXTSLOT. -/
  | imageReadAndSignatureCheck (readOk : Bool)
  /-- DDR_TRAINING (R114): S6: PD_MEM on, self-refresh exit or training by the methods in order, then the extension part checked. -/
  | ddrTraining (v : Verdict) (timeout extReadOk : Bool)
  /-- GARNET_CLUSTER_TEST (R115): S7: clusters on and tested, failing cores excluded, failing clusters powered off. -/
  | garnetClusterTest (mem : MarchFound) (found : ClusterFound)
  /-- SERDES_BRING_UP (R109): S8: PD_NET on and enabled ports brought up. -/
  | serdesBringUp (failPorts : List Nat)
  /-- PLC_FRONT_END_CALIBRATION (R349): S9: PD_PLC on and enabled PLC ports calibrated. -/
  | plcFrontEndCalibration (failPorts : List Nat) (rxdly txdly : BitVec 16)
  /-- LEDGER_REPLAY (R209): S10: configuration restored and every LIVE ledger entry replayed in LSN order. -/
  | ledgerReplay (r : ReplayRun)
  /-- HOST_LINK (R117): S11: rings opened and host epoch set; done at link up, valid MSPI traffic or NO_HOST after 30 s. -/
  | hostLink
  /-- READY (R109): S12: HB_STATE set to READY or DEGRADED and LAST_DONE recorded. -/
  | bootReady (v : Verdict)
  /-- BOOT_WATCHDOG_EXPIRY (R111): A boot step's timeout expires, a TIMEOUT record is written and the step's failure policy applies. -/
  | bootWatchdogExpiry
  /-- DOMAIN_SWITCH_ON (R86): PWR_DOM_REQ with ON 1 queues a switch-on that closes header switches in stages. -/
  | domainSwitchOn (dom : BitVec 4)
  /-- DOMAIN_SWITCH_OFF (R86): PWR_DOM_REQ with ON 0 queues a switch-off: clocks gated, isolation and reset asserted, switches opened. -/
  | domainSwitchOff (dom : BitVec 4)
  /-- DOMAIN_POWER_GOOD (R86): A domain's power-good asserts; repairs reload, isolation and reset release, clocks ungate and the domain is marked ON. -/
  | domainPowerGood
  /-- DOMAIN_POWER_GOOD_TIMEOUT (R88): Power-good absent 32 µs after the last stage: switches opened, domain FAULT. -/
  | domainPowerGoodTimeout
  /-- DOMAIN_SWITCH_COMPLETE (R85): A switch ends and the power controller takes the next queued request. -/
  | domainSwitchComplete
  /-- PLL_LOCK (R53): An enabled PLL locks and CLK_STATUS.LOCK is set. -/
  | pllLock (pll : Fin 10)
  /-- PLL_UNLOCK (R477): A PLL loses lock and the response of its index applies. -/
  | pllUnlock (pll : Fin 10)
  /-- PLL_RELOCK_ATTEMPT (R477): One relock attempt of a cluster PLL 1 s after its loss. -/
  | pllRelockAttempt (pll : Fin 10) (locks : Bool)
  /-- CK_REF_LOSS (R56): Two CK_AO periods without a CK_REF edge set REFLOSS, stop RTB and enter SAFE. -/
  | ckRefLoss
  /-- CK_REF_RETURN (R558): CK_REF returns in SAFE: CLK_USEC advanced and RTB resumes from its held value. -/
  | ckRefReturn
  /-- AUD_FALLBACK (R57): No AUD_CLK edge for 1 µs switches CK_AUD to PLL_AUD and sets AUDFB. -/
  | audFallback
  /-- HIBERNATE_GO (R100): A write of PWR_HIB_CTL.GO arms the wake logic and requests entry at the next master-frame boundary. -/
  | hibernateGo (value : BitVec 32)
  /-- HIBERNATE_ENTRY (R98): At the master-frame boundary domains are switched off in order, DDR handed to self-refresh, and CORE_EN driven low. -/
  | hibernateEntry (ddrConfirmed : Bool)
  /-- WAKE_N_LOW (R99): WAKE_N held low for two CK_AO samples wakes the device, or is latched during entry. -/
  | wakeNLow
  /-- WAKE_TIMER_MATCH (R99): CLK_AO_CNT reaches PWR_WAKE_AT with TIMER_EN set and wakes the device. -/
  | wakeTimerMatch
  /-- SCRUB_ADVANCE (R94): Every INTERVAL CK_AO periods the scrubber reads and corrects one Beryl word. -/
  | scrubAdvance (corrected uncorrectable : Bool)
  /-- DISCIPLINE_UPDATE (R67): The servo applies an offset measurement: RTB_ADJ written, frequency corrected, state advanced. -/
  | disciplineUpdate (offset : Int)
  /-- PPS_EDGE (R65): The selected PPS_IN edge is stamped for a PPS offset measurement. -/
  | ppsEdge (edge : PinEdge)
  /-- RTB_SOURCE_TIMEOUT (R66): No update for RTB_SRCTO moves discipline to HOLDOVER and sets SRC_LOST. -/
  | rtbSourceTimeout
  /-- RTB_HOLDOVER_EXPIRY (R69): RTB_HOLDOVER expires and the state becomes FREE. -/
  | rtbHoldoverExpiry
  /-- RTB_CMD_STEP (R68): A write of RTB_CMD.STEP adds RTB_STEP to RTB at the next CK_FAB edge. -/
  | rtbCmdStep
  /-- RTB_ADJ_WRITE (R67): A write of RTB_ADJ replaces the offset to be slewed out. -/
  | rtbAdjWrite (value : BitVec 32)
  /-- SLEW_COMPLETE (R67): The RTB_ADJ offset is consumed and the slew ends. -/
  | slewComplete
  /-- RTB_ADDEND_WRITE (R67): A write of RTB_ADDEND_HI applies the addend, clamped to ±1,000 ppm. -/
  | rtbAddendWrite (hi : BitVec 32)
  /-- ANCHOR_RENEWAL (R72): Each second the RTB anchor pair and addend are renewed. -/
  | anchorRenewal
  /-- ZERO_CROSSING (R75): An accepted ZC edge is stamped, tracks the period and advances the ZC state. -/
  | zeroCrossing (zc : Fin 4) (edge : ZcEdge)
  /-- SYNTHETIC_CROSSING (R75): No edge in the window, or DC mode, generates a synthetic crossing at the predicted time. -/
  | syntheticCrossing (zc : Fin 4)
  /-- TICK_BOUNDARY (R287): At each TICK the dispatcher commits frames, issues jobs and Opal and TDM send their blocks. -/
  | tickBoundary
  /-- MASTER_FRAME_BOUNDARY (R290): The committed schedule takes effect, with clock changes and pending segment commits. -/
  | masterFrameBoundary
  /-- SCHEDULE_COMMIT (R250): Onyx commits a schedule that satisfies the cycle budget, placing accepted commands. -/
  | scheduleCommit
  /-- FROZEN_SCHEDULE_LIMIT (R20): 64 master frames without a commit stop job issue and enter SAFE. -/
  | frozenScheduleLimit
  /-- URGENT_LANE_ISSUE (R289): A PASSTHRU job is issued at the first job boundary after its input is complete. -/
  | urgentLaneIssue (core : Fin 48) (chan : BitVec 13)
  /-- JOB_WATCHDOG_EXPIRY (R251): 250 µs after job entry the job is stopped, WDOG recorded and outputs not committed. -/
  | jobWatchdogExpiry (core : Fin 48)
  /-- NOP (R257): Garnet instruction doing nothing. -/
  | nopG (c : Fin 48)
  /-- END (R257): Waits for every Spinel list to end, then ends the job. -/
  | endJob (c : Fin 48)
  /-- RTE (R271): Restores IE and USR from ESTAT and continues at EPC. -/
  | rte (c : Fin 48)
  /-- BREAK (R257): Raises exception BREAK with the immediate as DETAIL. -/
  | brk (c : Fin 48) (imm : BitVec 8)
  /-- SPW (R257): Waits until Spinel list n is not BUSY. -/
  | spw (c : Fin 48) (n : BitVec 2)
  /-- SPWA (R257): Waits until no Spinel list is BUSY. -/
  | spwa (c : Fin 48)
  /-- LEAVE (R267): Pops the innermost hardware loop level. -/
  | leave (c : Fin 48)
  /-- MPY (R242): Dual MAC multiply into accumulators, with parallel moves. -/
  | mpy (c : Fin 48) (m : MacU) (pos : MacPos) (pm1 pm2 : PMove)
  /-- MAC (R242): Dual multiply-accumulate into accumulators, with parallel moves. -/
  | macD (c : Fin 48) (m : MacU) (pos : MacPos) (pm1 pm2 : PMove)
  /-- MSU (R242): Dual multiply-subtract from accumulators, with parallel moves. -/
  | msu (c : Fin 48) (m : MacU) (pos : MacPos) (pm1 pm2 : PMove)
  /-- MOVP (R259): Parallel moves only. -/
  | movp (c : Fin 48) (pm1 pm2 : PMove)
  /-- CLRA (R257): Clears an accumulator. -/
  | clra (c : Fin 48) (ad : BitVec 2) (pm1 pm2 : PMove)
  /-- MOVA (R257): Copies one accumulator to another. -/
  | mova (c : Fin 48) (ad as' : BitVec 2) (pm1 pm2 : PMove)
  /-- ADDA (R242): Adds accumulators, wrapping and setting GOV and flags. -/
  | adda (c : Fin 48) (ad as' : BitVec 2) (pm1 pm2 : PMove)
  /-- SUBA (R242): Subtracts accumulators, wrapping and setting GOV and flags. -/
  | suba (c : Fin 48) (ad as' : BitVec 2) (pm1 pm2 : PMove)
  /-- NEGA (R242): Negates an accumulator. -/
  | nega (c : Fin 48) (ad as' : BitVec 2) (pm1 pm2 : PMove)
  /-- ABSA (R257): Absolute value of an accumulator. -/
  | absa (c : Fin 48) (ad as' : BitVec 2) (pm1 pm2 : PMove)
  /-- CMPA (R257): Sets flags from the difference of two accumulators. -/
  | cmpa (c : Fin 48) (ad as' : BitVec 2) (pm1 pm2 : PMove)
  /-- TSTA (R257): Sets flags from an accumulator. -/
  | tsta (c : Fin 48) (as' : BitVec 2) (pm1 pm2 : PMove)
  /-- MAXA (R257): Lane-wise accumulator maximum. -/
  | maxa (c : Fin 48) (ad as' : BitVec 2) (pm1 pm2 : PMove)
  /-- MINA (R257): Lane-wise accumulator minimum. -/
  | mina (c : Fin 48) (ad as' : BitVec 2) (pm1 pm2 : PMove)
  /-- ASLA (R257): Arithmetic left shift of an accumulator by an immediate. -/
  | asla (c : Fin 48) (ad as' : BitVec 2) (k : BitVec 6) (pm1 pm2 : PMove)
  /-- ASRA (R257): Arithmetic right shift of an accumulator by an immediate. -/
  | asra (c : Fin 48) (ad as' : BitVec 2) (k : BitVec 6) (pm1 pm2 : PMove)
  /-- ASHA (R257): Shifts each accumulator lane by a signed register lane. -/
  | asha (c : Fin 48) (ad as' : BitVec 2) (r : BitVec 4) (pm1 pm2 : PMove)
  /-- LDAH (R257): Loads an accumulator lane from a register lane scaled by 2^24. -/
  | ldah (c : Fin 48) (ad : BitVec 2) (r : BitVec 4) (pm1 pm2 : PMove)
  /-- ADDAR (R257): Adds a scaled register lane to an accumulator. -/
  | addar (c : Fin 48) (ad : BitVec 2) (r : BitVec 4) (pm1 pm2 : PMove)
  /-- SUBAR (R257): Subtracts a scaled register lane from an accumulator. -/
  | subar (c : Fin 48) (ad : BitVec 2) (r : BitVec 4) (pm1 pm2 : PMove)
  /-- STAH (R243): Moves the high form of an accumulator through the shifter to a register. -/
  | stah (c : Fin 48) (r : BitVec 4) (as' : BitVec 2) (pm1 pm2 : PMove)
  /-- STAL (R243): Moves the low form of an accumulator to a register. -/
  | stal (c : Fin 48) (r : BitVec 4) (as' : BitVec 2) (pm1 pm2 : PMove)
  /-- SATA (R257): Clamps accumulator lanes to ±2^47 and sets SOV when clamped. -/
  | sata (c : Fin 48) (ad as' : BitVec 2) (pm1 pm2 : PMove)
  /-- NRMA (R257): Counts the redundant sign bits of each accumulator lane. -/
  | nrma (c : Fin 48) (r : BitVec 4) (as' : BitVec 2) (pm1 pm2 : PMove)
  /-- ADD (R244): Lane-wise register add. -/
  | addR (c : Fin 48) (rd rs1 rs2 : BitVec 4) (pm1 pm2 : PMove)
  /-- SUB (R244): Lane-wise register subtract. -/
  | subR (c : Fin 48) (rd rs1 rs2 : BitVec 4) (pm1 pm2 : PMove)
  /-- NEG (R244): Lane-wise register negate. -/
  | negR (c : Fin 48) (rd rs1 : BitVec 4) (pm1 pm2 : PMove)
  /-- ABS (R244): Lane-wise register absolute value. -/
  | absR (c : Fin 48) (rd rs1 : BitVec 4) (pm1 pm2 : PMove)
  /-- CMP (R244): Sets flags from the difference of two registers. -/
  | cmpR (c : Fin 48) (rs1 rs2 : BitVec 4) (pm1 pm2 : PMove)
  /-- MAX (R257): Lane-wise register maximum. -/
  | maxR (c : Fin 48) (rd rs1 rs2 : BitVec 4) (pm1 pm2 : PMove)
  /-- MIN (R257): Lane-wise register minimum. -/
  | minR (c : Fin 48) (rd rs1 rs2 : BitVec 4) (pm1 pm2 : PMove)
  /-- AND (R257): Bitwise AND of registers. -/
  | andR (c : Fin 48) (rd rs1 rs2 : BitVec 4) (pm1 pm2 : PMove)
  /-- OR (R257): Bitwise OR of registers. -/
  | orR (c : Fin 48) (rd rs1 rs2 : BitVec 4) (pm1 pm2 : PMove)
  /-- XOR (R257): Bitwise XOR of registers. -/
  | xorR (c : Fin 48) (rd rs1 rs2 : BitVec 4) (pm1 pm2 : PMove)
  /-- NOT (R257): Bitwise NOT of a register. -/
  | notR (c : Fin 48) (rd rs1 : BitVec 4) (pm1 pm2 : PMove)
  /-- ASL (R257): Lane arithmetic left shift, obeying SAT. -/
  | asl (c : Fin 48) (rd rs1 : BitVec 4) (k : BitVec 6) (pm1 pm2 : PMove)
  /-- ASR (R257): Lane arithmetic right shift. -/
  | asr (c : Fin 48) (rd rs1 : BitVec 4) (k : BitVec 6) (pm1 pm2 : PMove)
  /-- LSR (R257): Lane logical right shift. -/
  | lsr (c : Fin 48) (rd rs1 : BitVec 4) (k : BitVec 6) (pm1 pm2 : PMove)
  /-- ASHV (R257): Shifts register lanes by signed register lanes. -/
  | ashv (c : Fin 48) (rd rs1 rs2 : BitVec 4) (pm1 pm2 : PMove)
  /-- SWAP (R257): Swaps the two lanes of a register. -/
  | swap (c : Fin 48) (rd rs1 : BitVec 4) (pm1 pm2 : PMove)
  /-- PACK (R257): Packs the L lanes of two registers into one. -/
  | pack (c : Fin 48) (rd rs1 rs2 : BitVec 4) (pm1 pm2 : PMove)
  /-- CLRX (R257): Clears a data register. -/
  | clrx (c : Fin 48) (rd : BitVec 4) (pm1 pm2 : PMove)
  /-- ADDSUB (R257): Adds in lane H and subtracts in lane L. -/
  | addsub (c : Fin 48) (rd rs1 rs2 : BitVec 4) (pm1 pm2 : PMove)
  /-- FTAP (R262): One filter tap accumulated on MAC0, moving a delay-line sample one place older. -/
  | ftap (c : Fin 48) (acc pair : BitVec 2) (pdat pcof : BitVec 3)
  /-- FTAPS (R262): One filter tap subtracted on MAC0, with the delay-line move. -/
  | ftaps (c : Fin 48) (acc pair : BitVec 2) (pdat pcof : BitVec 3)
  /-- FTAPZ (R262): First filter tap, setting the accumulator to the product, with the delay-line move. -/
  | ftapz (c : Fin 48) (acc pair : BitVec 2) (pdat pcof : BitVec 3)
  /-- LD (R260): Loads a register from DMEM or core I/O at the effective address. -/
  | ld (c : Fin 48) (reg : BitVec 6) (ea : EA) (ue : Bool)
  /-- ST (R260): Stores a register to DMEM or core I/O at the effective address. -/
  | st (c : Fin 48) (reg : BitVec 6) (ea : EA)
  /-- LDAW (R257): Loads one word of the three-word accumulator form. -/
  | ldaw (c : Fin 48) (n w : BitVec 2) (ea : EA) (ue : Bool)
  /-- STAW (R257): Stores one word of the three-word accumulator form. -/
  | staw (c : Fin 48) (n w : BitVec 2) (ea : EA)
  /-- LDI (R257): Loads an immediate into a register or lane. -/
  | ldi (c : Fin 48) (reg : BitVec 6) (lane : BitVec 2) (imm : BitVec 24)
  /-- ADDI (R257): Adds a signed immediate to Pn or Nn. -/
  | addi (c : Fin 48) (reg : BitVec 6) (imm : BitVec 24)
  /-- CMPI (R257): Sets flags from each lane less a signed immediate. -/
  | cmpi (c : Fin 48) (reg : BitVec 6) (imm : BitVec 24)
  /-- MOVE (R255): Moves one register to another. -/
  | moveR (c : Fin 48) (rd rs : BitVec 6)
  /-- BRA (R263): Branches with one delay slot. -/
  | bra (c : Fin 48) (target : BitVec 16)
  /-- BCC (R263): Branches on a condition with one delay slot. -/
  | bcc (c : Fin 48) (cond : BitVec 4) (target : BitVec 16)
  /-- BRL (R263): Branches and writes the return address to Pn. -/
  | brl (c : Fin 48) (pn : BitVec 3) (target : BitVec 16)
  /-- JMP (R263): Branches to Pn[15:0]. -/
  | jmp (c : Fin 48) (pn : BitVec 3)
  /-- DO (R266): Starts a hardware loop level with its count from a register. -/
  | doLoop (c : Fin 48) (reg : BitVec 6) (le : BitVec 16)
  /-- DOI (R266): Starts a hardware loop level with an immediate count. -/
  | doiLoop (c : Fin 48) (count : BitVec 24) (le : BitVec 16)
  /-- INTERRUPT_ENTRY (R272): A pending enabled interrupt is taken at a retirement boundary. -/
  | interruptEntry (c : Fin 48)
  /-- TMR_COMPARE (R236): CYCLE reaches TMRCMP and TMR becomes pending. -/
  | tmrCompare (c : Fin 48)
  /-- FSEND (R236): A write of FSEND hands an item in DMEM to the fabric port, stalling while BUSY. -/
  | fsend (c : Fin 48) (addr : BitVec 24)
  /-- FSEND_TAKEN (R236): The port takes the item and FSTAT.BUSY clears. -/
  | fsendTaken (c : Fin 48)
  /-- FRXPOP (R236): Releases the oldest received fabric item. -/
  | frxpop (c : Fin 48)
  /-- TMRCMP_WRITE (R272): A write of TMRCMP sets the timer compare and clears TMR pending. -/
  | tmrcmpWrite (c : Fin 48) (value : BitVec 24)
  /-- SPN_GO (R274): Starts a Spinel list, or raises SPINEL LIST_BUSY if the list is outstanding. -/
  | spnGo (c : Fin 48) (list : Fin 4) (addr : BitVec 24)
  /-- SPN_ACK (R276): Clears a list's END, FAULT, DONE, FIDX, CAUSE and SPN pending. -/
  | spnAck (c : Fin 48) (list : Fin 4)
  /-- SPINEL_LIST_START (R277): An outstanding list is read and validated before any data moves. -/
  | spinelListStart (c : Fin 48)
  /-- SPINEL_ELEMENT_DONE (R274): An element's transfer completes; the list ends after its last element. -/
  | spinelElementDone (c : Fin 48)
  /-- SPINEL_TRANSFER_FAULT (R278): A lease rejection or UE ends the list at the failing element. -/
  | spinelTransferFault (c : Fin 48) (lease : Bool)
  /-- ITEM_ENTERS_FABRIC (R43): An item with credit and token passes the sending port checks onto its lane. -/
  | itemEntersFabric (port : BitVec 8) (wh : WH) (payload : List Byte)
  /-- ITEM_DELIVERED (R43): The destination port checks an item and hands it to the unit. -/
  | itemDelivered (dest src : BitVec 8) (lane : BitVec 3)
  /-- LEDGER_OPEN (R206): The ledger port opens an entry with the next LSN after the admission check. -/
  | ledgerOpen (index : BitVec 14) (kind : BitVec 8) (noack emerg : Bool) (tagEpoch : BitVec 24)
  /-- LEDGER_COMMIT (R206): W0 is written LIVE and the live-entry map bit set: the work is accepted. -/
  | ledgerCommit (tagEpoch : BitVec 24)
  /-- LEDGER_W0_UPDATE (R207): A single atomic write of W0 advances PHASE, FSTATUS or flags. -/
  | ledgerW0Update (index : BitVec 14) (phase : BitVec 8) (fstatus : BitVec 8) (flags : BitVec 8) (tagEpoch : BitVec 24)
  /-- LEDGER_RELEASE (R208): An entry is written FREE and its map bit cleared. -/
  | ledgerRelease (index : BitVec 14) (tagEpoch : BitVec 24)
  /-- SEALER_TRIGGER (R221): The Sealer revokes lease 0 and completes or voids the open ledger entry. -/
  | sealerTrigger (ue : Bool)
  /-- LEASE_GRANT (R216): Onyx grants a FREE lease to an owner with a deadline. -/
  | leaseGrant (n : Fin 64) (owner rclass : BitVec 8) (rindex : BitVec 16) (duration : BitVec 20)
  /-- LEASE_RENEW (R216): The owner renews a HELD or EXPIRED lease. -/
  | leaseRenew (n : Fin 64) (owner : BitVec 8) (epoch : BitVec 24)
  /-- LEASE_RELEASE (R216): The owner releases a lease and its epoch increments. -/
  | leaseRelease (n : Fin 64) (owner : BitVec 8) (epoch : BitVec 24)
  /-- LEASE_REVOKE (R216): A lease is revoked, its epoch incremented and LEASE_REVOKED notified. -/
  | leaseRevoke (n : Fin 64) (bySealer byReset : Bool)
  /-- LEASE_EXPIRY (R217): CLK_USEC reaches DEADLINE in HELD and the lease becomes EXPIRED. -/
  | leaseExpiry (n : Fin 64)
  /-- ONYX_MISMATCH (R484): The lockstep comparator finds a mismatch and an Onyx restart begins. -/
  | onyxMismatch (group : BitVec 32)
  /-- CHECKER_FAULT (R485): A checker delay-register parity error masks mismatches and restarts Onyx. -/
  | checkerFault (stage : BitVec 1)
  /-- COMPARATOR_SELF_TEST (R486): Every 10 ms the comparator forces a difference on each rail and checks it is flagged. -/
  | comparatorSelfTest (ok : Bool)
  /-- ONYX_WDOG (R476): The 2 s Onyx watchdog expires unrenewed and Onyx restarts. -/
  | onyxWdog
  /-- ONYX_UE (R476): An uncorrectable error in Onyx IMEM or DMEM restarts Onyx. -/
  | onyxUe (mac : BitVec 16) (word : BitVec 32)
  /-- ONYX_RESTART_IMAGE_CHECK (R479): The restart ROM verifies the retained image or reloads the core part from flash. -/
  | onyxRestartImageCheck (kept : RetainedRead) (flash1Ok flash2Ok : Bool)
  /-- ONYX_RESUME (R480): State rebuilt, lease 0 granted, replay and reconciliation run. -/
  | onyxResume
  /-- THERMAL_SAMPLE (R505): Every 1 ms the junction temperature is sampled and thermal levels entered or left. -/
  | thermalSample (temp : Int)
  /-- VIOLATION_RATE_WINDOW_END (R504): At each 60 s window end summary violation records are written. -/
  | violationRateWindowEnd
  /-- ETH_FRAME_RECEIVED (R323): A complete received frame passes FCS, tags, IP, UDP, lookup and SRTP and is emitted or discarded. -/
  | ethFrameReceived (port : Fin 8) (f : EthFrame)
  /-- PAUSE_FRAME_RECEIVED (R316): A PAUSE frame stops new frames for q × 512 bit times, or ends the pause at q = 0. -/
  | pauseFrameReceived (port : Fin 8) (opcode quanta : BitVec 16)
  /-- ACKNOWLEDGEMENT_FRAME_RECEIVED (R331): An SST frame of EtherType 0x88B6 is matched to an assured flow and passed to Onyx. -/
  | acknowledgementFrameReceived (port : Fin 8) (a : AckFrame)
  /-- ASSURED_MESSAGE_RECEIVED (R201): A received assured message is accepted, treated as duplicate or discarded by SEQ. -/
  | assuredMessageReceived (flow : BitVec 13) (ingress : BitVec 8) (seq : BitVec 16) (payload : List Byte)
  /-- RTCP_RECEIVED (R327): RTCP is classified to the flow and passed to Onyx. -/
  | rtcpReceived (port : Fin 8) (flow : BitVec 13) (onRtpPort authOk : Bool)
  /-- LINK_UP (R310): The PCS reports link OK and the port enters UP or SETTLING. -/
  | linkUp (port : Fin 8) (speed : BitVec 2)
  /-- LINK_DOWN (R338): Link loss is declared and the port enters HELD with its queues held. -/
  | linkDown (port : Fin 8)
  /-- PAUSE_EXPIRY (R316): The received pause time ends and transmission resumes. -/
  | pauseExpiry (port : Fin 8)
  /-- PAUSE_WATCHDOG_EXPIRY (R318): A pause lasting NET_PAUSE_WD is broken with a hold-off and a violation record. -/
  | pauseWatchdogExpiry (port : Fin 8)
  /-- PAUSE_HOLDOFF_END (R318): The hold-off ends and PAUSE is honoured again. -/
  | pauseHoldoffEnd (port : Fin 8)
  /-- PAUSE_REFRESH (R317): PAUSE with q = 0xFFFF is repeated every half pause time while above XOFF. -/
  | pauseRefresh (port : Fin 8)
  /-- ETH_FRAME_TX_START (R312): A frame wholly in the buffer and rewritten begins transmission by strict class priority. -/
  | ethFrameTxStart (port : Fin 8)
  /-- ETH_FRAME_TX_END (R312): A frame's last bit is sent and its cells freed. -/
  | ethFrameTxEnd (port : Fin 8)
  /-- HELD_AGED (R339): A queued voice item reaches NET_AGE_LIMIT and is discarded as AGE_LIMIT. -/
  | heldAged (port : Fin 8)
  /-- HOLD_TIME_END (R341): The hold time ends without return: the port enters DOWN and held items fall over or are discarded. -/
  | holdTimeEnd (port : Fin 8)
  /-- SETTLE_END (R496): NET_SETTLE ends and the port enters UP, sending kept items first. -/
  | settleEnd (port : Fin 8)
  /-- ASSURED_RETRY (R331): The assured retry timer expires and unacknowledged messages are resent; path loss after 4 misses. -/
  | assuredRetry (flow : BitVec 13)
  /-- RTCP_TIMER (R327): A compound RTCP packet is sent at a randomised interval. -/
  | rtcpTimer (flow : BitVec 13)
  /-- PRP_SUPERVISION (R333): Onyx sends PRP supervision frames on both ports every 2,000 ms. -/
  | prpSupervision (pair : Fin 4)
  /-- OLD_KEY_ERASE (R329): The old SRTP receive key is erased at first new-key authentication or after 2 s. -/
  | oldKeyErase (flow : BitVec 13)
  /-- SUPERFRAME_START (R354): At T_SF a superframe starts: N_SF fixed, maps installed, transmission cut, beacon sent. -/
  | superframeStart (port : Fin 4)
  /-- PLC_FRAME_TX_START (R382): A frame starts at its slot position with the driver enabled 20 µs before. -/
  | plcFrameTxStart (port : Fin 4) (entry : BitVec 6) (mode : BitVec 3) (tmi : BitVec 4) (ilv : BitVec 6) (ft : BitVec 4) (hdr : LinkHdr) (body : List Byte)
  /-- PLC_FRAME_TX_END (R346): The last sample is sent and the driver disabled. -/
  | plcFrameTxEnd (port : Fin 4) (limited clipped : Bool)
  /-- AGC_BLOCK (R370): Each 128-sample block the AGC steps the PGA down or up. -/
  | agcBlock (port : Fin 4) (rmsDbfs : Int) (mags : List Nat)
  /-- PREAMBLE_CANDIDATE (R372): Autocorrelation reaches PLC_DETTHR and the detection point is located. -/
  | preambleCandidate (port : Fin 4) (correlation : BitVec 8) (stamp : BitVec 64) (inversion : Bool) (start : Nat)
  /-- HEADER_DECODED (R374): The header symbols are decoded and checked; an invalid candidate is rejected. -/
  | headerDecoded (port : Fin 4) (checkOk : Bool) (hw : BitVec 32)
  /-- PAYLOAD_DECODED (R375): The payload is decoded and delivered as a WCLASS 6 item; the search resumes. -/
  | payloadDecoded (port : Fin 4) (rsFail : Nat) (mags : List Nat) (fr : PlcFrame) (body : List Byte)
  /-- BEACON_RECEIVED (R387): A beacon sets T_SF, parent and discipline offset and may declare a conflict. -/
  | beaconReceived (port : Fin 4) (hdr : LinkHdr) (b : Beacon) (stamp : BitVec 64)
  /-- EMERGENCY_VOICE_RECEIVED (R397): An emergency voice bundle is fed to its channel or relayed. -/
  | emergencyVoiceReceived (port : Fin 4) (fr : PlcFrame) (subs : List (List Byte))
  /-- VOICE_RECEIVED (R397): A voice bundle is fed in SEQ order to its channel's RX job or relayed. -/
  | voiceReceived (port : Fin 4) (fr : PlcFrame) (subs : List (List Byte))
  /-- ASSURED_DATA_RECEIVED (R399): An assured data segment is collected and a complete message offered for acceptance. -/
  | assuredDataReceived (port : Fin 4) (fr : PlcFrame) (segidx : BitVec 8) (bytes : List Byte)
  /-- PLC_ACKNOWLEDGEMENT_RECEIVED (R399): An FT 4 acknowledgement releases acknowledged assured messages. -/
  | plcAcknowledgementReceived (port : Fin 4) (fr : PlcFrame) (ackseq : BitVec 16) (credit : BitVec 8)
  /-- CONTENTION_DATA_RECEIVED (R378): Unacknowledged contention data is delivered or relayed. -/
  | contentionDataReceived (port : Fin 4) (fr : PlcFrame) (bytes : List Byte)
  /-- POLL (R394): A POLL is answered by the slave or re-sent by a relay. -/
  | plcPoll (port : Fin 4) (fr : PlcFrame) (budget : BitVec 16) (relays : List (BitVec 12)) (enclosed : List Byte)
  /-- POLL_RESPONSE (R394): A POLL_RESPONSE is taken by the master or relayed back. -/
  | pollResponse (port : Fin 4) (fr : PlcFrame) (enclosed : List Byte)
  /-- JOIN_REQ (R389): A join request is forwarded or answered with JOIN_ACC or JOIN_REJ. -/
  | joinReq (port : Fin 4) (fr : PlcFrame) (uid : BitVec 64) (reqnode : BitVec 12)
  /-- JOIN_ACC (R389): A join acceptance assigns the node address. -/
  | joinAcc (port : Fin 4) (fr : PlcFrame) (uid : BitVec 64) (node : BitVec 12) (hops smgen : BitVec 8)
  /-- JOIN_REJ (R389): A join rejection with a reason is received. -/
  | joinRej (port : Fin 4) (fr : PlcFrame) (uid : BitVec 64) (reason : BitVec 8)
  /-- MGMT_LEAVE (R391): A LEAVE message frees the node's address at once. -/
  | mgmtLeave (port : Fin 4) (fr : PlcFrame)
  /-- NBR_REPORT (R393): A neighbour report updates costs and may trigger route recomputation. -/
  | nbrReport (port : Fin 4) (fr : PlcFrame) (entries : List NbrEntry)
  /-- ROUTE_SET (R393): New next hops are installed. -/
  | routeSet (port : Fin 4) (fr : PlcFrame) (entries : List (BitVec 12 × BitVec 12))
  /-- SLOTMAP (R384): A slot map part is received for a new SMGEN. -/
  | slotmap (port : Fin 4) (fr : PlcFrame) (smgen part npart : BitVec 8) (bytes : List Byte)
  /-- TONEMAP (R385): A tone map is stored for installation at its SFNO. -/
  | tonemap (port : Fin 4) (fr : PlcFrame) (tmi : BitVec 8) (sfno : BitVec 32) (map : List Byte)
  /-- EM_REQ (R396): An emergency slot request is granted in the next beacon or held. -/
  | emReq (port : Fin 4) (fr : PlcFrame) (lchan peer : BitVec 16)
  /-- EM_REL (R396): The emergency slot grant ends. -/
  | emRel (port : Fin 4) (fr : PlcFrame) (lchan : BitVec 16)
  /-- RESIGN (R404): Nodes of a resigning network join the surviving one. -/
  | plcResign (port : Fin 4) (fr : PlcFrame) (netid : BitVec 16)
  /-- FOREIGN (R404): A node reports a foreign beacon to its coordinator. -/
  | plcForeign (port : Fin 4) (fr : PlcFrame) (netid : BitVec 16) (sfno : BitVec 32)
  /-- BEACON_LOSS (R391): No beacon for BLOSS superframes: the node enters LOST. -/
  | beaconLoss (port : Fin 4)
  /-- JOIN_LISTEN_END (R389): After 3 superframes of listening the node sends JOIN_REQ. -/
  | joinListenEnd (port : Fin 4)
  /-- JOIN_ANSWER_WAIT (R389): No answer in 4 superframes: JOIN_REQ is resent with backoff. -/
  | joinAnswerWait (port : Fin 4)
  /-- NBR_REPORT_PERIOD (R391): Every NBRPER superframes a node sends NBR_REPORT. -/
  | nbrReportPeriod (port : Fin 4)
  /-- NODE_DROP (R391): A node missing 4 reports is dropped and its address freed. -/
  | nodeDrop (port : Fin 4) (node : BitVec 12)
  /-- LINK_ABSENT (R392): Nothing received from a neighbour for 64 superframes makes the link absent. -/
  | linkAbsent (port : Fin 4) (node : BitVec 12)
  /-- PLC_ASSURED_RETRY (R399): ARETRY expires and unacknowledged segments are resent; ALOSS misses lose the path. -/
  | plcAssuredRetry (port : Fin 4) (flow : BitVec 13)
  /-- EMERGENCY_GRANT_IDLE (R396): EMIDLE superframes without emergency frames end the grant. -/
  | emergencyGrantIdle (port : Fin 4)
  /-- POLL_MISS (R395): POLLMISS exchanges without response exclude the chain and select the next. -/
  | pollMiss (port : Fin 4) (slave : BitVec 12)
  /-- POLL_PERIOD (R394): A slave is polled at least every POLLPER superframes. -/
  | pollPeriod (port : Fin 4) (slave : BitVec 12)
  /-- CHAIN_EXCLUSION_END (R395): A relay chain's 60 s exclusion ends. -/
  | chainExclusionEnd (port : Fin 4) (slave : BitVec 12)
  /-- RESIGN_ANNOUNCEMENT_END (R404): After 4 superframes of RESIGN the resigned coordinator stops beaconing. -/
  | resignAnnouncementEnd (port : Fin 4)
  /-- VOICE_AGE (R398): A queued powerline voice item reaching PLC_VAGE is discarded as PLC_LOSS. -/
  | voiceAge (port : Fin 4)
  /-- DRIVER_OVER_TEMPERATURE (R346): The line driver's sensor trips; the driver is off and the port out of service. -/
  | driverOverTemperature (port : Fin 4)
  /-- PLC_CALIBRATION_DONE (R349): Port calibration ends, loading path delays or leaving the port out of service. -/
  | plcCalibrationDone (port : Fin 4) (v : Verdict) (rxdly txdly : BitVec 16)
  /-- SLOT_OUTPUT (R412): An Opal slot produces one output through CIC, rank filter, FIR and fade. -/
  | slotOutput (slot : Fin 64) (inputs : List Int) (tIn : BitVec 64)
  /-- THRESHOLD_HOLDOFF_END (R419): 10 ms after a firing the comparator reports again. -/
  | thresholdHoldoffEnd (slot : Fin 64) (idx : Fin 4)
  /-- SDM_LOSS (R431): A stopped group clock or constant bitstream for 4,096 periods sets SDMLOST. -/
  | sdmLoss (slot : Fin 64)
  /-- SDM_RETURN (R418): The group clock or bitstream returns and settling restarts. -/
  | sdmReturn (slot : Fin 64)
  /-- TDM_FRAME_END (R426): At each TDM frame end sync, candidates and alignment are checked. -/
  | tdmFrameEnd (port : Fin 16) (fsPos : Option (BitVec 10)) (rx : TdmData)
  /-- TDM_CLOCK_LOST (R422): No bit-clock edge for 250 µs sets CLK_LOST. -/
  | tdmClockLost (port : Fin 16)
  /-- TDM_CLOCK_RETURN (R422): The first bit-clock edge ends CLK_LOST. -/
  | tdmClockReturn (port : Fin 16)
  /-- TDM_ENABLE_SETTLED (R425): 16 frames after start the enable's FINAL is written with ALIGN. -/
  | tdmEnableSettled (port : Fin 16)
  /-- TOPAZ_JOB_START (R432): A waiting job starts on a free engine by PRIO and LSN, rebuilding hash chains. -/
  | topazJobStart (eng : Fin 4) (chain : Dma)
  /-- TOPAZ_YIELD (R433): At a 65,536-byte boundary a job yields its engine to a higher-priority job. -/
  | topazYield (eng : Fin 4)
  /-- TOPAZ_JOB_END (R449): A job ends with OK, OUT_FULL, a named error or verification failure. -/
  | topazJobEnd (eng : Fin 4) (r : TpzEnd)
  /-- SEGMENT_CLOSE (R302): A recorder segment closes at SEG_MS or BUFLEN and becomes a ledger entry. -/
  | segmentClose (rec : BitVec 8) (firstFailed againFailed : Bool)
  /-- SEGMENT_WRITE (R152): A closed segment is written to its host buffer in segment-number order once acknowledged room exists. -/
  | segmentWrite (ok : Bool)
  /-- AGATE_SLICE_START (R462): A field run slice begins at a master-frame boundary. -/
  | agateSliceStart
  /-- AGATE_SLICE_END (R462): The slice budget is used or a pause begins; the run ends after its last operation. -/
  | agateSliceEnd (pause done : Bool) (fails : List FailCell) (logicFail : Bool)
  /-- RETENTION_PAUSE_END (R462): A retention pause ends, letting the next slice start. -/
  | retentionPauseEnd
  /-- CORRECTED_ERROR_REPORT (R464): A macro reports a corrected-error row; at AGT_CETHR the row becomes pending. -/
  | correctedErrorReport (mac : BitVec 16) (row : BitVec 16)
  /-- EFUSE_PROGRAM_DONE (R471): One eFuse operation ends and is read back, retried once on failure. -/
  | efuseProgramDone (readbackOk : Bool)
  /-- TAP_INSTRUCTION_UPDATE (R534): An instruction is updated; a pad-controlling one takes the balls only while RESET_N is low. -/
  | tapInstructionUpdate (ir : BitVec 8)
  /-- TEST_LOGIC_RESET (R534): The TAP enters Test-Logic-Reset, selecting IDCODE and releasing the balls. -/
  | testLogicReset
  /-- COMMAND_TIMEOUT (R177): An accepted or executing command's per-opcode timeout, counted on CLK_USEC, expires and the command ends with TIMEOUT, restoring its checkpoint for CK. -/
  | commandTimeout (q : Fin 4) (seq : BitVec 16)
  /-- ETH_PORT_FAILURE (R477): A SerDes or PCS failure other than link loss is detected on an ETH port, which goes OUT_OF_SERVICE and is treated as link loss. -/
  | ethPortFailure (port : Fin 8)
  /-- RESIGNED_PORT_ROLE_RESUME (R404): A resigned coordinator or master port resumes its configured ROLE once no foreign beacon has been heard for BLOSS superframes. -/
  | resignedPortRoleResume (port : Fin 4)
  /-- CK_AO_START (R56): The 32.768 kHz oscillator produces its first CK_AO cycle, from which the AO timer, WAKE_N sampling and the CK_REF monitor run. -/
  | ckAoStart
  deriving DecidableEq, Repr

end Sys2Proof
end

