-- ==== Sys2Proof/Decode.lean ====
section
/-! DEFINITION. The decoder of table words: no row of the table of operations gives bits, since a host command is spelled
by the bytes of its submission entry (Table 6.3) and every other row is an event. Commands are read from entries by
COMMAND_ACCEPT, in Machine/Accept.lean. -/

namespace Sys2Proof

/-- The command that a word spells by the table's bits: none does. -/
def decodeTableWord (_nbits _w : Nat) : Option Instr := none

end Sys2Proof
end

