-- ==== Sys2Proof/Machine/Base.lean ====
section
/-! DEFINITION. Tables of like things kept as sorted lists, byte packing, and the two cyclic redundancy checks of the
manual (R142, R164): the helpers every block of the machine uses. -/

namespace Sys2Proof.Machine

/-- A table of like things by number: numbers strictly rising. A number the table does not list holds the default
its reader names. -/
abbrev Tbl (α : Type) := List (Nat × α)

/-- The entry numbered `k`, if listed. -/
def tblFind {α : Type} (k : Nat) : Tbl α → Option α
  | [] => none
  | (j, v) :: t => if j = k then some v else tblFind k t

/-- The entry numbered `k`, or `d`. -/
def tblGet {α : Type} (t : Tbl α) (k : Nat) (d : α) : α := (tblFind k t).getD d

/-- Store `v` under number `k`, keeping the numbers rising. -/
def tblSet {α : Type} (k : Nat) (v : α) : Tbl α → Tbl α
  | [] => [(k, v)]
  | (j, w) :: t => if k < j then (k, v) :: (j, w) :: t else if j = k then (k, v) :: t else (j, w) :: tblSet k v t

/-- Remove number `k`. -/
def tblDel {α : Type} (k : Nat) : Tbl α → Tbl α
  | [] => []
  | (j, w) :: t => if j = k then tblDel k t else (j, w) :: tblDel k t

/-- Remove every number `k` with `lo ≤ k < hi`. -/
def tblDelRange {α : Type} (lo hi : Nat) : Tbl α → Tbl α
  | [] => []
  | (j, w) :: t => if lo ≤ j ∧ j < hi then tblDelRange lo hi t else (j, w) :: tblDelRange lo hi t

/-- Change every entry. -/
def tblMap {α β : Type} (f : Nat → α → β) : Tbl α → Tbl β
  | [] => []
  | (j, w) :: t => (j, f j w) :: tblMap f t

/-- Keep the entries that satisfy `p`. -/
def tblFilter {α : Type} (p : Nat → α → Bool) : Tbl α → Tbl α
  | [] => []
  | (j, w) :: t => if p j w then (j, w) :: tblFilter p t else tblFilter p t

/-- Is some entry such that `p`? -/
def tblAny {α : Type} (p : Nat → α → Bool) : Tbl α → Bool
  | [] => false
  | (j, w) :: t => p j w || tblAny p t

/-- The first entry such that `p`. -/
def tblFirst {α : Type} (p : Nat → α → Bool) : Tbl α → Option (Nat × α)
  | [] => none
  | (j, w) :: t => if p j w then some (j, w) else tblFirst p t

/-- How many entries satisfy `p`. -/
def tblCount {α : Type} (p : Nat → α → Bool) : Tbl α → Nat
  | [] => 0
  | (j, w) :: t => (if p j w then 1 else 0) + tblCount p t

/-- Are the numbers of the table strictly rising, all above `lo`? -/
def tblSortedFrom {α : Type} : Option Nat → Tbl α → Bool
  | _, [] => true
  | none, (j, _) :: t => tblSortedFrom (some j) t
  | some l, (j, _) :: t => decide (l < j) && tblSortedFrom (some j) t

/-- The canonical form of a table of memory cells: addresses strictly rising, and no entry equal to the value `d` an
unlisted address reads as. -/
def cellsWf {α : Type} [DecidableEq α] (d : α) (t : Tbl α) : Bool :=
  tblSortedFrom none t && !tblAny (fun _ v => decide (v = d)) t

/-- Write one cell of a memory whose unlisted addresses read as `d`. -/
def cellPut {α : Type} [DecidableEq α] (d : α) (t : Tbl α) (a : Nat) (v : α) : Tbl α :=
  if v = d then tblDel a t else tblSet a v t

/-- Write consecutive cells from address `a`. -/
def cellsPut {α : Type} [DecidableEq α] (d : α) (t : Tbl α) (a : Nat) : List α → Tbl α
  | [] => t
  | v :: vs => cellsPut d (cellPut d t a v) (a + 1) vs

/-- Read `n` consecutive cells from address `a`. -/
def cellsGet {α : Type} (d : α) (t : Tbl α) (a : Nat) : Nat → List α
  | 0 => []
  | n + 1 => tblGet t a d :: cellsGet d t (a + 1) n

/-! ### Lists -/

/-- The number of the first element such that `p`. -/
def firstIdx {α : Type} (p : α → Bool) : List α → Option Nat
  | [] => none
  | x :: t => if p x then some 0 else (firstIdx p t).map (· + 1)

/-- The numbers from `lo`, `n` of them. -/
def fromN (lo : Nat) : Nat → List Nat
  | 0 => []
  | n + 1 => lo :: fromN (lo + 1) n

/-- The sum of `f` over a list. -/
def sumOf {α : Type} (f : α → Nat) : List α → Nat
  | [] => 0
  | x :: t => f x + sumOf f t

/-- The last `n` elements of a list. -/
def lastN {α : Type} (n : Nat) (l : List α) : List α := l.drop (l.length - n)

/-! ### Bytes (R6: little-endian) -/

/-- `n` bytes of `v`, least significant first. -/
def le (n : Nat) (v : Nat) : List Byte :=
  match n with
  | 0 => []
  | n + 1 => BitVec.ofNat 8 v :: le n (v / 256)

/-- `n` bytes of `v`, most significant first. -/
def be (n : Nat) (v : Nat) : List Byte := (le n v).reverse

/-- The value of bytes given least significant first. -/
def unLe : List Byte → Nat
  | [] => 0
  | b :: t => b.toNat + 256 * unLe t

/-- The value of bytes given most significant first. -/
def unBe (b : List Byte) : Nat := unLe b.reverse

/-- Bytes `o` to `o + n - 1` of `b`, as a little-endian number. -/
def leAt (b : List Byte) (o n : Nat) : Nat := unLe ((b.drop o).take n)

/-- `b` cut or filled with zeros to `n` bytes. -/
def padTo (n : Nat) (b : List Byte) : List Byte := (b ++ List.replicate n 0).take n

/-! ### CRC-32C (R142) -/

/-- One bit of the reflected Castagnoli polynomial. -/
def crcBit (c : Nat) : Nat := if c % 2 = 1 then (c / 2) ^^^ 0x82F63B78 else c / 2

/-- One byte into the running CRC-32C. -/
def crcByte (c : Nat) (b : Byte) : Nat :=
  crcBit (crcBit (crcBit (crcBit (crcBit (crcBit (crcBit (crcBit (c ^^^ b.toNat))))))))

/-- CRC-32C of a string of bytes: initial value and final XOR 0xFFFF_FFFF. -/
def crc32c (b : List Byte) : BitVec 32 := BitVec.ofNat 32 (b.foldl crcByte 0xFFFFFFFF ^^^ 0xFFFFFFFF)

/-! ### CRC-16 (R164) -/

/-- One bit of polynomial 0x1021. -/
def crc16Bit (c : Nat) : Nat := if c / 32768 % 2 = 1 then ((c * 2) % 65536) ^^^ 0x1021 else (c * 2) % 65536

/-- One byte into the running CRC-16. -/
def crc16Byte (c : Nat) (b : Byte) : Nat :=
  crc16Bit (crc16Bit (crc16Bit (crc16Bit (crc16Bit (crc16Bit (crc16Bit (crc16Bit (c ^^^ (b.toNat * 256)))))))))

/-- CRC-16: initial value 0xFFFF, no reflection, no final XOR. -/
def crc16 (b : List Byte) : BitVec 16 := BitVec.ofNat 16 (b.foldl crc16Byte 0xFFFF)

/-! ### Serial arithmetic and counters -/

/-- `a` is later than `b` under 16-bit serial arithmetic (R28). -/
def later16 (a b : BitVec 16) : Bool :=
  let d := (a - b).toNat
  decide (1 ≤ d ∧ d ≤ 32767)

/-- An event counter of `w` bits after `n` more events: it saturates (R557). -/
def satAdd (w a n : Nat) : Nat := min (a + n) (2 ^ w - 1)

/-- `v` brought into `lo` to `hi`. -/
def clamp (lo hi v : Nat) : Nat := max lo (min hi v)

/-- The signed value of the low `w` bits of `v`. -/
def sx (w v : Nat) : Int := let m := v % 2 ^ w; if m < 2 ^ (w - 1) then (m : Int) else (m : Int) - (2 ^ w : Nat)

/-- A number as `w` bits in two's complement. -/
def toU (w : Nat) (v : Int) : Nat := (v % ((2 ^ w : Nat) : Int)).toNat

/-- Division of integers rounded to nearest, halves away from zero. -/
def roundDiv (a : Int) (b : Nat) : Int :=
  if 0 ≤ a then ((2 * a + b) / (2 * b : Nat) : Int) else -((2 * (-a) + b) / (2 * b : Nat) : Int)

/-! ### Register fields -/

/-- A field of a block register: the register's key in the register file, the field's lowest bit and its width. -/
structure Fld where
  key : Nat
  lo : Nat
  w : Nat
  deriving DecidableEq, Repr

/-- The value of a field within a word. -/
def fldGet (f : Fld) (v : Word32) : Nat := v.toNat / 2 ^ f.lo % 2 ^ f.w

/-- The word with a field replaced. -/
def fldPut (f : Fld) (v : Word32) (x : Nat) : Word32 :=
  BitVec.ofNat 32 (v.toNat - fldGet f v * 2 ^ f.lo + x % 2 ^ f.w * 2 ^ f.lo)

end Sys2Proof.Machine
end

