-- ==== Sys2Proof/Machine/StBlocks.lean ====
section
/-! DEFINITION. State of Topaz (Chapter 16), of Agate (Chapter 17) and of the test access port (R533, R534). -/

namespace Sys2Proof.Machine

/-! ### Topaz -/

/-- What an inflate decoder reads next (RFC 1950 to 1952): the wrapper's header, a block's header, its data, or the trailer. -/
inductive InfPh where
  /-- CMF and FLG of a zlib stream. -/
  | zCmf | zFlg
  /-- Byte `k` of a gzip header's first ten; the length and bytes of FEXTRA; FNAME; FCOMMENT; FHCRC. -/
  | gHdr (k : Nat) | gXlen | gXtra | gName | gComm | gHcrc
  /-- BFINAL and BTYPE. -/
  | blk
  /-- The bits before a stored block's LEN, LEN with NLEN, and its bytes. -/
  | pad | slen | copy
  /-- HLIT, HDIST and HCLEN; the code-length code; the code lengths; the repeat count after code 16 to 18. -/
  | dyn | clen | lens | rep (sym : Nat)
  /-- A literal/length code, its extra bits, a distance code, its extra bits. -/
  | sym | lenX (k : Nat) | dst | dstX (k : Nat)
  /-- The bits before the trailer; Adler-32; CRC-32; ISIZE. -/
  | endPad | tAdler | tCrc | tIsize
  /-- The stream has ended. -/
  | done
  deriving DecidableEq, Repr, Inhabited

/-- An inflate decoder between two bits. -/
structure Inf where
  ph : InfPh
  /-- Bits read of the present field, and their value. -/
  n : Nat
  v : Nat
  /-- BFINAL of the block. -/
  fin : Bool
  /-- Code lengths in force: literal/length, distance. -/
  lit : List Nat
  dist : List Nat
  /-- A dynamic header: the code lengths of the code-length code, the code lengths read, HLIT, HDIST and HCLEN. -/
  cl : List Nat
  lens : List Nat
  hlit : Nat
  hdist : Nat
  hclen : Nat
  /-- Bytes left of a stored block or of FEXTRA; or the length of the match being read. -/
  len : Nat
  /-- CMF, or FLG of a gzip header, and the CRC-32 register over that header. -/
  flg : Nat
  hcrc : Nat
  deriving DecidableEq, Repr, Inhabited

/-- A Topaz context (Table 16.1, R434): 1 IDLE, 2 OPEN, 3 ERROR; whether it is allocated is its claim. -/
structure TpzCtx where
  st : Nat
  /-- OP and WRAP of the OPEN stream. -/
  op : Nat
  wrap : Nat
  /-- The running check value, and the uncompressed bytes of the stream so far. -/
  check : BitVec 32
  total : Nat := 0
  /-- The most recent uncompressed bytes, newest first, at most 32,768. -/
  window : List Byte := []
  /-- The bit residue of a deflate stream, 0 to 7 bits; of an inflate stream, the bits not yet decoded of a byte consumed. -/
  res : List Bool := []
  /-- Output not yet written (R446). -/
  held : List Byte := []
  /-- The final block and the trailer of a deflate stream have been made. -/
  ended : Bool := false
  inf : Inf := { ph := .done, n := 0, v := 0, fin := false, lit := [], dist := [], cl := [], lens := [], hlit := 0, hdist := 0, hclen := 0, len := 0,
                 flg := 0, hcrc := 0 }
  deriving DecidableEq, Repr, Inhabited

/-- A job that Topaz holds, waiting or running: its item's header and the descriptor of Table 16.2 (R432, R436). -/
structure TpzJob where
  wh : WH
  ctx : Nat
  op : Nat
  wrap : Nat
  effort : Nat
  flags : Nat
  src : BitVec 64
  srclen : Nat
  chain : BitVec 64
  nchain : Nat
  /-- Chain entries inline after byte 63 of the descriptor. -/
  inline : List Byte
  /-- The source, where it lies in DDR; none for host memory. -/
  data : Option (List Byte)
  prio : Nat
  /-- Order of acceptance. -/
  lsn : Nat
  /-- Queue and sequence of its command. -/
  cmd : Nat × BitVec 16
  /-- It is a log export, whose context goes with it (R452). -/
  forLog : Bool
  /-- The lease on its context: index and epoch (R440). -/
  lease : Option (Nat × BitVec 24)
  eng : Option Nat
  /-- Its chain entries, ADDR and LEN, once read (R437). -/
  ents : Option (List (Nat × Nat))
  /-- The context as the job found it. -/
  saved : TpzCtx
  deriving DecidableEq, Repr

/-- A job's completion item that waits in the Onyx boundary queue (R210): queue and sequence of its command, context, status, result. -/
structure TpzDone where
  cmd : Nat × BitVec 16
  ctx : Nat
  status : Nat
  result : List Byte
  deriving DecidableEq, Repr

structure TpzSt where
  ctxs : Tbl TpzCtx
  /-- Jobs held, in order of arrival. -/
  jobs : List TpzJob
  /-- Completion items that wait for Onyx. -/
  done : List TpzDone := []
  /-- The checkpoint areas in DDR: the context as it stood when its last continuing job was accepted (R451). -/
  ckpt : Tbl TpzCtx := []
  deriving DecidableEq, Repr

/-- Host memory, as far as Topaz jobs, context saves and recorder segments have written it: the bytes last written, by address, and which context
each save image stands for, whose layout is internal to Topaz (R302, R445, R447, R450). -/
structure HostMem where
  bytes : Tbl Byte := []
  images : List (List Byte × TpzCtx) := []
  deriving DecidableEq, Repr

/-! ### Agate -/

/-- A results record and its plan (Table 17.7). -/
structure AgtResult where
  target : Nat
  alg : Nat
  index : Nat
  outcome : Nat
  origin : Nat
  start : BitVec 64
  active : Nat
  slices : Nat
  nfail : Nat
  fmacro : Nat
  falg : Nat
  felem : Nat
  fword : Nat
  fbit : Nat
  plan : List (BitVec 64)
  mapped : Nat
  fused : Nat
  fuseused : Nat
  deriving DecidableEq, Repr

/-- A field run (R462): the first of the list is in progress or the next to begin. -/
structure AgtRun where
  /-- Its result's number, once it has begun. -/
  result : Option (BitVec 16)
  /-- The command it runs for: AGT_RUN, or CORE_SERVICE action 1; none for a fault-response test. -/
  cmd : Option (Nat × BitVec 16)
  target : Nat
  index : Nat
  alg : Nat
  slice : Nat
  /-- CLK_USEC at the start of the slice running. -/
  since : Option Nat
  /-- CLK_USEC at which the retention pause ends. -/
  pauseEnd : Option Nat
  /-- CLK_USEC before which no further slice starts. -/
  notBefore : Nat
  cells : List FailCell
  logicFail : Bool
  /-- STATE of the core to which the run returns it (R490). -/
  prev : Nat
  /-- How far it has come: the parts of its algorithms that are done, the operations or blocks done of the next, and collar activity in ns (R462). -/
  phase : Nat := 0
  units : Nat := 0
  actNs : Nat := 0
  deriving DecidableEq, Repr

/-- An entry of the corrected-error tracker (R464). -/
structure CeRow where
  mac : Nat
  row : Nat
  count : Nat
  pending : Bool
  deriving DecidableEq, Repr

structure AgtSt where
  /-- The results kept, by number, and the next number (R474). -/
  results : Tbl AgtResult
  next : BitVec 16
  runs : List AgtRun
  /-- Soft-repair mappings in the fuse shadow, in the format of R467. -/
  soft : List (BitVec 64)
  rows : List CeRow
  /-- Repairs found at S2 that S3 loads (R109). -/
  found : List (BitVec 64)
  /-- CLK_USEC of the last fault of each core: a result made after it tells of the core (R491). -/
  faultAt : Tbl Nat
  deriving DecidableEq, Repr

/-! ### The test access port -/

structure TapSt where
  /-- The instruction register. -/
  ir : BitVec 8
  /-- A pad-controlling instruction controls the balls. -/
  pads : Bool
  deriving DecidableEq, Repr

end Sys2Proof.Machine
end

