-- ==== Sys2Proof/Config.lean ====
section
/-! DEFINITION. What one part fixes and the spec does not state: the free values (no body, so no proof can see a value
of them; log 2) and the cryptographic functions, whose standards the spec names and does not repeat (log 9). -/

namespace Sys2Proof.Config

/-- A value the spec leaves open, for the `n`-th time one is taken (log 2). -/
opaque freeNat : Nat → Nat

/-- SHA-384 of FIPS 180-4 (R125, R128). -/
opaque sha384 : List Byte → BitVec 384

/-- ECDSA P-384 verification of FIPS 186-5: public key, signature, digest (R125, R561). -/
opaque ecdsaVerify : List Byte → List Byte → BitVec 384 → Bool

/-- The encrypted payload and tag of an SRTP packet (RFC 3711; R328): suite, KDR, key, salt, index, header and payload. -/
opaque srtpSeal : Nat → Nat → List Byte → List Byte → Nat → List Byte → List Byte → List Byte

/-- The public key whose SHA-384 is a kernel key hash (R192 names no place for it; log 9). -/
opaque kernelKey : BitVec 384 → List Byte

/-- The coefficients of a ratio's or preset's filter, and the minimum-phase delay, which R410 and R411 do not list:
by preset or ratio, phase and tap number (log 2). -/
opaque presetCoef : Nat → Nat → Nat → BitVec 24

/-- What the header of a Topaz save image says, whose layout is internal to Topaz (R450; log 2). -/
opaque saveImage : List Byte → Nat

/-- The context that a Topaz save image records which this part has not written (R450; log 2). -/
opaque imageState : List Byte → Machine.TpzCtx

/-- The distances at which a deflate engine looks for a match, in the order in which it compares them: by the bytes before the position, newest
first, and those from it on (R444 bounds how many are compared; log 109). -/
opaque hashChain : List Byte → List Byte → List Nat

/-- The bits from HLIT to the last code length of a dynamic block, by its counts of literal/length and distance symbols (R441 bounds the code
lengths; log 109). -/
opaque dynHeader : List Nat → List Nat → List Bool

/-- Which of two names the error has where bits match no code of an incomplete distance code (Table 16.4 names none; log 110). -/
opaque noDistCode : Bool

/-- Bytes of DDR the board fits (R12 gives the range alone; log 2). -/
opaque ddrBytes : Nat

/-- Where in DDR the kernel context of a channel lies, by channel and kernel (R307; log 2). -/
opaque kernelCtx : Nat → Nat → Nat

/-- The words of a core's instruction memory that no kernel holds: the firmware's own, by address (log 119). -/
opaque firmwareWord : Nat → BitVec 48

end Sys2Proof.Config
end

