-- ==== Sys2Proof/Machine/RegMap.lean ====
section
/-! DEFINITION. The register map: every block register of Tables 3.8, 3.9, 4.9, 6.2, 12.9, 14.8, 15.3, 15.4, 16.5
and 17.8 with what a write stores, what writing one clears, what a clearing read clears, and its reset value (R9);
and the fields the meanings name. -/

namespace Sys2Proof.Machine

/-! ### Blocks (R189; 10 is BAR0 of the host interface, 11 the configuration space of the PCI Express function) -/

def blkNet : Nat := 1
def blkPlc : Nat := 2
def blkSsc : Nat := 3
def blkTdm : Nat := 4
def blkTpz : Nat := 5
def blkAgt : Nat := 6
def blkPwr : Nat := 7
def blkClk : Nat := 8
def blkRtb : Nat := 9
def blkHb : Nat := 10
def blkCfg : Nat := 11

/-- The key of a register in the register file. -/
def rk (block off : Nat) : Nat := block * 65536 + off

/-- Registers `off`, `off + stride`, … (`n` of them) of a block: the bits a write stores (RW), the bits writing a one
clears (W1C), the bits a clearing read clears (RC), and the reset value. Bits in none of the three are read only. -/
structure RegRow where
  block : Nat
  off : Nat
  stride : Nat
  n : Nat
  rw : Nat
  w1c : Nat
  rc : Nat
  reset : Nat
  deriving DecidableEq, Repr

/-- Does the row hold the register at `off`? -/
def RegRow.has (r : RegRow) (block off : Nat) : Bool :=
  r.block == block && decide (r.off ≤ off) && (off - r.off) % r.stride == 0 && decide ((off - r.off) / r.stride < r.n)

/-- Table 3.8; a PLL_DSP starts with P = 2, the first of the values of Table 3.2 (log 7). -/
def clkRows : List RegRow := [
  ⟨8, 0x000, 4, 1, 0, 0x30000, 0, 0⟩,
  ⟨8, 0x010, 8, 1, 0xFFFF, 0, 0, 0x0240⟩, ⟨8, 0x018, 8, 1, 0xFFFF, 0, 0, 0x0250⟩,
  ⟨8, 0x020, 8, 4, 0xFFFF, 0, 0, 0x0260⟩, ⟨8, 0x040, 8, 1, 0xFFFF, 0, 0, 0x0455⟩,
  ⟨8, 0x048, 8, 1, 0xFFFF, 0, 0, 0x6462⟩, ⟨8, 0x050, 8, 1, 0xFFFF, 0, 0, 0x3262⟩,
  ⟨8, 0x058, 8, 1, 0xFFFF, 0, 0, 0x21CE⟩,
  ⟨8, 0x014, 8, 6, 0xFFFFFF, 0, 0, 0⟩, ⟨8, 0x044, 8, 1, 0xFFFFFF, 0, 0, 0x51EB85⟩,
  ⟨8, 0x04C, 8, 2, 0xFFFFFF, 0, 0, 0x4DD2F2⟩, ⟨8, 0x05C, 8, 1, 0xFFFFFF, 0, 0, 0x400000⟩,
  ⟨8, 0x060, 4, 1, 3, 0, 0, 2⟩, ⟨8, 0x064, 4, 1, 0xFFF, 0, 0, 0⟩,
  ⟨8, 0x070, 4, 4, 0, 0, 0, 0⟩,
  ⟨8, 0x080, 0x20, 4, 0x800007FF, 0, 0, 0x180⟩, ⟨8, 0x084, 0x20, 4, 0, 0, 0xFFFF0000, 0⟩,
  ⟨8, 0x088, 0x20, 4, 0, 0, 0, 0⟩, ⟨8, 0x08C, 0x20, 4, 0, 0, 0, 0⟩, ⟨8, 0x090, 0x20, 4, 0, 0, 0, 0⟩]

/-- Table 3.9. -/
def rtbRows : List RegRow := [
  ⟨9, 0x000, 4, 3, 0, 0, 0, 0⟩, ⟨9, 0x010, 4, 1, 0x373, 0, 0, 0⟩, ⟨9, 0x014, 4, 1, 0, 0x700, 0, 0⟩,
  ⟨9, 0x018, 4, 1, 0xFFFFFFFF, 0, 0, 0⟩, ⟨9, 0x01C, 4, 1, 0xFF, 0, 0, 1⟩, ⟨9, 0x020, 4, 1, 0xFFFFFFFF, 0, 0, 0⟩,
  ⟨9, 0x024, 4, 1, 0x3FF, 0, 0, 200⟩, ⟨9, 0x028, 4, 2, 0xFFFFFFFF, 0, 0, 0⟩, ⟨9, 0x030, 4, 1, 0, 0, 0, 0⟩,
  ⟨9, 0x034, 4, 1, 0xFFFFF, 0, 0, 100⟩, ⟨9, 0x038, 4, 1, 0xFFFF, 0, 0, 1000⟩, ⟨9, 0x03C, 4, 1, 0xFFFF, 0, 0, 3000⟩,
  ⟨9, 0x040, 4, 1, 0x1FFFF, 0, 0, 300⟩, ⟨9, 0x044, 4, 1, 0, 0, 0, 0⟩, ⟨9, 0x048, 4, 1, 1, 0, 0, 0⟩,
  ⟨9, 0x04C, 4, 1, 0xFFFF0001, 0, 0, 0⟩]

/-- Table 4.9. -/
def pwrRows : List RegRow := [
  ⟨7, 0x000, 4, 1, 0, 0, 0, 2⟩, ⟨7, 0x004, 4, 2, 0, 0, 0, 0⟩, ⟨7, 0x00C, 4, 1, 6, 0, 0, 2⟩,
  ⟨7, 0x010, 4, 1, 0xFFFFFFFF, 0, 0, 0⟩, ⟨7, 0x014, 4, 1, 0xFFFF, 0, 0, 0⟩, ⟨7, 0x018, 4, 1, 0, 0xF, 0, 0⟩,
  ⟨7, 0x01C, 4, 1, 0x3FFF, 0, 0, 2000⟩, ⟨7, 0x020, 4, 1, 0x800000FF, 0, 0, 0x80000004⟩,
  ⟨7, 0x024, 4, 1, 0, 0, 0xFFFF, 0⟩, ⟨7, 0x028, 4, 1, 0, 0x100, 0xF, 0⟩, ⟨7, 0x02C, 4, 1, 0, 0, 0, 0⟩,
  ⟨7, 0x030, 4, 8, 0, 0, 0, 0⟩, ⟨7, 0x050, 4, 1, 0, 0, 0, 2⟩]

/-- Table 6.2, and the MSI-X table and PBA (R141). A vector's mask bit is set at reset, as in every PCI Express
function (log 8). -/
def hbRows : List RegRow := [
  ⟨10, 0x0000, 4, 1, 0, 0, 0, 0x53481F3C⟩, ⟨10, 0x0004, 4, 3, 0, 0, 0, 0⟩, ⟨10, 0x0010, 4, 1, 0xFFFFF, 0, 0, 0x303E8⟩,
  ⟨10, 0x0014, 4, 1, 0xFFFFFFFF, 0, 0, 0⟩, ⟨10, 0x0018, 4, 1, 0, 0, 0, 0⟩, ⟨10, 0x001C, 4, 1, 0xF01, 0, 0, 0x300⟩,
  ⟨10, 0x0020, 4, 1, 0, 0xF, 0, 0⟩, ⟨10, 0x0024, 4, 1, 0xF, 0, 0, 0⟩, ⟨10, 0x0028, 4, 1, 0xFFFFFFFF, 0, 0, 0⟩,
  ⟨10, 0x002C, 4, 1, 0, 0, 0, 1⟩, ⟨10, 0x0030, 4, 1, 0, 0, 0, 0⟩, ⟨10, 0x0034, 4, 2, 0, 0, 0xFFFF, 0⟩,
  ⟨10, 0x0100, 0x40, 4, 0xFFFFFFFF, 0, 0, 0⟩, ⟨10, 0x0104, 0x40, 4, 0xFFFFFFFF, 0, 0, 0⟩,
  ⟨10, 0x0108, 0x40, 4, 0, 0, 0, 0⟩, ⟨10, 0x010C, 0x40, 4, 0, 0, 0, 0⟩,
  ⟨10, 0x0110, 0x40, 4, 0xFFFFFFFF, 0, 0, 0⟩, ⟨10, 0x0114, 0x40, 4, 0xFFFFFFFF, 0, 0, 0⟩,
  ⟨10, 0x0118, 0x40, 4, 0x80000007, 0, 0, 0⟩, ⟨10, 0x011C, 0x40, 4, 0, 0, 0, 0⟩, ⟨10, 0x0120, 0x40, 4, 0, 0, 0, 0x10000⟩,
  ⟨10, 0x0124, 0x40, 4, 0, 0, 0, 0xFFFFFFFF⟩, ⟨10, 0x0128, 0x40, 4, 0xFFFF00FF, 0, 0, 0⟩, ⟨10, 0x012C, 0x40, 4, 0, 0, 0, 0⟩,
  ⟨10, 0x2000, 16, 64, 0xFFFFFFFC, 0, 0, 0⟩, ⟨10, 0x2004, 16, 64, 0xFFFFFFFF, 0, 0, 0⟩,
  ⟨10, 0x2008, 16, 64, 0xFFFFFFFF, 0, 0, 0⟩, ⟨10, 0x200C, 16, 64, 1, 0, 0, 1⟩, ⟨10, 0x3000, 4, 2, 0, 0, 0, 0⟩]

/-- The configuration space of the function (Table 6.1) in the layout of R562: identification, command and status, class and revision 0x21, a
64-bit BAR0 of 64 KiB, the Capabilities Pointer, and the Power Management, MSI-X (64 vectors, table 0x2000, PBA 0x3000), PCI Express (256 bytes,
extended tags, Function Level Reset; x4 at 8.0 GT/s, ASPM L1), Advanced Error Reporting and Device Serial Number capabilities with their next
pointers. What Table 6.1 does not give of a register is as the PCI Express Base Specification has it (log 107). Subsystem IDs and the serial
number are shown from the fuses. -/
def cfgRows : List RegRow := [
  ⟨11, 0x000, 4, 1, 0, 0, 0, 0x53481F3C⟩, ⟨11, 0x004, 4, 1, 0x146, 0xF9000000, 0, 0x00100000⟩, ⟨11, 0x008, 4, 1, 0, 0, 0, 0x11800021⟩,
  ⟨11, 0x00C, 4, 1, 0xFF, 0, 0, 0⟩, ⟨11, 0x010, 4, 1, 0xFFFF0000, 0, 0, 4⟩, ⟨11, 0x014, 4, 1, 0xFFFFFFFF, 0, 0, 0⟩,
  ⟨11, 0x02C, 4, 1, 0, 0, 0, 0⟩, ⟨11, 0x034, 4, 1, 0, 0, 0, 0x40⟩, ⟨11, 0x03C, 4, 1, 0xFF, 0, 0, 0⟩,
  ⟨11, 0x040, 4, 1, 0, 0, 0, 0x00035001⟩, ⟨11, 0x044, 4, 1, 3, 0, 0, 0⟩,
  ⟨11, 0x050, 4, 1, 0xC0000000, 0, 0, 0x003F7011⟩, ⟨11, 0x054, 4, 1, 0, 0, 0, 0x2000⟩, ⟨11, 0x058, 4, 1, 0, 0, 0, 0x3000⟩,
  ⟨11, 0x070, 4, 1, 0, 0, 0, 0x00020010⟩, ⟨11, 0x074, 4, 1, 0, 0, 0, 0x10008021⟩, ⟨11, 0x078, 4, 1, 0x71EF, 0xF0000, 0, 0x2000⟩,
  ⟨11, 0x07C, 4, 1, 0, 0, 0, 0x843⟩, ⟨11, 0x080, 4, 1, 0xC2, 0, 0, 0⟩, ⟨11, 0x09C, 4, 1, 0, 0, 0, 0xE⟩,
  ⟨11, 0x100, 4, 1, 0, 0, 0, 0x14820001⟩, ⟨11, 0x104, 4, 1, 0, 0x01FFFFF0, 0, 0⟩, ⟨11, 0x108, 4, 1, 0x01FFFFF0, 0, 0, 0⟩,
  ⟨11, 0x10C, 4, 1, 0x01FFFFF0, 0, 0, 0x00462030⟩, ⟨11, 0x110, 4, 1, 0, 0x31C1, 0, 0⟩, ⟨11, 0x114, 4, 1, 0x31C1, 0, 0, 0x2000⟩,
  ⟨11, 0x148, 4, 1, 0, 0, 0, 0x00010003⟩, ⟨11, 0x14C, 4, 2, 0, 0, 0, 0⟩]

/-- Table 12.9. -/
def netRows : List RegRow := [
  ⟨1, 0x000, 4, 1, 0, 0, 0, 8192⟩, ⟨1, 0x004, 4, 1, 0xFFFFFF, 0, 0, 0x53977⟩, ⟨1, 0x008, 4, 1, 0x3FF, 0, 0, 10⟩,
  ⟨1, 0x010, 4, 4, 0x83FF0077, 0, 0, 0⟩, ⟨1, 0x020, 4, 8, 0, 0, 0xFFFFFFFF, 0⟩,
  ⟨1, 0x100, 0x80, 8, 0x1F07, 0, 0, 1⟩, ⟨1, 0x104, 0x80, 8, 0x3FFF, 0, 0, 2000⟩, ⟨1, 0x108, 0x80, 8, 0, 0x100, 0, 0⟩,
  ⟨1, 0x10C, 0x80, 8, 0x3FF, 0, 0, 20⟩, ⟨1, 0x110, 0x80, 8, 0x7FF, 0, 0, 60⟩, ⟨1, 0x114, 0x80, 8, 0x7FF, 0, 0, 50⟩,
  ⟨1, 0x118, 0x80, 8, 0x1FFF, 0, 0, 100⟩, ⟨1, 0x11C, 0x80, 8, 0x3FFF3FFF, 0, 0, 0x8000C0⟩,
  ⟨1, 0x120, 0x80, 8, 0xFFFFFFFF, 0, 0, 0x44444444⟩, ⟨1, 0x124, 0x80, 8, 0xFFFFFFFF, 0, 0, 0⟩,
  ⟨1, 0x128, 0x80, 8, 0, 0, 0, 0⟩,
  ⟨1, 0x140, 0x80, 8, 0, 0, 0xFFFFFFFF, 0⟩, ⟨1, 0x144, 0x80, 8, 0, 0, 0xFFFFFFFF, 0⟩,
  ⟨1, 0x148, 0x80, 8, 0, 0, 0xFFFFFFFF, 0⟩, ⟨1, 0x14C, 0x80, 8, 0, 0, 0xFFFFFFFF, 0⟩,
  ⟨1, 0x150, 0x80, 8, 0, 0, 0xFFFFFFFF, 0⟩, ⟨1, 0x154, 0x80, 8, 0, 0, 0xFFFFFFFF, 0⟩,
  ⟨1, 0x158, 0x80, 8, 0, 0, 0xFFFFFFFF, 0⟩, ⟨1, 0x15C, 0x80, 8, 0, 0, 0xFFFFFFFF, 0⟩,
  ⟨1, 0x160, 0x80, 8, 0, 0, 0xFFFFFFFF, 0⟩, ⟨1, 0x164, 0x80, 8, 0, 0, 0xFFFFFFFF, 0⟩,
  ⟨1, 0x168, 0x80, 8, 0, 0, 0xFFFF, 0⟩]

/-- Table 14.8. -/
def plcRows : List RegRow := [
  ⟨2, 0x00, 0x100, 4, 0x701F7, 0, 0, 0⟩, ⟨2, 0x04, 0x100, 4, 0xFFFFFFF, 0, 0, 0⟩, ⟨2, 0x08, 0x100, 4, 0x1FF01FF, 0, 0, 0⟩,
  ⟨2, 0x0C, 0x100, 4, 0x1070F, 0, 0, 0⟩, ⟨2, 0x10, 0x100, 4, 0xFFFFF, 0, 0, 0⟩, ⟨2, 0x14, 0x100, 4, 0xFF, 0, 0, 154⟩,
  ⟨2, 0x18, 0x100, 4, 0x3F3FFF, 0, 0, 0x81CCC⟩, ⟨2, 0x1C, 0x100, 4, 0xFFFFFFFF, 0, 0, 0⟩,
  ⟨2, 0x20, 0x100, 4, 0, 0x100, 0, 0⟩, ⟨2, 0x24, 0x100, 4, 0, 0, 0, 0⟩, ⟨2, 0x28, 0x100, 4, 0, 0, 0, 0⟩,
  ⟨2, 0x2C, 0x100, 4, 0xFFFFFF0F, 0, 0, 0x10334308⟩, ⟨2, 0x30, 0x100, 4, 0xFFFF07FF, 0, 0, 0x14100078⟩,
  ⟨2, 0x34, 0x100, 4, 0, 0, 0, 0⟩,
  ⟨2, 0x40, 4, 22, 0, 0, 0xFFFFFFFF, 0⟩, ⟨2, 0x140, 4, 22, 0, 0, 0xFFFFFFFF, 0⟩,
  ⟨2, 0x240, 4, 22, 0, 0, 0xFFFFFFFF, 0⟩, ⟨2, 0x340, 4, 22, 0, 0, 0xFFFFFFFF, 0⟩]

/-- Table 15.3. -/
def sscRows : List RegRow := [
  ⟨3, 0x000, 4, 1, 0, 0, 0, 0⟩,
  ⟨3, 0x100, 0x80, 64, 0x8001FF1F, 0, 0, 0⟩, ⟨3, 0x104, 0x80, 64, 0x3F03FF, 0, 0, 0⟩, ⟨3, 0x108, 0x80, 64, 0x3FF01FF, 0, 0, 0⟩,
  ⟨3, 0x10C, 0x80, 64, 0xFFFFFFFF, 0, 0, 0⟩, ⟨3, 0x110, 0x80, 64, 0x9FFF, 0, 0, 0x8000⟩,
  ⟨3, 0x114, 0x80, 64, 0, 0, 0, 0⟩, ⟨3, 0x118, 0x80, 64, 0, 0, 0, 0⟩, ⟨3, 0x11C, 0x80, 64, 0, 0, 0, 0⟩,
  ⟨3, 0x120, 0x80, 64, 0xFFFFFFFF, 0, 0, 0⟩, ⟨3, 0x124, 0x80, 64, 0xFFFFFF, 0, 0, 0⟩,
  ⟨3, 0x128, 0x80, 64, 0xFFFFFFFF, 0, 0, 0⟩, ⟨3, 0x12C, 0x80, 64, 0xFFFFFF, 0, 0, 0⟩,
  ⟨3, 0x130, 0x80, 64, 0xFFFFFFFF, 0, 0, 0⟩, ⟨3, 0x134, 0x80, 64, 0xFFFFFF, 0, 0, 0⟩,
  ⟨3, 0x138, 0x80, 64, 0xFFFFFFFF, 0, 0, 0⟩, ⟨3, 0x13C, 0x80, 64, 0xFFFFFF, 0, 0, 0⟩,
  ⟨3, 0x140, 0x80, 64, 0, 0, 0xFFFFFFFF, 0⟩, ⟨3, 0x144, 0x80, 64, 0, 0, 0xFFFFFFFF, 0⟩,
  ⟨3, 0x148, 0x80, 64, 0, 0, 0xFFFFFFFF, 0⟩, ⟨3, 0x14C, 0x80, 64, 0, 0, 0xFFFFFFFF, 0⟩,
  ⟨3, 0x150, 0x80, 64, 0, 0, 0xFFFFFFFF, 0⟩, ⟨3, 0x154, 0x80, 64, 0, 0, 0xFFFFFFFF, 0⟩,
  ⟨3, 0x158, 0x80, 64, 0, 0, 0xFFFF, 0⟩, ⟨3, 0x15C, 0x80, 64, 0, 0, 0xFFFF, 0⟩]

/-- Table 15.4 and the slot map (R430). -/
def tdmRows : List RegRow := [
  ⟨4, 0x00, 0x100, 16, 0x80FFFF03, 0, 0, 0⟩, ⟨4, 0x04, 0x100, 16, 0xFF, 0, 0, 0x63⟩, ⟨4, 0x08, 0x100, 16, 0, 0x100, 0, 0⟩,
  ⟨4, 0x10, 0x100, 16, 0, 0, 0xFFFFFFFF, 0⟩, ⟨4, 0x14, 0x100, 16, 0, 0, 0xFFFFFFFF, 0⟩,
  ⟨4, 0x18, 0x100, 16, 0, 0, 0xFFFFFFFF, 0⟩, ⟨4, 0x1C, 0x100, 16, 0, 0, 0xFFFFFFFF, 0⟩,
  ⟨4, 0x20, 0x100, 16, 0, 0, 0xFFFFFFFF, 0⟩, ⟨4, 0x2000, 4, 2048, 0xFFFFFFFF, 0, 0, 0⟩]

/-- Table 16.5. -/
def tpzRows : List RegRow := [
  ⟨5, 0x000, 4, 9, 0, 0, 0, 0⟩, ⟨5, 0x040, 4, 5, 0, 0, 0xFFFFFFFF, 0⟩, ⟨5, 0x054, 4, 2, 0, 0, 0xFFFF, 0⟩,
  ⟨5, 0x100, 4, 64, 0, 0, 0, 0⟩]

/-- Table 17.8. -/
def agtRows : List RegRow := [
  ⟨6, 0x000, 4, 1, 0x3FFF, 0, 0, 2000⟩, ⟨6, 0x004, 4, 1, 0x3FF, 0, 0, 64⟩, ⟨6, 0x008, 4, 1, 0xFF, 0, 0, 8⟩,
  ⟨6, 0x00C, 4, 3, 0, 0, 0, 0⟩, ⟨6, 0x018, 4, 1, 0, 0x80, 0, 0⟩, ⟨6, 0x01C, 4, 1, 0, 0, 0, 0⟩,
  ⟨6, 0x040, 4, 3, 0, 0, 0xFFFFFFFF, 0⟩]

/-- The rows of one block. -/
def blockRows (block : Nat) : List RegRow :=
  if block = 1 then netRows else if block = 2 then plcRows else if block = 3 then sscRows
  else if block = 4 then tdmRows else if block = 5 then tpzRows else if block = 6 then agtRows
  else if block = 7 then pwrRows else if block = 8 then clkRows else if block = 9 then rtbRows
  else if block = 10 then hbRows else if block = 11 then cfgRows else []

/-- The row of the register at `off` of `block`, if a table lists it. -/
def regRow (block off : Nat) : Option RegRow := (blockRows block).find? (fun r => r.has block off)

/-- The extent of a block's map in bytes (R189). -/
def blockExtent (block : Nat) : Nat :=
  if block = 1 then 0x500 else if block = 2 then 0x400 else if block = 3 then 0x2100 else if block = 4 then 0x4000
  else if block = 5 then 0x200 else if block = 6 then 0x04C else if block = 7 then 0x054 else if block = 8 then 0x100
  else if block = 9 then 0x050 else 0

/-- The reset value of the register under key `k`; a key that no table lists reads as zero. -/
def regReset (k : Nat) : Word32 :=
  match regRow (k / 65536) (k % 65536) with
  | some r => BitVec.ofNat 32 r.reset
  | none => 0

/-! ### Fields -/

def clk (off lo w : Nat) : Fld := ⟨rk 8 off, lo, w⟩
def rtb (off lo w : Nat) : Fld := ⟨rk 9 off, lo, w⟩
def pwr (off lo w : Nat) : Fld := ⟨rk 7 off, lo, w⟩
def hb (off lo w : Nat) : Fld := ⟨rk 10 off, lo, w⟩
/-- A register of host queue `q`. -/
def hbq (q off lo w : Nat) : Fld := ⟨rk 10 (0x100 + 0x40 * q + off), lo, w⟩
def net (off lo w : Nat) : Fld := ⟨rk 1 off, lo, w⟩
/-- A register of ETH port `p`. -/
def eth (p off lo w : Nat) : Fld := ⟨rk 1 (0x100 + 0x80 * p + off), lo, w⟩
/-- A register of PLC port `p`. -/
def plc (p off lo w : Nat) : Fld := ⟨rk 2 (0x100 * p + off), lo, w⟩
/-- A register of Opal slot `i`. -/
def ssc (i off lo w : Nat) : Fld := ⟨rk 3 (0x100 + 0x80 * i + off), lo, w⟩
/-- A register of TDM port `p`. -/
def tdm (p off lo w : Nat) : Fld := ⟨rk 4 (0x100 * p + off), lo, w⟩
def tpz (off lo w : Nat) : Fld := ⟨rk 5 off, lo, w⟩
def agt (off lo w : Nat) : Fld := ⟨rk 6 off, lo, w⟩

/-- CLK_STATUS.LOCK, one bit per PLL. -/
def clkLock (p : Nat) : Fld := clk 0 p 1
def clkRefloss : Fld := clk 0 16 1
def clkAudfb : Fld := clk 0 17 1
def pllN (p : Nat) : Fld := clk (0x10 + 8 * p) 0 8
def pllP (p : Nat) : Fld := clk (0x10 + 8 * p) 8 7
def pllEn (p : Nat) : Fld := clk (0x10 + 8 * p) 15 1
def pllFrac (p : Nat) : Fld := clk (0x14 + 8 * p) 0 24
def audSrc : Fld := clk 0x60 0 1
def audAuto : Fld := clk 0x60 1 1
def audActive : Fld := clk 0x60 2 1
def zcMode (n : Nat) : Fld := clk (0x80 + 0x20 * n) 0 2
def zcEdge (n : Nat) : Fld := clk (0x80 + 0x20 * n) 2 1
def zcFilt (n : Nat) : Fld := clk (0x80 + 0x20 * n) 3 8
def zcEn (n : Nat) : Fld := clk (0x80 + 0x20 * n) 31 1
def zcState (n : Nat) : Fld := clk (0x84 + 0x20 * n) 0 2
def zcSynth (n : Nat) : Fld := clk (0x84 + 0x20 * n) 8 8
def zcRej (n : Nat) : Fld := clk (0x84 + 0x20 * n) 16 16
def zcPeriod (n : Nat) : Fld := clk (0x88 + 0x20 * n) 0 32
def rtbSrc : Fld := rtb 0x10 0 2
def rtbPtpPort : Fld := rtb 0x10 4 3
def rtbPlcPort : Fld := rtb 0x10 8 2
def rtbState : Fld := rtb 0x14 0 3
def rtbSeeded : Fld := rtb 0x14 4 1
def rtbStepped : Fld := rtb 0x14 8 1
def rtbSrcLost : Fld := rtb 0x14 9 1
def rtbClamped : Fld := rtb 0x14 10 1
def rtbAdj : Fld := rtb 0x20 0 32
def rtbSlewmax : Fld := rtb 0x24 0 10
def rtbStepLo : Fld := rtb 0x28 0 32
def rtbStepHi : Fld := rtb 0x2C 0 32
def rtbStepthr : Fld := rtb 0x34 0 20
def rtbLockthr : Fld := rtb 0x38 0 16
def rtbSrcto : Fld := rtb 0x3C 0 16
def rtbHoldover : Fld := rtb 0x40 0 17
def rtbTickofs : Fld := rtb 0x44 0 32
def rtbRealign : Fld := rtb 0x48 0 1
/-- RTB_PPSCFG.EDGE. -/
def ppsEdge : Fld := rtb 0x4C 0 1
def ppsDelay : Fld := rtb 0x4C 16 16
/-- PWR_DOM_STAT, the field of domain `d`. -/
def domStat (d : Nat) : Fld := pwr 0 (2 * d) 2
def seqBusy : Fld := pwr 8 0 1
def seqDom : Fld := pwr 8 8 4
def seqPending : Fld := pwr 8 16 4
def hibWakeNEn : Fld := pwr 0xC 1 1
def hibTimerEn : Fld := pwr 0xC 2 1
def wakeAtLo : Fld := pwr 0x10 0 32
def wakeAtHi : Fld := pwr 0x14 0 16
def wakeStatN : Fld := pwr 0x18 0 1
def wakeStatTimer : Fld := pwr 0x18 1 1
def wakeDuring : Fld := pwr 0x18 2 1
def hibExit : Fld := pwr 0x18 3 1
def coreRamp : Fld := pwr 0x1C 0 14
def scrubInterval : Fld := pwr 0x20 0 8
def scrubEn : Fld := pwr 0x20 31 1
def scrubCe : Fld := pwr 0x24 0 16
def scrubUeN : Fld := pwr 0x28 0 4
def scrubUeOvf : Fld := pwr 0x28 8 1
def scrubPass : Fld := pwr 0x2C 0 32
def scrubUe (n : Nat) : Fld := pwr (0x30 + 4 * n) 0 17
def ddrRet : Fld := pwr 0x50 0 1
def coreEn : Fld := pwr 0x50 1 1
def entryTj : Fld := pwr 0x50 8 8
def hbVer : Fld := hb 4 0 32
def hbState : Fld := hb 8 0 3
def hbCapred : Fld := hb 8 3 1
def hbMinimal : Fld := hb 8 4 1
def hbBootstep : Fld := hb 8 8 4
def hbEpochPcie : Fld := hb 0xC 0 16
def hbEpochMspi : Fld := hb 0xC 16 16
def hbPeriod : Fld := hb 0x10 0 16
def hbMiss : Fld := hb 0x10 16 4
def hbHeartbeat : Fld := hb 0x14 0 32
def hbDevbeat : Fld := hb 0x18 0 32
def hbRun : Fld := hb 0x1C 0 1
def hbNotifyq : Fld := hb 0x1C 8 4
def irqState : Fld := hb 0x20 0 1
def irqHbmiss : Fld := hb 0x20 1 1
def irqDbstale : Fld := hb 0x20 2 1
def irqQerr : Fld := hb 0x20 3 1
/-- HB_QOWN, the bit of queue `q`: 1 when MSPI owns it. -/
def qown (q : Nat) : Fld := hb 0x24 q 1
def segAck : Fld := hb 0x28 0 32
def segNext : Fld := hb 0x2C 0 32
def faultCode : Fld := hb 0x30 0 16
def faultCount : Fld := hb 0x30 16 16
def badAcc : Fld := hb 0x34 0 16
def mspiStat : Fld := hb 0x38 0 16
def sqBaseLo (q : Nat) : Fld := hbq q 0x00 0 32
def sqFetch (q : Nat) : Fld := hbq q 0x0C 0 16
def cqBaseLo (q : Nat) : Fld := hbq q 0x10 0 32
def cqSize (q : Nat) : Fld := hbq q 0x18 0 3
def cqEn (q : Nat) : Fld := hbq q 0x18 31 1
def cqTail (q : Nat) : Fld := hbq q 0x20 0 12
def cqPhase (q : Nat) : Fld := hbq q 0x20 16 1
def qAcc (q : Nat) : Fld := hbq q 0x24 0 16
def qCmp (q : Nat) : Fld := hbq q 0x24 16 16
def cqCount (q : Nat) : Fld := hbq q 0x28 0 8
def cqDelay (q : Nat) : Fld := hbq q 0x28 16 16
def qErr (q : Nat) : Fld := hbq q 0x2C 0 8
def netAretry : Fld := net 0x008 0 10
/-- PCP for PRIO `p`. -/
def netPcp (p : Nat) : Fld := net 0x004 (3 * p) 3
def prpA (k : Nat) : Fld := net (0x010 + 4 * k) 0 3
def prpB (k : Nat) : Fld := net (0x010 + 4 * k) 4 3
def prpWindow (k : Nat) : Fld := net (0x010 + 4 * k) 16 10
def prpEn (k : Nat) : Fld := net (0x010 + 4 * k) 31 1
def prpDup (k : Nat) : Fld := net (0x020 + 8 * k) 0 32
def prpEvict (k : Nat) : Fld := net (0x024 + 8 * k) 0 32
def ethMode (p : Nat) : Fld := eth p 0x00 0 3
def ethEn (p : Nat) : Fld := eth p 0x00 8 1
def ethPauseRx (p : Nat) : Fld := eth p 0x00 9 1
def ethPauseTx (p : Nat) : Fld := eth p 0x00 10 1
def ethSst (p : Nat) : Fld := eth p 0x00 11 1
def ethForceDown (p : Nat) : Fld := eth p 0x00 12 1
def ethMaxframe (p : Nat) : Fld := eth p 0x04 0 14
def ethLink (p : Nat) : Fld := eth p 0x08 0 1
def ethState (p : Nat) : Fld := eth p 0x08 1 3
def ethPaused (p : Nat) : Fld := eth p 0x08 4 1
def ethHoldoff (p : Nat) : Fld := eth p 0x08 5 1
def ethBreak (p : Nat) : Fld := eth p 0x08 8 1
def ethSpeed (p : Nat) : Fld := eth p 0x08 9 2
def ethPauseWd (p : Nat) : Fld := eth p 0x0C 0 10
def ethAge (p : Nat) : Fld := eth p 0x10 0 11
def ethHold (p : Nat) : Fld := eth p 0x14 0 11
def ethSettle (p : Nat) : Fld := eth p 0x18 0 13
def ethXoff (p : Nat) : Fld := eth p 0x1C 0 14
def ethXon (p : Nat) : Fld := eth p 0x1C 16 14
/-- NET_QLIM of class `c`. -/
def ethQlim (p c : Nat) : Fld := eth p 0x20 (4 * c) 4
def ptplatRx (p : Nat) : Fld := eth p 0x24 0 16
def ptplatTx (p : Nat) : Fld := eth p 0x24 16 16
def rxFcs (p : Nat) : Fld := eth p 0x40 0 32
def rxRunt (p : Nat) : Fld := eth p 0x44 0 32
def rxOversize (p : Nat) : Fld := eth p 0x48 0 32
def rxNobuf (p : Nat) : Fld := eth p 0x4C 0 32
def rxTagerr (p : Nat) : Fld := eth p 0x50 0 32
def rxNoflow (p : Nat) : Fld := eth p 0x54 0 32
def rxRatelim (p : Nat) : Fld := eth p 0x58 0 32
def txShed (p : Nat) : Fld := eth p 0x5C 0 32
def heldAged (p : Nat) : Fld := eth p 0x60 0 32
def heldExpired (p : Nat) : Fld := eth p 0x64 0 32
def pauseBreak (p : Nat) : Fld := eth p 0x68 0 16
def plcEn (n : Nat) : Fld := plc n 0x00 0 1
def plcPolled (n : Nat) : Fld := plc n 0x00 1 1
def plcRole (n : Nat) : Fld := plc n 0x00 2 1
def plcTxlevel (n : Nat) : Fld := plc n 0x00 4 5
def plcBand (n : Nat) : Fld := plc n 0x00 16 3
def plcNetid (n : Nat) : Fld := plc n 0x04 0 16
def plcNode (n : Nat) : Fld := plc n 0x04 16 12
def plcCstart (n : Nat) : Fld := plc n 0x08 0 9
def plcCend (n : Nat) : Fld := plc n 0x08 16 9
/-- K − 1. -/
def plcK (n : Nat) : Fld := plc n 0x0C 0 4
def plcEnrmax (n : Nat) : Fld := plc n 0x0C 8 3
def plcVmode (n : Nat) : Fld := plc n 0x0C 16 1
def plcPhase (n : Nat) : Fld := plc n 0x10 0 20
def plcDetthr (n : Nat) : Fld := plc n 0x14 0 8
def plcBlankThr (n : Nat) : Fld := plc n 0x18 0 14
def plcGuard (n : Nat) : Fld := plc n 0x18 16 6
def plcRxdly (n : Nat) : Fld := plc n 0x1C 0 16
def plcTxdly (n : Nat) : Fld := plc n 0x1C 16 16
def plcState (n : Nat) : Fld := plc n 0x20 0 3
def plcConflict (n : Nat) : Fld := plc n 0x20 8 1
def plcEmgrant (n : Nat) : Fld := plc n 0x20 9 1
def plcHops (n : Nat) : Fld := plc n 0x20 16 8
def plcSfno (n : Nat) : Fld := plc n 0x24 0 32
def plcNsf (n : Nat) : Fld := plc n 0x28 0 11
def plcNmin (n : Nat) : Fld := plc n 0x28 16 11
def plcBloss (n : Nat) : Fld := plc n 0x2C 0 4
def plcAretry (n : Nat) : Fld := plc n 0x2C 8 4
def plcAloss (n : Nat) : Fld := plc n 0x2C 12 4
def plcEmidle (n : Nat) : Fld := plc n 0x2C 16 4
def plcPollmiss (n : Nat) : Fld := plc n 0x2C 20 4
def plcNbrper (n : Nat) : Fld := plc n 0x2C 24 8
def plcVage (n : Nat) : Fld := plc n 0x30 0 11
def plcPollper (n : Nat) : Fld := plc n 0x30 16 8
def plcCostmax (n : Nat) : Fld := plc n 0x30 24 8
/-- Counter `k` of a PLC port, from 0x40: 0 HDR_CRC, 1 HDR_INVALID, 2 RS_FAIL, 3 LCK_FAIL, 4 BLANKED, 5 RX_OVR, 6 DRV_LIM,
7 TX_CLIP, 8 TX_TRUNC, 9 FOREIGN, 10 SLOT_VIOL, 11 UNKNOWN_NODE, 12 ROUTE_DROP, 13 NOFLOW, 14 MGMT_BAD, 15 ACK_BAD,
16 POLL_BAD, 17 VOICE_BAD, 18 CONFLICT, 19 ASSURED_RETX, 20 POLL_MISS, 21 UNREACH. -/
def plcCnt (n k : Nat) : Fld := plc n (0x40 + 4 * k) 0 32
/-- Counter of Topaz: 0 JOBS, 1 VERIFY_FAIL, 2 INFLATE_ERR, 3 OUT_FULL, 4 SWITCH. -/
def tpzCnt (k : Nat) : Fld := tpz (0x40 + 4 * k) 0 32
def tpzUe : Fld := tpz 0x54 0 16
def tpzCe : Fld := tpz 0x58 0 16
def agtSlice : Fld := agt 0 0 14
def agtPause : Fld := agt 4 0 10
def agtCethr : Fld := agt 8 0 8
def agtBusy : Fld := agt 0xC 0 1
def agtInslice : Fld := agt 0xC 1 1
def agtInpause : Fld := agt 0xC 2 1
def agtResultNo : Fld := agt 0xC 16 16
def agtFuseused : Fld := agt 0x10 0 13
def agtFusebad : Fld := agt 0x14 0 16
def agtCetrkN : Fld := agt 0x18 0 7
def agtCetrkOvf : Fld := agt 0x18 7 1
def agtSoftmap : Fld := agt 0x1C 0 16
def agtRuns : Fld := agt 0x40 0 32
def agtFails : Fld := agt 0x44 0 32
def agtPending : Fld := agt 0x48 0 32
/-- Command.Bus Master Enable, PMCSR.PowerState, the MSI-X Enable and Function Mask bits, and Device Status.Non-Fatal Error Detected. -/
def cfgBme : Fld := ⟨rk 11 0x004, 2, 1⟩
def cfgPower : Fld := ⟨rk 11 0x044, 0, 2⟩
def msixFnMask : Fld := ⟨rk 11 0x050, 30, 1⟩
def msixEn : Fld := ⟨rk 11 0x050, 31, 1⟩
def cfgNonFatal : Fld := ⟨rk 11 0x078, 17, 1⟩
/-- The mask bit of MSI-X vector `v`. -/
def msixMask (v : Nat) : Fld := hb (0x200C + 16 * v) 0 1
/-- The PBA bit of MSI-X vector `v` (0 to 31). -/
def msixPba (v : Nat) : Fld := hb 0x3000 v 1

end Sys2Proof.Machine
end

