-- ==== Sys2Proof/Machine/StCore.lean ====
section
/-! DEFINITION. State of the parts that serve the whole device: time, power, boot, the host interface, accepted work,
leases, claims, logs and the control processor. -/

namespace Sys2Proof.Machine

/-! ### Time (Chapter 3) -/

/-- The anchor pair and the addend copied with it (R72). -/
structure Anchor where
  rtb : BitVec 64
  ao : BitVec 48
  addend : BitVec 40
  deriving DecidableEq, Repr

/-- The RTB servo of Onyx firmware (R66, R67, R68). -/
structure Servo where
  /-- CLK_USEC of the last update the servo applied, or of the selection of the source. -/
  lastAt : Nat
  /-- The offset at the last update, ns. -/
  lastOff : Option Int
  /-- RTB at the last update. -/
  lastRtb : BitVec 64
  /-- Consecutive updates below RTB_LOCKTHR. -/
  good : Nat
  /-- LOCKED intervals in the current set of 16, and the sum of their frequency errors in units of 2^-32. -/
  nInt : Nat
  sumF : Rat
  /-- What has been slewed out since the last update, in units of 2^-32 ns. -/
  slewed : Int
  /-- ACQUIRING was entered at a selection from UNSYNCED and no update has come since. -/
  fresh : Bool
  /-- CLK_USEC at entry to HOLDOVER. -/
  holdAt : Nat
  deriving DecidableEq, Repr

/-- One zero-crossing input (R74, R75). -/
structure Zc where
  /-- RTB of the previous edge of the chosen polarity, or crossing. -/
  prev : Option (BitVec 64)
  /-- The last intervals accepted, newest last, at most 8. -/
  ints : List Nat
  /-- Consecutive good intervals while not LOCKED. -/
  good : Nat
  /-- RTB of the last crossing, true or synthetic. -/
  last : BitVec 64
  /-- The last crossing was synthetic. -/
  synth : Bool
  /-- DC mode: RTB has stepped since the last crossing; the cycle that ended with the last crossing held a step, which is what Jasper
  is told (R76). -/
  stepped : Bool := false
  flagged : Bool := false
  deriving DecidableEq, Repr

structure TimeSt where
  /-- CLK_USEC (R70). -/
  usec : BitVec 64
  /-- CLK_AO_CNT. -/
  ao : BitVec 48
  /-- Part of a CK_AO period already elapsed, in units of 1/1,000,000 of a period. -/
  aoFrac : Nat
  /-- CK_REF runs; CK_AO runs. -/
  refRun : Bool
  aoRun : Bool
  /-- CK_AO_CNT at the loss of CK_REF. -/
  refLostAo : BitVec 48
  /-- The CK_REF monitor has tripped since it was armed (R56). -/
  refTrip : Bool := false
  /-- The 96-bit RTB register: 64 bits of ns, 32 of fraction (R62). -/
  rtb : BitVec 96
  /-- The addend in force. -/
  addend : BitVec 40
  /-- What RTB_ADJ has still to remove, in units of 2^-32 ns. -/
  slew : Int
  anchor : Option Anchor
  /-- Renewal of the anchor is held for a loss of CK_REF (R558). -/
  anchorHeld : Bool
  servo : Servo
  zc : Tbl Zc
  /-- Values latched by a read of a low half, by register key (R64, R78). -/
  latch : Tbl Word32
  /-- A TIME_SET seed to load at the next start (R179). -/
  seed : Option (BitVec 64)
  /-- RTB ns at the last TICK boundary. -/
  tickRtb : BitVec 64
  deriving DecidableEq, Repr

/-! ### Power (Chapter 4) -/

/-- A domain switch in progress (R86). -/
structure Switch where
  dom : Nat
  on : Bool
  /-- CLK_USEC at which power-good must have asserted (R88). -/
  pgBy : Nat
  /-- Power-good has asserted. -/
  pgSeen : Bool
  /-- The switches are being opened again after a missing power-good. -/
  failed : Bool
  deriving DecidableEq, Repr

/-- An entry of the resource claim table (R513). -/
structure Claim where
  cls : Nat
  idx : Nat
  holder : Nat
  obj : Nat
  deriving DecidableEq, Repr

/-- Where hibernate stands (R98 to R101). -/
inductive HibPhase where
  | awake | armed | asleep | leaving
  deriving DecidableEq, Repr

structure PwrSt where
  /-- Requests waiting: domain, and on or off (R85). -/
  queue : List (Nat × Bool)
  cur : Option Switch
  hib : HibPhase
  /-- Domain switch-offs of clusters that wait for the next master-frame boundary (R91). -/
  offAtMf : List Nat
  /-- CLK_AO_CNT at the wake event that began the present core ramp (R565). -/
  rampFrom : BitVec 48
  /-- A wake event has occurred since GO (R100); what GO armed: the two enables and the wake time. -/
  wakeLatch : Bool := false
  armN : Bool := false
  armT : Bool := false
  armAt : Nat := 0
  scrubPos : Nat
  /-- Beryl words known uncorrectable. -/
  ueWords : List Nat
  /-- CLK_USEC at which a PLL that is enabled lost lock; and the ports or slots that are out of service until it locks again (R477). -/
  pllLost : Tbl Nat
  pllOut : Tbl (List Nat)
  /-- The claims that Opal and TDM held when CK_AUD was lost (R495). -/
  pllClaims : List Claim := []
  /-- SAFE was entered for thermal level 3 (R505, R506). -/
  shutdown : Bool
  /-- FAULT_N is driven low (R134). -/
  faultN : Bool
  /-- The device is in SAFE, and may leave it by command (R135). -/
  safe : Bool
  safeStuck : Bool
  deriving DecidableEq, Repr

/-! ### Boot (Chapter 5) -/

/-- One boot ledger record (Table 5.6). -/
structure BootRec where
  bootno : BitVec 32
  step : Nat
  kind : Nat
  attempt : Nat
  cause : Nat
  detail : BitVec 32
  timeMs : BitVec 32
  deriving DecidableEq, Repr

/-- The boot ledger header (Table 5.5). -/
structure BootHdr where
  wridx : Nat
  bootno : BitVec 32
  lastDone : BitVec 32
  incomplete : Nat
  lastReset : Nat
  warmCause : Nat
  actslot : Nat
  usedslot : Nat
  mode : Nat
  ddrstate : Nat
  nextslot : Nat
  replayIdx : BitVec 32
  exclCores : BitVec 64
  deriving DecidableEq, Repr

/-- One fuse-store entry or soft mapping of Chapter 17, as its words. -/
structure FuseEntry where
  word : BitVec 64
  bad : Bool
  deriving DecidableEq, Repr

/-- The eFuse array (R126, R129, R138, R192, R467). -/
structure Fuses where
  /-- LC[3:0], three fuses for each bit: bit `b` has fuses 3b to 3b + 2 (R129). -/
  lc3 : BitVec 12
  uid : BitVec 64
  keyHash : Tbl (BitVec 384)
  revoked : BitVec 4
  secmin : Nat
  /-- Board options, kernel key hash and subsystem IDs, each none while unprogrammed. -/
  boardOpts : Option (BitVec 32)
  kernelHash : Option (BitVec 384)
  subsys : Option (BitVec 32)
  /-- Fuse repair entries in order of programming. -/
  repairs : List FuseEntry
  deriving DecidableEq, Repr

/-- What eFuse programming is under way and what it will have changed (R136, R471). -/
inductive FuseOp where
  | secmin (v : Nat) | revoke (slot : Nat) | lifecycle (lc : BitVec 4) | customer (field : Nat) (v : BitVec 384)
  /-- Plan entries still to be written, how many are written, and whether the present one is being written again. -/
  | repair (words : List (BitVec 64)) (written : Nat) (retry : Bool)
  deriving DecidableEq, Repr

/-- The configuration digest (Table 5.9). -/
structure CfgDigest where
  gen : BitVec 32
  shadowLen : Nat
  shadowDigest : BitVec 384
  retired : BitVec 64
  ethEn : BitVec 8
  plcEn : BitVec 4
  hostif : Nat
  ddrspeed : Nat
  deriving DecidableEq, Repr

structure BootSt where
  /-- The step under way, 0 to 12; 13 when the start has ended. -/
  step : Nat
  /-- Warm form. -/
  warm : Bool
  /-- Attempt within the step. -/
  attempt : Nat
  /-- The step has written its START record. -/
  started : Bool
  /-- CLK_USEC at which the boot watchdog expires. -/
  wdog : Option Nat
  /-- AO power-good has held; the core ramp has ended (S0). -/
  aoGood : Bool
  /-- CLK_USEC of S4 DONE. -/
  s4At : Nat
  /-- An MSPI transaction with a valid CRC has been seen since S4 DONE (R117). -/
  mspiSeen : Bool
  hdr : BootHdr
  recs : Tbl BootRec
  /-- Records of S0 to S2 kept in the ROM's registers until the ledger exists (R118). -/
  early : List BootRec
  fuses : Fuses
  /-- eFuse programming under way. -/
  fuseOp : Option FuseOp
  /-- Operations that wait for it. -/
  fuseWait : List FuseOp
  /-- The life-cycle code in force since the last S1. -/
  lc : BitVec 4
  /-- The boot flash: sparse bytes, erased bytes reading 0xFF (R124); whether its directory holds anything; and whether each slot has passed a
  verify. -/
  flash : Tbl Byte
  verified : Tbl Bool
  dir : Bool := false
  cfg : CfgDigest
  /-- RELEASE and SECVER of the image loaded. -/
  release : BitVec 32
  secver : BitVec 32
  /-- A cold reset is being prolonged by a pad-controlling TAP instruction (R534). -/
  tapHold : Bool
  /-- Retained DDR training data is present and its check holds. -/
  training : Bool
  /-- The header of the image that S5 took, and the extension part that was read into DDR (R124, R127). -/
  image : List Byte := []
  ext : List Byte := []
  /-- The extension part's digest has been checked. -/
  extOk : Bool
  /-- S10: the entries still to be replayed, the one under replay first (R116). -/
  replaying : Option (List Nat) := none
  /-- A warm reset that waits (R136, R174): its cause, and whether the DDR controller will confirm where the request says so. -/
  resetReq : Option (Nat × Option Bool)
  /-- The only slot S5 tries at this start (R127). -/
  tryOnly : Option Nat
  deriving DecidableEq, Repr

/-! ### Commands and completions (Chapters 6 and 7) -/

/-- Idempotence classes (Table 7.4). -/
inductive Idem where
  | rx | ck | oo
  deriving DecidableEq, Repr

/-- Ledger classes (Table 7.5). -/
inductive Lcls where
  | n | c | w
  deriving DecidableEq, Repr

/-- The objects commands act on (R175). -/
inductive Obj where
  | device | chan (n : Nat) | group (n : Nat) | flow (n : Nat) | eth (n : Nat) | plc (n : Nat) | slot (n : Nat)
  | tdm (n : Nat) | ctx (n : Nat) | ctxPool | core (n : Nat) | kernel (n : Nat) | recorder (n : Nat)
  | rule (n : Nat) | toneset (n : Nat) | pair (n : Nat) | result (n : Nat)
  deriving DecidableEq, Repr

/-- What a command that has begun waits for before its FINAL entry. -/
inductive Wait where
  /-- Not begun, or nothing. -/
  | idle
  /-- Staged for the next schedule commit (R181). -/
  | commit
  /-- In force from the named channel's next frame boundary (R181). -/
  | frame (chan : Nat)
  /-- A domain reaching its state (R85). -/
  | domain (d : Nat)
  /-- Link up of an ETH port (R496). -/
  | link (port : Nat)
  /-- Calibration, join, leave, slot-map change or route of a PLC port. -/
  | plcCal (port : Nat) | plcJoin (port : Nat) | plcLeave (port : Nat) | plcMap (port : Nat)
  /-- A coefficient fade of an Opal slot (R415). -/
  | fade (slot : Nat)
  /-- A TDM port settling (R425). -/
  | tdm (port : Nat)
  /-- Acknowledgement of an assured message (R202). -/
  | assured (flow : Nat) (seq : BitVec 16)
  /-- The end of a Topaz job. -/
  | tpz (ctx : Nat)
  /-- The end of an Agate run. -/
  | agate
  /-- The end of eFuse programming. -/
  | fuse
  /-- A core reaching STANDBY, or leaving service, at a schedule commit. -/
  | core (n : Nat)
  /-- The last segment of a recorder. -/
  | recorder (n : Nat)
  /-- S12 of the start that follows (R179). -/
  | reset
  deriving DecidableEq, Repr

/-- How a command ended: its status and its result. -/
structure Ended where
  status : Nat
  result : List Byte
  deriving DecidableEq, Repr

/-- A command that has been started on and is not yet retired (R143). -/
structure Cmd where
  queue : Nat
  seq : BitVec 16
  instr : Instr
  opcode : Nat
  check : BitVec 32
  noack : Bool
  emerg : Bool
  resultLen : Nat
  idem : Idem
  objs : List Obj
  /-- The ledger entry, and its LSN. -/
  lref : Option Nat
  lsn : Nat
  /-- CLK_USEC at the start of execution. -/
  started : Option Nat
  wait : Wait
  /-- CLK_USEC at which its timeout expires. -/
  deadline : Option Nat
  fin : Option Ended
  finWritten : Bool
  /-- Its item, for ledger class W, is delivered. -/
  delivered : Bool
  replayed : Bool
  /-- No entry is written until the sequence is submitted again (R161). -/
  suspended : Bool
  /-- A NOP stands in for it (R161). -/
  standIn : Bool
  /-- What its execution has settled already: the result, or the choice Onyx has made (R181). -/
  early : List Nat
  deriving DecidableEq, Repr

/-- A completion entry (Table 6.4): the words at bytes 8-11 and 12-15, and the whole result payload. -/
structure Cpl where
  typ : Nat
  seq : BitVec 16
  status : Nat
  orig : Nat
  opcode : Nat
  trunc : Bool
  replayed : Bool
  w8 : Nat
  w12 : Nat
  payload : List Byte
  /-- Bytes the host has room for at RESULT_ADDR. -/
  room : Nat
  /-- The entry is of a command of queue 0, or is signalled at once (R155). -/
  urgent : Bool
  deriving DecidableEq, Repr

/-- The header under which a fetched command reaches Onyx (R145): a WCLASS 3 item with DEST 0x00 and SRC 0x01. -/
def cmdHeader (q : Nat) (seq : BitVec 16) (plen : Nat) : WH :=
  { wclass := 3, prio := if q = 0 then 0 else 3, assured := false, dest := 0x00, src := 0x01, chan := BitVec.ofNat 13 q, seq := seq,
    len := BitVec.ofNat 16 (16 + plen), lref := 0, rsvd := 0, settle := false, err := false, last := true, stamp := 0 }

/-- A submission entry fetched and not yet accepted or refused: its 64 bytes, its indirect parameters, and the header of its item, with
the stamp of the fetch. -/
structure Fetched where
  slotSeq : BitVec 16
  entry : List Byte
  params : List Byte
  wh : WH := cmdHeader 0 0 0
  deriving DecidableEq, Repr

/-- One of the four command queues. -/
structure QueueSt where
  /-- The next sequence to be checked. -/
  exp : BitVec 16
  /-- TAILSEQ of the last accepted doorbell, the reference of R144. -/
  tail : BitVec 16
  fetched : List Fetched
  /-- MSPI: submissions in the on-chip ring that have not been fetched (R163). -/
  ring : List Fetched := []
  /-- Entries ready and not yet written, oldest first. -/
  held : List Cpl
  /-- Entries written and not yet acknowledged, with their ring index. -/
  written : List (Nat × Cpl)
  /-- HEAD as last written. -/
  head : Nat
  /-- Entries written since the last signal, and when the hold on the first ends. -/
  unsig : Nat
  sigBy : Option Nat
  /-- MSPI: the read cursor (R164). -/
  cursor : Nat
  deriving DecidableEq, Repr

/-- A notification held for the host (Table 6.4, R191). -/
structure Notif where
  code : Nat
  detail : Nat
  w12 : Nat
  rtb : BitVec 64
  w24 : Nat
  /-- Completion entries held on the notification queue when it was raised, and not written since: it is written after them (R148). -/
  behind : Nat := 0
  deriving DecidableEq, Repr

/-- The PCI Express link as the block sees it: up, and a non-fatal error reported through AER (R138, R167). -/
structure LinkSt where
  up : Bool
  aer : Bool
  deriving DecidableEq, Repr

/-- A recorder segment whose ledger entry is committed and that the host has not yet acknowledged (R152). -/
structure Seg where
  num : BitVec 32
  recorder : Nat
  queue : Nat
  lref : Nat
  addr : BitVec 64
  len : Nat
  rtb : BitVec 64
  /-- Its bytes, which wait in DDR (R302). -/
  data : List Byte
  /-- Its SEGMENT entry has been written. -/
  written : Bool
  deriving DecidableEq, Repr

structure HostSt where
  queues : Tbl QueueSt
  cmds : List Cmd
  notifs : List Notif
  /-- Notifications lost since the last LOST entry (R153). -/
  lost : Nat
  notifyMask : BitVec 32
  link : LinkSt
  /-- Queue ownership in force; a change of HB_QOWN waits for a host link reset (R165). -/
  owner : BitVec 4
  /-- HB_QOWN as each interface took it at its last host link reset. -/
  ownP : BitVec 4
  ownM : BitVec 4
  /-- Segments committed and not acknowledged, in segment-number order, and the last number written. -/
  segs : List Seg
  segLast : BitVec 32
  /-- The last segment number assigned (R152). -/
  segNum : BitVec 32
  /-- Heartbeat: the value at the end of the last period, misses, and the end of the present period. -/
  hbPrev : BitVec 32
  hbMisses : Nat
  hbPeriodEnd : Nat
  absent : Bool
  /-- The end of the present DEVBEAT period. -/
  devbeatAt : Nat
  /-- Messages sent on each MSI-X vector. -/
  msi : Tbl Nat
  /-- Round-robin position among queues 1 to 3 (R145). -/
  rr : Nat
  /-- The last MSPI response: STATUS and data (R164). -/
  mspiResp : Option (BitVec 8 × List Byte)
  deriving DecidableEq, Repr

/-! ### Accepted work (Chapter 8) -/

/-- A Work Ledger entry (Table 8.3). -/
structure LEntry where
  state : BitVec 8
  phase : BitVec 8
  flags : BitVec 8
  fstatus : BitVec 8
  tepoch : BitVec 24
  kind : BitVec 8
  lsn : BitVec 64
  accTime : BitVec 64
  idem : BitVec 8
  origin : BitVec 56
  rref : BitVec 40
  rsize : BitVec 8
  object : BitVec 16
  check : BitVec 32
  bchk : BitVec 32
  deriving DecidableEq, Repr

/-- The ledger port's tail register (R206). -/
structure LTail where
  index : Nat
  lsn : BitVec 64
  /-- W2, W3, W4, W5 have been written since OPEN. -/
  mask : BitVec 4
  /-- The command whose entry it is, as its retained record has it. -/
  cmd : Option Cmd := none
  deriving DecidableEq, Repr

structure LedgerSt where
  entries : Tbl LEntry
  nextLsn : BitVec 64
  tail : Option LTail
  /-- The live-entry map: the indexes whose bit is set. -/
  live : List Nat
  /-- Room taken in the retained-record region, KiB (R204, R213). -/
  recKib : Nat
  /-- Retained records of commands whose entries the Sealer has completed, until replay takes them up (R222). -/
  sealed : List Cmd := []
  deriving DecidableEq, Repr

/-- A lease register (Table 8.9). -/
structure Lease where
  owner : BitVec 8
  epoch : BitVec 24
  state : Nat
  rclass : BitVec 8
  rindex : BitVec 16
  duration : BitVec 20
  deadline : BitVec 44
  stale : BitVec 32
  deriving DecidableEq, Repr

/-! ### Logs (Chapter 18) -/

/-- A fault journal record without its CHECK (Table 18.5). -/
structure JRec where
  seq : BitVec 32
  code : BitVec 16
  unit : BitVec 8
  resp : BitVec 8
  rtb : BitVec 64
  usec : BitVec 64
  bootno : BitVec 32
  d0 : BitVec 32
  d1 : BitVec 32
  evidence : List Byte
  deriving DecidableEq, Repr

structure JournalSt where
  recs : Tbl JRec
  wridx : Nat
  nextSeq : BitVec 32
  startSeq : BitVec 32
  deriving DecidableEq, Repr

/-- A violation record without its CHECK (Table 18.7). -/
structure VRec where
  index : BitVec 32
  iface : BitVec 8
  port : BitVec 8
  vcode : BitVec 16
  action : BitVec 8
  summary : Bool
  flow : BitVec 16
  count : BitVec 32
  rtb : BitVec 64
  partner : List Byte
  evidence : List Byte
  deriving DecidableEq, Repr

/-- Occurrences of one violation in the present window (R504). -/
structure VWin where
  iface : BitVec 8
  port : BitVec 8
  vcode : BitVec 16
  action : BitVec 8
  /-- Occurrences without a record, and RTB ns of the first of them. -/
  n : Nat
  first : BitVec 64
  /-- Records written. -/
  w : Nat
  deriving DecidableEq, Repr

structure PvlSt where
  recs : Tbl VRec
  next : BitVec 32
  win : List VWin
  /-- Records written in the window, and occurrences beyond the device limit. -/
  written : Nat
  excess : Nat
  exFirst : BitVec 64
  /-- Start of the window, CLK_USEC. -/
  since : Nat
  deriving DecidableEq, Repr

/-! ### The control processor (Chapter 18) -/

/-- Where an Onyx restart stands (R480). -/
inductive OnyxPhase where
  /-- Held in reset, or not yet started by the boot. -/
  | off
  /-- The boot ROM or the restart ROM runs. -/
  | rom
  /-- A restart: image verified, firmware rebuilding its state. -/
  | rebuild
  /-- Resumed; replay and schedule building go on until the first commit. -/
  | replay
  | running
  deriving DecidableEq, Repr

/-- What Onyx firmware will record once it runs again (R42, R478). -/
inductive Deferred where
  | note (n : Notif)
  | jour (code unit resp d0 d1 : Nat) (ev : List Byte)
  /-- The trigger of an emergency rule: TRIGGER, SRC and tone (R300). -/
  | rule (trigger src tone : Nat)
  /-- An acknowledgement on a flow: SEQ, CREDIT and the path it came over (R403). -/
  | ack (flow : Nat) (seq : BitVec 16) (credit path : Nat)
  /-- A management message of a PLC port for this node (R403). -/
  | mgmt (port : Nat) (fr : PlcFrame) (body : List Byte)
  deriving DecidableEq, Repr

structure OnyxSt where
  phase : OnyxPhase
  /-- CLK_USEC of the mismatches, and of the checker faults, of the last 60 s. -/
  mismatches : List Nat
  checkers : List Nat
  /-- Mismatches are masked by a parity error (R485). -/
  masked : Bool
  /-- Comparison is on. -/
  checking : Bool
  /-- A warm reset for ONYX_PERSISTENT has been made; S12 DONE of its start, when reached (R487). -/
  persistent : Bool
  persistentDone : Option Nat
  /-- CLK_USEC of the fault that began the restart; 1 retained image, 2 flash. -/
  faultAt : Nat
  image : Nat
  /-- A LOCKSTEP_DEGRADED recorded while restarting. -/
  lateDegraded : Option Nat
  /-- Entries whose retained record failed its check at the restart under way (R209, log 117). -/
  badRecs : List Nat := []
  /-- IMEM and DMEM as the core part of the image left them at S5 (R109, R124). -/
  imem : List Byte := []
  dmem : List Byte := []
  /-- Events that wait in the Onyx boundary queue (R42). -/
  events : List Deferred
  /-- The conditions for DEGRADED that hold, each a code and an index (R158). -/
  degraded : List (Nat × Nat)
  emergReserve : Nat
  /-- The highest thermal level entered, and the junction temperature (R505). -/
  thermal : Nat
  temp : Int
  deriving DecidableEq, Repr

end Sys2Proof.Machine
end

