-- ==== Sys2Proof/Machine/StGarnet.lean ====
section
/-! DEFINITION. State of the Garnet cores, their Spinel engines, customer kernels and the internal fabric (Chapters 2,
9, 10). -/

namespace Sys2Proof.Machine

/-! ### Fabric (Chapter 2) -/

/-- A unit of work: its header and its payload (R25). -/
structure Item where
  wh : WH
  payload : List Byte
  deriving DecidableEq, Repr

/-- A rejection captured: the header, the first 16 payload bytes, and the cause (R44). -/
structure RejRec where
  wh : WH
  head : List Byte
  cause : Nat
  deriving DecidableEq, Repr

/-- The rejection counters and buffer of one port (R44). -/
structure RejPort where
  /-- Counters by cause, Table 2.8 order 1 to 5. -/
  counts : Tbl Nat
  buf : List RejRec
  overflow : Bool
  /-- Rejections that found the buffer full since Onyx last freed it. -/
  missed : Nat
  deriving DecidableEq, Repr

/-- A lane's token bucket at a sending port, in half flits, with the time it stood so (R38). -/
structure Bucket where
  level : Nat
  at' : Nat
  deriving DecidableEq, Repr

structure FabricSt where
  /-- Items past their sending port and not yet delivered, oldest first. -/
  flight : List Item
  /-- Items their units have offered and that wait at the sending port, oldest first. -/
  wait : List Item
  /-- Token buckets by port and lane. -/
  tokens : Tbl Bucket
  rej : Tbl RejPort
  /-- Items that left a core at a frame's commit, with the customer kernel that sent each, if one did (R44, R305). -/
  kern : List (Item × Option Nat)
  /-- The source last served at a destination port, by port and lane (R39). -/
  served : Tbl Nat
  /-- SEQ of the next item by source, where no unit's own state holds it (R28): 7 × 65,536 + unit for events, 1 × 65,536 + port or
  flow for packets that Onyx builds, 5 × 65,536 + context for compression jobs. -/
  seqs : Tbl (BitVec 16)
  deriving DecidableEq, Repr

/-! ### Registers of a core -/

/-- The registers of Table 9.3 as one instant has them: by the codes of Table 10.2, and the accumulator lanes (An.H at
2n, An.L at 2n + 1). A code that is not listed holds zero. -/
structure Arch where
  r : Tbl Word48
  a : Tbl AccLane
  deriving DecidableEq, Repr

/-- A write that address generation, or the loop hardware, does not see yet: how many instructions ago, the register
and its value (R238). -/
structure Late where
  age : Nat
  code : Nat
  val : Word48
  deriving DecidableEq, Repr

/-! ### Jobs -/

/-- The job kinds of R288, and the mix of a group (R299). -/
inductive JobKind where
  | rx | ecd | krn (stage kid : Nat) | tx | mix
  deriving DecidableEq, Repr

structure Job where
  /-- The channel, or the group of a mix. -/
  chan : Nat
  kind : JobKind
  /-- The voice frame it works on. -/
  seq : BitVec 16
  /-- The urgent lane (R289). -/
  urgent : Bool
  /-- CLK_USEC at job entry. -/
  entered : Nat
  /-- Its outputs will not be committed (R308). -/
  aborted : Bool
  deriving DecidableEq, Repr

/-! ### Spinel (R274 to R278) -/

/-- One element of a list (Table 10.8). -/
structure SpElem where
  rspace : Nat
  raddr : Nat
  laddr : Nat
  form : Nat
  len : Nat
  deriving DecidableEq, Repr

structure SpList where
  /-- SPN_STAT.BUSY: outstanding. -/
  busy : Bool
  addr : BitVec 24
  /-- SPN_START. -/
  start : BitVec 4
  /-- The first element of the GO in force, and MODE.USR at its store. -/
  first : Nat
  usr : Bool
  /-- Read and validated; scatter; every element. -/
  valid : Bool
  scatter : Bool
  elems : List SpElem
  lv : Bool
  lidx : Nat
  lepoch : BitVec 24
  irqOn : Bool
  /-- SPN_STAT: END, FAULT, DONE, FIDX, CAUSE. -/
  endB : Bool
  fault : Bool
  done : Nat
  fidx : Nat
  cause : Nat
  /-- SPN pends for this list. -/
  pend : Bool
  /-- A fault of CAUSE 1 to 4 not yet raised at a wait (R279). -/
  unrep : Bool
  deriving DecidableEq, Repr

/-! ### A core -/

/-- The windows of a customer kernel on a core: first word and number of words in IMEM and in DMEM (R229). -/
structure Window where
  ibase : Nat
  isize : Nat
  dbase : Nat
  dsize : Nat
  /-- CTX_W: words of the kernel context of a channel. -/
  ctx : Nat
  deriving DecidableEq, Repr

structure CoreSt where
  /-- All writes so far; all but the last instruction's; but the last two; but the last three (R238). -/
  cur : Arch
  h1 : Arch
  h2 : Arch
  h3 : Arch
  /-- Pointers as address generation sees them, and the loop registers as the loop hardware sees them. -/
  hw : Tbl Word48
  late : List Late
  /-- Stores of the last two instructions: the address and what it held before (R238). -/
  mlate : List Late
  pc : BitVec 16
  /-- In a delay slot: the branch's address and where execution goes after the slot. -/
  slot : Option (BitVec 16 × BitVec 16)
  /-- Instructions left of the MODE shadow (R234). -/
  shadow : Nat
  /-- An entry has not been returned from (R235). -/
  inExc : Bool
  cycle : BitVec 24
  tmrcmp : BitVec 24
  /-- TMR pends. -/
  tmr : Bool
  /-- The item of the last FSEND, while BUSY. -/
  fsend : Option Item
  /-- Output items held until the frame's commit (R305), each with the job that sent it. -/
  held : List (Job × Item)
  /-- DMEM addresses of the items received, oldest first. -/
  frx : List (BitVec 24)
  /-- The four lists, and the outstanding ones in the order of their GO stores. -/
  lists : Tbl SpList
  order : List Nat
  dmem : Tbl Word48
  /-- The job that runs, and those of the present TICK not yet begun. -/
  job : Option Job
  queue : List Job
  win : Option Window
  /-- STATE of R490. -/
  st : Nat
  /-- ECAUSE of the last fault the dispatcher recorded. -/
  ecause : BitVec 24
  /-- Jobs of the present TICK whose frames were not committed when the core faulted (R306). -/
  redo : List Job
  /-- FAULTED, and its channels have not been moved yet. -/
  migrate : Bool
  /-- COUNTERS group 4: corrected errors, uncorrectable errors reported by Spinel, faults. -/
  ecc : Nat
  spUe : Nat
  faults : Nat
  deriving DecidableEq, Repr

/-! ### Customer kernels (R227, R230, R308) -/

structure Kernel where
  win : Window
  govq : Bool
  ddata : List Word48
  dbss : Nat
  ctx : Nat
  entry : Nat
  wcet : Nat
  mode : BitVec 24
  stages : BitVec 16
  toolver : BitVec 16
  code : List Word48
  /-- 0 LOADED, 1 BOUND, 2 QUARANTINED. -/
  st : Nat
  faults : Nat
  cause : Nat
  core : Nat
  deriving DecidableEq, Repr

structure GarnetSt where
  cores : Tbl CoreSt
  kernels : Tbl Kernel
  /-- Cluster shared memory, by cluster, and DDR: bytes by address. -/
  clMem : Tbl (Tbl Byte)
  ddr : Tbl Byte
  deriving DecidableEq, Repr

end Sys2Proof.Machine
end

