-- ==== Sys2Proof/Machine/StNet.lean ====
section
/-! DEFINITION. State of the Ethernet ports and the packet engine (Chapter 12), and of assured messages between nodes
(R201 to R203). -/

namespace Sys2Proof.Machine

/-- An SRTP key in one direction (R328). -/
structure SrtpKey where
  suite : Nat
  kdr : Nat
  roc : BitVec 32
  key : List Byte
  salt : List Byte
  /-- SRTP packets under this key, and the highest index authenticated, and the indexes of the last 128 seen. -/
  count : Nat
  top : Option Nat
  seen : List Nat
  /-- SRTCP packets under this key (R328). -/
  ctl : Nat
  deriving DecidableEq, Repr

/-- An assured message at its sending node, until it is acknowledged (R202). -/
structure AMsg where
  seq : BitVec 16
  lref : Nat
  prio : Nat
  payload : List Byte
  /-- Sent at least once; CLK_USEC of the last time. -/
  sent : Bool
  sentAt : Nat
  /-- STAMP and FLAGS it was offered with, which Onyx passes on unchanged (R30, R31, R35). -/
  stamp : BitVec 40 := 0
  settle : Bool := false
  err : Bool := false
  last : Bool := true
  deriving DecidableEq, Repr

/-- An assured message delivered to Onyx and offered for acceptance: SEQ, STAMP and FLAGS of its item (R30, R31, R49). -/
structure Offer where
  seq : BitVec 16
  stamp : BitVec 40
  settle : Bool
  err : Bool
  last : Bool
  deriving DecidableEq, Repr

structure Flow where
  kind : Nat
  portIn : Nat
  vlan : Nat
  chan : Nat
  linkchan : Nat
  prio : Nat
  egress : Nat
  flags : Nat
  mtch : List Byte
  template : Option (List Byte)
  tx : Option SrtpKey
  rx : Option SrtpKey
  /-- The older receive key and the CLK_USEC at which it goes (R329). -/
  rxOld : Option (SrtpKey × Nat)
  /-- The flow has reached the limit of its key and has stopped (R328). -/
  stopped : Bool
  /-- Counters of Table 12.8 by byte offset. -/
  stats : Tbl Nat
  /-- RTP sequence number and timestamp of the next packet. -/
  rtpSeq : BitVec 16
  rtpTs : BitVec 32
  ssrc : Option (BitVec 32)
  /-- NEXT_SEQ of the receiving node, and consecutive discards of later messages (R201, R203). -/
  nextSeq : BitVec 16
  later : Nat
  /-- Messages of the sending node, oldest first; SEQ of the next one; the receiver's credit. -/
  out : List AMsg
  txSeq : BitVec 16
  credit : Nat
  /-- Consecutive retry intervals without an acknowledgement (R331). -/
  misses : Nat
  /-- The PLC port it has fallen over to, and the one its DEST will be rewritten to at its frame boundary (R341, R401). -/
  fallen : Option Nat
  falling : Option Nat
  /-- Every path is lost: messages are kept (R183). -/
  noPath : Bool
  /-- RTCP: the port it was last received on, and when the next packet is due. -/
  rtcpPort : Option Nat
  rtcpAt : Nat
  /-- Source address of the last assured message received, and the messages last offered, at most 16 (R30, R49). -/
  peer : Option (BitVec 48) := none
  offers : List Offer := []
  /-- The last item sent was a no-data frame: the next packet begins a talkspurt (R325). -/
  dtx : Bool := false
  deriving DecidableEq, Repr

/-- An item in an egress class queue. -/
structure QItem where
  item : Item
  flow : Option Nat
  /-- Channel of a voice item. -/
  voice : Option Nat
  /-- CLK_USEC at which it entered a class queue (R339). -/
  at' : Nat
  /-- Bytes on the wire with FCS; buffer cells; the port it was received on. -/
  bytes : Nat
  cells : Nat
  inPort : Option Nat
  /-- The frame as it goes out, destination address to the byte before the FCS (R312). -/
  frame : List Byte := []
  deriving DecidableEq, Repr

structure EthPort where
  /-- SEQ of the next received packet (Table 2.3). -/
  rxSeq : BitVec 16
  /-- Class queues, and the held queue by class (R338). -/
  q : Tbl (List QItem)
  held : Tbl (List QItem)
  /-- The frame being sent, with its class. -/
  sending : Option (Nat × QItem)
  /-- A pause by the partner ends; the watchdog's count began; the hold-off ends (CLK_USEC). -/
  pauseUntil : Option Nat
  wdSince : Option Nat
  holdoff : Option Nat
  /-- The hold time, the settle time, ends. -/
  holdUntil : Option Nat
  settleUntil : Option Nat
  /-- The port has sent XOFF; when it repeats. -/
  xoff : Option Nat
  /-- Frames to Onyx in the present second, and its start (R324). -/
  rateN : Nat
  rateAt : Nat
  /-- PAUSE and MAC Control frames discarded (R316; Edges); no register of Table 12.9 shows the count (log 46). -/
  ctlDisc : Nat := 0
  deriving DecidableEq, Repr

structure PrpPair where
  seqNr : BitVec 16
  /-- Frames seen: source, SeqNr, LAN (0 A, 1 B), CLK_USEC; oldest first. -/
  seen : List (BitVec 48 × BitVec 16 × Nat × Nat)
  /-- Sources in the table, oldest first. -/
  srcs : List (BitVec 48)
  supAt : Nat
  deriving DecidableEq, Repr

/-- PTP_CFG in force (R335). -/
structure PtpCfg where
  port : Nat
  oneStep : Bool
  domain : Nat
  logsync : Int
  deriving DecidableEq, Repr

/-- A received frame emitted as an item: its port, buffer cells, flow, and the item (R313, R317). -/
structure RxItem where
  port : Nat
  cells : Nat
  flow : Option Nat
  item : Item
  deriving DecidableEq, Repr

structure NetSt where
  flows : Tbl Flow
  ports : Tbl EthPort
  pairs : Tbl PrpPair
  ptp : Option PtpCfg
  /-- Received frames emitted as items and still in the packet buffer. -/
  rx : List RxItem
  deriving DecidableEq, Repr

end Sys2Proof.Machine
end

