-- ==== Sys2Proof/Machine/StOpal.lean ====
section
/-! DEFINITION. State of Opal and of the TDM ports beyond their registers (Chapter 15). -/

namespace Sys2Proof.Machine

/-- A comparator of a slot (R419): armed, and the CLK_USEC until which it reports nothing. -/
structure OThr where
  armed : Bool
  hold : Option Nat
  deriving DecidableEq, Repr

/-- A configuration of a slot as SSC_SLOT_CFG gives it (R410). -/
structure OCfg where
  src : Nat
  preset : Nat
  rcic : Nat
  d : Nat
  median : Nat
  phase : Nat
  shift : Nat
  chan : Nat
  deriving DecidableEq, Repr

/-- A coefficient load as SSC_COEF gives it (R413, R415). -/
structure OCoef where
  fade : Nat
  half : Bool
  h : List Int
  deriving DecidableEq, Repr

/-- A change that takes effect at the next output of an enabled slot (R418). -/
inductive OPend where
  | cfg (c : OCfg) | coef (c : OCoef)
  deriving DecidableEq, Repr

/-- One output waiting for its block: value, marked SETTLE, and the RTB ns at which its newest input was taken. -/
structure OOut where
  y : Int
  settle : Bool
  tIn : Nat
  deriving DecidableEq, Repr

structure OSlot where
  /-- SSC_SLOT_CFG has been applied; coefficients are loaded. -/
  conf : Bool
  loaded : Bool
  /-- The two coefficient banks, and τ of R416 in 1/100 intermediate samples, where a minimum-phase set has been loaded. -/
  b0 : List Int
  b1 : List Int
  tau : Option Int
  /-- Integrators and combs of the CIC, the last values for the median, the FIR memory, newest first. -/
  integ : List Nat
  comb : List Nat
  med : List Int
  fir : List Int
  /-- Outputs of the present fade in all, and made so far; none while `fadeN` is 0. -/
  fadeN : Nat
  fadeK : Nat
  /-- GDELAY from the first block after the fade. -/
  gdNext : Option Nat
  /-- GDELAY of the present block. -/
  gdBlk : Nat
  thr : Tbl OThr
  block : List OOut
  seq : BitVec 16
  pend : Option OPend
  /-- Loopback samples waiting, with their RTB ns (R409). -/
  loop : List (Int × Nat)
  deriving DecidableEq, Repr

/-- A candidate of the in-band alignment search: offset and consecutive matches (R426). -/
structure TdmCand where
  offset : Nat
  n : Nat
  deriving DecidableEq, Repr

/-- A committed frame for a transmit entry: TICKs it plays, its stamp, and whether it has samples, and those (R424). -/
structure TdmFrm where
  ticks : Nat
  stamp : Nat
  live : Bool
  samples : List Int
  deriving DecidableEq, Repr

/-- What a transmit entry plays: frames waiting, the TICKs left of the present one, and its samples still to be played, oldest first (R424). -/
structure TdmTx where
  waiting : List TdmFrm
  left : Nat
  play : List Int := []
  deriving DecidableEq, Repr

structure TdmPort where
  /-- Entries of the slot map in force. -/
  n : Nat
  /-- Frame sync: the new position seen once, and consecutive expected positions without one (R422). -/
  prevFs : Option Nat
  miss : Nat
  /-- In-band search and check. -/
  cands : List TdmCand
  ambig : Nat
  hist : List Bool
  /-- A frame since the last TICK was received out of alignment. -/
  err : Bool
  /-- The port has started, and its enable ends at this CLK_USEC (R425). -/
  settleAt : Option Nat
  seq : BitVec 16
  tx : Tbl TdmTx
  /-- Samples received by entry since its last block, and the RTB ns of the first bit of the first of them (R424). -/
  rx : Tbl (List Int) := []
  rxAt : Tbl Nat := []
  /-- The bytes received last, and the slots sent last (R421). -/
  prev : List Byte := []
  out : List Byte := []
  deriving DecidableEq, Repr

end Sys2Proof.Machine
end

