-- ==== Sys2Proof/Machine/StPlc.lean ====
section
/-! DEFINITION. State of the powerline ports (Chapters 13 and 14), and of fallover between an ETH port and a PLC port. -/

namespace Sys2Proof.Machine

/-- One entry of a slot map (R382). -/
structure MapEntry where
  start : Nat
  len : Nat
  kind : Nat
  /-- MODE of Table 13.7, and TMI. -/
  mode : Nat
  tmi : Nat
  owner : Nat
  deriving DecidableEq, Repr

/-- A slot map (R382). -/
structure SMap where
  vmode : Nat
  enrmax : Nat
  entries : List MapEntry
  deriving DecidableEq, Repr

/-- A unit in a port's transmit queue (R398, R399). -/
structure PUnit where
  /-- Frame type (Table 14.2). -/
  ft : Nat
  /-- Its flow, and its channel when it is voice. -/
  flow : Option Nat
  voice : Option Nat
  /-- CLK_USEC of its first enqueue (R339, R398). -/
  at' : Nat
  /-- Final destination node, where Onyx has set it; 0xFFF broadcast. -/
  final : Option Nat
  prio : Nat
  assured : Bool
  lchan : Nat
  seq : BitVec 16
  segidx : Nat
  last : Bool
  body : List Byte
  /-- SETTLE and ERR of the item it is built from (R30). -/
  settle : Bool := false
  err : Bool := false
  /-- A relayed unit's ORIG, its next hop where a chain fixes it, and hops remaining (R377, R393, R394). -/
  orig : Option Nat := none
  hop : Option Nat := none
  ttl : Nat := 8
  /-- Attempts made in contention slots, and contention slots still to let pass (R390). -/
  tries : Nat
  wait : Nat
  deriving DecidableEq, Repr

/-- A frame being sent: what it was built from, and its symbols, each carrier's phase against REF in units of π/4
(R358, R360, R365, R366). -/
structure PTx where
  ft : Nat
  entry : Nat
  units : List PUnit
  /-- Next-hop node; symbol positions it takes. -/
  rxa : Nat
  len : Nat
  /-- The link header it carries; it goes in a contention slot. -/
  hdr : LinkHdr
  cont : Bool
  /-- Its RMS level in dB below full scale (R347). -/
  level : Nat
  /-- The preamble's carriers, each with its phase in units of π/M (R357), and those of REF in units of π/Nc (R358). -/
  pre : List (Nat × Nat)
  ref : List (Nat × Nat)
  hdrSyms : List (List Nat)
  paySyms : List (List Nat)
  deriving DecidableEq, Repr

/-- Where the receiver of a port stands (R370 to R375). -/
inductive PRx where
  /-- The search runs. -/
  | search
  /-- A candidate: its false-start point, and the RTB of its detection point. -/
  | cand (start : Nat) (stamp : BitVec 64)
  /-- A valid header: payload bytes, payload symbols, frame type, and the RTB of the detection point. -/
  | frame (plen nsym ft : Nat) (stamp : BitVec 64)
  deriving DecidableEq, Repr

/-- A node that has joined, at the coordinator or master (R389, R391). -/
structure PNode where
  uid : BitVec 64
  /-- SFNO of its last NBR_REPORT, and reports missed. -/
  reportAt : Nat
  missed : Nat
  /-- Its neighbours as it last reported them: node, cost, TMI. -/
  nbrs : List NbrEntry
  /-- Polled mode: SFNO of the last exchange, consecutive misses, and the chain in use. -/
  polledAt : Nat
  misses : Nat
  chain : List Nat
  /-- Chains excluded, and the CLK_USEC until which. -/
  excluded : List (List Nat × Nat)
  /-- A poll is out, with its BUDGET. -/
  poll : Option Nat
  deriving DecidableEq, Repr

/-- A neighbour as this port measures it (R391, R392). -/
structure PNbr where
  /-- SFNO at which it was last heard. -/
  heardAt : Nat
  /-- M_j in units of 0.5 dB. -/
  margin : Int
  /-- The last 64 unicast transmissions that need an acknowledgement; true for a repeat. -/
  sent : List Bool
  /-- The richest map that it reports to decode from this node (R385), and the richest that this node decodes from it. -/
  tmi : Nat
  dec : Nat := 0
  hops : Nat
  /-- COST of its last beacon, if it sends beacons, and SFNO of that beacon. -/
  bcost : Option Nat
  bfrom : Nat
  deriving DecidableEq, Repr

/-- A request for the emergency slot that is held (R396): link channel, requesting node, peer. -/
structure EmReq where
  lchan : Nat
  node : Nat
  peer : Nat
  deriving DecidableEq, Repr

/-- Where a node stands in joining (R389). -/
inductive PJoin where
  | no
  /-- Listening: superframes left. -/
  | listen (left : Nat)
  /-- JOIN_REQ sent: superframes left of the wait. -/
  | asked (left : Nat)
  /-- JOIN_ACC held; the map for the beacon's SMGEN is awaited. -/
  | accepted
  deriving DecidableEq, Repr

structure PlcPort where
  /-- PLC_PORT_CFG has been given. -/
  conf : Bool
  calibrating : Bool
  /-- Network it seeks: its configured NETID, or that of a RESIGN (R389, R404); and the address it asks for. -/
  seek : Nat
  want : Nat
  join : PJoin
  /-- CW and the number of JOIN_REQ attempts (R390). -/
  cw : Nat
  /-- T_SF of the superframe in progress, RTB ns; superframes since service began. -/
  tsf : Option (BitVec 64)
  /-- SMGEN and the slot map in force, the one that takes effect at an SFNO, and parts received. -/
  smgen : Nat
  map : Option SMap
  next : Option (Nat × Nat × SMap)
  parts : List (Nat × Nat × Nat × List Byte)
  /-- SLOTMAP broadcasts still to make. -/
  mapCasts : Nat
  /-- Tone maps 1 to 15, and those that wait for their SFNO. -/
  tones : Tbl (List Byte)
  pendTones : List (Nat × Nat × List Byte)
  txq : List PUnit
  sending : Option PTx
  rx : PRx
  /-- RTB of the detection point of the frame last decoded (R31). -/
  rxStamp : BitVec 64 := 0
  /-- PGA gain in steps of 6 dB (R370), and false-start points of rejected candidates (R373). -/
  pga : Nat
  rejected : List Nat
  /-- The sample up to which the search has got, and the sample time at which it had (R373). -/
  searched : Nat := 0
  searchedAt : Nat := 0
  /-- RTB ns from which received samples count again after a transmission (R370). -/
  deafTo : Nat := 0
  /-- BLANKED, RX_OVR and the like are registers; here the frames decoded and not yet offered. -/
  nodes : Tbl PNode
  nbrs : Tbl PNbr
  /-- Next hops by destination (R393), with those of other nodes as last computed: node × 4096 + destination. -/
  routes : Tbl Nat
  allRoutes : Tbl Nat
  /-- The parent (R387), the coordinator or master, and this node's route cost to it. -/
  parent : Option Nat
  coord : Option Nat
  cost : Nat
  /-- Offsets T_SF − crossing of the last 8 beacons, ns (R380). -/
  phases : List Int
  /-- Superframes since a beacon was received (R391), and a beacon in the present one. -/
  silent : Nat
  /-- Superframes since the last NBR_REPORT sent. -/
  sinceRep : Nat
  /-- The grant of the emergency slot: owner, peer, relays; superframes without an emergency frame from the owner. -/
  emown : Nat
  empeer : Nat
  erelay : List Nat
  emIdle : Nat
  emHeard : Bool
  /-- Requests held, at the coordinator or master; and this node's own, renewed every superframe. -/
  emReqs : List EmReq
  emMine : Option EmReq
  /-- Beacon flags received: FLAGS of the last beacon. -/
  bflags : Nat
  /-- Foreign beacons: NETID, node, consecutive superframes, heard in the present one (R404). -/
  foreign : List (Nat × Nat × Nat × Bool)
  /-- Superframes of RESIGN announcement left; configured NETID and ROLE of a port that has resigned. -/
  resignLeft : Option Nat
  resigned : Bool
  /-- Superframes without a foreign beacon. -/
  quiet : Nat
  /-- Assured data: segments received by flow, and SFNO of the last transmission and misses by flow. -/
  segs : Tbl (List (List Byte))
  sentSf : Tbl Nat
  /-- The flow's last transmission went in a contention slot (R390). -/
  sentCont : Tbl Bool := []
  /-- The parent's last beacon, from which a relay copies (R386). -/
  pbeacon : Option Beacon := none
  /-- Where a poll came from, by the slave it is for: the way its response goes back (R394). -/
  pollFrom : Tbl Nat := []
  /-- Chains fixed by PLC_ROUTE, by destination (R395). -/
  fixed : Tbl (List Nat)
  /-- The node to which a flow's messages were last sent. -/
  finals : Tbl Nat
  /-- The lease of its slot ownerships (R396). -/
  lease : Option Nat
  deriving DecidableEq, Repr

/-- FALLOVER_CFG of an ETH port (R401, R402), and whether its flows are moved. -/
structure FallCfg where
  plc : Nat
  auto : Bool
  autoReturn : Bool
  active : Bool
  deriving DecidableEq, Repr

structure PlcSt where
  ports : Tbl PlcPort
  /-- By ETH port. -/
  fall : Tbl FallCfg
  deriving DecidableEq, Repr

end Sys2Proof.Machine
end

