-- ==== Sys2Proof/Machine/StVoice.lean ====
section
/-! DEFINITION. State of voice processing and of the frame dispatcher (Chapter 11). -/

namespace Sys2Proof.Machine

/-- A frame received for a channel, placed in its jitter buffer (R296). -/
structure JbFrame where
  seq : BitVec 16
  /-- Play-out time without the depth: the RTP time mapped to RTB, ns. -/
  mapped : Nat
  arrived : Nat
  /-- Ingress STAMP, ns. -/
  stamp : BitVec 64
  settle : Bool
  err : Bool
  /-- SRTP authentication failed, or the item was lost, with this reason of Table 8.2. -/
  active : Bool
  deriving DecidableEq, Repr

/-- The jitter buffer of a channel (R296). -/
structure Jb where
  frames : List JbFrame
  /-- The mapping of RTP time to RTB: RTP timestamp, RTB ns and SSRC of the last frame mapped; and the RTB ns of the frame that set it. -/
  map : Option (BitVec 32 × Nat × BitVec 32)
  start : Nat
  /-- Relative delays of the last 128 frames, ns, newest last. -/
  delays : List Int
  /-- Depth and target in force, ns. -/
  depth : Nat
  target : Nat
  /-- RTB ns of the last insertion and the last removal, and since when the depth has exceeded target + PTIME. -/
  grewAt : Nat
  shrunkAt : Nat
  deepSince : Option Nat
  /-- Highest SEQ placed. -/
  newest : Option (BitVec 16)
  deriving DecidableEq, Repr

/-- The voice frame a channel works on: its jobs still to end (R287, R288). -/
structure VFrame where
  seq : BitVec 16
  /-- Jobs not ended. -/
  left : Nat
  /-- Index of the TICK at whose start the jobs were issued. -/
  tick : Nat
  settle : Bool
  /-- The reason of Table 8.2 under which it is missing; 0 none. -/
  loss : Nat
  /-- STAMP of its first local sample. -/
  stamp : BitVec 64
  deriving DecidableEq, Repr

/-- A tone being generated (R295): side, set, tone, and the RTB ns at which it ends. -/
structure ToneSt where
  dir : Nat
  set : Nat
  tone : Nat
  until' : Option Nat
  deriving DecidableEq, Repr

/-- A channel context (R284 to R297). -/
structure Chan where
  /-- Table 11.1. -/
  st : Nat
  p : ChParams
  core : Nat
  phase : Nat
  inB : BitVec 32
  outB : BitVec 32
  /-- SEQ of the next voice frame. -/
  seq : BitVec 16
  frames : List VFrame
  /-- The committed checkpoint: SEQ, and its slot and half (R305). -/
  ckpt : Option (BitVec 16 × Bool)
  jb : Jb
  /-- EC_STATE of Table 11.3 and ERLE in 0.1 dB (R293). -/
  ec : Nat
  erle : Int
  /-- G.711 clear channel after an answer tone (R294). -/
  bypass : Bool
  tone : Option ToneSt
  /-- The kernel bound at each stage (R307). -/
  binds : Tbl Nat
  /-- The counters of Table 11.5 by byte offset. -/
  stats : Tbl Nat
  /-- GOV and SOV bits found at job end (R253). -/
  gov : Nat
  sov : Nat
  /-- The core it moves to at its next frame boundary (R188, R492). -/
  moveTo : Option Nat
  /-- A powerline leg runs for it (R398). -/
  leg : Bool
  /-- The reason of Table 8.2 under which its frames are missing while it is STALLED. -/
  stall : Nat
  /-- CLK_USEC since which a warm reset keeps it from committing frames (reason 9). -/
  gapAt : Option Nat
  /-- Frames lost before the device's queues took them, whose play-out is still to come, by reason (R200). -/
  lostIn : List Nat
  /-- A sample block or a frame of another channel that carried SETTLE has reached its core since its last voice frame began (R30). -/
  settleIn : Bool
  deriving DecidableEq, Repr

/-- One member of a group (R299). -/
structure Member where
  chan : Nat
  talk : Bool
  listen : Bool
  gain : Int
  deriving DecidableEq, Repr

structure Group where
  maxl : Nat
  mix : Nat
  prio : Nat
  members : List Member
  deriving DecidableEq, Repr

/-- A closed segment waiting to be written (R302). -/
structure ClosedSeg where
  index : Nat
  /-- Its entry is committed: index and segment number. -/
  lref : Option (Nat × BitVec 32)
  deriving DecidableEq, Repr

structure Recorder where
  chan : Nat
  queue : Nat
  segMs : Nat
  bufaddr : BitVec 64
  buflen : Nat
  nbuf : Nat
  /-- The open segment: RTB ns of its start, frames, bytes, and frames not recorded. -/
  start : BitVec 64
  nframes : Nat
  bytes : Nat
  drops : Nat
  /-- Index of the open segment since REC_START. -/
  index : Nat
  /-- The frame records of the open segment. -/
  body : List Byte
  /-- Frame records that did not fit and wait for the segment to close, for the next one. -/
  spill : List (List Byte)
  closed : List ClosedSeg
  /-- The last segment number written to each buffer. -/
  bufLast : Tbl (BitVec 32)
  /-- REC_STOP has been applied: it ends with its last segment. -/
  stopping : Bool
  /-- Its last segment number. -/
  last : BitVec 32
  deriving DecidableEq, Repr

/-- An emergency rule (R300). -/
structure Rule where
  trigger : Nat
  src : BitVec 32
  group : Nat
  enabled : Bool
  deriving DecidableEq, Repr

/-- The frame dispatcher and the schedule in force (R290, R20). -/
structure SchedSt where
  /-- Index of the last TICK boundary. -/
  tick : Nat
  /-- Number of the next master frame to begin, four TICKs each. -/
  mf : Nat
  /-- The dispatcher issues jobs. -/
  running : Bool
  /-- The spares of the schedule in force, and of a schedule committed and not yet in effect. -/
  spares : List Nat
  next : Option (List Nat)
  /-- Commands placed in the schedule committed and not yet in effect, in acceptance order: queue and sequence. -/
  placed : List (Nat × BitVec 16)
  /-- Master frames begun since the last commit took effect. -/
  frozen : Nat
  /-- A first schedule has been committed since the start. -/
  committed : Bool
  /-- Clusters that are being emptied by a switch-off accepted (R91). -/
  noRoom : List Nat
  /-- Moves the next schedule makes: channel and core (R188, R492, R493). -/
  moves : List (Nat × Nat)
  /-- Joins that emergency rules make: group, channel, and 0 waiting, 1 placed, 2 at the frame boundary (R300). -/
  joins : List (Nat × Nat × Nat)
  deriving DecidableEq, Repr

structure VoiceSt where
  chans : Tbl Chan
  groups : Tbl Group
  recs : Tbl Recorder
  rules : Tbl Rule
  toneSets : Tbl (List Byte)
  sched : SchedSt
  /-- The Topaz context the recorders hold among them (R301). -/
  recCtx : Option Nat
  deriving DecidableEq, Repr

end Sys2Proof.Machine
end

