-- ==== Sys2Proof/Machine/State.lean ====
section
/-! DEFINITION. The state of the SP48 as one record of plain data, the machine right after reset, and the reasons a
step can stop. -/

namespace Sys2Proof.Machine

/-- The provisioned configuration as the configuration shadow holds it (R128, R514). -/
structure Shadow where
  regs : Tbl Word32
  kernels : Tbl Kernel
  voice : VoiceSt
  net : NetSt
  plc : PlcSt
  opal : Tbl OSlot
  tdm : Tbl TdmPort
  claims : List Claim
  notifyMask : BitVec 32
  emergReserve : Nat
  deriving DecidableEq, Repr

structure State where
  /-- The commands that are waiting, first in, first out (the block's own queue). -/
  pending : List Instr
  /-- How many free values have been taken; the model's own field (log 2). -/
  free : Nat
  /-- Every block register that has been written since reset, by block and offset. -/
  regs : Tbl Word32
  time : TimeSt
  pwr : PwrSt
  boot : BootSt
  host : HostSt
  ledger : LedgerSt
  leases : Tbl Lease
  claims : List Claim
  journal : JournalSt
  pvl : PvlSt
  onyx : OnyxSt
  fab : FabricSt
  gar : GarnetSt
  voice : VoiceSt
  net : NetSt
  plc : PlcSt
  /-- Slots of Opal, and TDM ports, beyond their registers. -/
  opal : Tbl OSlot
  tdm : Tbl TdmPort
  tpz : TpzSt
  /-- Host memory where the device has written it; no reset of the device touches it. -/
  hostMem : HostMem
  agt : AgtSt
  tap : TapSt
  /-- The configuration shadow (R128). -/
  shadow : Option Shadow
  deriving DecidableEq, Repr

/-! ### Right after POR (R104, R108, R537)

The values the spec does not give are named in logs 3 and 4: fuses, flash, the temperature sensor and the model's own counters. -/

/-- Fuses of a part in FIELD, 0b0111, with nothing else programmed (log 4). -/
def fusesReset : Fuses :=
  { lc3 := 0x1FF, uid := 0, keyHash := [], revoked := 0, secmin := 0, boardOpts := none, kernelHash := none, subsys := none, repairs := [] }

/-- The boot ledger header before S2 initialises it: Beryl is lost at POR, and R118 gives these values (log 4). -/
def hdrReset : BootHdr :=
  { wridx := 0, bootno := 1, lastDone := 0, incomplete := 0, lastReset := 0, warmCause := 0, actslot := 0, usedslot := 0, mode := 0, ddrstate := 0,
    nextslot := 0xFF, replayIdx := 0xFFFFFFFF, exclCores := 0 }

def cfgReset : CfgDigest :=
  { gen := 0, shadowLen := 0, shadowDigest := 0, retired := 0, ethEn := 0, plcEn := 0, hostif := 0, ddrspeed := 0 }

/-- The fuse image is read at S1; until then it is clear (Table 5.2). -/
def bootReset : BootSt :=
  { step := 0, warm := false, attempt := 1, started := false, wdog := none, aoGood := false, s4At := 0, mspiSeen := false, hdr := hdrReset,
    recs := [], early := [], fuses := fusesReset, fuseOp := none, fuseWait := [], lc := 0, flash := [], verified := [], cfg := cfgReset, release := 0, secver := 0,
    tapHold := false, training := false, extOk := false, resetReq := none, tryOnly := none }

def servoReset : Servo :=
  { lastAt := 0, lastOff := none, lastRtb := 0, good := 0, nInt := 0, sumF := 0, slewed := 0, fresh := false, holdAt := 0 }

/-- RTB zero and UNSYNCED, the addend nominal, no anchor (R72, R108); CK_AO starts with CK_AO_START. -/
def timeReset : TimeSt :=
  { usec := 0, ao := 0, aoFrac := 0, refRun := true, aoRun := false, refLostAo := 0, rtb := 0, addend := 0x0100000000, slew := 0, anchor := none,
    anchorHeld := false, servo := servoReset, zc := [], latch := [], seed := none, tickRtb := 0 }

/-- FAULT_N is low from the start of POR (R134). -/
def pwrReset : PwrSt :=
  { queue := [], cur := none, hib := .awake, offAtMf := [], rampFrom := 0, scrubPos := 0, ueWords := [], pllLost := [], pllOut := [], shutdown := false, faultN := true, safe := false, safeStuck := false }

def hostReset : HostSt :=
  { queues := [], cmds := [], notifs := [], lost := 0, notifyMask := 0xFFFFFFFF, link := { up := false, aer := false }, owner := 0, ownP := 0, ownM := 0,
    segs := [], segLast := 0, segNum := 0, hbPrev := 0, hbMisses := 0, hbPeriodEnd := 0, absent := false, devbeatAt := 0, msi := [], rr := 0,
    mspiResp := none }

def onyxReset : OnyxSt :=
  { phase := .off, mismatches := [], checkers := [], masked := false, checking := true, persistent := false, persistentDone := none, faultAt := 0, image := 0,
    lateDegraded := none, events := [], degraded := [], emergReserve := 64, thermal := 0, temp := 0 }

def schedReset : SchedSt :=
  { tick := 0, mf := 0, running := false, spares := [], next := none, placed := [], frozen := 0, committed := false, noRoom := [], moves := [], joins := [] }

def voiceReset : VoiceSt :=
  { chans := [], groups := [], recs := [], rules := [], toneSets := [], sched := schedReset, recCtx := none }

/-- The machine right after POR: S0 waits for AO power-good. CORE_EN is low until the S0 hold ends (R537); every other register is at
its reset value. -/
def State.reset : State :=
  { pending := [], free := 0, regs := [(rk 7 0x050, 0)], time := timeReset, pwr := pwrReset, boot := bootReset, host := hostReset,
    ledger := { entries := [], nextLsn := 1, tail := none, live := [], recKib := 0 }, leases := [], claims := [],
    journal := { recs := [], wridx := 1, nextSeq := 1, startSeq := 1 },
    pvl := { recs := [], next := 1, win := [], written := 0, excess := 0, exFirst := 0, since := 0 }, onyx := onyxReset,
    fab := { flight := [], wait := [], tokens := [], rej := [], kern := [], served := [], seqs := [] }, gar := { cores := [], kernels := [], clMem := [], ddr := [] }, voice := voiceReset,
    net := { flows := [], ports := [], pairs := [], ptp := none, rx := [] }, plc := { ports := [], fall := [] }, opal := [], tdm := [],
    tpz := { ctxs := [], jobs := [] }, hostMem := {}, agt := { results := [], next := 0, runs := [], soft := [], rows := [], found := [], faultAt := [] },
    tap := { ir := 1, pads := false }, shadow := none }

/-- Reasons for a fault: none is raised by this model except where a constructor says so. -/
inductive Fault where
  /-- Not raised: every access the spec forbids has an answer of its own in the spec. -/
  | none
  deriving DecidableEq, Repr

inductive Refusal where
  /-- Raised by the dispatch alone, for a command that has no meaning yet; safe. -/
  | notModelled (mnemonic : String)
  deriving DecidableEq, Repr

end Sys2Proof.Machine
end

