-- ==== Sys2Proof/Machine/Ops.lean ====
section
/-! DEFINITION. Named operations over the state that every block's meanings share: registers, free values, logs,
notifications, interrupts, device state, claims, leases and the Work Ledger. -/

namespace Sys2Proof.Machine

/-- The outcome of a command. -/
abbrev Out := Host.Outcome State Fault Refusal

/-! ### Registers -/

/-- The word of a register as stored. -/
def rdW (s : State) (k : Nat) : Word32 := tblGet s.regs k (regReset k)

/-- Store a register's word. -/
def wrW (k : Nat) (v : Word32) (s : State) : State := { s with regs := tblSet k v s.regs }

/-- The value of a field. -/
def rd (s : State) (f : Fld) : Nat := fldGet f (rdW s f.key)

/-- Store a field. -/
def wr (f : Fld) (x : Nat) (s : State) : State := wrW f.key (fldPut f (rdW s f.key) x) s

/-- Is a one-bit field set? -/
def flag (s : State) (f : Fld) : Bool := rd s f == 1

/-- `n` events into a counter, which saturates (R557). -/
def bumpN (f : Fld) (n : Nat) (s : State) : State := wr f (satAdd f.w (rd s f) n) s

/-- One event into a counter (R557). -/
def bump (f : Fld) (s : State) : State := bumpN f 1 s

/-- Every register of a block with offset from `lo` below `hi` to its reset value. -/
def resetRegs (block lo hi : Nat) (s : State) : State :=
  { s with regs := tblDelRange (rk block lo) (rk block hi) s.regs }

/-! ### Time -/

/-- CLK_USEC (R70). -/
def now (s : State) : Nat := s.time.usec.toNat

/-- RTB nanoseconds (R62). -/
def rtbNs (s : State) : BitVec 64 := s.time.rtb.extractLsb' 32 64

/-- Has the instant `t` of CLK_USEC come? -/
def reached (s : State) (t : Nat) : Bool := decide (t ≤ now s)

/-- Has the deadline, if any, come? -/
def due (s : State) (t : Option Nat) : Bool :=
  match t with
  | some d => reached s d
  | none => false

/-! ### Free values -/

/-- A value below `2 ^ w` that the spec leaves open (log 2). -/
def freeBits (w : Nat) (s : State) : BitVec w := BitVec.ofNat w (Config.freeNat s.free)

/-- `n` bytes that the spec leaves open (log 2). -/
def freeBytes (n : Nat) (s : State) : List Byte := le n (Config.freeNat s.free)

/-- The next free value will be another one. -/
def tookFree (s : State) : State := { s with free := s.free + 1 }

/-! ### Units and domains (Tables 1.5 and 4.1) -/

/-- The power domain of a unit, if the number names a unit (R17). -/
def unitDomain (u : Nat) : Option Nat :=
  if u = 0x00 then some 1 else if u = 0x01 then some 2 else if u = 0x02 then some 1 else if u = 0x03 then some 0
  else if 0x10 ≤ u ∧ u ≤ 0x3F then some (8 + (u - 0x10) / 12)
  else if 0x40 ≤ u ∧ u ≤ 0x48 then some 4 else if 0x50 ≤ u ∧ u ≤ 0x53 then some 5
  else if u = 0x58 ∨ u = 0x59 then some 6 else if u = 0x60 then some 7 else if u = 0x68 then some 0
  else if u = 0x70 then some 1 else none

/-- Domain `d` is ON in PWR_DOM_STAT. -/
def domOn (s : State) (d : Nat) : Bool := rd s (domStat d) == 2

/-- A switch-off of domain `d` is on its way: it is queued, or a cluster waits for its master-frame boundary (R91). -/
def offDue (s : State) (d : Nat) : Bool :=
  s.pwr.queue.contains (d, false) || (decide (8 ≤ d) && s.voice.sched.noRoom.contains (d - 8))

/-- A run on domain `d` found a memory that cannot be repaired: its units stay OUT_OF_SERVICE (R472). -/
def domBadMem (s : State) (d : Nat) : Bool := s.onyx.degraded.contains (0x107, d)

/-- The clock of PD_PLC or of PD_SSC is lost, and its ports and slots are OUT_OF_SERVICE until the PLL locks again (R477). -/
def clockOut (s : State) (d : Nat) : Bool :=
  (d == 5 && s.onyx.degraded.contains (0x31, 8)) || (d == 6 && s.onyx.degraded.contains (0x31, 7))

/-- Domain `d` is ON and takes new work. -/
def domReady (s : State) (d : Nat) : Bool := domOn s d && !offDue s d && !domBadMem s d && !clockOut s d

/-- A unit takes no claim and no lease while its domain is going off (R91). -/
def unitLeaves (s : State) (u : Nat) : Bool := match unitDomain u with | some d => offDue s d | none => false

/-! ### Beryl (R93, R95) -/

/-- The first words of the regions of Table 4.5 behind the Work Ledger: boot ledger, fault journal, configuration digest, retained
training, firmware retention area. -/
def wBoot : Nat := 0xC0000 / 8
def wJournal : Nat := 0xC1000 / 8
def wDigest : Nat := 0xD1000 / 8
def wTrain : Nat := 0xD2000 / 8
def wRetain : Nat := 0xD6000 / 8

/-- Whole-word writes of `n` Beryl words from word `lo` clear their uncorrectable errors (R95). -/
def ueFix (lo n : Nat) (s : State) : State :=
  { s with pwr := { s.pwr with ueWords := s.pwr.ueWords.filter (fun x => !decide (lo ≤ x ∧ x < lo + n)) } }

/-- Some word of a stretch of Beryl is known uncorrectable. -/
def ueIn (s : State) (lo n : Nat) : Bool := s.pwr.ueWords.any (fun w => decide (lo ≤ w ∧ w < lo + n))

/-! ### Onyx -/

/-- Onyx firmware is running and acts on events. -/
def onyxUp (s : State) : Bool := s.onyx.phase == .running || s.onyx.phase == .replay

/-- The device has reached S12 of the present start. -/
def booted (s : State) : Bool := decide (s.boot.step = 13)

/-- Minimal mode (R122). -/
def minimal (s : State) : Bool := flag s hbMinimal

/-! ### Life cycle (R129) -/

/-- Bit `b` of LC by majority of its three fuses. -/
def lcBit (f : BitVec 12) (b : Nat) : Bool :=
  decide (2 ≤ b2n (f.getLsbD (3 * b)) + b2n (f.getLsbD (3 * b + 1)) + b2n (f.getLsbD (3 * b + 2)))

/-- LC[3:0] as the fuses are read. -/
def lcMajority (f : BitVec 12) : BitVec 4 :=
  BitVec.ofNat 4 (b2n (lcBit f 0) + 2 * b2n (lcBit f 1) + 4 * b2n (lcBit f 2) + 8 * b2n (lcBit f 3))

/-- The fuses that a code blows: all three of every bit it sets. -/
def lcFuses (c : BitVec 4) : BitVec 12 :=
  BitVec.ofNat 12 (7 * (b2n (c.getLsbD 0) + 8 * b2n (c.getLsbD 1) + 64 * b2n (c.getLsbD 2) + 512 * b2n (c.getLsbD 3)))

/-- The life-cycle code of the fuse array. -/
def fuseLc (s : State) : BitVec 4 := lcMajority s.boot.fuses.lc3

/-! ### Items (R25, R28) -/

/-- An item of an internal unit as it is offered at its port. -/
def mkItem (cls prio dest src chan : Nat) (seq : BitVec 16) (stamp : Nat) (settle err last : Bool) (payload : List Byte) : Item :=
  { wh := { wclass := BitVec.ofNat 4 cls, prio := BitVec.ofNat 3 prio, assured := false, dest := BitVec.ofNat 8 dest,
            src := BitVec.ofNat 8 src, chan := BitVec.ofNat 13 chan, seq := seq, len := BitVec.ofNat 16 payload.length, lref := 0,
            rsvd := 0, settle := settle, err := err, last := last, stamp := BitVec.ofNat 40 stamp }, payload := payload }

/-- A unit offers an item at its sending port. -/
def offer (i : Item) (s : State) : State := { s with fab := { s.fab with wait := s.fab.wait ++ [i] } }

/-- Work of a class beyond its maximum leaves as several items, each with its own SEQ, LAST on the final one only (R29). -/
def splitItem (max : Nat) : Nat → Item → List Item
  | 0, i => [i]
  | n + 1, i =>
    if i.payload.length ≤ max then [i]
    else
      { i with wh := { i.wh with len := BitVec.ofNat 16 max, last := false }, payload := i.payload.take max } ::
        splitItem max n { i with wh := { i.wh with seq := i.wh.seq + 1, len := BitVec.ofNat 16 (i.payload.length - max) }, payload := i.payload.drop max }

/-- SEQ of the next item of a source that no unit's own state counts (R28). -/
def seqAt (s : State) (k : Nat) : BitVec 16 := tblGet s.fab.seqs k 0

/-- `n` items have left under that SEQ: it wraps from 65,535 to 0 (R28). -/
def seqUp (k n : Nat) (s : State) : State :=
  { s with fab := { s.fab with seqs := tblSet k (seqAt s k + BitVec.ofNat 16 n) s.fab.seqs } }

/-- A WCLASS 7 event to Onyx: SEQ counts per source unit (Table 2.3). Its payload is the model's own (log 18). -/
def event (lane src chan stamp : Nat) (payload : List Byte) (s : State) : State :=
  let k := 7 * 65536 + src
  seqUp k 1 (offer (mkItem 7 lane 0x00 src chan (seqAt s k) stamp false false true payload) s)

/-- An event of the present instant on lane 1, CHAN 0: its kind, and what it is about (log 18). -/
def eventNow (src kind a b : Nat) (s : State) : State :=
  event 1 src 0 (rtbNs s).toNat ([BitVec.ofNat 8 kind] ++ le 2 a ++ le 4 b) s

/-! ### Interrupts (R154, R155) -/

/-- Vector `v` is masked, by its own bit or by the Function Mask. -/
def msixMasked (s : State) (v : Nat) : Bool := flag s (msixMask v) || flag s msixFnMask

/-- Signal an MSI-X vector: a masked vector sets its PBA bit; without MSI-X Enable no message is sent (log 107). -/
def signal (v : Nat) (s : State) : State :=
  if msixMasked s v then wr (msixPba v) 1 s
  else if !flag s msixEn then s
  else { s with host := { s.host with msi := tblSet v (tblGet s.host.msi v 0 + 1) s.host.msi } }

/-- The messages that PBA bits hold are sent once their vectors are unmasked (R155). -/
def sendPending (s : State) : State :=
  (fromN 0 32).foldl (fun s v => if flag s (msixPba v) && !msixMasked s v then signal v (wr (msixPba v) 0 s) else s) s

/-- Set a bit of HB_IRQ_STAT, which signals vector 0. -/
def irq (f : Fld) (s : State) : State := signal 0 (wr f 1 s)

/-! ### Logs (R499, R502, R504) and notifications (R153, R191) -/

/-- Write a record into the fault journal at once (R499); a fault class also shows in HB_FAULT (R141). The words of the record, and those of
the header that change with it, are written whole (R95, log 103). -/
def journalNow (code unit resp d0 d1 : Nat) (ev : List Byte) (s : State) : State :=
  let j := s.journal
  let r : JRec := { seq := j.nextSeq, code := BitVec.ofNat 16 code, unit := BitVec.ofNat 8 unit,
                    resp := BitVec.ofNat 8 resp, rtb := rtbNs s, usec := s.time.usec, bootno := s.boot.hdr.bootno,
                    d0 := BitVec.ofNat 32 d0, d1 := BitVec.ofNat 32 d1, evidence := padTo 24 ev }
  let j' : JournalSt := { j with recs := tblSet j.wridx r j.recs, wridx := if j.wridx = 1023 then 1 else j.wridx + 1,
                                 nextSeq := j.nextSeq + 1 }
  let s := ueFix wJournal 2 (ueFix (wJournal + 8 * j.wridx) 8 { s with journal := j' })
  let s := wr faultCount (min (j'.nextSeq - j'.startSeq).toNat 65535) s
  if code < 0x100 then wr faultCode code s else s

/-- Completion entries held on queue `q`. -/
def heldCount (s : State) (q : Nat) : Nat := match tblFind q s.host.queues with | some u => u.held.length | none => 0

/-- Hold a notification for the host, at most 64, behind the entries its queue holds; beyond that count it as lost (R148, R153, R191). -/
def noteNow (n : Notif) (s : State) : State :=
  if s.host.notifyMask.getLsbD n.code then
    if s.host.notifs.length < 64 then
      { s with host := { s.host with notifs := s.host.notifs ++ [{ n with behind := heldCount s (rd s hbNotifyq) }] } }
    else { s with host := { s.host with lost := satAdd 32 s.host.lost 1 } }
  else s

/-- Events wait in the Onyx boundary queue: Onyx restarts (R42). -/
def eventsWait (s : State) : Bool := decide (s.onyx.phase = .rebuild ∨ s.onyx.phase = .rom ∧ booted s)

/-- Onyx acts now, or the event waits in its boundary queue (R42). A rule's trigger, an acknowledgement and a management message have their
effect through `ruleEvent`, `ackEvent` and `mgmtEvent`. -/
def post (d : Deferred) (s : State) : State :=
  if eventsWait s then
    { s with onyx := { s.onyx with events := s.onyx.events ++ [d] } }
  else match d with
    | .note n => noteNow n s
    | .jour c u r a b ev => journalNow c u r a b ev s
    | .rule _ _ _ => s
    | .ack _ _ _ _ => s
    | .mgmt _ _ _ => s

/-- Onyx writes a fault journal record. -/
def journal (code unit resp d0 d1 : Nat) (ev : List Byte) (s : State) : State := post (.jour code unit resp d0 d1 ev) s

/-- Onyx raises a notification (Table 7.15). -/
def notify (code detail w24 : Nat) (s : State) : State :=
  post (.note { code := code, detail := detail, w12 := 0, rtb := rtbNs s, w24 := w24 }) s

/-- Write one violation record and its notification (R502). -/
def pvlWrite (r : VRec) (s : State) : State :=
  let p := s.pvl
  let s := { s with pvl := { p with recs := tblSet (p.next.toNat % 4096) { r with index := p.next } p.recs,
                                    next := p.next + 1, written := p.written + 1 } }
  notify 7 p.next.toNat 0 s

/-- A violation by a partner, under the rate limits of R504. -/
def violation (iface port vcode action flow : Nat) (partner ev : List Byte) (s : State) : State :=
  let p := s.pvl
  let i := BitVec.ofNat 8 iface
  let o := BitVec.ofNat 8 port
  let v := BitVec.ofNat 16 vcode
  let same : VWin → Bool := fun w => w.iface == i && w.port == o && w.vcode == v
  let cur : VWin := (p.win.find? same).getD { iface := i, port := o, vcode := v, action := BitVec.ofNat 8 action, n := 0, first := 0, w := 0 }
  let rest := p.win.filter (fun w => !same w)
  let r : VRec := { index := 0, iface := i, port := o, vcode := v, action := BitVec.ofNat 8 action, summary := false,
                    flow := BitVec.ofNat 16 flow, count := 1, rtb := rtbNs s, partner := padTo 8 partner, evidence := padTo 28 ev }
  if !onyxUp s ∨ 4 ≤ cur.w then
    { s with pvl := { p with win := rest ++ [{ cur with n := satAdd 32 cur.n 1, first := if cur.n = 0 then rtbNs s else cur.first }] } }
  else if 512 ≤ p.written then
    { s with pvl := { p with win := rest ++ [{ cur with w := cur.w + 1 }], excess := satAdd 32 p.excess 1,
                             exFirst := if p.excess = 0 then rtbNs s else p.exFirst } }
  else pvlWrite r { s with pvl := { p with win := rest ++ [{ cur with w := cur.w + 1 }] } }

/-! ### Device state (R158) -/

/-- The value of HB_STATE.STATE that applies first. -/
def stateCode (s : State) : Nat :=
  if s.pwr.safe ∨ minimal s then 5
  else if s.pwr.hib ≠ .awake then 6
  else if booted s ∧ s.onyx.phase ≠ .running then 4
  else if booted s ∧ s.host.absent then 3
  else if !booted s then 0
  else if s.onyx.degraded ≠ [] then 2
  else 1

/-- HB_STATE becomes what `f` makes it; a change of the register sets HB_IRQ_STAT.STATE (Table 6.2). -/
def stateReg (f : State → State) (s : State) : State :=
  let t := f s
  if rdW t hbState.key = rdW s hbState.key then t else irq irqState t

/-- Bring HB_STATE up to date; a change of STATE raises notification STATE (R158, R191). -/
def refresh (s : State) : State :=
  let c := stateCode s
  let t := stateReg (fun s => wr hbState c (wr hbCapred (b2n (s.onyx.degraded ≠ [])) s)) s
  if rd s hbState = c then t else notify 1 c 0 t

/-- HB_STATE.BOOTSTEP (Table 6.2). -/
def bootstepPut (n : Nat) (s : State) : State := stateReg (wr hbBootstep n) s

/-- A condition for DEGRADED begins. -/
def degrade (code idx : Nat) (s : State) : State :=
  if s.onyx.degraded.contains (code, idx) then s
  else refresh { s with onyx := { s.onyx with degraded := s.onyx.degraded ++ [(code, idx)] } }

/-- A condition for DEGRADED ends. -/
def undegrade (code idx : Nat) (s : State) : State :=
  refresh { s with onyx := { s.onyx with degraded := s.onyx.degraded.filter (· ≠ (code, idx)) } }

/-! ### Claims (R513) -/

/-- The claim on a resource, if any. -/
def claimOf (s : State) (cls idx : Nat) : Option Claim := s.claims.find? (fun c => c.cls == cls && c.idx == idx)

/-- May this holder take the resource for this object? -/
def claimFree (s : State) (cls idx holder obj : Nat) : Bool :=
  match claimOf s cls idx with
  | none => true
  | some c => c.holder == holder && c.obj == obj

/-- Take a claim (which the same holder for the same object may hold already). -/
def claim (cls idx holder obj : Nat) (s : State) : State :=
  match claimOf s cls idx with
  | some _ => s
  | none => if unitLeaves s holder then s else { s with claims := s.claims ++ [{ cls := cls, idx := idx, holder := holder, obj := obj }] }

/-- Release the claim on one resource. -/
def unclaim (cls idx : Nat) (s : State) : State :=
  { s with claims := s.claims.filter (fun c => !(c.cls == cls && c.idx == idx)) }

/-- Of a list of possibilities that the spec leaves open, one; none of an empty list. -/
def choose {α : Type} (l : List α) (s : State) : Option α := l[Config.freeNat s.free % l.length]?

/-- Release every claim that satisfies `p`. -/
def unclaimIf (p : Claim → Bool) (s : State) : State := { s with claims := s.claims.filter (fun c => !p c) }

/-! ### Leases (R215, R216) -/

/-- A lease register after POR and cold reset (Table 8.9). -/
def leaseReset : Lease :=
  { owner := 0xFF, epoch := 1, state := 0, rclass := 0, rindex := 0, duration := 5000, deadline := 0, stale := 0 }

/-- Lease register `n`. -/
def lease (s : State) (n : Nat) : Lease := tblGet s.leases n leaseReset

def setLease (n : Nat) (l : Lease) (s : State) : State := { s with leases := tblSet n l s.leases }

/-- The epoch after one release or revocation: 0xFF_FFFF is followed by 1. -/
def epochNext (e : BitVec 24) : BitVec 24 := if e = 0xFFFFFF then 1 else e + 1

/-- An operation that the lease refuses is counted in STALE (R216). -/
def leaseStale (n : Nat) (s : State) : State :=
  let l := lease s n
  setLease n { l with stale := BitVec.ofNat 32 (satAdd 32 l.stale.toNat 1) } s

/-- An access that a gate refuses is counted in STALE and reported by an event (R218). -/
def leaseDenied (n : Nat) (s : State) : State := eventNow 0x03 8 n 0 (leaseStale n s)

/-- GRANT by Onyx: only of a FREE lease. -/
def leaseGrant (n owner rclass rindex dur : Nat) (s : State) : State :=
  let l := lease s n
  if l.state = 0 ∧ !unitLeaves s owner then
    let l' : Lease :=
      { l with owner := BitVec.ofNat 8 owner, rclass := BitVec.ofNat 8 rclass, rindex := BitVec.ofNat 16 rindex,
               duration := BitVec.ofNat 20 dur, state := 1, deadline := BitVec.ofNat 44 (now s + dur) }
    claim 6 n owner rindex (setLease n l' s)
  else s

/-- Does lease register `n` guard the claimed resource: the register itself (class 6), a Topaz context (class 4, RCLASS 3), or the
emergency slot of a PLC port (class 5, RCLASS 5)? -/
def guards (s : State) (c : Claim) (n : Nat) : Bool :=
  let l := lease s n
  decide (l.state ≠ 0) && ((c.cls == 6 && c.idx == n) ||
    (((c.cls == 4 && l.rclass.toNat == 3) || (c.cls == 5 && l.rclass.toNat == 5)) && l.rindex.toNat == c.idx))

/-- The lease epoch that a claim records where its resource is also leased, else 0 (R513). -/
def claimEpoch (s : State) (c : Claim) : Nat := (((fromN 0 64).find? (guards s c)).map (fun n => (lease s n).epoch.toNat)).getD 0

/-- The refusal detail that names a claim's holder (Table 7.2). The binding of a slot or of a slot-map entry to a channel
is kept apart from the claim on the slot or port by 0x8000 in its index, which the detail does not show. -/
def conflictDetail (s : State) (c : Claim) : List Byte :=
  le 2 c.cls ++ le 2 (c.idx % 0x8000) ++ le 1 c.holder ++ [0] ++ le 2 c.obj ++ le 4 (claimEpoch s c)

/-- RELEASE and REVOKE change only EPOCH, STATE and OWNER (R568). -/
def leaseFreed (l : Lease) : Lease := { l with epoch := epochNext l.epoch, state := 0, owner := 0xFF }

/-- Revoke a lease that has a holder: event and notification LEASE_REVOKED (R216). -/
def leaseRevoke (n : Nat) (s : State) : State :=
  let l := lease s n
  if l.state = 0 then s
  else
    let l' := leaseFreed l
    notify 12 n l'.epoch.toNat (eventNow 0x03 2 n 0 (unclaim 6 n (setLease n l' s)))

/-- Revoke every lease that has a holder and satisfies `p`. -/
def revokeWhere (p : Lease → Bool) (s : State) : State :=
  (fromN 0 64).foldl (fun s n => if p (lease s n) then leaseRevoke n s else s) s

/-- A FREE lease of the pool, 1 to 63 (R219). -/
def leasePool (s : State) : Option Nat := (fromN 1 63).find? (fun n => decide ((lease s n).state = 0))

/-- The gate of a guarded resource (R218): epoch, source unit and state. -/
def gateOk (s : State) (n src : Nat) (epoch : BitVec 24) : Bool :=
  let l := lease s n
  decide (l.epoch = epoch) && decide (l.owner.toNat = src) && decide (l.state = 1 ∨ l.state = 2)

/-! ### The Work Ledger (R204 to R208) -/

/-- An entry that nothing has written since Beryl was cleared (R566). -/
def entryFree : LEntry :=
  { state := 0, phase := 0, flags := 0, fstatus := 0, tepoch := 0, kind := 0, lsn := 0, accTime := 0, idem := 0,
    origin := 0, rref := 0, rsize := 0, object := 0, check := 0, bchk := 0 }

/-- Ledger entry `i`. -/
def entry (s : State) (i : Nat) : LEntry := tblGet s.ledger.entries i entryFree

def setEntry (i : Nat) (e : LEntry) (s : State) : State :=
  { s with ledger := { s.ledger with entries := tblSet i e s.ledger.entries } }

/-- Bytes 8 to 43 of an entry, over which BCHK runs (Table 8.3). -/
def entryBody (e : LEntry) : List Byte :=
  le 8 e.lsn.toNat ++ le 8 e.accTime.toNat ++ le 1 e.idem.toNat ++ le 7 e.origin.toNat ++ le 5 e.rref.toNat
    ++ le 1 e.rsize.toNat ++ le 2 e.object.toNat ++ le 4 e.check.toNat

/-- The eight bytes of W0 (Table 8.3). -/
def entryW0 (e : LEntry) : List Byte :=
  le 1 e.state.toNat ++ le 1 e.phase.toNat ++ le 1 e.flags.toNat ++ le 1 e.fstatus.toNat ++ le 3 e.tepoch.toNat
    ++ le 1 e.kind.toNat

/-- BCHK matches the bytes it covers. -/
def bchkOk (e : LEntry) : Bool := decide (crc32c (entryBody e) = e.bchk)

/-- Some Beryl word of entry `i` is known uncorrectable (six words of 8 bytes, R204). -/
def entryUe (s : State) (i : Nat) : Bool := ueIn s (6 * i) 6

/-- How many entries are FREE (R213). -/
def freeEntries (s : State) : Nat := 16384 - tblCount (fun _ e => decide (e.state ≠ 0)) s.ledger.entries

/-- The lowest FREE entry. -/
def lowestFree (s : State) : Option Nat := (fromN 0 (s.ledger.entries.length + 1)).find? (fun i => decide (i < 16384) && decide ((entry s i).state = 0))

/-- Set the live-entry map bit of entry `i`. -/
def liveSet (i : Nat) (s : State) : State :=
  if s.ledger.live.contains i then s else { s with ledger := { s.ledger with live := s.ledger.live ++ [i] } }

/-- Clear the live-entry map bit of entry `i`. -/
def liveClear (i : Nat) (s : State) : State :=
  { s with ledger := { s.ledger with live := s.ledger.live.filter (· ≠ i) } }

/-- The floor of each admission tier (Table 8.8): 0 A, 1 B, 2 C. -/
def tierFloor (t : Nat) : Nat := if t = 0 then 1024 else if t = 1 then 64 else 0

/-- The retained-record region holds 128 MiB; this much of it is kept for tier C (R213; the amount is log 10). -/
def regionKib (t : Nat) : Nat := if t = 2 then 131072 else 131072 - 1024

/-- A new entry with a record of `kib` KiB is admitted in tier `t` (R213). -/
def admitted (t kib : Nat) (s : State) : Bool :=
  decide (tierFloor t < freeEntries s) && decide (s.ledger.recKib + kib ≤ regionKib t)

/-- OPEN of R206, step 1. -/
def ledgerOpen (i kind : Nat) (noack emerg : Bool) (s : State) : State :=
  let l := s.ledger
  let fl := (if noack then 8 else 0) + (if emerg then 32 else 0)
  let e : LEntry := { entry s i with state := 0x1E, phase := 0, flags := BitVec.ofNat 8 fl, fstatus := 0,
                                     tepoch := (lease s 0).epoch, kind := BitVec.ofNat 8 kind, lsn := l.nextLsn }
  let s := ueFix (6 * i) 2 (setEntry i e s)
  { s with ledger := { s.ledger with nextLsn := l.nextLsn + 1, tail := some { index := i, lsn := l.nextLsn, mask := 0 } } }

/-- W2 to W5 of R206, step 3. -/
def ledgerFill (idem origin kib object : Nat) (check : BitVec 32) (s : State) : State :=
  match s.ledger.tail with
  | none => s
  | some t =>
    let e := entry s t.index
    let e : LEntry := { e with accTime := rtbNs s, idem := BitVec.ofNat 8 idem, origin := BitVec.ofNat 56 origin,
                               rref := freeBits 40 s, rsize := BitVec.ofNat 8 kib, object := BitVec.ofNat 16 object, check := check }
    let e := { e with bchk := crc32c (entryBody e) }
    let s := ueFix (6 * t.index + 2) 4 (tookFree (setEntry t.index e s))
    { s with ledger := { s.ledger with tail := some { t with mask := 15 }, recKib := s.ledger.recKib + kib } }

/-- COMMIT of R206, step 4: LIVE, PHASE ACCEPTED, and the live-entry map bit. -/
def ledgerCommit (s : State) : State :=
  match s.ledger.tail with
  | none => s
  | some t =>
    let e := entry s t.index
    let s := ueFix (6 * t.index) 1 (liveSet t.index (setEntry t.index { e with state := 0xE1, phase := 0 } s))
    { s with ledger := { s.ledger with tail := none } }

/-- Onyx renews lease 0 before every OPEN, and grants it to itself where it is FREE (R219). -/
def holdTail (s : State) : State :=
  let l := lease s 0
  if l.state = 0 then leaseGrant 0 0 1 0 25000 s
  else if l.owner = 0 then setLease 0 { l with state := 1, deadline := BitVec.ofNat 44 (now s + l.duration.toNat) } s
  else s

/-- Open, fill and commit one entry: the entry's index, or none when none is FREE. -/
def ledgerAccept (kind idem origin kib object : Nat) (check : BitVec 32) (noack emerg : Bool) (s : State) :
    Option Nat × State :=
  match lowestFree s with
  | none => (none, s)
  | some i => (some i, ledgerCommit (ledgerFill idem origin kib object check (ledgerOpen i kind noack emerg (holdTail s))))

/-- A single write of W0 of a LIVE entry (R207); PHASE only rises, in the direction of Table 8.5. -/
def ledgerPhase (i phase fstatus flags : Nat) (s : State) : State :=
  let e := entry s i
  if e.state = 0xE1 ∧ e.phase.toNat ≤ phase then
    ueFix (6 * i) 1 (setEntry i { e with phase := BitVec.ofNat 8 phase, fstatus := if 3 ≤ phase then BitVec.ofNat 8 fstatus else e.fstatus,
                                         flags := e.flags ||| BitVec.ofNat 8 flags } s)
  else s

/-- Release: STATE FREE, and the live-entry map bit cleared (R208). -/
def ledgerRelease (i : Nat) (s : State) : State :=
  let e := entry s i
  let s := ueFix (6 * i) 1 (liveClear i (setEntry i { e with state := 0, phase := 0, flags := 0, fstatus := 0, tepoch := 0, kind := 0 } s))
  { s with ledger := { s.ledger with recKib := s.ledger.recKib - e.rsize.toNat } }

/-! ### The register file as software sees it -/

/-- E of R67: the extra amount a slew adds per CK_FAB cycle, in units of 2^-32 ns. -/
def slewE (s : State) : Nat := (rd s rtbSlewmax * 4294967296 + 500000) / 1000000

/-- The effective addend: RTB_ADDEND and any slew in progress (R55, R67). -/
def effAddend (s : State) : Int :=
  (s.time.addend.toNat : Int) - (if 0 < s.time.slew then (slewE s : Int) else if s.time.slew < 0 then -(slewE s : Int) else 0)

/-- CLK_PLLp_FRAC of PLL_AUD and PLL_PLC as applied: the nominal multiplier scaled by the effective rate (R55). -/
def fracApplied (s : State) (p : Nat) : Word32 :=
  let nom := rd s (pllN p) * 16777216 + rd s (pllFrac p)
  BitVec.ofNat 32 (toU 24 (roundDiv ((nom : Int) * effAddend s) 4294967296 - (rd s (pllN p) * 16777216 : Nat)))

def zcInit : Zc := { prev := none, ints := [], good := 0, last := 0, synth := false }

/-- Zero-crossing input `n`. -/
def zcOf (s : State) (n : Nat) : Zc := tblGet s.time.zc n zcInit

/-- The low half of CLK_ZCn_LAST. -/
def zcLastLo (s : State) (n : Nat) : Word32 := (zcOf s n).last.extractLsb' 0 32

/-- Is the item of a received frame still in the packet buffer? -/
def inBuffer (s : State) (i : Item) : Bool :=
  s.fab.wait.contains i || (decide (0x40 ≤ i.wh.dest.toNat ∧ i.wh.dest.toNat ≤ 0x47) && s.fab.flight.contains i)

/-- Every item an ETH port has to send: its class queues, its held queue, and the frame being sent. -/
def portItems (p : EthPort) : List QItem :=
  p.q.flatMap (·.2) ++ p.held.flatMap (·.2) ++ (match p.sending with | some (_, q) => [q] | none => [])

/-- Cells held by frames received on port `p` (R317). -/
def rxCells (s : State) (p : Nat) : Nat :=
  sumOf (fun e => if e.port = p ∧ inBuffer s e.item then e.cells else 0) s.net.rx +
    sumOf (fun e => sumOf (fun q => if q.inPort = some p then q.cells else 0) (portItems e.2)) s.net.ports

/-- Cells of the packet buffer in use. -/
def usedCells (s : State) : Nat :=
  sumOf (fun e => if inBuffer s e.item then e.cells else 0) s.net.rx +
    sumOf (fun e => sumOf (fun q => q.cells) (portItems e.2)) s.net.ports

/-- Items in the held queue of port `p`. -/
def heldItems (s : State) (p : Nat) : Nat :=
  match tblFind p s.net.ports with | some v => sumOf (fun e => e.2.length) v.held | none => 0

/-- Frames queued on PLC port `n`. -/
def plcQueued (s : State) (n : Nat) : Nat := match tblFind n s.plc.ports with | some v => v.txq.length | none => 0

/-- A bit vector with one bit for each context from `lo` whose claim satisfies `p` (Table 16.5). -/
def ctxBits (s : State) (lo : Nat) (p : Claim → Bool) : Nat :=
  sumOf (fun i => match claimOf s 4 (lo + i) with | some c => if p c then 2 ^ i else 0 | none => 0) (fromN 0 32)

/-- The TPZ_ registers that show the claims, the contexts and the jobs (Table 16.5). -/
def tpzView (s : State) (off : Nat) : Nat :=
  if off = 0x000 then ctxBits s 0 (fun _ => true) else if off = 0x004 then ctxBits s 32 (fun _ => true)
  else if off = 0x008 then ctxBits s 0 (fun c => c.holder == 0) else if off = 0x00C then ctxBits s 32 (fun c => c.holder == 0)
  else if off < 0x020 then
    match s.tpz.jobs.find? (fun j => j.eng == some ((off - 0x010) / 4)) with
    | some j => j.ctx + 0x100 + (match j.lease with | some (l, _) => l * 0x10000 | none => 0)
    | none => 0
  else if off = 0x020 then (s.tpz.jobs.filter (fun j => j.eng.isNone)).length
  else
    let c := (off - 0x100) / 4
    if (claimOf s 4 c).isNone then 0
    else match tblFind c s.tpz.ctxs with
      | some x => x.st + (if x.st = 2 then 4 * x.op + 8 * x.wrap else 0)
      | none => 1

/-- A register as a read returns it: the counters and counts that live elsewhere are shown in their registers. -/
def regView (s : State) (k : Nat) : Word32 :=
  if k = rk 8 0x70 then s.time.ao.extractLsb' 0 32
  else if k = rk 8 0x78 then s.time.usec.extractLsb' 0 32
  else if k = rk 9 0x000 then (rtbNs s).extractLsb' 0 32
  else if k = rk 8 0x74 ∨ k = rk 8 0x7C ∨ k = rk 9 0x004 ∨ k = rk 9 0x008 then tblGet s.time.latch k 0
  else if k = rk 9 0x018 then s.time.addend.extractLsb' 0 32
  else if k = rk 9 0x01C then (s.time.addend.extractLsb' 32 8).zeroExtend 32
  else if k = rk 9 0x020 then BitVec.ofNat 32 (toU 32 (s.time.slew.tdiv 4294967296))
  else if k = rk 8 0x04C then fracApplied s 7
  else if k = rk 8 0x054 then fracApplied s 8
  else if k = rk 8 0x08C then zcLastLo s 0 else if k = rk 8 0x0AC then zcLastLo s 1
  else if k = rk 8 0x0CC then zcLastLo s 2 else if k = rk 8 0x0EC then zcLastLo s 3
  else if k = rk 8 0x090 ∨ k = rk 8 0x0B0 ∨ k = rk 8 0x0D0 ∨ k = rk 8 0x0F0 then tblGet s.time.latch k 0
  else if k = rk 7 0x004 ∨ k = rk 9 0x030 then 0
  else if k = rk 1 0x000 then BitVec.ofNat 32 ((32768 - usedCells s) / 4)
  else if rk 1 0x100 ≤ k ∧ k < rk 1 0x500 ∧ k % 0x80 = 0x28 then BitVec.ofNat 32 (heldItems s ((k - rk 1 0x100) / 0x80))
  else if rk 2 0 ≤ k ∧ k < rk 2 0x400 ∧ k % 0x100 = 0x34 then BitVec.ofNat 32 (plcQueued s (k % 65536 / 0x100))
  else if k = rk 11 0x02C then (if s.boot.lc = 15 then 0 else s.boot.fuses.subsys.getD 0)
  else if k = rk 11 0x14C then s.boot.fuses.uid.extractLsb' 0 32
  else if k = rk 11 0x150 then s.boot.fuses.uid.extractLsb' 32 32
  else if (rk 5 0 ≤ k ∧ k < rk 5 0x024) ∨ (rk 5 0x100 ≤ k ∧ k < rk 5 0x200) then BitVec.ofNat 32 (tpzView s (k % 65536))
  else rdW s k

/-- A clearing read of a register (R9): the bits marked RC clear. -/
def regClear (k : Nat) (s : State) : State :=
  match regRow (k / 65536) (k % 65536) with
  | some r => if r.rc = 0 then s else wrW k (rdW s k &&& ~~~(BitVec.ofNat 32 r.rc)) s
  | none => s

/-- A write of a register as Table 0.5 has it: RW bits stored, W1C bits cleared where the value has a one. -/
def regStore (k : Nat) (v : Word32) (s : State) : State :=
  match regRow (k / 65536) (k % 65536) with
  | some r =>
    let o := rdW s k
    let rwm := BitVec.ofNat 32 r.rw
    let w1 := BitVec.ofNat 32 r.w1c
    if r.rw = 0 ∧ r.w1c = 0 then s else wrW k ((o &&& ~~~rwm ||| v &&& rwm) &&& ~~~(v &&& w1)) s
  | none => s

end Sys2Proof.Machine
end

