-- ==== Sys2Proof/Machine/Scp.lean ====
section
/-! DEFINITION. The Speolo Command Protocol: what is common to every host command. Checks before acceptance (R146),
acceptance under the Work Ledger (R195, R206), order on one object (R175), execution, completion entries (R147 to
R151), retirement, and resubmission after a host link reset (R161). -/

namespace Sys2Proof.Machine

/-! ### Statuses (Table 7.6) -/

def stOk : Nat := 0x00
def stAccepted : Nat := 0x01
def stDuplicate : Nat := 0x02
def stBusy : Nat := 0x10
def stQueueFull : Nat := 0x11
def stLedgerFull : Nat := 0x12
def stCapacity : Nat := 0x13
def stBadOpcode : Nat := 0x20
def stBadLength : Nat := 0x21
def stBadParam : Nat := 0x22
def stBadCheck : Nat := 0x23
def stBadSequence : Nat := 0x24
def stBadState : Nat := 0x25
def stConflict : Nat := 0x30
def stNotProvisioned : Nat := 0x31
def stOutOfService : Nat := 0x32
def stFaulted : Nat := 0x40
def stPoisoned : Nat := 0x41
def stVerifyFailed : Nat := 0x42
def stDataError : Nat := 0x43
def stUndeliverable : Nat := 0x44
def stLifecycle : Nat := 0x50
def stAuth : Nat := 0x51
def stTimeout : Nat := 0x60

/-- A refusal: its status, its detail (Table 7.2), and for BUSY the retry hint. -/
structure Rej where
  status : Nat
  detail : List Byte
  hint : Nat
  deriving DecidableEq, Repr

/-- A refusal without detail. -/
def rej (st : Nat) : Rej := { status := st, detail := [], hint := 0 }

/-- BAD_PARAM at a byte offset within the parameters (R567). -/
def badParam (off : Nat) : Rej := { status := stBadParam, detail := le 2 off, hint := 0 }

/-- BAD_LENGTH at an offset (R567). -/
def badLength (off : Nat) : Rej := { status := stBadLength, detail := le 2 off, hint := 0 }

/-- BUSY with its retry hint in µs. -/
def busy (hint : Nat) : Rej := { status := stBusy, detail := [], hint := hint }

/-- RESOURCE_CONFLICT naming the holder. -/
def conflict (s : State) (c : Claim) : Rej := { status := stConflict, detail := conflictDetail s c, hint := 0 }

/-- CAPACITY with how many further objects could be admitted. -/
def capacity (n : Nat) : Rej := { status := stCapacity, detail := le 2 n, hint := 0 }

/-- The first refusal whose condition holds. -/
def firstRej : List (Bool × Rej) → Option Rej
  | [] => none
  | (b, r) :: t => if b then some r else firstRej t

/-- OUT_OF_SERVICE for a target whose domain is off, or going off (R84, R91). -/
def domRej (s : State) (d : Nat) : Option Rej := if domReady s d then none else some (rej stOutOfService)

/-- The first of two refusals. -/
def orRej (a b : Option Rej) : Option Rej := match a with | some r => some r | none => b

/-- A refusal when a claim cannot be taken (R513). -/
def claimRej (s : State) (cls idx holder obj : Nat) : Option Rej :=
  match claimOf s cls idx with
  | none => none
  | some c => if c.holder == holder && c.obj == obj then none else some (conflict s c)

/-- What the command tables say of one opcode. -/
structure OpInfo where
  opcode : Nat
  idem : Idem
  lcls : Lcls
  /-- The timeout of R177, µs. -/
  timeout : Option Nat
  /-- The command sets up a channel or group call (R159). -/
  setup : Bool
  deriving DecidableEq, Repr

/-- What executing a command does: it ends with a status and a result, or goes on until an event ends it. -/
inductive Eff where
  | done (status : Nat) (result : List Byte) (s : State)
  | wait (w : Wait) (s : State)

/-- One host command: its table row, the parameter checks (check 4), the checks that need state (check 6), the
objects it acts on, and its effect. -/
structure Spec where
  info : OpInfo
  par : Option Rej
  st : State → Option Rej
  objs : List Obj
  eff : State → Eff
  /-- What acceptance settles at once: claims (R513), placement, counts that follow acceptance order. -/
  acc : Cmd → State → State := fun _ s => s

/-- The ledger KIND of a command (Table 8.1). -/
def kindOf (l : Lcls) : Nat := if l = .w then 2 else 1

def idemCode (i : Idem) : Nat := match i with | .rx => 0 | .ck => 1 | .oo => 2

/-- OBJECT of Table 8.3. -/
def objCode (l : List Obj) : Nat :=
  match l with
  | [] => 0xFFFF
  | .device :: _ => 0xFFFF
  | .ctxPool :: _ => 0xFFFF
  | .chan n :: _ | .group n :: _ | .flow n :: _ | .eth n :: _ | .plc n :: _ | .slot n :: _ | .tdm n :: _ | .ctx n :: _
  | .core n :: _ | .kernel n :: _ | .recorder n :: _ | .rule n :: _ | .toneset n :: _ | .pair n :: _ | .result n :: _ => n

/-! ### Queues -/

/-- A queue with nothing in it, after POR or cold reset (R143). -/
def queueReset : QueueSt :=
  { exp := 0, tail := 0, fetched := [], held := [], written := [], head := 0, unsig := 0, sigBy := none, cursor := 0 }

def queue (s : State) (q : Nat) : QueueSt := tblGet s.host.queues q queueReset

def setQueue (q : Nat) (v : QueueSt) (s : State) : State :=
  { s with host := { s.host with queues := tblSet q v s.host.queues } }

/-- The un-retired commands of a queue. -/
def cmdsOf (s : State) (q : Nat) : List Cmd := s.host.cmds.filter (fun c => c.queue == q)

/-- The un-retired command of a queue with a sequence. -/
def cmdAt (s : State) (q : Nat) (seq : BitVec 16) : Option Cmd :=
  s.host.cmds.find? (fun c => c.queue == q && c.seq == seq)

/-- Replace a command's record. -/
def setCmd (c : Cmd) (s : State) : State :=
  { s with host := { s.host with cmds := s.host.cmds.map (fun d => if d.queue == c.queue && d.seq == c.seq then c else d) } }

/-- Does sequence `q` hold a live ledger entry? -/
def seqLive (s : State) (q : Nat) (seq : BitVec 16) : Bool :=
  match cmdAt s q seq with
  | some c => match c.lref with | some i => decide ((entry s i).state = 0xE1) | none => false
  | none => false

/-- CMP moved up over retired sequences, at most `n` of them (R151). -/
def cmpUp (s : State) (q : Nat) : Nat → BitVec 16 → BitVec 16
  | 0, c => c
  | n + 1, c => if c + 1 = (queue s q).exp ∨ (cmdAt s q (c + 1)).isSome then c else cmpUp s q n (c + 1)

/-- ACC moved up over sequences with a live entry (R151). -/
def accUp (s : State) (q : Nat) : Nat → BitVec 16 → BitVec 16
  | 0, c => c
  | n + 1, c => if seqLive s q (c + 1) then accUp s q n (c + 1) else c

/-- Bring HB_QSTATE of a queue up to date (R151). -/
def updQ (q : Nat) (s : State) : State :=
  let c := cmpUp s q 256 (BitVec.ofNat 16 (rd s (qCmp q)))
  let a := accUp s q 256 c
  wr (qAcc q) a.toNat (wr (qCmp q) c.toNat s)

/-- Hold a completion entry until it can be written (R148). -/
def pushCpl (q : Nat) (c : Cpl) (s : State) : State :=
  let v := queue s q
  setQueue q { v with held := v.held ++ [c] } s

/-- The FINAL entry of a command (R147, R150). -/
def finalCpl (c : Cmd) (f : Ended) (status orig : Nat) : Cpl :=
  { typ := 2, seq := c.seq, status := status, orig := orig, opcode := c.opcode,
    trunc := decide (16 < f.result.length ∧ c.resultLen < f.result.length - 16), replayed := c.replayed,
    w8 := c.lref.getD 0xFFFFFFFF, w12 := f.result.length, payload := f.result, room := c.resultLen,
    urgent := decide (c.queue = 0 ∨ status ≠ stOk) }

/-- The ACCEPTED entry of a command (R149). -/
def acceptedCpl (c : Cmd) (status orig : Nat) : Cpl :=
  { typ := 1, seq := c.seq, status := status, orig := orig, opcode := c.opcode, trunc := false, replayed := c.replayed,
    w8 := c.lref.getD 0xFFFFFFFF, w12 := 0, payload := [], room := 0, urgent := decide (c.queue = 0 ∨ status ≠ stAccepted) }

/-- The FINAL entry of a refusal: BUSY carries its hint in place of a length (R170). -/
def rejCpl (c : Cmd) (r : Rej) : Cpl :=
  { finalCpl c { status := r.status, result := r.detail } r.status 0 with
    w12 := if r.status = stBusy then r.hint else r.detail.length }

/-! ### Completion -/

/-- A command ends: PHASE EXECUTED with its status, and DELIVERED where it made an item (R207, Table 8.5); its FINAL entry is held for
the ring. -/
def finish (c : Cmd) (status : Nat) (result : List Byte) (s : State) : State :=
  let f : Ended := { status := status, result := result }
  let c' := { c with fin := some f, wait := .idle, deadline := none, delivered := true }
  let s := match c.lref with
    | some i =>
      let s := ledgerPhase i 3 status (if c.replayed then 16 else 0) s
      if (entry s i).kind = 2 ∧ status = stOk then ledgerPhase i 4 status 0 s else s
    | none => s
  let s := setCmd c' s
  if c.suspended then s else pushCpl c.queue (finalCpl c' f status 0) s

/-- Every command that waits for `w` ends with this outcome. -/
def finishWait (w : Wait) (status : Nat) (result : List Byte) (s : State) : State :=
  (s.host.cmds.filter (fun c => c.wait == w)).foldl (fun s c => finish c status result s) s

/-- Is some command waiting for `w`? -/
def someWait (w : Wait) (s : State) : Bool := s.host.cmds.any (fun c => c.wait == w)

/-- The sequence `seq` of queue `q` has been taken: the next one is expected, and a fetched entry for it is consumed. -/
def takeSeq (q : Nat) (s : State) : State :=
  let v := queue s q
  let nxt := v.exp + 1
  let s := if v.fetched.isEmpty && BitVec.ofNat 16 (rd s (sqFetch q)) == v.exp then wr (sqFetch q) nxt.toNat s else s
  setQueue q { v with exp := nxt, fetched := v.fetched.drop 1 } s

/-- A command record as it stands at acceptance or refusal. -/
def newCmd (h : Hdr) (i : Instr) (info : OpInfo) (objs : List Obj) (seq : BitVec 16) : Cmd :=
  { queue := h.queue.val, seq := seq, instr := i, opcode := info.opcode, check := h.check, noack := h.noack, emerg := h.emerg,
    resultLen := h.resultLen.toNat, idem := info.idem, objs := objs, lref := none, lsn := 0, started := none, wait := .idle,
    deadline := none, fin := none, finWritten := false, delivered := false, replayed := false, suspended := false,
    standIn := false, early := [] }

def addCmd (c : Cmd) (s : State) : State := { s with host := { s.host with cmds := s.host.cmds ++ [c] } }

/-- Complete a command before acceptance: a FINAL entry only, nothing in the ledger (R146). -/
def refuse (c : Cmd) (r : Rej) (s : State) : State :=
  let c := { c with fin := some { status := r.status, result := r.detail } }
  let s := pushCpl c.queue (rejCpl c r) (addCmd c (takeSeq c.queue s))
  updQ c.queue s

/-! ### Checks (R146) -/

/-- Onyx serves commands in a SAFE that a start has entered from S4 on (R133, R135). -/
def safeServes (s : State) : Bool :=
  s.pwr.safe && !s.pwr.safeStuck && !booted s && decide (4 ≤ s.boot.step) && s.onyx.phase != .off

/-- Commands are fetched: from S12, with Onyx running or resumed (R24, R110, R144), in minimal mode (R122), and in SAFE (R133); not while Onyx has
an entry open (R196). -/
def served (s : State) : Bool :=
  decide (s.pwr.hib = .awake ∨ s.pwr.hib = .armed) && s.ledger.tail.isNone && ((booted s && onyxUp s) || minimal s || safeServes s)

/-- Once HIBERNATE is accepted Onyx admits no new work (R97): until entry begins every command is BUSY as R560 has it, but for
DOMAIN_POWER, which has checks of its own (R85, R560; log 94). -/
def hibRej (info : OpInfo) (s : State) : Option Rej :=
  if s.pwr.hib ≠ .awake ∧ info.opcode ≠ 0x0105 then some (busy 10000) else none

/-- What SAFE and minimal mode serve: the diagnostics and logs family and DEV_RESET alone (R174); in minimal mode DEV_INFO too, which
reports it (R122, log 65). -/
def serviceOp (s : State) (op : Nat) : Bool := op / 256 == 8 || op == 0x0102 || (minimal s && op == 0x0101)

def serviceRej (info : OpInfo) (s : State) : Option Rej :=
  if (s.pwr.safe || minimal s) && !serviceOp s info.opcode then some (rej stOutOfService) else none

/-- HOST_ABSENT refuses channel and group set-up without EMERG (R159, R176). -/
def absentRej (h : Hdr) (info : OpInfo) (s : State) : Option Rej :=
  if rd s hbState = 3 ∧ info.setup ∧ !h.emerg then some (rej stOutOfService) else none

/-- The tier under which a command is admitted (Table 8.8). -/
def cmdTier (h : Hdr) (info : OpInfo) : Nat := if info.opcode = 0x0102 then 2 else if h.emerg then 1 else 0

/-- RSIZE of a command, KiB: one for its checkpoint and completion record, and four more for the 4,080 bytes of parameters that the opcodes with a
part of variable length may have; the result of a REG_READ takes up to 1,024 bytes (R204, log 115). -/
def recKib (op : Nat) : Nat :=
  if ([0x0107, 0x010A, 0x010B, 0x0208, 0x0303, 0x0304, 0x0306, 0x0309, 0x0403, 0x0502, 0x0506, 0x0704] : List Nat).contains op then 5
  else if op = 0x0801 then 2 else 1

/-- LEDGER_FULL (R213, R214): judged only for a command that will hold an entry. -/
def ledgerRej (h : Hdr) (info : OpInfo) (s : State) : Option Rej :=
  if info.lcls ≠ .n ∧ !minimal s ∧ !admitted (cmdTier h info) (recKib info.opcode) s then some (rej stLedgerFull) else none

/-- Checks 4 to 6 of R146 in order. -/
def scpCheck (h : Hdr) (sp : Spec) (s : State) : Option Rej :=
  (((((sp.par).orElse fun _ => if h.emerg ∧ h.queue ≠ 0 then some (badParam 0xFFFF) else none).orElse
    fun _ => serviceRej sp.info s).orElse fun _ => orRej (hibRej sp.info s) (absentRej h sp.info s)).orElse fun _ => sp.st s).orElse
    fun _ => ledgerRej h sp.info s

/-! ### Acceptance and execution -/

/-- Accept a command: its entry is committed and the ACCEPTED entry held (R149, R195); a command of ledger class N, or
any in minimal mode, holds no entry. -/
def acceptCmd (h : Hdr) (i : Instr) (sp : Spec) (s : State) : State :=
  let c := newCmd h i sp.info sp.objs h.seq
  let s := takeSeq h.queue.val s
  if sp.info.lcls = .n ∨ minimal s then updQ c.queue (sp.acc c (addCmd c s))
  else
    let origin := h.queue.val + h.seq.toNat * 0x100 + sp.info.opcode * 0x1000000
    let (li, s) := ledgerAccept (kindOf sp.info.lcls) (idemCode sp.info.idem) origin (recKib sp.info.opcode) (objCode sp.objs) h.check h.noack h.emerg s
    let c := { c with lref := li, lsn := s.ledger.nextLsn.toNat - 1 }
    let s := sp.acc c (addCmd c s)
    updQ c.queue (if h.noack then s else pushCpl c.queue (acceptedCpl c stAccepted 0) s)

/-- The un-retired commands taken before `c`, in the order they were taken. -/
def before (c : Cmd) (s : State) : List Cmd := s.host.cmds.takeWhile (fun d => !(d.queue == c.queue && d.seq == c.seq))

/-- Does an earlier accepted command on one of the same objects stand unapplied (R175)? A command placed in the
schedule being built no longer blocks; nor does a message sent block further messages of its flow, which its window holds
(R202). -/
def blocked (c : Cmd) (s : State) : Bool :=
  (before c s).any (fun d => d.lref.isSome && d.fin.isNone &&
    !(match d.wait with | .commit => true | .frame _ => true | .assured _ _ => c.opcode == 0x0309 | _ => false) &&
    d.objs.any (fun o => c.objs.contains o))

/-- The commands of one queue start in sequence order (R145). -/
def inTurn (c : Cmd) (s : State) : Bool := !(before c s).any (fun d => d.queue == c.queue && d.started.isNone && d.fin.isNone)

/-- In SAFE only what SAFE serves goes on; accepted work stays untouched throughout minimal mode (R123, R174). -/
def mayRun (c : Cmd) (s : State) : Bool :=
  if minimal s then c.lref.isNone && serviceOp s c.opcode else if s.pwr.safe then serviceOp s c.opcode else true

/-- A command goes on until the event `w`, with what its effect has noted in its record. -/
def putWait (c : Cmd) (w : Wait) (s : State) : State := setCmd { (cmdAt s c.queue c.seq).getD c with wait := w } s

/-- An OO command that goes on has begun its irreversible step: PHASE IRREVERSIBLE (R205). One whose eFuse operation waits for the one under
way has not. -/
def irrevPhase (c : Cmd) (w : Wait) (s : State) : State :=
  match c.lref with
  | some i => if c.idem = .oo ∧ ¬(w = .fuse ∧ s.boot.fuseWait ≠ []) then ledgerPhase i 2 0 0 s else s
  | none => s

/-- Execute an accepted command: PHASE STARTED (R205), then its effect. -/
def runCmd (c : Cmd) (sp : Spec) (s : State) : State :=
  let s := match c.lref with | some i => ledgerPhase i 1 0 0 s | none => s
  let c := { c with started := some (now s), deadline := sp.info.timeout.map (now s + ·) }
  match sp.eff (setCmd c s) with
  | .done st r s => finish c st r s
  | .wait w s => irrevPhase c w (putWait c w s)

/-- Execute the command of a sequence if it stands accepted and not begun, nothing blocks it, and its turn has come. -/
def tryRun (q : Nat) (seq : BitVec 16) (sp : Spec) (s : State) : State :=
  match cmdAt s q seq with
  | some c => if c.started.isNone && c.fin.isNone && !blocked c s && inTurn c s then runCmd c sp s else s
  | none => s

/-- A sequence submitted again after a host link reset whose command is un-retired (R161). -/
def resubmit (h : Hdr) (i : Instr) (c : Cmd) (s : State) : State :=
  let s := takeSeq h.queue.val s
  let isNop := match i with | .nopCommand _ => true | _ => false
  if isNop && c.finWritten && c.opcode != 0 && !h.emerg && !h.noack && !h.indirect then
    let c := { c with suspended := false, standIn := true }
    pushCpl c.queue { finalCpl c { status := stOk, result := [] } stOk 0 with opcode := 0 } (setCmd c s)
  else if h.check ≠ c.check ∨ i ≠ c.instr then
    let s := violation (if rd s (qown h.queue.val) = 1 then 4 else 3) h.queue.val 0x0301 4 0xFFFF (le 2 h.seq.toNat) [] s
    pushCpl h.queue.val { finalCpl c { status := stBadSequence, result := [] } stBadSequence 0 with w8 := 0xFFFFFFFF } s
  else
    let c := { c with suspended := false, resultLen := h.resultLen.toNat }
    let s := setCmd c s
    match c.fin with
    | some f => pushCpl c.queue (finalCpl c f stDuplicate f.status) s
    | none => pushCpl c.queue (acceptedCpl c stDuplicate stAccepted) s

/-- Is the sequence within the window of 256 un-retired commands (R143)? -/
def inWindow (q : Nat) (seq : BitVec 16) (s : State) : Bool :=
  decide ((seq - (BitVec.ofNat 16 (rd s (qCmp q)) + 1)).toNat < 256)

/-- A host command, whether it comes as one row or was accepted by COMMAND_ACCEPT before: checks, acceptance and
execution. A command that is not fetched in the present state has no effect (R174). -/
def scp (h : Hdr) (i : Instr) (sp : Spec) (s : State) : State :=
  let q := h.queue.val
  if !served s then s
  else match cmdAt s q h.seq with
    | some c =>
      if c.suspended then (if (queue s q).exp = h.seq then resubmit h i c s else s)
      else if c.instr = i ∧ mayRun c s then tryRun q h.seq sp s
      else s
    | none =>
      if !inWindow q (queue s q).exp s then s
      else if (queue s q).exp ≠ h.seq then refuse (newCmd h i sp.info sp.objs (queue s q).exp) (rej stBadSequence) s
      else match scpCheck h sp s with
        | some r => refuse (newCmd h i sp.info sp.objs h.seq) r s
        | none => tryRun q h.seq sp (acceptCmd h i sp s)

/-- Acceptance of a fetched command alone; its execution follows with its own row (R146). -/
def scpAccept (h : Hdr) (i : Instr) (sp : Spec) (s : State) : State :=
  match cmdAt s h.queue.val h.seq with
  | some c => if c.suspended then resubmit h i c s else s
  | none => match scpCheck h sp s with
    | some r => refuse (newCmd h i sp.info sp.objs h.seq) r s
    | none => acceptCmd h i sp s

/-- A command's effect that ends at once with OK and no result. -/
def ok (s : State) : Eff := .done stOk [] s

/-- A command's effect that ends at once with OK and a result. -/
def okRes (r : List Byte) (s : State) : Eff := .done stOk r s

/-! ### SAFE (R133 to R135, Table 5.11) -/

/-- The field runs that satisfy `p` end ABORTED (R463), and their cores are as before the run. Where `now'` is set the commands they
run for end with FAULTED and the result's number; otherwise they stand, for replay. -/
def abortRuns (p : AgtRun → Bool) (now' : Bool) (s : State) : State :=
  (s.agt.runs.filter p).foldl (fun s r =>
    let s := { s with agt := { s.agt with runs := s.agt.runs.filter (fun x => x != r) } }
    let s := match r.result with
      | none => s
      | some n =>
        let k := n.toNat
        let res := match tblFind k s.agt.results with | some v => tblSet k { v with outcome := 4 } s.agt.results | none => s.agt.results
        let back : CoreSt → CoreSt := fun c => if c.st = 4 then { c with st := r.prev } else c
        let cores := if r.target = 1 then (match tblFind r.index s.gar.cores with | some c => tblSet r.index (back c) s.gar.cores | none => s.gar.cores)
                     else s.gar.cores
        let s := { s with agt := { s.agt with results := res }, gar := { s.gar with cores := cores } }
        bump agtRuns (wr agtBusy 0 (wr agtInslice 0 (wr agtInpause 0 (wr agtResultNo 0
          (unclaimIf (fun c => c.holder == 0x68 && c.obj == k) s)))))
    if now' then match r.cmd with
      | some (q, sq) => (match cmdAt s q sq with
        | some c => if c.fin.isNone then finish c stFaulted (match r.result with | some n => le 2 n.toNat | none => []) s else s
        | none => s)
      | none => s
    else s) s

/-- DDR goes into self-refresh with retention engaged where PD_MEM is powered and the controller confirms entry; whether it does is free
(log 2). -/
def safeRetain (s : State) : State :=
  if !domOn s 3 then s else if freeBits 1 s == 1 then wr ddrRet 1 (tookFree s) else tookFree s

/-- Enter SAFE: links forced down, DDR in self-refresh, jobs and runs stopped, FAULT_N low. -/
def enterSafe (s : State) : State :=
  let s := safeRetain ((fromN 0 8).foldl (fun s p => wr (eth p 0 12 1) 1 s) s)
  let s := abortRuns (fun _ => true) true s
  let s := { s with voice := { s.voice with sched := { s.voice.sched with running := false } },
                    gar := { s.gar with cores := tblMap (fun _ (c : CoreSt) => { c with job := none, queue := [], held := [] }) s.gar.cores } }
  refresh { s with pwr := { s.pwr with safe := true, faultN := true,
                                       safeStuck := s.pwr.safeStuck || !domOn s 1 || !domOn s 2 || decide (s.boot.step ≤ 2) } }

/-- The outputs of Table 5.11 that SAFE holds: the PLC line drivers off and high-impedance, TDM data, bit clocks and frame syncs
high-impedance, and the SDM modulator clocks low. -/
def outputsHeld (s : State) : Bool := s.pwr.safe

/-- The xSPI outputs are high-impedance in SAFE and in minimal mode (R122, Table 5.11). -/
def xspiHighZ (s : State) : Bool := s.pwr.safe || minimal s

/-- FAULT_N is low (R134). -/
def faultNLow (s : State) : Bool := s.pwr.faultN

end Sys2Proof.Machine
end

