-- ==== Sys2Proof/Machine/Cores.lean ====
section
/-! DEFINITION. What the dispatcher and the cores share: a core's registers by code, job entry and job end, the core
fault, and the quarantine of a customer kernel (R231, R232, R306, R308, R489). -/

namespace Sys2Proof.Machine

/-! ### Registers by code (Table 10.2) -/

def Arch.get (a : Arch) (code : Nat) : Word48 := tblGet a.r code 0

def Arch.set (code : Nat) (v : Word48) (a : Arch) : Arch := { a with r := cellPut 0 a.r code v }

def Arch.acc (a : Arch) (k : Nat) : AccLane := tblGet a.a k 0

def Arch.setAcc (k : Nat) (v : AccLane) (a : Arch) : Arch := { a with a := cellPut 0 a.a k v }

def codeSTAT : Nat := 0x32
def codeMODE : Nat := 0x33
def codeEPC : Nat := 0x34
def codeESTAT : Nat := 0x35
def codeECAUSE : Nat := 0x36
def codeLDEPTH : Nat := 0x31

/-- The registers after a reset of the core: MODE.FRAC is 1, everything else zero (Tables 9.6 to 9.8; log 5). -/
def archReset : Arch := { r := [(codeMODE, 4)], a := [] }

def coreInit : CoreSt :=
  { cur := archReset, h1 := archReset, h2 := archReset, h3 := archReset, hw := [], late := [], mlate := [], pc := 0, slot := none,
    shadow := 0, inExc := false, cycle := 0, tmrcmp := 0, tmr := false, fsend := none, held := [], frx := [], lists := [],
    order := [], dmem := [], job := none, queue := [], win := none, st := 5, ecause := 0, redo := [], migrate := false,
    ecc := 0, spUe := 0, faults := 0 }

def core (s : State) (n : Nat) : CoreSt := tblGet s.gar.cores n coreInit

def setCore (n : Nat) (c : CoreSt) (s : State) : State :=
  { s with gar := { s.gar with cores := tblSet n c s.gar.cores } }

/-- Cluster of a core (R12). -/
def clusterOf (n : Nat) : Nat := n / 12

/-- The domain of cluster `g` is on. -/
def clusterOn (s : State) (g : Nat) : Bool := domOn s (8 + g)

def chan? (s : State) (n : Nat) : Option Chan := tblFind n s.voice.chans

def setChan (n : Nat) (c : Chan) (s : State) : State := { s with voice := { s.voice with chans := tblSet n c s.voice.chans } }

def modChan (n : Nat) (f : Chan → Chan) (s : State) : State :=
  match chan? s n with
  | some c => setChan n (f c) s
  | none => s

/-- An event counted in a channel's statistics, at its byte offset in Table 11.5. -/
def chanBump (off : Nat) (c : Chan) : Chan := { c with stats := tblSet off (satAdd 32 (tblGet c.stats off 0) 1) c.stats }

/-- A voice frame missing for a reason of Table 8.2 (R200, R297). -/
def chanLoss (reason : Nat) (c : Chan) : Chan := if 1 ≤ reason ∧ reason ≤ 11 then chanBump (8 + 4 * (reason - 1)) c else c

/-! ### Spinel memory (R275) -/

/-- The word a remote range of 6 or 4 bytes gives (Table 10.8, FORM). -/
def formWord (form : Nat) (b : List Byte) : Word48 :=
  if form = 0 then BitVec.ofNat 48 (unLe (b.take 6))
  else BitVec.ofNat 48 ((unLe (b.take 2)) * 256 * 16777216 + unLe ((b.drop 2).take 2) * 256)

/-- The bytes a word gives. -/
def formBytes (form : Nat) (w : Word48) : List Byte :=
  if form = 0 then le 6 w.toNat else le 2 (w.toNat / 4294967296) ++ le 2 (w.toNat / 256)

def formSize (form : Nat) : Nat := if form = 0 then 6 else 4

def remoteGet (s : State) (cl space a n : Nat) : List Byte :=
  if space = 0 then cellsGet 0 s.gar.ddr a n else cellsGet 0 (tblGet s.gar.clMem cl []) a n

def remotePut (cl space a : Nat) (b : List Byte) (s : State) : State :=
  if space = 0 then { s with gar := { s.gar with ddr := cellsPut 0 s.gar.ddr a b } }
  else { s with gar := { s.gar with clMem := tblSet cl (cellsPut 0 (tblGet s.gar.clMem cl []) a b) s.gar.clMem } }

def dmemPut (n a : Nat) (w : Word48) (s : State) : State :=
  let c := core s n
  setCore n { c with dmem := cellPut 0 c.dmem a w } s

/-- Of two things the spec leaves open which, one. -/
def pick {α : Type} (a b : α) (s : State) : α := if freeBits 1 s = 1 then a else b

/-- Move one word of an element; `mixed` leaves its destination old or new (R278). -/
def spWord (n : Nat) (scatter mixed : Bool) (e : SpElem) (k : Nat) (s : State) : State :=
  let sz := formSize e.form
  let ra := e.raddr + k * sz
  let c := core s n
  let old := tblGet c.dmem (e.laddr + k) 0
  let rb := remoteGet s (clusterOf n) e.rspace ra sz
  if !scatter then
    let new := formWord e.form rb
    if mixed then tookFree (dmemPut n (e.laddr + k) (pick old new s) s) else dmemPut n (e.laddr + k) new s
  else
    let nb := formBytes e.form old
    if mixed then
      (fromN 0 sz).foldl (fun s j => tookFree (remotePut (clusterOf n) e.rspace (ra + j)
        [pick ((rb.drop j).headD 0) ((nb.drop j).headD 0) s] s)) s
    else remotePut (clusterOf n) e.rspace ra nb s

/-- Move an element whole, or leave its destination range unspecified (R274, R278). -/
def spMove (n : Nat) (scatter mixed : Bool) (e : SpElem) (s : State) : State :=
  (fromN 0 e.len).foldl (fun s k => spWord n scatter mixed e k s) s

def listInit : SpList :=
  { busy := false, addr := 0, start := 0, first := 0, usr := false, valid := false, scatter := false, elems := [], lv := false,
    lidx := 0, lepoch := 0, irqOn := false, endB := false, fault := false, done := 0, fidx := 0, cause := 0, pend := false,
    unrep := false }

def spList (c : CoreSt) (l : Nat) : SpList := tblGet c.lists l listInit

/-- The outstanding lists of a core are abandoned at their current element (10, Edges). -/
def spAbandon (n : Nat) (s : State) : State :=
  let c := core s n
  let s := match c.order with
    | l :: _ => let x := spList c l
                if x.valid then (match x.elems[x.done]? with | some e => spMove n x.scatter true e s | none => s) else s
    | [] => s
  let c := core s n
  setCore n { c with lists := [], order := [] } s

/-! ### Job entry and end (R232, R248, R253) -/

/-- The state of a core at the first instruction of a job (R232). What the spec does not place (P0, P1, P2, and the entry
of a firmware job) is free (log 2). -/
def jobArch (mode : Nat) (p0 p1 p2 : BitVec 24) : Arch :=
  let w (v : BitVec 24) : Word48 := v.zeroExtend 48
  Arch.set 0x12 (w p2) (Arch.set 0x11 (w p1) (Arch.set 0x10 (w p0) (Arch.set codeMODE (BitVec.ofNat 48 mode) { r := [], a := [] })))

/-- A job enters on core `n` (R232, R307). -/
def jobEnter (n : Nat) (j : Job) (s : State) : State :=
  let p0 := freeBits 24 s
  let s := tookFree s
  let p1 := freeBits 24 s
  let s := tookFree s
  let p2 := freeBits 24 s
  let s := tookFree s
  let e := freeBits 16 s
  let s := tookFree s
  let c := core s n
  let (mode, pc, win) := match j.kind with
    | .krn _ kid => match tblFind kid s.gar.kernels with
      | some k => (k.mode.toNat % 256 + 4096, BitVec.ofNat 16 (k.win.ibase + k.entry), some k.win)
      | none => (4, e, none)
    | _ => (4, e, none)
  let a := jobArch mode p0 p1 p2
  setCore n { c with cur := a, h1 := a, h2 := a, h3 := a, hw := a.r, late := [], mlate := [], pc := pc, slot := none, shadow := 0,
                     inExc := false, cycle := 0, tmrcmp := 0, tmr := false, job := some { j with entered := now s },
                     win := win } s

/-- The next job of the core, if it is idle and one waits. -/
def jobNext (n : Nat) (s : State) : State :=
  let c := core s n
  match c.job, c.queue with
  | none, j :: q => jobEnter n j (setCore n { c with queue := q } s)
  | _, _ => s

/-- Change the frames of a channel. -/
def modFrame (ch : Nat) (seq : BitVec 16) (f : VFrame → VFrame) (s : State) : State :=
  modChan ch (fun c => { c with frames := c.frames.map (fun x => if x.seq = seq then f x else x) }) s

/-- The job of core `n` is over: its GOV and SOV bits are counted for its channel (R253), and the frame has one job less
to wait for; `ok` false means that its frame will not be committed. -/
def jobOver (n : Nat) (loss : Nat) (s : State) : State :=
  let c := core s n
  match c.job with
  | none => s
  | some j =>
    let st := (c.cur.get codeSTAT).toNat
    let s := modChan j.chan (fun x => { x with gov := satAdd 32 x.gov (st / 256 % 2 + st / 512 % 2),
                                               sov := satAdd 32 x.sov (st / 1024 % 2 + st / 2048 % 2) }) s
    let s := if j.kind = .mix then s else
      modFrame j.chan j.seq (fun f => { f with left := f.left - 1, loss := if f.loss = 0 then loss else f.loss }) s
    let c := core s n
    jobNext n (setCore n { c with job := none, fsend := none } s)

/-! ### Spares and CAPRED (R306, R290) -/

/-- The channels on a core. -/
def chansOn (s : State) (n : Nat) : List Nat :=
  (s.voice.chans.filter (fun e => decide (2 ≤ e.2.st ∧ e.2.st ≤ 3 ∧ e.2.core = n))).map (·.1)

/-- The first free spare of a cluster: listed in the schedule in force, in service, and with no channels. -/
def freeSpare (s : State) (g : Nat) : Option Nat :=
  s.voice.sched.spares.find? (fun n => decide (n / 12 = g ∧ (core s n).st = 1) && (chansOn s n).isEmpty)

/-- CAPRED stands for a cluster that is powered and has no free spare (R158, R306). -/
def capredUpd (g : Nat) (s : State) : State :=
  if clusterOn s g && s.voice.sched.committed && (freeSpare s g).isNone then degrade 0x10 g s else undegrade 0x10 g s

/-! ### Core reset and core fault (R104, R489) -/

/-- A core reset: registers and memories are lost, and the leases of the core and of its Spinel lists are revoked. -/
def coreReset (n : Nat) (s : State) : State :=
  let c := core s n
  let s := setCore n { coreInit with st := c.st, ecause := c.ecause, redo := c.redo, migrate := c.migrate,
                                     ecc := c.ecc, spUe := c.spUe, faults := c.faults } s
  revokeWhere (fun l => decide (l.owner.toNat = 0x10 + n)) s

/-- CORE_FAULT: the dispatcher marks the core FAULTED, discards its held items, and its jobs wait for the spare; the core
is reset and queued for the fault-response test (R306, R489). Where a warm reset has been asked for, the core reset is absorbed into it (R105). -/
def coreFault (n : Nat) (cause : BitVec 24) (s : State) : State :=
  let s := spAbandon n s
  let c := core s n
  let js := (match c.job with | some j => [j] | none => []) ++ c.queue
  let s := setCore n { c with st := 3, ecause := cause, redo := js.filter (fun j => !j.aborted), migrate := true,
                              faults := satAdd 32 c.faults 1 } s
  let s := notify 5 n cause.toNat (if s.boot.resetReq.isSome then s else coreReset n s)
  let s := journal 0x10 (0x10 + n) 5 n cause.toNat [] s
  let run : AgtRun := { result := none, cmd := none, target := 1, index := n, alg := 0x1F, slice := 0, since := none, pauseEnd := none,
                        notBefore := 0, cells := [], logicFail := false, prev := 5 }
  capredUpd (clusterOf n) { s with agt := { s.agt with faultAt := tblSet n (now s) s.agt.faultAt, runs := s.agt.runs ++ [run] } }

/-! ### Quarantine (R308) -/

/-- A job of a channel's voice frame. -/
def heldOf (ch : Nat) (seq : BitVec 16) (j : Job) : Bool := j.chan == ch && j.seq == seq && j.kind != .mix

/-- The jobs of a kernel that have not begun are taken off every core, and their frames go on without them. -/
def dropKernelJobs (kid : Nat) (s : State) : State :=
  let mine : Job → Bool := fun j => match j.kind with | .krn _ k => k == kid | _ => false
  let s := s.gar.cores.foldl (fun s e => (e.2.queue.filter mine).foldl
    (fun s j => modFrame j.chan j.seq (fun f => { f with left := f.left - 1 }) s) s) s
  { s with gar := { s.gar with cores := tblMap (fun _ c => { c with queue := c.queue.filter (fun j => !mine j) }) s.gar.cores } }

/-- The customer kernel whose job it is, if one's. -/
def kernelOf (j : Job) : Option Nat := match j.kind with | .krn _ kid => some kid | _ => none

/-- KERNEL_QUARANTINE: every binding stops, the frame of the faulting job is lost under reason 10, and the event is
recorded. The core is not reset. -/
def quarantine (n kid : Nat) (cause : BitVec 24) (s : State) : State :=
  match tblFind kid s.gar.kernels with
  | none => s
  | some k =>
    let k' := { k with st := 2, faults := satAdd 16 k.faults 1, cause := cause.toNat % 256, core := n }
    let s := dropKernelJobs kid { s with gar := { s.gar with kernels := tblSet kid k' s.gar.kernels } }
    let c := core s n
    let s := match c.job with
      | some j =>
        if kernelOf j ≠ some kid then s
        else modFrame j.chan j.seq (fun f => { f with loss := if f.loss = 0 then 10 else f.loss })
                    (setCore n { c with job := some { j with aborted := true }, held := c.held.filter (fun e => !heldOf j.chan j.seq e.1) } s)
      | none => s
    notify 11 kid (cause.toNat % 256) (journal 0x11 (0x10 + n) 6 kid cause.toNat [] s)

/-- The kernel of the job on a core, when it is a customer kernel's. -/
def jobKernel (c : CoreSt) : Option Nat :=
  c.job.bind kernelOf

end Sys2Proof.Machine
end

