-- ==== Sys2Proof/Machine/Fabric.lean ====
section
/-! DEFINITION. The internal fabric: header checks, lanes, ceilings, credit and rejection (R25 to R45). -/

namespace Sys2Proof.Machine

/-! ### Headers -/

/-- A header as the 128-bit number of Table 2.1. -/
def whNat (w : WH) : Nat :=
  w.wclass.toNat * 2 ^ 124 + w.prio.toNat * 2 ^ 121 + b2n w.assured * 2 ^ 120 + w.dest.toNat * 2 ^ 112 + w.src.toNat * 2 ^ 104 +
    w.chan.toNat * 2 ^ 91 + w.seq.toNat * 2 ^ 75 + w.len.toNat * 2 ^ 59 + w.lref.toNat * 2 ^ 45 + w.rsvd.toNat * 2 ^ 43 +
    b2n w.settle * 2 ^ 42 + b2n w.err * 2 ^ 41 + b2n w.last * 2 ^ 40 + w.stamp.toNat

/-- The 16 bytes of a header in byte-addressed memory (R33). -/
def whBytes (w : WH) : List Byte := le 16 (whNat w)

/-- The three words of a header, and its payload, in DMEM (R33). Unused bytes of the last word are what `fill` gives. -/
def itemWords (i : Item) (fill : Nat) : List Word48 :=
  let v := whNat i.wh
  let n := (i.payload.length + 5) / 6
  let pad := i.payload ++ le (6 * n - i.payload.length) fill
  [BitVec.ofNat 48 (v / 2 ^ 80), BitVec.ofNat 48 (v / 2 ^ 32), BitVec.ofNat 48 (v % 2 ^ 32)] ++
    (fromN 0 n).map (fun k => BitVec.ofNat 48 (unLe ((pad.drop (6 * k)).take 6)))

/-- Flits of an item. -/
def flits (i : Item) : Nat := (16 + i.wh.len.toNat + 31) / 32

/-- The full 64-bit time of a stamp (R32). -/
def fullStamp (s : State) (stamp : BitVec 40) : BitVec 64 :=
  let n := rtbNs s
  let age := (n.toNat % 2 ^ 40 + 2 ^ 40 - stamp.toNat) % 2 ^ 40
  if age < 2 ^ 39 then n - BitVec.ofNat 64 age else n + BitVec.ofNat 64 (2 ^ 40 - age)

/-- A class a unit accepts (Table 2.2). -/
def classOk (dest src : Nat) (c : Nat) : Bool :=
  if dest = 0x00 then [1, 3, 4, 5, 6, 7].contains c
  else if dest = 0x01 then [3, 4, 5, 7].contains c
  else if dest = 0x02 ∨ dest = 0x68 then c == 3 && src == 0x00
  else if dest = 0x03 then false
  else if 0x10 ≤ dest ∧ dest ≤ 0x3F then [0, 1, 2, 6, 7].contains c
  else if 0x40 ≤ dest ∧ dest ≤ 0x47 then c == 1
  else if dest = 0x48 then [0, 1, 4].contains c
  else if 0x50 ≤ dest ∧ dest ≤ 0x53 then [1, 4, 6].contains c
  else if dest = 0x58 then c == 2
  else if dest = 0x59 then [0, 2].contains c
  else if dest = 0x60 then c == 5
  else if dest = 0x70 then (c == 3 && src == 0x00) || c == 7
  else false

/-- LEN within the range of its class (Table 2.4). -/
def lenOk (w : WH) : Bool :=
  let n := w.len.toNat
  match w.wclass.toNat with
  | 0 => decide (n ≤ 4096)
  | 1 => if 0x40 ≤ w.dest.toNat ∧ w.dest.toNat ≤ 0x47 then decide (60 ≤ n ∧ n ≤ 9216) else decide (1 ≤ n ∧ n ≤ 9216)
  | 2 => decide (6 ≤ n ∧ n ≤ 4096)
  | 3 => decide (16 ≤ n ∧ n ≤ 4096)
  | 4 => decide (1 ≤ n ∧ n ≤ 4096)
  | 5 => decide (64 ≤ n ∧ n ≤ 256)
  | 6 => decide (16 ≤ n ∧ n ≤ 2048)
  | _ => decide (n ≤ 64)

/-- DEST names a unit that can take work: a listed unit, its domain on, and a Garnet core not FAULTED. -/
def destOk (s : State) (d : Nat) : Bool :=
  match unitDomain d with
  | none => false
  | some dom => domOn s dom && !(decide (0x10 ≤ d ∧ d ≤ 0x3F) && decide ((core s (d - 0x10)).st = 3))

/-- Reserved encodings of a header (Table 2.8, order 2; R27, R30). -/
def rsvdBad (w : WH) : Bool :=
  let c := w.wclass.toNat
  decide (8 ≤ c) || decide (w.rsvd ≠ 0) || (w.settle && !([0, 1, 2, 4, 6].contains c)) || (!w.assured && decide (w.lref ≠ 0)) ||
    (w.assured && !([1, 3, 4, 5, 6].contains c))

/-- The check at the sending port (R43): the cause, if any. -/
def sendCause (s : State) (w : WH) : Option Nat := if !destOk s w.dest.toNat then some 1 else if rsvdBad w then some 2 else none

/-- The check at the destination port (R43). -/
def destCause (s : State) (i : Item) : Option Nat :=
  let w := i.wh
  if !classOk w.dest.toNat w.src.toNat w.wclass.toNat then some 3
  else if !lenOk w || w.len.toNat != i.payload.length then some 4
  else if w.assured && !s.ledger.live.contains w.lref.toNat then some 5
  else none

/-! ### Rejection (R44) -/

/-- The port of a unit: the cores of a cluster share one, named by its first core. -/
def portKey (u : Nat) : Nat := if 0x10 ≤ u ∧ u ≤ 0x3F then 0x10 + (u - 0x10) / 12 * 12 else u

def rejInit : RejPort := { counts := [], buf := [], overflow := false, missed := 0 }

def rejPort (s : State) (p : Nat) : RejPort := tblGet s.fab.rej p rejInit

def setRej (p : Nat) (r : RejPort) (s : State) : State := { s with fab := { s.fab with rej := tblSet p r s.fab.rej } }

/-- Onyx copies a port's captured records into the fault journal and frees them (R44, Table 18.6). -/
def drainRej (p : Nat) (s : State) : State :=
  let r := rejPort s p
  let s := setRej p { r with buf := [], overflow := false, missed := 0 } s
  let s := r.buf.foldl (fun s x => journal 0x103 p 8 p x.cause (whBytes x.wh ++ x.head.take 8) s) s
  if r.overflow then journal 0x104 p 8 p r.missed [] s else s

/-- The customer kernel that sent an item: the one recorded when it left its core, else the one whose job runs on the core that SRC
names (R44). -/
def senderKernel (s : State) (i : Item) : Option Nat :=
  match s.fab.kern.find? (fun e => e.1 == i) with
  | some e => e.2
  | none =>
    let u := i.wh.src.toNat
    if 0x10 ≤ u ∧ u ≤ 0x3F then jobKernel (core s (u - 0x10)) else none

/-- The record of the item's sender is no longer needed. -/
def forgetSender (i : Item) (s : State) : State :=
  { s with fab := { s.fab with kern := s.fab.kern.eraseP (fun e => e.1 == i) } }

/-- An item is rejected: counted, captured, reported to Onyx by an event of the rejecting port on lane 1, and a fault of the customer
kernel that sent it (R44). The event says whether the item was assured, and under which entry (R45). -/
def reject (p cause : Nat) (i : Item) (s : State) : State :=
  let p := portKey p
  let r := rejPort s p
  let cnt := tblSet cause (satAdd 32 (tblGet r.counts cause 0) 1) r.counts
  let rec' : RejRec := { wh := i.wh, head := padTo 16 i.payload, cause := cause }
  let r' : RejPort := if r.buf.length < 16 then { r with counts := cnt, buf := r.buf ++ [rec'] }
                      else { r with counts := cnt, overflow := true, missed := satAdd 32 r.missed 1 }
  let who := senderKernel s i
  let s := forgetSender i (setRej p r' s)
  let s := if onyxUp s then drainRej p s else s
  let s := eventNow p 1 (cause + 256 * b2n i.wh.assured) i.wh.lref.toNat s
  match who with
  | some kid => quarantine (i.wh.src.toNat - 0x10) kid (BitVec.ofNat 24 (0xB + 65536 * cause)) s
  | none => s

/-! ### Lanes, ceilings and credit (R37 to R41) -/

/-- A lane's ceiling at a port, in half flits per µs (Table 2.6); none without one. -/
def laneRate (lane : Nat) : Option Nat := if lane = 0 then some 125 else if lane = 1 then some 250 else if lane ≤ 3 then some 500 else none

/-- The bucket as it stands now: at most 289 flits. -/
def bucketNow (s : State) (p lane rate : Nat) : Nat :=
  let b := tblGet s.fab.tokens (p * 8 + lane) { level := 578, at' := 0 }
  min 578 (b.level + rate * (now s - b.at'))

/-- Depth of the boundary queue of a unit, per lane, in flits (Table 2.7). -/
def queueDepth (d : Nat) : Nat :=
  if d = 0x00 ∨ (0x10 ≤ d ∧ d ≤ 0x3F) ∨ d = 0x48 ∨ d = 0x60 then 16 else if d = 0x01 then 32
  else if d = 0x68 ∨ d = 0x70 then 4 else 8

/-- Flits under way to a destination port on a lane; the cores of a cluster share a port (R40, R41). -/
def underWay (s : State) (d lane : Nat) : Nat :=
  sumOf flits (s.fab.flight.filter (fun i => portKey i.wh.dest.toNat == portKey d && i.wh.prio.toNat == lane))

/-- Flits in the section of a lane in a unit's boundary queue towards the fabric: the first of what waits at its port, up to the depth; the
rest waits in the unit itself (R40, R41; log 95). -/
def boundaryOut (s : State) (p lane : Nat) : Nat :=
  min (queueDepth p) (sumOf flits (s.fab.wait.filter (fun i => portKey i.wh.src.toNat == portKey p && i.wh.prio.toNat == lane)))

/-- Token and credit are there for the item. -/
def mayEnter (s : State) (p : Nat) (i : Item) : Bool :=
  let lane := i.wh.prio.toNat
  decide (underWay s i.wh.dest.toNat lane < queueDepth i.wh.dest.toNat) &&
    (match laneRate lane with
      | none => true
      | some r => decide (2 * flits i ≤ bucketNow s (portKey p) lane r))

/-- Take the item's tokens. -/
def takeTokens (p : Nat) (i : Item) (s : State) : State :=
  let lane := i.wh.prio.toNat
  match laneRate lane with
  | none => s
  | some r =>
    let b : Bucket := { level := bucketNow s (portKey p) lane r - 2 * flits i, at' := now s }
    { s with fab := { s.fab with tokens := tblSet (portKey p * 8 + lane) b s.fab.tokens } }

/-- Remove the first element equal to `x`. -/
def removeFirst {α : Type} [DecidableEq α] (x : α) : List α → List α
  | [] => []
  | y :: t => if y = x then t else y :: removeFirst x t

/-- Same source, destination and lane (R39). -/
def sameWay (x y : Item) : Bool := x.wh.src == y.wh.src && x.wh.dest == y.wh.dest && x.wh.prio == y.wh.prio

/-- The item is at its sending port, waiting if it was not there already (R38, R40). -/
def present (i : Item) (s : State) : State := if s.fab.wait.contains i then s else offer i s

/-- No item of its source, destination and lane waits before it (R39). -/
def firstWaiting (s : State) (i : Item) : Bool := s.fab.wait.find? (sameWay i) == some i

/-- A waiting item that its port would serve now: to reject it, or to let it go. -/
def portReady (s : State) (x : Item) : Bool := firstWaiting s x && ((sendCause s x.wh).isSome || mayEnter s x.wh.src.toNat x)

/-- The item's lane is served at its sending port: no item of a lower-numbered lane is ready there (R37). -/
def laneServed (s : State) (i : Item) : Bool :=
  !(s.fab.wait.any (fun x => portKey x.wh.src.toNat == portKey i.wh.src.toNat && decide (x.wh.prio.toNat < i.wh.prio.toNat) && portReady s x))

/-- ITEM_ENTERS_FABRIC: the sending port writes SRC; the item waits there for its turn, its lane, its tokens and credit; when it goes the
port makes its checks, and the item is rejected or takes its lane (R34, R37 to R40, R43). -/
def execItemEntersFabric (port : BitVec 8) (wh : WH) (payload : List Byte) (s : State) : Out :=
  let p := port.toNat
  let i : Item := { wh := { wh with src := port }, payload := payload }
  .next (match unitDomain p with
    | none => s
    | some d =>
      if !domOn s d then s
      else
        let s := present i s
        if !firstWaiting s i || !laneServed s i then s
        else
          let s1 := { s with fab := { s.fab with wait := removeFirst i s.fab.wait } }
          match sendCause s i.wh with
          | some c => reject p c i s1
          | none =>
            if mayEnter s p i then
              let s2 := takeTokens p i s1
              { s2 with fab := { s2.fab with flight := s2.fab.flight ++ [i] } }
            else s)

end Sys2Proof.Machine
end

