-- ==== Sys2Proof/Machine/Opal.lean ====
section
/-! DEFINITION. Opal, the sampled signal chain (R408 to R420, R429, R431). -/

namespace Sys2Proof.Machine

/-! ### Registers of a slot (Table 15.3) -/

def sscLoad : Fld := ⟨rk 3 0, 0, 31⟩
def sscSrc (i : Nat) : Fld := ssc i 0x00 0 5
def sscPreset (i : Nat) : Fld := ssc i 0x00 8 3
def sscPhase (i : Nat) : Fld := ssc i 0x00 11 1
def sscMedian (i : Nat) : Fld := ssc i 0x00 12 4
def sscHb (i : Nat) : Fld := ssc i 0x00 16 1
def sscBank (i : Nat) : Fld := ssc i 0x00 17 1
def sscEn (i : Nat) : Fld := ssc i 0x00 31 1
def sscRcic (i : Nat) : Fld := ssc i 0x04 0 10
def sscD (i : Nat) : Fld := ssc i 0x04 16 6
def sscT (i : Nat) : Fld := ssc i 0x08 0 9
def sscFadeMs (i : Nat) : Fld := ssc i 0x08 16 10
def sscShift (i : Nat) : Fld := ssc i 0x0C 0 32
def sscChan (i : Nat) : Fld := ssc i 0x10 0 13
def sscNone (i : Nat) : Fld := ssc i 0x10 15 1
def sscGdelay (i : Nat) : Fld := ssc i 0x14 0 32
def sscRemain (i : Nat) : Fld := ssc i 0x18 0 16
def sscFade (i : Nat) : Fld := ssc i 0x18 16 1
def sscSdmLost (i : Nat) : Fld := ssc i 0x18 17 1
def sscJasper (i : Nat) : Fld := ssc i 0x18 18 1
def sscNsettle (i : Nat) : Fld := ssc i 0x1C 0 16
def sscThrLevel (i k : Nat) : Fld := ssc i (0x20 + 8 * k) 0 24
def sscThrFlags (i k : Nat) : Fld := ssc i (0x20 + 8 * k) 24 8
def sscThrHyst (i k : Nat) : Fld := ssc i (0x24 + 8 * k) 0 24
def sscOut (i : Nat) : Fld := ssc i 0x40 0 32
def sscSettled (i : Nat) : Fld := ssc i 0x44 0 32
def sscFaded (i : Nat) : Fld := ssc i 0x48 0 32
def sscSat (i : Nat) : Fld := ssc i 0x4C 0 32
def sscThrev (i : Nat) : Fld := ssc i 0x50 0 32
def sscDrop (i : Nat) : Fld := ssc i 0x54 0 32
def sscGdstep (i : Nat) : Fld := ssc i 0x58 0 16
def sscSdmloss (i : Nat) : Fld := ssc i 0x5C 0 16

/-- A slot that nothing has configured. -/
def slotInit : OSlot :=
  { conf := false, loaded := false, b0 := [], b1 := [], tau := none, integ := [], comb := [], med := [], fir := [], fadeN := 0,
    fadeK := 0, gdNext := none, gdBlk := 0, thr := [], block := [], seq := 0, pend := none, loop := [] }

def slot (s : State) (i : Nat) : OSlot := tblGet s.opal i slotInit

def setSlot (i : Nat) (o : OSlot) (s : State) : State := { s with opal := tblSet i o s.opal }

/-! ### Parameters of a configuration (R409, R411) -/

/-- OPT.RATE6. -/
def rate6 (shift : Nat) : Bool := decide (shift / 0x1000000 % 2 = 1)

/-- R_CIC, D and T of a preset (Table 15.1). -/
def presetRow (preset : Nat) (six : Bool) : Nat × Nat × Nat :=
  if preset = 1 then (if six then 192 else 96, 4, 128)
  else if preset = 2 then (if six then 96 else 48, 4, 128)
  else if preset = 3 then (if six then 32 else 16, 4, 128)
  else if preset = 4 then (if six then (512, 12, 256) else (384, 8, 256))
  else (1, 4, 64)

/-- f_in of a source, Hz. -/
def srcRate (src : Nat) (six : Bool) : Nat := if src < 24 then (if six then 6144000 else 3072000) else if src < 28 then 6144000 else 48000

/-- A slot's f_in, R_CIC, D and f_out denominator as configured. -/
def slotFin (s : State) (i : Nat) : Nat := srcRate (rd s (sscSrc i)) (rate6 (rd s (sscShift i)))

/-- f_out in Hz, rounded down. -/
def slotFout (s : State) (i : Nat) : Nat := slotFin s i / (rd s (sscRcic i) * rd s (sscD i))

/-- The smallest s0 such that R^5 / 2^s0 is at most 2^23, as ceiling(5 log2 R - 23) has it (R412); with R_CIC = 1 the
samples are in Q1.23 already and no shift remains (log 17). -/
def presetS0 (r : Nat) : Int :=
  if r ≤ 1 then 0
  else match (fromN 0 64).find? (fun k => decide (r ^ 5 ≤ 2 ^ k)) with
    | some k => (k : Int) - 23
    | none => 0

/-- s0 of a slot. -/
def slotS0 (s : State) (i : Nat) : Int :=
  if rd s (sscPreset i) ≠ 0 then presetS0 (rd s (sscRcic i)) else ((rd s (sscShift i) % 256 : Nat) : Int)

/-- N_settle (R418). -/
def nSettle (t d l : Nat) : Nat := 5 + (t - 1 + d - 1) / d + (if l = 0 then 0 else (l - 1) / 2) + 1

/-- GDELAY in ns, rounded to nearest (R416); `fir2` is twice the FIR term in 1/100 intermediate samples. -/
def gdelay (fin r l : Nat) (fir2 : Int) : Int :=
  let cic := if r = 1 then 0 else 5 * (r - 1)
  let num : Int := ((cic * 100 + (if l = 0 then 0 else (l - 1) * r * 100) : Nat) : Int) + fir2 * r
  (2 * num * 1000000000 + 200 * fin) / (400 * fin)

/-- Twice the FIR delay in 1/100 intermediate samples: symmetric, stored minimum phase, or the τ found at the load. -/
def firDelay2 (preset phase t : Nat) (tau : Option Int) : Int :=
  if phase = 0 then ((t - 1 : Nat) : Int) * 100
  else match tau with
    | some x => 2 * x
    | none => if preset = 4 then 2800 else if preset = 0 then 0 else 1800

/-- Cosine and sine of an angle, all in units of 2^-60, by `n` more terms of their series: the term of degree `k` is `t`. -/
def cosSin (w : Int) : Nat → Nat → Int → Int × Int → Int × Int
  | 0, _, _, a => a
  | n + 1, k, t, (c, s) =>
    let a := match k % 4 with | 0 => (c + t, s) | 1 => (c, s + t) | 2 => (c - t, s) | _ => (c, s - t)
    cosSin w n (k + 1) (t * w / 2 ^ 60 / ((k + 1 : Nat) : Int)) a

/-- The sums that the group delay of a filter is made of, at the angle whose cosine and sine are `c` and `s`: of h[k] and of k × h[k], real and
imaginary parts. -/
def delaySums (c s : Int) : List Int → Nat → Int × Int → Int × Int × Int × Int → Int × Int × Int × Int
  | [], _, _, a => a
  | h :: t, k, (x, y), (nr, ni, mr, mi) =>
    delaySums c s t (k + 1) ((x * c - y * s) / 2 ^ 60, (x * s + y * c) / 2 ^ 60)
      (nr + h * x, ni + h * y, mr + (k : Int) * h * x, mi + (k : Int) * h * y)

/-- −dφ/dω of coefficients at `num` / `den` of the intermediate rate, in 1/100 samples (R416); none where the filter passes nothing there. -/
def groupDelay (h : List Int) (num den : Nat) : Option Int :=
  let w : Int := 7244019458077122842 * (num : Int) / (den : Int)
  let (c, s) := cosSin w 24 0 (2 ^ 60) (0, 0)
  let (nr, ni, mr, mi) := delaySums c s h 0 (2 ^ 60, 0) (0, 0, 0, 0)
  let d := nr * nr + ni * ni
  if d = 0 then none else some ((200 * (mr * nr + mi * ni) + d) / (2 * d))

/-- T_eff (R414). -/
def tEff (t : Nat) (half : Bool) : Nat := if half then (t + 3) / 2 else t

/-- Cost of a filter, tap-ops/s (R414). -/
def filtCost (fin r d t : Nat) (half fading : Bool) : Nat := tEff t half * fin / (max 1 (r * d)) * (if fading then 2 else 1)

/-- The committed cost of slot `i`. -/
def slotCost (s : State) (i : Nat) : Nat :=
  if flag s (sscEn i) then
    filtCost (slotFin s i) (rd s (sscRcic i)) (rd s (sscD i)) (rd s (sscT i)) (flag s (sscHb i)) (flag s (sscFade i))
  else 0

/-- The sum over enabled slots, but for slot `but`. -/
def opalLoad (s : State) (but : Nat) : Nat := sumOf (fun e => if e.1 = but then 0 else slotCost s e.1) s.opal

/-- The engine's rate (R414). -/
def opalRate : Nat := 1572864000

/-- SSC_LOAD and CLK_SDMOUT follow the enabled slots (R409, R414). -/
def opalUpd (s : State) : State :=
  let s := wr sscLoad (opalLoad s 64 / 1000) s
  (fromN 0 6).foldl (fun s g =>
    match s.opal.find? (fun e => flag s (sscEn e.1) && decide (rd s (sscSrc e.1) / 4 = g)) with
    | some e => wr (clk 0x64 (6 + g) 1) (b2n (rate6 (rd s (sscShift e.1)))) (wr (clk 0x64 g 1) 1 s)
    | none => wr (clk 0x64 g 1) 0 s) s

/-! ### Filters -/

/-- Saturate to 24 bits, with whether it did (R408). -/
def sat24 (v : Int) : Int × Nat :=
  if v < -8388608 then (-8388608, 1) else if 8388607 < v then (8388607, 1) else (v, 0)

/-- floor(v / 2^k), or v * 2^-k. -/
def shr (v : Int) (k : Int) : Int := if 0 ≤ k then v / ((2 ^ k.toNat : Nat) : Int) else v * ((2 ^ (-k).toNat : Nat) : Int)

/-- The signed value of a modulo-2^46 word. -/
def s46 (v : Nat) : Int := sx 46 v

/-- One input through five integrators modulo 2^46. -/
def integrate : List Nat → Nat → List Nat
  | [], _ => []
  | a :: t, x => let y := (a + x) % 2 ^ 46; y :: integrate t y

/-- One value through the combs (differential delay 1): the new delays, and the output. -/
def combs : List Nat → Nat → List Nat × Nat
  | [], x => ([], x)
  | z :: t, x =>
    let y := (x + 2 ^ 46 - z) % 2 ^ 46
    let r := combs t y
    (x :: r.1, r.2)

/-- The CIC over the inputs of one intermediate sample. -/
def cicRun (o : OSlot) (xs : List Int) : OSlot × Int :=
  let z := List.replicate 5 0
  let i0 := if o.integ.length = 5 then o.integ else z
  let c0 := if o.comb.length = 5 then o.comb else z
  let ig := xs.foldl (fun a x => integrate a (toU 46 x)) i0
  let r := combs c0 (ig.getLastD 0)
  ({ o with integ := ig, comb := r.1 }, s46 r.2)

/-- Insert into a list in rising order. -/
def insertInt (x : Int) : List Int → List Int
  | [] => [x]
  | y :: t => if x ≤ y then x :: y :: t else y :: insertInt x t

/-- The middle of the last `l` values (R412). -/
def medianOf (l : Nat) (v : List Int) : Int :=
  let w := (v ++ List.replicate l 0).take l
  (w.foldl (fun a x => insertInt x a) []).getD (l / 2) 0

/-- The FIR sum: coefficient 0 multiplies the newest sample; 56 bits, wrapping (R412, R413). -/
def firSum (h mem : List Int) : Int := sx 56 (toU 56 ((h.zip mem).foldl (fun a p => a + p.1 * p.2) 0))

/-- One bank's output y2, with whether it saturated. -/
def firOut (s2 : Int) (h mem : List Int) : Int × Nat := sat24 (shr (firSum h mem) (23 - s2))

/-- The coefficients of the stored set of a preset slot (log 2). -/
def presetSet (preset phase t : Nat) : List Int := (fromN 0 t).map (fun k => (Config.presetCoef preset phase k).toInt)

/-- The intermediate samples of one output: `d` groups of `r` inputs through CIC, rank filter and into the FIR memory;
saturations are counted. The memory keeps as many samples as the longest filter has taps, so that both banks of a fade find theirs. -/
def intermed (s0 s1 : Int) (adc : Nat) (r l : Nat) : Nat → List Int → OSlot → Nat → OSlot × Nat
  | 0, _, o, n => (o, n)
  | d + 1, xs, o, n =>
    let g := xs.take r
    let cr := if adc = 0 then cicRun o g else (o, g.headD 0 * (adc : Int))
    let y0 := sat24 (shr cr.2 s0)
    let o := { cr.1 with med := (y0.1 :: cr.1.med).take 9 }
    let m := if l = 0 then y0.1 else medianOf l o.med
    let y1 := sat24 (shr m (-s1))
    intermed s0 s1 adc r l d (xs.drop r) { o with fir := (y1.1 :: o.fir).take 256 } (n + y0.2 + y1.2)

/-! ### Settling and configuration -/

/-- Events 1 to 4 of R418: stage memories cleared, and the count set. -/
def restartSettle (i : Nat) (s : State) : State :=
  let o := slot s i
  let s := setSlot i { o with integ := [], comb := [], med := [], fir := [] } s
  wr (sscRemain i) (nSettle (rd s (sscT i)) (rd s (sscD i)) (rd s (sscMedian i))) s

/-- The coefficients of the bank in use. -/
def bankOf (s : State) (i : Nat) (b : Nat) : List Int := if b = 0 then (slot s i).b0 else (slot s i).b1

/-- GDELAY as the slot now stands, as its register holds it. -/
def slotGd (s : State) (i : Nat) : Nat :=
  toU 32 (gdelay (slotFin s i) (rd s (sscRcic i)) (rd s (sscMedian i))
    (firDelay2 (rd s (sscPreset i)) (rd s (sscPhase i)) (rd s (sscT i)) (slot s i).tau))

/-- An instant less a GDELAY (R416, R417). -/
def lessGd (t gd : Nat) : Nat := ((t : Int) - sx 32 gd).toNat

/-- τ of a minimum-phase set on slot `i`, at f_ref = min(1 kHz, f_out / 8), found to within 0.01 sample: where in that range, and its value where
the filter passes nothing at f_ref, is free (R416; log 2). -/
def tauOf (s : State) (i : Nat) (h : List Int) : Int :=
  let r := rd s (sscRcic i)
  let d := rd s (sscD i)
  let fin := slotFin s i
  match (if 8000 * d * r ≤ fin then groupDelay h (1000 * r) fin else groupDelay h 1 (8 * d)) with
  | some t => t + ((Config.freeNat s.free % 3 : Nat) : Int) - 1
  | none => (Config.freeNat s.free : Int)

/-- A configuration is written into the slot (R410); in ratio mode the coefficients loaded before stay those of the
slot only while it was in ratio mode or enabled. -/
def putCfg (i : Nat) (c : OCfg) (s : State) : State :=
  let o := slot s i
  let was := rd s (sscPreset i)
  let row := presetRow c.preset (rate6 c.shift)
  let stored := presetSet c.preset c.phase row.2.2
  let o' := if c.preset ≠ 0 then { o with conf := true, loaded := true, b0 := stored, b1 := [], tau := none }
            else { o with conf := true, loaded := o.loaded && (decide (was = 0) || flag s (sscEn i)) }
  let s := setSlot i o' s
  let s := if c.preset ≠ 0 then wr (sscBank i) 0 (wr (sscHb i) 0 (wr (sscT i) row.2.2 s))
           else if o'.loaded then s else wr (sscT i) 0 s
  let s := wr (sscD i) (if c.preset ≠ 0 then row.2.1 else c.d) (wr (sscRcic i) (if c.preset ≠ 0 then row.1 else c.rcic) s)
  let s := wr (sscSrc i) c.src (wr (sscPreset i) c.preset (wr (sscPhase i) c.phase (wr (sscMedian i) c.median (wr (sscShift i) c.shift s))))
  let s := wr (sscChan i) (if c.chan = 0xFFFF then 0 else c.chan) (wr (sscNone i) (b2n (c.chan = 0xFFFF)) s)
  let s := wr (sscNsettle i) (nSettle (rd s (sscT i)) (rd s (sscD i)) c.median) s
  wr (sscGdelay i) (slotGd s i) s

/-- The result of SSC_SLOT_CFG; of a slot without coefficients neither value is stated, and both are free (log 2). -/
def cfgResult (s : State) (i : Nat) : List Byte × State :=
  if (slot s i).loaded then (le 2 (rd s (sscNsettle i)) ++ le 4 (rd s (sscGdelay i)), s)
  else (le 6 (Config.freeNat s.free), tookFree s)

/-- A load writes the bank that is not in use and switches to it, with τ where the phase is minimum (R413, R416). -/
def putCoef (i : Nat) (c : OCoef) (s : State) : State :=
  let o := slot s i
  let b := 1 - rd s (sscBank i)
  let tau := if rd s (sscPhase i) = 1 then some (tauOf s i c.h) else none
  let o := { o with loaded := true, tau := tau, b0 := if b = 0 then c.h else o.b0, b1 := if b = 1 then c.h else o.b1 }
  let s := tookFree (setSlot i o s)
  let s := wr (sscHb i) (b2n c.half) (wr (sscT i) c.h.length (wr (sscBank i) b (wr (sscFadeMs i) c.fade s)))
  wr (sscNsettle i) (nSettle c.h.length (rd s (sscD i)) (rd s (sscMedian i))) s

/-- Release the ball group of a source that no configured slot uses any longer. -/
def freeBalls (i : Nat) (s : State) : State :=
  (fromN 0 4).foldl (fun s g =>
    match claimOf s 2 g with
    | some c =>
      if c.holder = 0x58 ∧ c.obj = i ∧ ¬((slot s i).conf ∧ 16 ≤ rd s (sscSrc i) ∧ (rd s (sscSrc i) - 16) / 2 = g) then
        match s.opal.find? (fun e => decide (e.1 ≠ i) && e.2.conf && decide (16 ≤ rd s (sscSrc e.1) ∧ (rd s (sscSrc e.1) - 16) / 2 = g)) with
        | some e => claim 2 g 0x58 e.1 (unclaim 2 g s)
        | none => unclaim 2 g s
      else s
    | none => s) s

/-- The change of an enabled slot takes effect before its next output (R415, R418). -/
def applyPend (i : Nat) (s : State) : State :=
  let o := slot s i
  match o.pend with
  | none => s
  | some (.cfg c) =>
    let s := opalUpd (restartSettle i (freeBalls i (putCfg i c (setSlot i { o with pend := none } s))))
    let r := cfgResult s i
    finishWait (.fade i) stOk r.1 r.2
  | some (.coef c) =>
    let back := [rd s (sscHb i), rd s (sscFadeMs i), (match o.tau with | some t => 1 + toU 32 t | none => 0)]
    let keep : Cmd → Cmd := fun (d : Cmd) => if d.wait == Wait.fade i then { d with early := back } else d
    let s := setSlot i { o with pend := none } { s with host := { s.host with cmds := s.host.cmds.map keep } }
    let s := putCoef i c s
    if c.fade = 0 then
      finishWait (.fade i) stOk [] (opalUpd (restartSettle i (wr (sscGdelay i) (slotGd s i) s)))
    else
      let n := max 1 (c.fade * slotFout s i / 1000)
      let gd := slotGd s i
      opalUpd (wr (sscFade i) 1 (setSlot i { slot s i with fadeN := n, fadeK := 0, gdNext := some gd } s))

/-- A PGA gain step on the ADC of a PLC port (R418, event 5). -/
def pgaStep (port : Nat) (s : State) : State :=
  s.opal.foldl (fun s e =>
    if flag s (sscEn e.1) && decide (rd s (sscSrc e.1) = 24 + port) then wr (sscRemain e.1) (rd s (sscRemain e.1) + 2) s else s) s

/-! ### Outputs -/

/-- The threshold event of a slot's comparator, to Onyx on lane 2 (R419). What a WCLASS 7 payload holds is the model's
own: slot, comparator, and 8 for the notification it raises (log 18). -/
def thrEvent (i k stamp : Nat) (s : State) : State :=
  let ch := if flag s (sscNone i) then 0 else rd s (sscChan i)
  event 2 0x58 ch stamp [BitVec.ofNat 8 i, BitVec.ofNat 8 k, 8] s

/-- One comparator on an output (R419). -/
def compareOut (i : Nat) (y : Int) (stamp k : Nat) (s : State) : State :=
  let fl := rd s (sscThrFlags i k)
  if fl % 2 = 0 then s
  else
    let o := slot s i
    let t := tblGet o.thr k { armed := true, hold := none }
    let v : Int := if fl / 4 % 2 = 1 then (min y.natAbs 8388607 : Nat) else y
    let lev := sx 24 (rd s (sscThrLevel i k))
    let hy : Int := rd s (sscThrHyst i k)
    let fall := fl / 2 % 2 = 1
    let hit := if fall then v ≤ lev else lev ≤ v
    let clear := if fall then lev + hy < v else v < lev - hy
    if t.armed ∧ hit then
      let s := bump (sscThrev i) s
      if t.hold.isSome then setSlot i { o with thr := tblSet k { t with armed := false } o.thr } s
      else thrEvent i k stamp (setSlot i { o with thr := tblSet k { armed := false, hold := some (now s + 10000) } o.thr } s)
    else if !t.armed ∧ clear then setSlot i { o with thr := tblSet k { t with armed := true } o.thr } s
    else s

/-- The factor that brings a source's samples to Q1.23: none for a bitstream (0), 2^10 for the 14-bit ADC, 1 for
loopback. -/
def srcScale (src : Nat) : Nat := if src < 24 then 0 else if src < 28 then 1024 else 1

/-- One output of an enabled slot, after any pending change (R412, R415, R418, R419). -/
def slotOut (i : Nat) (xs : List Int) (tIn : Nat) (s : State) : State :=
  let r := rd s (sscRcic i)
  let d := rd s (sscD i)
  let sh := rd s (sscShift i)
  let (o, n1) := intermed (slotS0 s i) (sx 8 (sh / 256)) (srcScale (rd s (sscSrc i))) r (rd s (sscMedian i)) d xs (slot s i) 0
  let s2 := sx 8 (sh / 65536)
  let b := rd s (sscBank i)
  let yn := firOut s2 (if b = 0 then o.b0 else o.b1) o.fir
  let fading := decide (o.fadeN ≠ 0)
  let yo := firOut s2 (if b = 0 then o.b1 else o.b0) o.fir
  let yf := sat24 (yo.1 + ((o.fadeK + 1 : Nat) : Int) * (yn.1 - yo.1) / ((o.fadeN + 1 : Nat) : Int))
  let y := if fading then yf.1 else yn.1
  let sats := n1 + yn.2 + (if fading then yo.2 + yf.2 else 0)
  let rem := rd s (sscRemain i)
  let mark := decide (rem ≠ 0)
  -- the new GDELAY applies from the first block that begins after the fade
  let begins := o.block.isEmpty
  let step := begins && !fading && o.gdNext.isSome
  let gd := if step then o.gdNext.getD 0 else rd s (sscGdelay i)
  let changed := step && decide (gd ≠ rd s (sscGdelay i))
  let o := { o with gdNext := if step then none else o.gdNext, gdBlk := if begins then gd else o.gdBlk,
                    block := o.block ++ [{ y := y, settle := mark, tIn := tIn }] }
  let ends := fading && decide (o.fadeK + 1 = o.fadeN)
  let o := if fading then (if ends then { o with fadeN := 0, fadeK := 0 } else { o with fadeK := o.fadeK + 1 }) else o
  let s := wr (sscGdelay i) gd (setSlot i o s)
  let s := if changed then bump (sscGdstep i) s else s
  let s := bump (sscOut i) (bumpN (sscSat i) sats s)
  let s := if mark then bump (sscSettled i) (wr (sscRemain i) (rem - 1) s) else s
  let s := if fading then bump (sscFaded i) s else s
  let stamp := lessGd tIn (rd s (sscGdelay i))
  let s := if mark then s else (fromN 0 4).foldl (fun s k => compareOut i y stamp k s) s
  if ends then finishWait (.fade i) stOk [] (opalUpd (wr (sscFade i) 0 s)) else s

/-- SLOT_OUTPUT: an output is made of exactly R_CIC × D inputs; a loopback slot takes its samples from the items it was
sent (R409). -/
def execSlotOutput (slot' : Fin 64) (inputs : List Int) (tIn : BitVec 64) (s : State) : Out :=
  let i := slot'.val
  .next (if !domOn s 6 || !flag s (sscEn i) || flag s (sscSdmLost i) then s
    else
      let s1 := applyPend i s
      let need := rd s1 (sscRcic i) * rd s1 (sscD i)
      if rd s1 (sscSrc i) = 28 then
        let o := slot s1 i
        if o.loop.length < need then s
        else
          let xs := o.loop.take need
          slotOut i (xs.map (·.1)) ((xs.getLast?.map (·.2)).getD 0) (setSlot i { o with loop := o.loop.drop need } s1)
      else if inputs.length ≠ need then s
      else slotOut i inputs tIn.toNat s1)

/-- THRESHOLD_HOLDOFF_END (R419). -/
def execThresholdHoldoffEnd (slot' : Fin 64) (idx : Fin 4) (s : State) : Out :=
  let i := slot'.val
  let o := slot s i
  let t := tblGet o.thr idx.val { armed := true, hold := none }
  .next (if due s t.hold then setSlot i { o with thr := tblSet idx.val { t with hold := none } o.thr } s else s)

/-- SDM_LOSS (R431). -/
def execSdmLoss (slot' : Fin 64) (s : State) : Out :=
  let i := slot'.val
  .next (if flag s (sscEn i) && decide (rd s (sscSrc i) < 24) && !flag s (sscSdmLost i) then
    bump (sscSdmloss i) (wr (sscSdmLost i) 1 s) else s)

/-- SDM_RETURN: settling restarts (R418, event 4). -/
def execSdmReturn (slot' : Fin 64) (s : State) : Out :=
  let i := slot'.val
  .next (if flag s (sscSdmLost i) then restartSettle i (wr (sscSdmLost i) 0 s) else s)

/-! ### Blocks (R420) -/

/-- 3 bytes a sample, little-endian Q1.23. -/
def sampleBytes (y : Int) : List Byte := le 3 (toU 24 y)

/-- The items of one block, at most 1,365 samples each; LAST on the final one (R29). -/
def blockItems (i ch prio dest gd : Nat) (err : Bool) : Nat → BitVec 16 → List OOut → List Item
  | 0, _, _ => []
  | n + 1, seq, b =>
    if b.isEmpty then []
    else
      let now := b.take 1365
      let rest := b.drop 1365
      mkItem 2 prio dest 0x58 ch seq (lessGd ((now.head?.map (·.tIn)).getD 0) gd) (now.any (·.settle)) err rest.isEmpty
        (now.flatMap (fun o => sampleBytes o.y)) :: blockItems i ch prio dest gd err n (seq + 1) rest

/-- A slot at a TICK boundary sends its block (R420, R431). -/
def opalSlotTick (i : Nat) (s : State) : State :=
  let o := slot s i
  if !flag s (sscEn i) || flag s (sscNone i) || flag s (sscJasper i) then
    (if flag s (sscNone i) || flag s (sscJasper i) then setSlot i { o with block := [] } s else s)
  else
    let ch := rd s (sscChan i)
    let lost := flag s (sscSdmLost i)
    let zeros := List.replicate (slotFout s i / 400) { y := 0, settle := false, tIn := (rtbNs s).toNat : OOut }
    let blk := if lost then zeros else o.block
    if blk.length < 2 then s
    else match chan? s ch with
      | some c =>
        if c.st = 2 then
          let items := blockItems i ch c.p.prio.toNat (0x10 + c.core) o.gdBlk lost (blk.length / 1365 + 1) o.seq blk
          items.foldl (fun s x => offer x s) (setSlot i { o with block := [], seq := o.seq + BitVec.ofNat 16 items.length } s)
        else bumpN (sscDrop i) blk.length (setSlot i { o with block := [] } s)
      | none => bumpN (sscDrop i) blk.length (setSlot i { o with block := [] } s)

/-- Every slot at a TICK boundary. -/
def opalTick (s : State) : State := if domOn s 6 then s.opal.foldl (fun s e => opalSlotTick e.1 s) s else s

/-! ### Commands (R185, R410, R413) -/

/-- The lowest-numbered enabled slot of a group of SDM inputs, but for slot `but`. -/
def groupSlot (s : State) (g but : Nat) : Option Nat :=
  (s.opal.find? (fun e => decide (e.1 ≠ but) && flag s (sscEn e.1) && decide (rd s (sscSrc e.1) < 24 ∧ rd s (sscSrc e.1) / 4 = g))).map (·.1)

/-- A conflict with an enabled slot of the same group at the other rate (R409). -/
def rateRej (s : State) (i src shift : Nat) : Option Rej :=
  if 24 ≤ src then none
  else match groupSlot s (src / 4) i with
    | some k => if rate6 (rd s (sscShift k)) = rate6 shift then none
                else some (conflict s { cls := 1, idx := k, holder := 0x58, obj := k })
    | none => none

/-- A ball group held by the other function (R428). -/
def ballRej (s : State) (g mine : Nat) : Option Rej :=
  match claimOf s 2 g with
  | some c => if c.holder = mine then none else some (conflict s c)
  | none => none

/-- CAPACITY of the filter engine, whose detail is 0 (R414). -/
def engineRej (s : State) (i cost : Nat) : Option Rej := if opalRate < opalLoad s i + cost then some (capacity 0) else none

def opalInfo (opcode timeout : Nat) : OpInfo :=
  { opcode := opcode, idem := .ck, lcls := .c, timeout := some timeout, setup := false }

/-- The byte of SHIFT as a signed number. -/
def shiftByte (shift k : Nat) : Int := sx 8 (shift / 256 ^ k)

/-- SSC_SLOT_CFG (R409, R410, R414, R428). -/
def specSscSlotCfg (slot' src preset : BitVec 8) (ratio : BitVec 16) (median phase : BitVec 8) (shift : BitVec 32) (chan : BitVec 16) :
    Spec where
  info := opalInfo 0x0501 10000
  par :=
    let sr := src.toNat
    let p := preset.toNat
    let r := ratio.toNat % 1024
    let d := ratio.toNat / 1024
    let sh := shift.toNat
    firstRej [
      (decide (63 < slot'.toNat), badParam 0), (decide (28 < sr), badParam 1),
      (decide (5 < p ∨ (1 ≤ p ∧ p ≤ 4 ∧ 24 ≤ sr) ∨ (p = 5 ∧ ¬(24 ≤ sr ∧ sr ≤ 27))), badParam 2),
      (decide (if p ≠ 0 then ratio ≠ 0 else d < 1 ∨ 32 < d ∨ (if sr < 24 then r < 2 ∨ 512 < r else r ≠ 1)), badParam 3),
      (!([0, 3, 5, 7, 9].contains median.toNat), badParam 5),
      (decide (1 < phase.toNat ∨ (p = 5 ∧ phase ≠ 0)), badParam 6),
      (decide ((p = 0 ∧ 48 < sh % 256) ∨ shiftByte sh 1 < -8 ∨ 7 < shiftByte sh 1 ∨ shiftByte sh 2 < -16 ∨ 15 < shiftByte sh 2 ∨
        2 ≤ sh / 0x1000000), badParam 7),
      (decide (8191 < chan.toNat ∧ chan ≠ 0xFFFF), badParam 11)]
  st := fun s =>
    let i := slot'.toNat
    let row := if preset = 0 then (ratio.toNat % 1024, ratio.toNat / 1024, rd s (sscT i)) else presetRow preset.toNat (rate6 shift.toNat)
    let cost := filtCost (srcRate src.toNat (rate6 shift.toNat)) row.1 row.2.1 row.2.2 (preset == 0 && flag s (sscHb i)) false
    orRej (domRej s 6) (orRej (claimRej s 1 i 0x58 i) (orRej
      (if 16 ≤ src.toNat ∧ src.toNat ≤ 23 then ballRej s ((src.toNat - 16) / 2) 0x58 else none)
      (if flag s (sscEn i) then orRej (rateRej s i src.toNat shift.toNat) (engineRej s i cost) else none)))
  objs := [.slot slot'.toNat]
  acc := fun _ s =>
    let i := slot'.toNat
    let s := claim 1 i 0x58 i s
    if 16 ≤ src.toNat ∧ src.toNat ≤ 23 then
      match claimOf s 2 ((src.toNat - 16) / 2) with
      | some _ => s
      | none => claim 2 ((src.toNat - 16) / 2) 0x58 i s
    else s
  eff := fun s =>
    let i := slot'.toNat
    let c : OCfg := { src := src.toNat, preset := preset.toNat, rcic := ratio.toNat % 1024, d := ratio.toNat / 1024,
                      median := median.toNat, phase := phase.toNat, shift := shift.toNat, chan := chan.toNat }
    if flag s (sscEn i) then .wait (.fade i) (setSlot i { slot s i with pend := some (.cfg c) } s)
    else
      let s := freeBalls i (putCfg i c s)
      let r := cfgResult s i
      okRes r.1 r.2

def execSscSlotCfg (h : Hdr) (slot' src preset : BitVec 8) (ratio : BitVec 16) (median phase : BitVec 8) (shift : BitVec 32)
    (chan : BitVec 16) (s : State) : Out :=
  .next (scp h (.sscSlotCfg h slot' src preset ratio median phase shift chan)
    (specSscSlotCfg slot' src preset ratio median phase shift chan) s)

/-- The first coefficient that breaks the symmetry of PHASE 0 (R413). -/
def asymAt (h : List (BitVec 24)) : Option Nat := firstIdx (fun p => p.1 != p.2) (h.zip h.reverse)

/-- The first coefficient that half-band form does not allow: at an even, non-zero offset from the centre tap (R413). -/
def halfAt (h : List (BitVec 24)) : Option Nat :=
  let m := h.length / 2
  (fromN 0 h.length).find? (fun k => decide (k ≠ m ∧ (k + m) % 2 = 0) && decide (h.getD k 0 ≠ 0))

/-- SSC_COEF (R413, R414, R415). -/
def specSscCoef (h : Hdr) (slot' : BitVec 8) (taps fade : BitVec 16) (flags : BitVec 8) (coefs : List (BitVec 24)) : Spec where
  info := opalInfo 0x0502 (100000 + 1000 * fade.toNat)
  par := firstRej [
    (decide (63 < slot'.toNat), badParam 0), (decide (taps.toNat < 1 ∨ 256 < taps.toNat), badParam 1),
    (decide (1000 < fade.toNat), badParam 3),
    (decide (1 < flags.toNat) || (flags == 1 && !(decide (taps.toNat % 4 = 3 ∧ 7 ≤ taps.toNat ∧ taps.toNat ≤ 255))), badParam 5),
    (!h.indirect, badParam 6),
    (decide (coefs.length < taps.toNat), badLength (6 + 3 * coefs.length)),
    (decide (taps.toNat < coefs.length), badLength (6 + 3 * taps.toNat)),
    (flags == 1 && (halfAt coefs).isSome, badParam (6 + 3 * (halfAt coefs).getD 0))]
  st := fun s =>
    let i := slot'.toNat
    let cost := filtCost (slotFin s i) (rd s (sscRcic i)) (rd s (sscD i)) taps.toNat (flags == 1) (decide (fade ≠ 0))
    orRej (domRej s 6) (orRej (claimRej s 1 i 0x58 i) (orRej
      (firstRej [(!(slot s i).conf, rej stBadState), (flags == 1 && rd s (sscD i) != 2, badParam 5),
        (rd s (sscPhase i) == 0 && (asymAt coefs).isSome, badParam (6 + 3 * (asymAt coefs).getD 0))])
      (if flag s (sscEn i) then engineRej s i cost else none)))
  objs := [.slot slot'.toNat]
  eff := fun s =>
    let i := slot'.toNat
    let c : OCoef := { fade := fade.toNat, half := flags == 1, h := coefs.map (·.toInt) }
    if flag s (sscEn i) then .wait (.fade i) (setSlot i { slot s i with pend := some (.coef c) } s)
    else
      let s := putCoef i c s
      ok (wr (sscGdelay i) (slotGd s i) s)

def execSscCoef (h : Hdr) (slot' : BitVec 8) (taps fade : BitVec 16) (flags : BitVec 8) (coefs : List (BitVec 24)) (s : State) : Out :=
  .next (scp h (.sscCoef h slot' taps fade flags coefs) (specSscCoef h slot' taps fade flags coefs) s)

/-- SSC_THRESH: the comparator is set and re-armed (R419). -/
def specSscThresh (slot' idx : BitVec 8) (level hyst : BitVec 24) (flags : BitVec 8) : Spec where
  info := opalInfo 0x0503 10000
  par := firstRej [(decide (63 < slot'.toNat), badParam 0), (decide (3 < idx.toNat), badParam 1),
    (decide (8388607 < hyst.toNat), badParam 5), (decide (7 < flags.toNat), badParam 8)]
  st := fun s => orRej (domRej s 6) (claimRej s 1 slot'.toNat 0x58 slot'.toNat)
  objs := [.slot slot'.toNat]
  eff := fun s =>
    let i := slot'.toNat
    let k := idx.toNat
    let o := slot s i
    let t := tblGet o.thr k { armed := true, hold := none }
    let s := setSlot i { o with thr := tblSet k { t with armed := true } o.thr } s
    ok (wr (sscThrLevel i k) level.toNat (wr (sscThrHyst i k) hyst.toNat (wr (sscThrFlags i k) flags.toNat s)))

def execSscThresh (h : Hdr) (slot' idx : BitVec 8) (level hyst : BitVec 24) (flags : BitVec 8) (s : State) : Out :=
  .next (scp h (.sscThresh h slot' idx level hyst flags) (specSscThresh slot' idx level hyst flags) s)

/-- SSC_SLOT_STATE, action 1: the slot starts, settling, with its comparators armed (R418, R419). -/
def specSscSlotEnable (slot' : BitVec 8) : Spec where
  info := opalInfo 0x0504 10000
  par := if 63 < slot'.toNat then some (badParam 0) else none
  st := fun s =>
    let i := slot'.toNat
    let cost := filtCost (slotFin s i) (rd s (sscRcic i)) (rd s (sscD i)) (rd s (sscT i)) (flag s (sscHb i)) false
    orRej (domRej s 6) (orRej (claimRej s 1 i 0x58 i) (orRej
      (if !(slot s i).conf || !(slot s i).loaded then some (rej stBadState) else none)
      (orRej (rateRej s i (rd s (sscSrc i)) (rd s (sscShift i))) (engineRej s i cost))))
  objs := [.slot slot'.toNat]
  eff := fun s =>
    let i := slot'.toNat
    let o := slot s i
    if flag s (sscEn i) then ok s
    else
      let o := { o with thr := tblMap (fun _ t => { t with armed := true }) o.thr, block := [] }
      ok (opalUpd (restartSettle i (wr (sscEn i) 1 (setSlot i o s))))

def execSscSlotEnable (h : Hdr) (slot' : BitVec 8) (s : State) : Out :=
  .next (scp h (.sscSlotEnable h slot') (specSscSlotEnable slot') s)

/-- SSC_SLOT_STATE, action 0 (R185). -/
def specSscSlotDisable (slot' : BitVec 8) : Spec where
  info := opalInfo 0x0504 10000
  par := if 63 < slot'.toNat then some (badParam 0) else none
  st := fun s => orRej (domRej s 6) (claimRej s 1 slot'.toNat 0x58 slot'.toNat)
  objs := [.slot slot'.toNat]
  eff := fun s =>
    let i := slot'.toNat
    ok (opalUpd (wr (sscRemain i) 0 (wr (sscSdmLost i) 0 (wr (sscEn i) 0 (setSlot i { slot s i with block := [] } s)))))

def execSscSlotDisable (h : Hdr) (slot' : BitVec 8) (s : State) : Out :=
  .next (scp h (.sscSlotDisable h slot') (specSscSlotDisable slot') s)

/-- The words of `n` registers from offset `off` of a block. -/
def regWords (s : State) (block off : Nat) : Nat → List Byte
  | 0 => []
  | n + 1 => le 4 (regView s (rk block off)).toNat ++ regWords s block (off + 4) n

/-- SSC_STATUS (R185): the result of a slot is the first 64 bytes of its words, as the catalogue has it (log 19). -/
def specSscStatus (kind index : BitVec 8) : Spec where
  info := { opcode := 0x0508, idem := .rx, lcls := .n, timeout := some 10000, setup := false }
  par := firstRej [(decide (1 < kind.toNat), badParam 0), (decide (63 < index.toNat ∨ (kind = 1 ∧ 15 < index.toNat)), badParam 1)]
  st := fun s => domRej s 6
  objs := if kind = 0 then [.slot index.toNat] else [.tdm index.toNat]
  eff := fun s =>
    let n := index.toNat
    if kind = 0 then okRes (regWords s 3 (0x100 + 0x80 * n) 16) s
    else okRes (regWords s 4 (0x100 * n) 3 ++ regWords s 4 (0x100 * n + 0x10) 5) s

def execSscStatus (h : Hdr) (kind index : BitVec 8) (s : State) : Out :=
  .next (scp h (.sscStatus h kind index) (specSscStatus kind index) s)

/-! ### Jasper's slots (R348) -/

/-- Slot 60 + n is taken by PLC port `n` with preset 5, or given back. -/
def jasperSlot (n : Nat) (on : Bool) (s : State) : State :=
  let i := 60 + n
  if on then
    let c : OCfg := { src := 24 + n, preset := 5, rcic := 1, d := 4, median := 0, phase := 0, shift := 0, chan := 0xFFFF }
    let s := claim 1 i (0x50 + n) n (putCfg i c s)
    opalUpd (restartSettle i (wr (sscJasper i) 1 (wr (sscEn i) 1 s)))
  else if flag s (sscJasper i) then opalUpd (unclaim 1 i (wr (sscJasper i) 0 (wr (sscEn i) 0 (setSlot i slotInit s)))) else s

end Sys2Proof.Machine
end

