-- ==== Sys2Proof/Machine/VoiceOps.lean ====
section
/-! DEFINITION. Channels, groups and recorders as the channel commands and the dispatcher see them: costs and capacity
(R292, R299, R303, R509), placement (R250, R287), the plan that accepted commands make (R175, R181), and their effects. -/

namespace Sys2Proof.Machine

/-! ### Codecs (R285, R292) -/

/-- CODEC names a row and option of Table 11.2. -/
def codecOk (c : Nat) : Bool :=
  let f := c / 16
  let o := c % 16
  if f = 0 ∨ f = 3 ∨ f = 7 ∨ f = 8 then decide (o ≤ 1) else if f = 1 ∨ f = 2 then decide (o = 0)
  else if f = 4 then decide (o ≤ 7) else if f = 5 then decide (o ≤ 8) else decide (f = 6)

/-- Internal rate, Hz; narrowband Opus runs at 8 kHz, medium band and wideband at 16 kHz (log 16). -/
def codecRate (c : Nat) : Nat :=
  let f := c / 16
  let o := c % 16
  if f = 1 ∨ f = 5 then 16000
  else if f = 6 then (if 12 ≤ o then 48000 else if 4 ≤ o then 16000 else 8000)
  else if f = 7 then (if o = 1 then 16000 else 8000)
  else if f = 8 then (if o = 1 then 48000 else 16000)
  else 8000

/-- Cost per 10 ms at a tail of 64 ms. -/
def codecBase (c : Nat) : Nat :=
  let f := c / 16
  let o := c % 16
  if f = 0 then 30000 else if f = 1 then 70000 else if f = 2 then 50000 else if f = 3 then 90000
  else if f = 4 then 150000 else if f = 5 then 240000 else if f = 6 then (if 12 ≤ o then 200000 else 260000)
  else if f = 7 then (if o = 1 then 55000 else 25000) else if f = 8 then (if o = 1 then 30000 else 55000) else 0

/-- Cost per 10 ms at a given tail (R292). -/
def codecCost (c tail : Nat) : Nat :=
  let step := if codecRate c = 8000 then 2500 else 5000
  if codecRate c = 48000 then codecBase c
  else if tail = 0 then codecBase c - 4 * step
  else codecBase c + tail / 16 * step - 4 * step

/-- PTIME, in TICKs, is allowed for the codec (Table 11.2). -/
def ptimeOk (c p : Nat) : Bool :=
  let f := c / 16
  if f = 1 ∨ f = 2 then [2, 4, 8, 16].contains p
  else if f = 3 ∨ f = 6 then [4, 8, 16].contains p
  else if f = 4 ∨ f = 5 then [8, 16].contains p
  else [1, 2, 4, 8, 16].contains p

def isPassthru (p : ChParams) : Bool := p.flags.getLsbD 8

/-- Is field `k` of CH_CREATE after CHAN outside its own range (R285)? -/
def fieldBad (p : ChParams) (k : Nat) : Bool :=
  if k = 0 then !codecOk p.codec.toNat
  else if k = 1 then !([1, 2, 4, 8, 16].contains p.ptime.toNat)
  else if k = 2 then decide (128 < p.echoTail.toNat ∨ p.echoTail.toNat % 16 ≠ 0)
  else if k = 3 then decide (2 < p.jbMode.toNat)
  else if k = 4 then decide (1000 < p.jbMin.toNat)
  else if k = 5 then decide (1000 < p.jbMax.toNat)
  else if k = 6 then decide (7 < p.prio.toNat)
  else decide (511 < p.flags.toNat)

/-- Is field `k` inconsistent with another field (R285)? -/
def fieldClash (p : ChParams) (k : Nat) : Bool :=
  if k = 1 then !ptimeOk p.codec.toNat p.ptime.toNat
  else if k = 2 then decide (codecRate p.codec.toNat = 48000 ∧ p.echoTail ≠ 0)
  else if k = 5 then decide (p.jbMax.toNat < p.jbMin.toNat ∨ (p.jbMode.toNat ≤ 1 ∧ 2 * p.jbMax.toNat < 5 * p.ptime.toNat))
  else if k = 7 then isPassthru p && p.prio != 0
  else false

/-- The first field at fault. -/
def fieldFault (p : ChParams) : Option Nat := (fromN 0 8).find? (fun k => fieldBad p k || fieldClash p k)

/-- Sizes of the fields of CH_CREATE after CHAN. -/
def fieldSize (k : Nat) : Nat := if k = 4 ∨ k = 5 ∨ k = 7 then 2 else 1

/-- Offset of field `k` in CH_CREATE. -/
def createOff (k : Nat) : Nat := 2 + sumOf fieldSize (fromN 0 k)

/-- Offset of field `k` in CH_MODIFY with this MASK. -/
def modifyOff (mask k : Nat) : Nat := 4 + sumOf (fun j => if mask / 2 ^ j % 2 = 1 then fieldSize j else 0) (fromN 0 k)

/-- Is field `k` of a CH_MODIFY inconsistent with an earlier field of the same command (R567)? -/
def selClash (sel : Nat → Bool) (p : ChParams) (k : Nat) : Bool :=
  if k = 5 then (sel 4 && decide (p.jbMax.toNat < p.jbMin.toNat)) ||
      (sel 1 && sel 3 && decide (p.jbMode.toNat ≤ 1 ∧ 2 * p.jbMax.toNat < 5 * p.ptime.toNat))
  else if k = 7 then sel 6 && fieldClash p 7
  else sel 0 && fieldClash p k

/-- The fields a MASK selects, from the command; the rest as they were. -/
def mergePar (mask : Nat) (o n : ChParams) : ChParams :=
  let b (k : Nat) : Bool := decide (mask / 2 ^ k % 2 = 1)
  { codec := if b 0 then n.codec else o.codec, ptime := if b 1 then n.ptime else o.ptime,
    echoTail := if b 2 then n.echoTail else o.echoTail, jbMode := if b 3 then n.jbMode else o.jbMode,
    jbMin := if b 4 then n.jbMin else o.jbMin, jbMax := if b 5 then n.jbMax else o.jbMax,
    prio := if b 6 then n.prio else o.prio, flags := if b 7 then n.flags else o.flags }

/-! ### Costs (R292, R299, R301, R307, R398) -/

/-- Cycles per 10 ms of the kernel jobs of a channel. -/
def bindCost (s : State) (ptime : Nat) (binds : Tbl Nat) : Nat :=
  sumOf (fun e => match tblFind e.2 s.gar.kernels with | some k => ((k.wcet + 64) * 4 + ptime - 1) / ptime | none => 0) binds

/-- Cycles per 10 ms of a channel. -/
def chanCost (s : State) (c : Chan) : Nat :=
  codecCost c.p.codec.toNat c.p.echoTail.toNat + (if c.leg then 60000 else 0) + bindCost s c.p.ptime.toNat c.binds

/-- Cycles of all jobs of one voice frame. -/
def frameCycles (s : State) (c : Chan) : Nat := (chanCost s c * c.p.ptime.toNat + 3) / 4

/-- A channel that runs, or would if its core had not failed: ACTIVE, MIGRATING or STALLED. -/
def isRunning (c : Chan) : Bool := decide (2 ≤ c.st)

def memberCost (m : Member) : Nat := (if m.talk then 2000 else 0) + (if m.listen then 1000 else 0)

def recCost : Nat := 2000

/-- The load in cycles per 10 ms. -/
def voiceLoad (s : State) : Nat :=
  sumOf (fun e => if isRunning e.2 then chanCost s e.2 else 0) s.voice.chans +
    sumOf (fun e => sumOf memberCost e.2.members) s.voice.groups +
    sumOf (fun e => if e.2.stopping then 0 else recCost) s.voice.recs

/-- How many times slower than 1.2 GHz a cluster's clock runs. -/
def dspScale (s : State) (g : Nat) : Nat := max 1 (rd s (pllP (2 + g)) / 2)

/-- Cores of a cluster that are in service. -/
def coresUp (s : State) (g : Nat) : Nat :=
  ((fromN (12 * g) 12).filter (fun n => decide ((core s n).st ≤ 2))).length

/-- The budget of R303: of each powered cluster, its working cores less one spare, at its clock. -/
def voiceBudget (s : State) : Nat :=
  sumOf (fun g => if clusterOn s g && !s.voice.sched.noRoom.contains g then (coresUp s g - 1) * 9600000 / dspScale s g else 0) (fromN 0 4)

/-- The ceiling on active channels (R303). -/
def voiceCeiling (s : State) : Nat := if s.boot.cfg.ddrspeed = 1 then 2304 else 3072

def activeChans (s : State) : Nat := tblCount (fun _ c => isRunning c) s.voice.chans

/-- How many further channels of this cost are admitted, with or without the reserve for emergencies (R181, R303). -/
def chanRoom (s : State) (cost : Nat) (full : Bool) : Nat :=
  let resv := if full then 0 else s.onyx.emergReserve
  min ((voiceBudget s - voiceLoad s - resv * cost) / max 1 cost) (voiceCeiling s - activeChans s - resv)

/-! ### Placement (R250, R287, R509) -/

/-- May Onyx place work on core `n`? ACTIVE or STANDBY, in a powered cluster that is not being emptied (R91). -/
def usableCore (s : State) (n : Nat) : Bool :=
  let st := (core s n).st
  let leaving := s.host.cmds.any (fun c => c.wait == .core n && (match c.instr with | .coreOutOfService _ _ => true | _ => false))
  decide (st = 0 ∨ st = 2) && !leaving && clusterOn s (clusterOf n) && !s.voice.sched.noRoom.contains (clusterOf n)

/-- The running channels assigned to core `n`. -/
def onCore (s : State) (n : Nat) : List (Nat × Chan) := s.voice.chans.filter (fun e => decide (2 ≤ e.2.st ∧ e.2.st ≤ 3 ∧ e.2.core = n))

/-- Cycles placed in TICK phase `j` of core `n`, but for channel `but`. -/
def tickCycles (s : State) (n j but : Nat) : Nat :=
  sumOf (fun e => if e.1 ≠ but ∧ (j + 16 - e.2.phase) % e.2.p.ptime.toNat = 0 then frameCycles s e.2 else 0) (onCore s n)

/-- A channel with frames of `cyc` cycles fits at a phase of core `n` (R250); the jobs of a voice frame all run in its job
TICK. With PASSTHRU the conditions 1 and 2 of R509 hold as well; condition 3 cannot fail (log 20). -/
def fitsAt (s : State) (n φ p cyc : Nat) (pass : Bool) (but : Nat) : Bool :=
  let sc := dspScale s (clusterOf n)
  (fromN 0 16).all (fun j => decide (j % p ≠ φ) || decide (tickCycles s n j but + cyc ≤ 2700000 / sc)) &&
    (!pass || (decide (cyc * sc ≤ 480000) &&
      decide (((onCore s n).filter (fun e => decide (e.1 ≠ but) && isPassthru e.2.p)).length < 4)))

/-- No job TICK of a channel whose IN is another channel begins at a commit of that one, but at least one TICK after it (R291). Where one
of the two has a commit, or a job, in every TICK, it reads the commit of the TICK before at every phase. -/
def afterProducer (s : State) (c : Chan) (φ : Nat) : Bool :=
  let v := c.inB.toNat
  if v / 0x10000000 ≠ 3 then true
  else match chan? s (v % 8192) with
    | some q =>
      let g := min c.p.ptime.toNat q.p.ptime.toNat
      !isRunning q || decide (g ≤ 1) || decide ((φ + 16 - q.phase) % g ≠ 1)
    | none => true

/-- Where channel `c` fits: cores and phases. -/
def placesOf (s : State) (c : Chan) (cores : List Nat) (but : Nat) : List (Nat × Nat) :=
  let p := c.p.ptime.toNat
  let cyc := frameCycles s c
  cores.flatMap (fun n => if usableCore s n then
    ((fromN 0 p).filter (fun φ => fitsAt s n φ p cyc (isPassthru c.p) but && afterProducer s c φ)).map (fun φ => (n, φ)) else [])

/-- Every core. -/
def allCores : List Nat := fromN 0 48

/-! ### Contexts -/

def jbInit : Jb :=
  { frames := [], map := none, start := 0, delays := [], depth := 0, target := 0, grewAt := 0, shrunkAt := 0, deepSince := none, newest := none }

/-- A duration in ms rounded up to whole TICKs, ns (R296). -/
def tickUp (ms : Nat) : Nat := (ms * 2 + 4) / 5 * 2500000

/-- The depth a mode begins with. -/
def jbStart (p : ChParams) : Jb :=
  let d := if p.jbMode = 2 then 0 else tickUp p.jbMin.toNat
  { jbInit with depth := d, target := d }

/-- A new context (R284); its first SEQ is not stated and free (log 2). -/
def newChan (p : ChParams) (emerg : Bool) (seq : BitVec 16) : Chan :=
  { st := 1, p := if emerg then { p with prio := 0 } else p, core := 0, phase := 0, inB := 0, outB := 0, seq := seq, frames := [],
    ckpt := none, jb := jbStart p, ec := 0, erle := 0, bypass := false, tone := none, binds := [], stats := [], gov := 0, sov := 0,
    moveTo := none, leg := false, stall := 0, gapAt := none, lostIn := [], settleIn := false }

/-- PRIO 0 for whatever a command with EMERG creates or changes (R176). -/
def emergPrio (e : Bool) (c : Chan) : Chan := if e then { c with p := { c.p with prio := 0 } } else c

/-- Release the bindings of a channel's local side (Table 19.4). -/
def unbindLocal (ch : Nat) : State → State :=
  unclaimIf (fun c => c.obj == ch && decide (0x10 ≤ c.holder ∧ c.holder ≤ 0x3F) && (c.cls == 1 || c.cls == 7 || c.cls == 9))

/-- The bindings a channel's IN and OUT need: class and index (R286). -/
def localBinds (inB outB : BitVec 32) : List (Nat × Nat) :=
  let one (b : BitVec 32) : List (Nat × Nat) :=
    let v := b.toNat
    let k := v / 0x10000000
    if k = 1 then [(9, 0x8000 + 256 * (v / 65536 % 16) + v % 256)] else if k = 2 then [(1, 0x8000 + v % 64)]
    else if k = 3 then [(7, v % 8192)] else []
  one inB ++ one outB

/-- A core with a channel is ACTIVE; one that has lost its last is STANDBY again (R490; log 21). -/
def coreBusy (n : Nat) (s : State) : State :=
  let c := core s n
  let has := !(chansOn s n).isEmpty
  if c.st = 2 ∧ has then setCore n { c with st := 0 } s
  else if c.st = 0 ∧ !has then setCore n { c with st := 2 } s
  else s

/-- The jobs of a channel that have not begun are taken off its core. -/
def dropJobs (ch : Nat) (s : State) : State :=
  let keep : Job → Bool := fun j => j.chan != ch || j.kind == .mix
  let f : CoreSt → CoreSt := fun c => { c with queue := c.queue.filter keep, redo := c.redo.filter keep }
  { s with gar := { s.gar with cores := tblMap (fun _ c => f c) s.gar.cores } }

/-- A kernel is BOUND while some channel binds it (R308). -/
def kernelState (kid : Nat) (s : State) : State :=
  match tblFind kid s.gar.kernels with
  | none => s
  | some k =>
    if k.st = 2 then s
    else
      let b := tblAny (fun _ c => c.binds.any (fun e => e.2 == kid)) s.voice.chans
      { s with gar := { s.gar with kernels := tblSet kid { k with st := b2n b } s.gar.kernels } }

def setGroup (g : Nat) (v : Group) (s : State) : State := { s with voice := { s.voice with groups := tblSet g v s.voice.groups } }

def setRec (r : Nat) (v : Recorder) (s : State) : State := { s with voice := { s.voice with recs := tblSet r v s.voice.recs } }

/-- A join (R299). -/
def joinGroup (g ch : Nat) (role gain : BitVec 8) (emerg : Bool) (s : State) : State :=
  match tblFind g s.voice.groups with
  | none => s
  | some v =>
    let m : Member := { chan := ch, talk := role.getLsbD 0, listen := role.getLsbD 1, gain := gain.toInt }
    let v := { v with members := v.members.filter (fun x => x.chan != ch) ++ [m], prio := if emerg then 0 else v.prio }
    modChan ch (emergPrio emerg) (setGroup g v s)

/-- The effect of one accepted channel command on the provisioned state, as R181 has it at the instant it takes effect.
`early` is what acceptance settled: core and phase, members, recorder and context. -/
def applyVoice (i : Instr) (emerg : Bool) (early : List Nat) (s : State) : State :=
  match i with
  | .chCreate _ ch p => tookFree (setChan ch.toNat (newChan p emerg (freeBits 16 s)) s)
  | .chActivate _ ch inB outB =>
    modChan ch.toNat (fun c => emergPrio emerg
      { c with st := 2, core := early.getD 0 0, phase := early.getD 1 0, inB := inB, outB := outB,
               frames := [], ckpt := none, jb := jbStart c.p, ec := if c.p.echoTail = 0 then 0 else 1, erle := 0, gapAt := none, stall := 0, settleIn := false }) s
  | .chModify _ ch mask p =>
    if mask = 0 then s
    else modChan ch.toNat (fun c => emergPrio emerg
      { c with p := mergePar mask.toNat c.p p, bypass := false,
               ec := if mask.getLsbD 2 ∨ c.bypass then (if (mergePar mask.toNat c.p p).echoTail = 0 then 0 else 1) else c.ec }) s
  | .chDeactivate _ ch =>
    dropJobs ch.toNat (unbindLocal ch.toNat (modChan ch.toNat (fun c => emergPrio emerg
      { c with st := 1, frames := [], jb := jbInit, leg := false,
               moveTo := none, gapAt := none, stall := 0, ec := 0, lostIn := [], settleIn := false }) s))
  | .chDelete _ ch => { s with voice := { s.voice with chans := tblDel ch.toNat s.voice.chans } }
  | .toneGen _ ch dir ts tone dur =>
    let t : Option ToneSt :=
      if tone = 0xFF then none
      else some { dir := dir.toNat, set := ts.toNat, tone := tone.toNat,
                  until' := if dur = 0 then none else some ((rtbNs s).toNat + dur.toNat * 1000000) }
    modChan ch.toNat (fun c => emergPrio emerg { c with tone := t }) s
  | .tonesetLoad _ ts defn => { s with voice := { s.voice with toneSets := tblSet ts.toNat defn s.voice.toneSets } }
  | .groupCreate _ g maxl mix prio =>
    setGroup g.toNat { maxl := maxl.toNat, mix := mix.toNat, prio := if emerg then 0 else prio.toNat, members := [] } s
  | .groupJoin _ g ch role gain => joinGroup g.toNat ch.toNat role gain emerg s
  | .groupLeave _ g ch =>
    match tblFind g.toNat s.voice.groups with
    | some v => setGroup g.toNat { v with members := v.members.filter (fun x => x.chan != ch.toNat), prio := if emerg then 0 else v.prio } s
    | none => s
  | .groupDelete _ g => { s with voice := { s.voice with groups := tblDel g.toNat s.voice.groups } }
  | .recStart _ ch q segMs ba bl nb =>
    let r : Recorder := { chan := ch.toNat, queue := q.toNat, segMs := segMs.toNat, bufaddr := ba, buflen := bl.toNat, nbuf := nb.toNat,
                          start := rtbNs s, nframes := 0, bytes := 0, drops := 0, index := 0, body := [], spill := [], closed := [], bufLast := [],
                          stopping := false, last := 0 }
    modChan ch.toNat (emergPrio emerg) (setRec (early.getD 0 0) r s)
  | .recStop _ r =>
    match tblFind r.toNat s.voice.recs with
    | some v => setRec r.toNat { v with stopping := true } s
    | none => s
  | .emergRule _ r trig src g fl =>
    let v : Rule := { trigger := trig.toNat, src := src, group := g.toNat, enabled := fl.getLsbD 0 }
    { s with voice := { s.voice with rules := tblSet r.toNat v s.voice.rules } }
  | .krnBind _ kid ch stage =>
    kernelState kid.toNat (modChan ch.toNat (fun c => emergPrio emerg { c with binds := tblSet stage.toNat kid.toNat c.binds }) s)
  | .krnUnbind _ kid ch =>
    kernelState kid.toNat (modChan ch.toNat (fun c => emergPrio emerg { c with binds := tblFilter (fun _ k => k != kid.toNat) c.binds }) s)
  | .krnUnload _ kid =>
    let f : Chan → Chan := fun c => { c with binds := tblFilter (fun _ k => k != kid.toNat) c.binds }
    let s := { s with voice := { s.voice with chans := tblMap (fun _ c => f c) s.voice.chans } }
    { s with gar := { s.gar with kernels := tblDel kid.toNat s.gar.kernels } }
  | _ => s

/-! ### The plan (R175, R181) -/

/-- An accepted command that has not been applied. -/
def unapplied (c : Cmd) : Bool := c.lref.isSome && c.fin.isNone

/-- The provisioned state once every accepted command before `lsn` has been applied. -/
def projUpto (lsn : Nat) (s : State) : State :=
  (s.host.cmds.filter (fun c => unapplied c && decide (c.lsn < lsn))).foldl (fun s c => applyVoice c.instr c.emerg c.early s) s

/-- The provisioned state once every accepted command has been applied. -/
def proj (s : State) : State := projUpto s.ledger.nextLsn.toNat s

/-- The command under execution. -/
def meCmd (h : Hdr) (s : State) : Option Cmd := cmdAt s h.queue.val h.seq

/-- The plan before the command under execution. -/
def planOf (h : Hdr) (s : State) : State :=
  match meCmd h s with
  | some c => projUpto c.lsn s
  | none => s

/-- A recorder runs until its REC_STOP has closed and numbered its last segment. -/
def recRuns (r : Recorder) : Bool := !r.stopping || r.nframes != 0 || !r.spill.isEmpty || r.closed.any (fun x => x.lref.isNone)

/-- Every channel, group, recorder or kernel that a command names exists (what it creates apart). -/
def voiceHas (i : Instr) (s : State) : Bool :=
  let ch (n : Nat) : Bool := (chan? s n).isSome
  let gr (n : Nat) : Bool := (tblFind n s.voice.groups).isSome
  let kr (n : Nat) : Bool := (tblFind n s.gar.kernels).isSome
  match i with
  | .chActivate _ c inB _ => ch c.toNat && (decide (inB.toNat / 0x10000000 ≠ 3) || ch (inB.toNat % 8192))
  | .chModify _ c _ _ | .chDeactivate _ c | .chDelete _ c | .chStats _ c _ | .recStart _ c _ _ _ _ _ => ch c.toNat
  | .toneGen _ c _ ts tone _ => ch c.toNat && (decide (tone = 0xFF ∨ ts = 0x80) || (tblFind ts.toNat s.voice.toneSets).isSome)
  | .groupJoin _ g c _ _ | .groupLeave _ g c => gr g.toNat && ch c.toNat
  | .groupDelete _ g => gr g.toNat
  | .recStop _ r => (tblFind r.toNat s.voice.recs).isSome
  | .krnBind _ k c _ | .krnUnbind _ k c => kr k.toNat && ch c.toNat
  | .krnUnload _ k | .krnStatus _ k => kr k.toNat
  | _ => true

/-- The objects are in a state that permits the command (R284, Tables 7.8 and 7.16). -/
def voicePermits (i : Instr) (s : State) : Bool :=
  let cs (n : Nat) (p : Chan → Bool) : Bool := match chan? s n with | some c => p c | none => false
  match i with
  | .chCreate _ c _ => (chan? s c.toNat).isNone
  | .chActivate _ c _ _ => cs c.toNat (fun x => x.st == 1)
  | .chModify _ c mask _ => cs c.toNat (fun x => x.st == 1 || (decide (mask.toNat % 4 = 0) && isRunning x))
  | .chDeactivate _ c => cs c.toNat isRunning
  | .chDelete _ c =>
    cs c.toNat (fun x => x.st == 1 && x.binds.isEmpty) && !tblAny (fun _ g => g.members.any (fun m => m.chan == c.toNat)) s.voice.groups &&
      !tblAny (fun _ r => r.chan == c.toNat && recRuns r) s.voice.recs
  | .tonesetLoad _ ts _ => !tblAny (fun _ c => match c.tone with | some t => t.set == ts.toNat | none => false) s.voice.chans
  | .groupCreate _ g _ _ _ => (tblFind g.toNat s.voice.groups).isNone
  | .groupLeave _ g c => match tblFind g.toNat s.voice.groups with | some v => v.members.any (fun m => m.chan == c.toNat) | none => false
  | .recStop _ r => match tblFind r.toNat s.voice.recs with | some v => !v.stopping | none => false
  | .krnLoad _ k _ _ _ => (tblFind k.toNat s.gar.kernels).isNone
  | .krnBind _ k c stage =>
    (match tblFind k.toNat s.gar.kernels with | some v => v.st != 2 | none => false) &&
      cs c.toNat (fun x => match tblFind stage.toNat x.binds with | some b => b == k.toNat | none => true)
  | .krnUnbind _ k c => cs c.toNat (fun x => x.binds.any (fun e => e.2 == k.toNat))
  | .krnUnload _ k => match tblFind k.toNat s.gar.kernels with | some v => v.st != 1 | none => false
  | _ => voiceHas i s

/-- The operation applies: its objects exist and permit it. -/
def voiceValid (i : Instr) (s : State) : Bool := voiceHas i s && voicePermits i s

/-- A channel that MIGRATES or is STALLED permits neither CH_MODIFY nor CH_DEACTIVATE when it is given (R284, Table 11.1); an accepted one
stands through a migration. -/
def voiceNow (i : Instr) (s : State) : Bool :=
  let settled (n : Nat) : Bool := match chan? s n with | some c => decide (c.st ≤ 2) | none => true
  match i with
  | .chModify _ c _ _ | .chDeactivate _ c => settled c.toNat
  | _ => true

/-- The check before acceptance: the operation applies to the state as it is or as the accepted commands will make it
(R146, R175); a command that will then no longer apply ends with BAD_STATE when its turn comes. -/
def voicePre (i : Instr) (s : State) : Option Rej :=
  if (voiceValid i s && voiceNow i s) || (voiceValid i (proj s) && voiceNow i (proj s)) then none
  else if voiceHas i s || voiceHas i (proj s) then some (rej stBadState)
  else some (rej stNotProvisioned)

/-- The channel at whose frame boundary a placed command takes effect (R181); none for a group itself. -/
def frameChan (i : Instr) : Option Nat :=
  match i with
  | .chModify _ c _ _ | .chDeactivate _ c | .chDelete _ c | .toneGen _ c _ _ _ _ | .recStart _ c _ _ _ _ _ => some c.toNat
  | .groupJoin _ _ c _ _ | .groupLeave _ _ c => some c.toNat
  | .krnBind _ _ c _ | .krnUnbind _ _ c => some c.toNat
  | _ => none

/-- The channel a recorder records. -/
def recChan (s : State) (r : Nat) : Option Nat := (tblFind r s.voice.recs).map (·.chan)

/-- As `frameChan`, a recorder's commands going with its channel. -/
def boundaryChan (i : Instr) (s : State) : Option Nat :=
  match i with
  | .recStop _ r => recChan s r.toNat
  | _ => frameChan i

/-- Does a channel have frame boundaries: ACTIVE or MIGRATING? -/
def hasFrames (s : State) (ch : Nat) : Bool := match chan? s ch with | some c => c.st == 2 || c.st == 3 | none => false

/-- A placed command on the same channel stands unapplied. -/
def placedOn (ch : Nat) (s : State) : Bool :=
  s.host.cmds.any (fun c => unapplied c && c.objs.contains (.chan ch) && (match c.wait with | .commit => true | .frame _ => true | _ => false))

/-- The result of a command that has taken effect. -/
def voiceResult (i : Instr) (early : List Nat) : List Byte :=
  match i with
  | .chActivate _ _ _ _ => le 1 (early.getD 0 0)
  | .groupJoin _ _ _ _ _ | .groupLeave _ _ _ => le 2 (early.getD 0 0)
  | .recStart _ _ _ _ _ _ _ => le 2 (early.getD 0 0)
  | _ => []

/-! ### Emergency rules (R300) -/

/-- A trigger fires: a rule whose group is missing goes to the journal; rules of triggers 0 and 1 join their channel to a group as talker and
listener at the next commit; the notification of triggers 2 and 3 is the one the event itself raises (log 22). -/
def ruleFire (trigger src tone : Nat) (s : State) : State :=
  s.voice.rules.foldl (fun s e =>
    let r := e.2
    let v := r.src.toNat
    if !(r.enabled && r.trigger == trigger && decide (v % 65536 = src) && (trigger != 1 || decide (v / 65536 % 256 = tone))) then s
    else match tblFind r.group (proj s).voice.groups with
      | none => journal 0x108 0 8 e.1 r.group [] s
      | some g =>
        if 2 ≤ trigger then s
        else if 1024 ≤ (g.members.filter (fun m => m.listen && m.chan != src)).length then s
        else { s with voice := { s.voice with sched := { s.voice.sched with joins := s.voice.sched.joins ++ [(r.group, src, 0)] } } }) s

/-- A trigger that comes while Onyx restarts waits in its boundary queue (Edges of Chapter 11, R42). -/
def ruleEvent (trigger src tone : Nat) (s : State) : State :=
  if eventsWait s then post (.rule trigger src tone) s else ruleFire trigger src tone s

/-- A stopped recorder whose segments are all written goes; the context the recorders hold is released with the last one
that runs (R301, Table 19.4). -/
def recTidy (s : State) : State :=
  let s := { s with voice := { s.voice with recs := tblFilter (fun _ r => !(r.stopping && r.nframes == 0 && r.spill.isEmpty && r.closed.isEmpty)) s.voice.recs } }
  if tblAny (fun _ r => !r.stopping) s.voice.recs || s.host.cmds.any (fun c => unapplied c && c.opcode == 0x020D) then s
  else match s.voice.recCtx with
    | some x => { unclaim 4 x s with voice := { s.voice with recCtx := none }, tpz := { s.tpz with ctxs := tblDel x s.tpz.ctxs } }
    | none => s

/-- The effect of a channel command at the instant it takes effect (R181): REC_STOP goes on to its last segment, an
activation whose core has left service is placed again, and an activation with PRIO 0 fires trigger 0. -/
def effectOf (c : Cmd) (s : State) : Eff :=
  let go (early : List Nat) (s : State) : State := applyVoice c.instr c.emerg early s
  match c.instr with
  | .recStop _ r =>
    let s := go [] s
    match tblFind r.toNat s.voice.recs with
    | some v => if v.nframes = 0 ∧ v.spill.isEmpty ∧ v.closed.all (fun x => x.lref.isSome) then .done stOk (le 4 v.last.toNat) (recTidy s) else .wait (.recorder r.toNat) s
    | none => .done stBadState [] s
  | .chActivate _ ch inB _ =>
    let there := usableCore s (c.early.getD 0 0)
    let place := if there then some (c.early.getD 0 0, c.early.getD 1 0)
                 else match chan? s ch.toNat with
                   | some x => choose (placesOf s { x with inB := inB } allCores ch.toNat) s
                   | none => none
    match place with
    | none => .done stFaulted [] (unbindLocal ch.toNat s)
    | some (n, φ) =>
      let s := coreBusy n (go [n, φ] (if there then s else tookFree s))
      let s := match chan? s ch.toNat with | some x => if x.p.prio = 0 then ruleEvent 0 ch.toNat 0 s else s | none => s
      .done stOk (le 1 n) s
  | .chDeactivate _ ch =>
    let n := (chan? s ch.toNat).map (·.core)
    let s := go [] s
    .done stOk [] (match n with | some k => coreBusy k s | none => s)
  | _ => .done stOk (voiceResult c.instr c.early) (go c.early s)

/-- A placed command takes effect. -/
def takeEffect (c : Cmd) (s : State) : State :=
  match effectOf c s with
  | .done st r s => finish c st r s
  | .wait w s => setCmd { c with wait := w } s

/-- The execution of a channel command: BAD_STATE if an earlier one has changed its object so that it no longer applies; at
once where nothing that runs is changed; otherwise placed in the schedule being built (R175, R181). -/
def stage (h : Hdr) (i : Instr) (atCommit : Bool) (s : State) : Eff :=
  match meCmd h s with
  | none => .done stBadState [] s
  | some c =>
    if !voiceValid i (planOf h s) then
      .done stBadState [] (match i with
        | .chActivate _ ch _ _ => if (match chan? s ch.toNat with | some x => isRunning x | none => false) then s else unbindLocal ch.toNat s
        | .recStart _ _ _ _ _ _ _ => recTidy s
        | _ => s)
    else if atCommit then .wait .commit s
    else match boundaryChan i s with
      | some ch => if hasFrames s ch || placedOn ch s then .wait .commit s else effectOf c s
      | none => effectOf c s

end Sys2Proof.Machine
end

