-- ==== Sys2Proof/Machine/NetOps.lean ====
section
/-! DEFINITION. The packet engine's and the ports' shared operations: flows, class and held queues, the end of the hold time,
fallover, and assured messages (R201 to R203, R311 to R344, R398 to R402). -/

namespace Sys2Proof.Machine

/-! ### Flows -/

def flow? (s : State) (n : Nat) : Option Flow := tblFind n s.net.flows

def setFlow (n : Nat) (f : Flow) (s : State) : State := { s with net := { s.net with flows := tblSet n f s.net.flows } }

def modFlow (n : Nat) (g : Flow → Flow) (s : State) : State := match flow? s n with | some f => setFlow n (g f) s | none => s

/-- `k` events in a flow's statistics, at their offset in Table 12.8. -/
def flowBumpN (off k : Nat) (f : Flow) : Flow := { f with stats := tblSet off (satAdd 32 (tblGet f.stats off 0) k) f.stats }

def flowBump (n off : Nat) (s : State) : State := modFlow n (flowBumpN off 1) s

/-- FLAGS of FLOW_ADD: SST on egress, SRTP, RTP, assured. -/
def fSst (f : Flow) : Bool := decide (f.flags % 2 = 1)
def fSrtp (f : Flow) : Bool := decide (f.flags / 2 % 2 = 1)
def fRtp (f : Flow) : Bool := decide (f.flags / 4 % 2 = 1)
def fAssured (f : Flow) : Bool := decide (f.flags / 8 % 2 = 1)

/-- A forwarding flow (R322). -/
def fForward (f : Flow) : Bool := decide (f.chan = 0xFFFF)

/-- The flow carries voice of its channel. -/
def fVoice (f : Flow) : Bool := !fForward f && !fAssured f

/-! ### Ports -/

def ethInit : EthPort :=
  { rxSeq := 0, q := [], held := [], sending := none, pauseUntil := none, wdSince := none, holdoff := none, holdUntil := none,
    settleUntil := none, xoff := none, rateN := 0, rateAt := 0 }

def ethP (s : State) (p : Nat) : EthPort := tblGet s.net.ports p ethInit

def setEth (p : Nat) (v : EthPort) (s : State) : State := { s with net := { s.net with ports := tblSet p v s.net.ports } }

def ethSt (s : State) (p : Nat) : Nat := rd s (ethState p)

/-- Speed of a port, Mb/s (Table 12.1, NET_PORT_STAT.SPEED). -/
def ethMbps (s : State) (p : Nat) : Nat :=
  let m := rd s (ethMode p)
  if m = 0 then 10000 else if m = 4 then 100 else if m = 5 then 10
  else if m = 2 then (if rd s (ethSpeed p) = 1 then 100 else if rd s (ethSpeed p) = 2 then 10 else 1000) else 1000

/-- Cells of the packet buffer for a frame. -/
def cellsOf (bytes : Nat) : Nat := (bytes + 255) / 256

def pairInit : PrpPair := { seqNr := 0, seen := [], srcs := [], supAt := 0 }

/-- The PRP pair that port `p` belongs to. -/
def pairOf (s : State) (p : Nat) : Option Nat :=
  (fromN 0 4).find? (fun k => flag s (prpEn k) && (rd s (prpA k) == p || rd s (prpB k) == p))

/-- The other port of a pair. -/
def partner (s : State) (k p : Nat) : Nat := if rd s (prpA k) = p then rd s (prpB k) else rd s (prpA k)

/-- The ports an EGRESS value names (R322). -/
def egressPorts (s : State) (e : Nat) : List Nat :=
  if e < 8 then [e] else if 0x10 ≤ e ∧ e ≤ 0x13 ∧ flag s (prpEn (e - 0x10)) then [rd s (prpA (e - 0x10)), rd s (prpB (e - 0x10))] else []

/-- Is the item one of two copies sent over a PRP pair? -/
def pairCopy (s : State) (q : QItem) : Bool :=
  match q.flow with
  | some n => match flow? s n with | some f => decide (0x10 ≤ f.egress ∧ f.egress ≤ 0x13) | none => false
  | none => false

/-- The partner port still carries the item (R333). -/
def partnerHas (s : State) (p : Nat) : Bool := match pairOf s p with | some k => decide (ethSt s (partner s k p) = 1) | none => false

/-! ### PAUSE transmit (R317) -/

/-- Half the pause time of q = 0xFFFF, µs. -/
def halfPause (s : State) (p : Nat) : Nat := 65535 * 256 / ethMbps s p

/-- XOFF above the upper mark and XON below the lower. -/
def pauseTxUpd (p : Nat) (s : State) : State :=
  let v := ethP s p
  let bytes := rxCells s p * 256
  if !flag s (ethPauseTx p) then s
  else match v.xoff with
    | none => if rd s (ethXoff p) * 1024 < bytes then setEth p { v with xoff := some (now s + halfPause s p) } s else s
    | some _ => if bytes < rd s (ethXon p) * 1024 then setEth p { v with xoff := none } s else s

/-! ### Powerline side of fallover (R398, R401) -/

def plcInit : PlcPort :=
  { conf := false, calibrating := false, seek := 0, want := 0, join := .no, cw := 4, tsf := none, smgen := 0, map := none,
    next := none, parts := [], mapCasts := 0, tones := [], pendTones := [], txq := [], sending := none, rx := .search, pga := 0,
    rejected := [], nodes := [], nbrs := [], routes := [], allRoutes := [], parent := none, coord := none, cost := 0, phases := [],
    silent := 0, sinceRep := 0, emown := 0, empeer := 0, erelay := [], emIdle := 0, emHeard := false, emReqs := [], emMine := none,
    bflags := 0, foreign := [], resignLeft := none, resigned := false, quiet := 0, segs := [], sentSf := [], fixed := [], finals := [], lease := none }

def plcP (s : State) (n : Nat) : PlcPort := tblGet s.plc.ports n plcInit

def setPlc (n : Nat) (v : PlcPort) (s : State) : State := { s with plc := { s.plc with ports := tblSet n v s.plc.ports } }

/-- JOINED or coordinating (R401). -/
def plcReady (s : State) (n : Nat) : Bool := rd s (plcState n) == 3 || rd s (plcState n) == 5

def fallOf (s : State) (p : Nat) : Option FallCfg := tblFind p s.plc.fall

def setFall (p : Nat) (c : FallCfg) (s : State) : State := { s with plc := { s.plc with fall := tblSet p c s.plc.fall } }

/-- A voice frame lost before its queue, or in it, counted against its channel and its flow (R200, Table 12.8). -/
def voiceLost (reason off : Nat) (ch flow : Option Nat) (s : State) : State :=
  let s := match ch with | some c => modChan c (chanLoss reason) s | none => s
  match flow with | some n => if off = 0 then s else flowBump n off s | none => s

/-- A unit into a port's transmit queue: a voice unit that finds 128 places full is discarded; every other is kept by Onyx, in
order, behind them (R398). -/
def plcPut (n : Nat) (u : PUnit) (s : State) : State :=
  let v := plcP s n
  if u.voice.isSome ∧ 128 ≤ v.txq.length then voiceLost 3 52 u.voice u.flow s
  else setPlc n { v with txq := v.txq ++ [u] } s

/-- Contention slots of the map that have begun in the present superframe. -/
def contPassed (s : State) (n : Nat) : Nat :=
  match (plcP s n).map, (plcP s n).tsf with
  | some m, some t => (m.entries.filter (fun e => e.kind == 4 && decide (t.toNat + e.start * 750000 ≤ (rtbNs s).toNat))).length
  | _, _ => 0

/-- A draw for the contention slots (R390): how many, counted from the start of the superframe, are let pass. It takes a free value. -/
def drawWait (s : State) (n : Nat) : Nat := Config.freeNat s.free % (plcP s n).cw + contPassed s n

/-- A management or control unit that Jasper or Onyx builds. -/
def ctlUnit (ft final : Nat) (body : List Byte) (s : State) : PUnit :=
  { ft := ft, flow := none, voice := none, at' := now s, final := some final, prio := 4, assured := false, lchan := 0, seq := 0,
    segidx := 0, last := true, body := body, tries := 0, wait := 0 }

/-- The segments of an assured message (R399): at most 2,028 bytes each. -/
def segments (fuel : Nat) (b : List Byte) : List (List Byte) :=
  match fuel with
  | 0 => [b]
  | k + 1 => if b.length ≤ 2028 then [b] else b.take 2028 :: segments k (b.drop 2028)

/-- An assured message into a powerline queue. -/
def plcMsg (n fl : Nat) (f : Flow) (seq : BitVec 16) (settle err : Bool) (payload : List Byte) (s : State) : State :=
  let segs := segments 3 payload
  let unit (k : Nat) (b : List Byte) (w : Nat) : PUnit :=
    { ft := 3, flow := some fl, voice := none, at' := now s, final := none, prio := f.prio, assured := true, lchan := f.linkchan, seq := seq,
      segidx := k, last := decide (k + 1 = segs.length), body := b, settle := settle, err := err, tries := 0, wait := w }
  (segs.zipIdx.foldl (fun s e => plcPut n (unit e.2 e.1 (drawWait s n)) (tookFree s)) s)

/-- A voice frame handed to its leg: the leg's sub-frame enters the queue with the frame's own enqueue time. What the leg encodes is
not the model's to say and free (R397, R398; log 2). -/
def plcVoice (n fl ch : Nat) (f : Flow) (at' : Nat) (seq : BitVec 16) (settle err : Bool) (s : State) : State :=
  plcPut n { ft := 2, flow := some fl, voice := some ch, at' := at', final := none, prio := f.prio, assured := false, lchan := f.linkchan,
             seq := seq, segidx := 0, last := true, body := freeBytes 14 s, settle := settle, err := err, tries := 0, wait := 0 } (tookFree s)

/-- The leg of a channel is admitted against the full capacity (R398). -/
def legRoom (s : State) : Bool := decide (voiceLoad s + 60000 ≤ voiceBudget s)

/-- A flow that fallover of port `p` may move (R401). -/
def movable (f : Flow) : Bool := f.kind == 2 || fSst f

/-- The PLC port that now takes the traffic of port `p`, fallover being active. -/
def fallTo (s : State) (p : Nat) : Option Nat :=
  match fallOf s p with
  | some c => if c.active then some c.plc else none
  | none => none

/-! ### The end of the hold time (Table 12.7) -/

/-- The message of an item that goes back to Onyx will be sent again (R341). -/
def unsend (fl : Nat) (lref : Nat) (s : State) : State :=
  modFlow fl (fun f => { f with out := f.out.map (fun m => if m.lref = lref then { m with sent := false } else m) }) s

/-- A voice item is lost at port `p`, unless the partner of a pair carries the other copy (R200, R333). -/
def lostAt (p reason off : Nat) (q : QItem) (s : State) : State :=
  if pairCopy s q && partnerHas s p then s else voiceLost reason off q.voice q.flow s

/-- One item at the end of the hold time of port `p`. -/
def expire (p : Nat) (q : QItem) (s : State) : State :=
  if pairCopy s q && partnerHas s p then s
  else
    let fl := q.flow.getD 0
    let f? := match q.flow with | some n => flow? s n | none => none
    let dst := match f? with | some f => if movable f then fallTo s p else none | none => none
    if q.item.wh.assured then
      match dst, f? with
      | some n, some f => plcMsg n fl f q.item.wh.seq q.item.wh.settle q.item.wh.err q.item.payload s
      | _, _ => unsend fl q.item.wh.lref.toNat (modFlow fl (fun f => { f with noPath := true }) s)
    else match q.voice with
      | some ch =>
        match dst, f? with
        | some n, some f =>
          if q.item.wh.prio = 0 then
            (if f.falling.isSome ∨ f.fallen.isSome then plcVoice n fl ch f q.at' q.item.wh.seq q.item.wh.settle q.item.wh.err s else voiceLost 3 52 (some ch) q.flow s)
          else voiceLost 5 60 (some ch) q.flow s
        | _, _ => voiceLost 4 56 (some ch) q.flow s
      | none => bump (heldExpired p) s

/-- The held messages of a flow are reported (R183, R341). -/
def heldNote (fl : Nat) (s : State) : State :=
  match flow? s fl with | some f => notify 13 fl f.out.length s | none => s

/-- Flows whose messages have just been kept are reported, each once. -/
def heldNotes (before s : State) : State :=
  (s.net.flows.filter (fun e => e.2.noPath && !(match flow? before e.1 with | some f => f.noPath | none => false))).foldl
    (fun s e => heldNote e.1 s) s

/-- Every queued and held item of port `p` is treated as at the end of the hold time, in class order. -/
def expireAll (p : Nat) (s : State) : State :=
  let v := ethP s p
  let items := (fromN 0 8).flatMap (fun c => tblGet v.held c [] ++ tblGet v.q c [])
  let s1 := setEth p { v with q := [], held := [], holdUntil := none } s
  heldNotes s1 (items.foldl (fun s q => expire p q s) s1)

/-! ### Class queues (R314, R338) -/

/-- Bytes of class `c` in a port's queues. -/
def classBytes (v : EthPort) (c : Nat) : Nat := sumOf (·.bytes) (tblGet v.q c []) + sumOf (·.bytes) (tblGet v.held c [])

/-- A waiting frame under a pause starts the watchdog's count (R318). -/
def wdStart (p : Nat) (s : State) : State :=
  let v := ethP s p
  if flag s (ethPaused p) ∧ v.wdSince = none ∧ v.sending = none ∧ (v.q.any (fun e => !e.2.isEmpty) || v.held.any (fun e => !e.2.isEmpty)) then
    setEth p { v with wdSince := some (now s) } s
  else s

/-- An item enters the class queue of its PRIO at port `p`, or the held queue; beyond NET_QLIM it is discarded (R314). An item for
a port that is out of hold is treated as at the end of the hold time (R341). -/
def enqueue (p : Nat) (q : QItem) (s : State) : State :=
  let st := ethSt s p
  let c := q.item.wh.prio.toNat
  let v := ethP s p
  if st = 1 ∨ st = 2 then
    if !q.item.wh.assured && decide (rd s (ethQlim p c) * 65536 < classBytes v c + q.bytes) then
      lostAt p 3 52 q (bump (txShed p) s)
    else if st = 1 then wdStart p (setEth p { v with q := tblSet c (tblGet v.q c [] ++ [q]) v.q } s)
    else setEth p { v with held := tblSet c (tblGet v.held c [] ++ [q]) v.held } s
  else heldNotes s (expire p q s)

/-- The ports of a pair that take a copy: those up, or else the one whose hold time ends last (R333). -/
def pairTargets (s : State) (ports : List Nat) : List Nat :=
  let up := ports.filter (fun p => decide (ethSt s p = 1))
  if !up.isEmpty then up
  else
    let held := ports.filter (fun p => decide (ethSt s p = 2))
    match held with
    | [a, b] => if ((ethP s a).holdUntil.getD 0) ≤ ((ethP s b).holdUntil.getD 0) then [b] else [a]
    | [a] => [a]
    | _ => ports.take 1

/-- Header bytes of a template: its length, less EVPT and CNPT (R325). -/
def tplTags (t : List Byte) : Nat :=
  let s := if t.drop 12 |>.take 2 |> (· = [0x88, 0xA8]) then 4 else 0
  s + (if (t.drop (12 + s)).take 2 = [0x81, 0x00] then 4 else 0)

/-- Length of the headers a template holds: Ethernet and tags, IP, UDP, and RTP for a flow with RTP. -/
def tplHeaders (f : Flow) (t : List Byte) : Nat :=
  let o := 14 + tplTags t
  let et := (t.drop (o - 2)).take 2
  let ip := if et = [0x08, 0x00] then ((t.getD o 0).toNat % 16) * 4 + 8 else if et = [0x86, 0xDD] then 48 else 0
  o + ip + (if fRtp f ∧ ip ≠ 0 then 12 else 0)

/-- The template ends with EVPT and CNPT. -/
def tplHasTypes (f : Flow) (t : List Byte) : Bool := decide (t.length = tplHeaders f t + 2)

/-! ### Frames built on egress (R46 to R48, R315, R319, R320, R325, R328, R332) -/

/-- The eight bytes of an SST (Table 2.9), most significant byte of each field first (R6). -/
def sstBytes (t : Sst) : List Byte :=
  be 2 0x88B5 ++ [BitVec.ofNat 8 (t.ver.toNat * 16 + t.prio.toNat * 2 + b2n t.assured)] ++ be 2 (t.rsvd1.toNat * 8192 + t.chan.toNat) ++
    be 2 t.seq.toNat ++ [BitVec.ofNat 8 (b2n t.settle * 128 + b2n t.err * 64 + b2n t.last * 32 + t.rsvd2.toNat)]

/-- The SST of an item on its link: PRIO, ASSURED, SEQ and FLAGS from the WH, CHAN the flow's link channel (R48). -/
def sstOf (f : Flow) (w : WH) : Sst :=
  { ver := 1, prio := w.prio, assured := w.assured, rsvd1 := 0, chan := BitVec.ofNat 13 f.linkchan, seq := w.seq, settle := w.settle,
    err := w.err, last := w.last, rsvd2 := 0 }

/-- `v` written over `b` at offset `o`. -/
def patch (b : List Byte) (o : Nat) (v : List Byte) : List Byte := b.take o ++ v ++ b.drop (o + v.length)

/-- The sum of the 16-bit words of a byte string. -/
def words16 : List Byte → Nat
  | [] => 0
  | [a] => a.toNat * 256
  | a :: b :: t => a.toNat * 256 + b.toNat + words16 t

/-- The Internet checksum of a sum of words. -/
def inetSum (n : Nat) : Nat :=
  let f (x : Nat) : Nat := x % 65536 + x / 65536
  65535 - f (f (f n))

/-- What the packet engine fills in for one RTP packet: SEQ, timestamp, marker, and the SRTP key and index (R325, R328). -/
structure RtpOut where
  seq : BitVec 16
  ts : BitVec 32
  marker : Bool
  srtp : Option (SrtpKey × Nat)
  deriving DecidableEq, Repr

/-- The RTP packet of a payload: the template's RTP header with its fields filled in, and sealed where the flow uses SRTP. -/
def rtpPacket (hdr payload : List Byte) (r : RtpOut) : List Byte :=
  let h := patch (patch (patch hdr 1 [BitVec.ofNat 8 ((hdr.getD 1 0).toNat % 128 + 128 * b2n r.marker)]) 2 (be 2 r.seq.toNat)) 4 (be 4 r.ts.toNat)
  match r.srtp with
  | none => h ++ payload
  | some (k, idx) =>
    let tag := if k.suite % 2 = 0 then 10 else 4
    h ++ padTo (payload.length + tag) (Config.srtpSeal k.suite k.kdr k.key k.salt idx h payload)

/-- The IP and UDP lengths, identification and checksums of a packet whose headers begin at `ip` (R325). -/
def fillIp (v6 : Bool) (ident : Nat) (ip rest : List Byte) : List Byte :=
  let hl := if v6 then 40 else (ip.getD 0 0).toNat % 16 * 4
  let udpLen := 8 + rest.length
  let ip := if v6 then patch ip 4 (be 2 udpLen)
            else
              let h := patch (patch (patch ip 2 (be 2 (hl + udpLen))) 4 (be 2 ident)) 10 [0, 0]
              patch h 10 (be 2 (inetSum (words16 (h.take hl))))
  let udp := patch (patch (ip.drop hl) 4 (be 2 udpLen)) 6 [0, 0]
  let addrs := if v6 then (ip.drop 8).take 32 else (ip.drop 12).take 8
  let c := inetSum (words16 addrs + 17 + udpLen + words16 (udp ++ rest))
  ip.take hl ++ patch udp 6 (be 2 (if c = 0 then 65535 else c)) ++ rest

/-- Tags of a template with the PCP of the outermost one from NET_PCPMAP and DEI 0 (R315). -/
def tagBytes (s : State) (t : List Byte) (prio : Nat) : List Byte :=
  let n := tplTags t
  let tags := (t.drop 12).take n
  if n = 0 then [] else patch tags 2 (be 2 (rd s (netPcp prio) * 8192 + unBe ((tags.drop 2).take 2) % 4096))

/-- The trailer of a PRP pair: SeqNr, LanId, LSDUsize and suffix (R332). LSDUsize counts what follows the EtherType, trailer included
(IEC 62439-3; log 96). -/
def prpTrailer (lan : Nat) (seq : BitVec 16) (lsdu : Nat) : List Byte := be 2 seq.toNat ++ be 2 (lan * 4096 + (lsdu + 6) % 4096) ++ be 2 0x88FB

/-- A frame of at least 60 bytes before the FCS, with its trailer where it goes over a pair; `hdr` bytes stand before what LSDUsize counts. -/
def finishFrame (s : State) (egress p hdr : Nat) (b : List Byte) : List Byte :=
  if 0x10 ≤ egress ∧ egress ≤ 0x13 then
    let k := egress - 0x10
    let b := padTo (max 54 b.length) b
    b ++ prpTrailer (if rd s (prpA k) = p then 0xA else 0xB) (tblGet s.net.pairs k pairInit).seqNr (b.length - hdr)
  else padTo (max 60 b.length) b

/-- The frame of an item of a flow on port `p`: template, tags, SST, lengths, checksums, RTP fields and trailer (R312). A flow without a
template has 14 bytes of header that are free (log 2). -/
def buildFrame (s : State) (f : Flow) (i : Item) (r : Option RtpOut) (p : Nat) : List Byte :=
  let t := match f.template with | some t => if tplHasTypes f t then t.take (t.length - 2) else t | none => freeBytes 14 s
  let n := tplTags t
  let sst := if fSst f && flag s (ethSst p) then sstBytes (sstOf f i.wh) else []
  let et := (t.drop (12 + n)).take 2
  let rest := t.drop (14 + n)
  let v6 := decide (et = [0x86, 0xDD])
  let ipl := if v6 then 48 else if et = [0x08, 0x00] then (rest.getD 0 0).toNat % 16 * 4 + 8 else 0
  let body := match r with | some r => rtpPacket (rest.drop ipl) i.payload r | none => rest.drop ipl ++ i.payload
  let l3 := if ipl = 0 then body else fillIp v6 (Config.freeNat s.free % 65536) (rest.take ipl) body
  let head := t.take 12 ++ tagBytes s t i.wh.prio.toNat ++ sst ++ et
  finishFrame s f.egress p head.length (head ++ l3)

/-- An assured message that cannot be sent is undeliverable (R48, R183): its command ends so, or its loss is reported. -/
def undeliverable (fl : Nat) (seq : BitVec 16) (s : State) : State :=
  match flow? s fl with
  | none => s
  | some f =>
    let gone := f.out.filter (fun m => decide (m.seq = seq))
    let s := setFlow fl { f with out := f.out.filter (fun m => decide (m.seq ≠ seq)) } s
    let s := finishWait (.assured fl seq) stUndeliverable [] s
    gone.foldl (fun s m => if (entry s m.lref).kind = 3 then
      ledgerRelease m.lref (journal 0x10A 0x48 8 fl m.seq.toNat [] s) else s) s

/-- A frame that would exceed the maximum of a port it goes to is not sent (R48): counted, and an assured message is undeliverable. -/
def oversize (fl : Option Nat) (voice : Option Nat) (p : Nat) (i : Item) (s : State) : State :=
  match fl with
  | some n =>
    let s := flowBump n 36 s
    if i.wh.assured then undeliverable n i.wh.seq s else voiceLost 3 0 voice none s
  | none => bump (txShed p) s

/-- A frame, built for each port, goes into the queues of its ports; over a pair the SeqNr counts up (R312, R314, R332). -/
def sendFrames (fl voice inPort : Option Nat) (egress : Nat) (ports : List Nat) (build : Nat → List Byte) (i : Item) (s : State) : State :=
  let q (p : Nat) : QItem :=
    let b := build p
    let bytes := max 64 (b.length + 4)
    { item := i, flow := fl, voice := voice, at' := now s, bytes := bytes, cells := cellsOf bytes, inPort := inPort, frame := b }
  match ports.find? (fun p => decide (rd s (ethMaxframe p) < (q p).bytes)) with
  | some p => oversize fl voice p i s
  | none =>
    if 2 ≤ ports.length then
      let k := egress - 0x10
      let pr := tblGet s.net.pairs k pairInit
      let s1 := { s with net := { s.net with pairs := tblSet k { pr with seqNr := pr.seqNr + 1 } s.net.pairs } }
      (pairTargets s ports).foldl (fun s p => enqueue p (q p) s) s1
    else ports.foldl (fun s p => enqueue p (q p) s) s

/-- An item of flow `fl` goes to the ports of its EGRESS (R312, R314, R332). -/
def egress (fl : Nat) (i : Item) (r : Option RtpOut) (s : State) : State :=
  match flow? s fl with
  | none => s
  | some f =>
    let voice := if fVoice f && !i.wh.assured then some f.chan else none
    sendFrames (some fl) voice none f.egress (egressPorts s f.egress) (buildFrame s f i r) i (tookFree s)

/-- The RTP clock of a codec, Hz: that of its payload format. -/
def rtpClock (codec : Nat) : Nat := if codec / 16 = 1 then 8000 else if codec / 16 = 6 then 48000 else codecRate codec

/-- The packet built for a flow takes its RTP sequence number, timestamp and SRTP index; the marker is set on the first one after DTX
(R325, R328). Answers none where nothing is sent: a flow at the limit of its key has stopped, and a no-data frame of an RTP flow makes no
packet, only time (log 98). -/
def rtpBuild (fl : Nat) (i : Item) (s : State) : Option (Option RtpOut) × State :=
  match flow? s fl with
  | none => (none, s)
  | some f =>
    if !fRtp f then (some none, s)
    else if fSrtp f && f.stopped then (none, s)
    else
      let per := match chan? s f.chan with | some c => rtpClock c.p.codec.toNat * c.p.ptime.toNat / 400 | none => 0
      let f1 := { f with rtpTs := f.rtpTs + BitVec.ofNat 32 per, dtx := decide (i.payload = []) }
      let out : RtpOut := { seq := f.rtpSeq, ts := f.rtpTs, marker := f.dtx, srtp := none }
      if f1.dtx then (none, setFlow fl f1 s)
      else
      let f1 := { f1 with rtpSeq := f.rtpSeq + 1 }
      match fSrtp f, f1.tx with
      | true, some k =>
        let k' := { k with count := k.count + 1, roc := if f1.rtpSeq = 0 then k.roc + 1 else k.roc }
        let stop := decide (2 ^ 48 ≤ k'.count)
        let s := setFlow fl { f1 with tx := some k', stopped := f1.stopped || stop } s
        (some (some { out with srtp := some (k, k.roc.toNat * 65536 + f.rtpSeq.toNat) }),
          if stop then violation 1 (f.egress % 16) 0x0105 3 fl [] [] s else s)
      | _, _ => (some (some out), setFlow fl f1 s)

/-- The flow that an item from within the device goes out on: by its channel, one with a template first (R325). -/
def flowOfChan (s : State) (ch : Nat) : Option Nat :=
  let mine : Nat → Flow → Bool := fun _ f => f.chan == ch && !fAssured f && f.egress != 0x20
  match tblFirst (fun n f => mine n f && f.template.isSome) s.net.flows with
  | some (n, _) => some n
  | none => (tblFirst mine s.net.flows).map (·.1)

/-- A missing frame's consumer on a packet path receives a no-data frame with ERR, from the channel's core or, where that is off, from the
dispatcher; in SAFE no port sends (R200). -/
def noData (ch : Nat) (c : Chan) (seq : BitVec 16) (stamp : Nat) (s : State) : State :=
  if (flowOfChan s ch).isNone ∨ s.pwr.safe then s
  else
    let src := if clusterOn s (clusterOf c.core) then 0x10 + c.core else 0x70
    offer (mkItem 0 c.p.prio.toNat 0x48 src ch seq stamp false true true []) s

/-- The frames in progress of a channel are missing, each for the reason found or else for `reason` (R200). -/
def loseFrames (reason ch : Nat) (s : State) : State :=
  match chan? s ch with
  | none => s
  | some c =>
    let s := setChan ch { c.frames.foldl (fun c f => chanLoss (if f.loss = 0 then reason else f.loss) c) c with frames := [] } s
    c.frames.foldl (fun s f => noData ch c f.seq f.stamp.toNat s) s

/-- The flow whose message an assured item carries. -/
def flowOfRef (s : State) (lref : Nat) : Option Nat := (tblFirst (fun _ f => f.out.any (fun m => m.lref == lref)) s.net.flows).map (·.1)

/-- A frame that flow `f` forwards on port `p`: the received one with the tags of the flow's template, its SST and its trailer, and
otherwise unchanged (R320, R322). -/
def forwardFrame (s : State) (f : Flow) (i : Item) (p : Nat) : List Byte :=
  let tags := match f.template with | some t => tagBytes s t i.wh.prio.toNat | none => []
  let sst := if fSst f && flag s (ethSst p) then sstBytes (sstOf f i.wh) else []
  let head := i.payload.take 12 ++ tags ++ sst ++ (i.payload.drop 12).take 2
  finishFrame s f.egress p head.length (head ++ i.payload.drop 14)

/-- A WCLASS 1 item delivered to port `p`: a frame that Onyx built, or one that a flow forwards. -/
def portItem (p : Nat) (i : Item) (s : State) : State :=
  let src := s.net.rx.find? (fun r => r.item == i)
  let fl := match src with | some r => r.flow | none => none
  let s := match src with | some r => { s with net := { s.net with rx := removeFirst r s.net.rx } } | none => s
  match fl.bind (flow? s) with
  | some f =>
    let ports := egressPorts s f.egress
    sendFrames fl none (src.map (·.port)) f.egress (if ports.contains p then ports else [p]) (forwardFrame s f i) i s
  | none => sendFrames fl none (src.map (·.port)) 0 [p] (fun _ => padTo (max 60 i.payload.length) i.payload) i s

/-! ### Assured messages (R201 to R203, R330, R331, R399, R400) -/

/-- A path stands for the flow: its powerline port, or an egress port that is up or held. -/
def pathOk (s : State) (f : Flow) : Bool :=
  match f.fallen with
  | some n => plcReady s n
  | none => (egressPorts s f.egress).any (fun p => decide (ethSt s p = 1 ∨ ethSt s p = 2))

/-- One message goes out on the path in force, with the STAMP and FLAGS it was offered with (R29, R30, R31, R35). -/
def emitMsg (fl : Nat) (f : Flow) (m : AMsg) (s : State) : State :=
  match f.fallen with
  | some n => plcMsg n fl f m.seq m.settle m.err m.payload s
  | none =>
    let i := mkItem 4 m.prio 0x48 0x00 (if fForward f then 0 else f.chan) m.seq m.stamp.toNat m.settle m.err m.last m.payload
    (splitItem 4096 4 { i with wh := { i.wh with assured := true, lref := BitVec.ofNat 14 m.lref } }).foldl (fun s x => offer x s) s

/-- Send what the window of 16 and the receiver's credit allow, in SEQ order (R202). A flow being returned from the powerline, or one
whose DEST is about to be rewritten, sends nothing new (R36, R402). -/
def pump (fl : Nat) (s : State) : State :=
  match flow? s fl with
  | none => s
  | some f =>
    let returning : Bool := match f.fallen with
      | some n => !(tblAny (fun _ c => c.plc == n && c.active) s.plc.fall)
      | none => false
    if f.out.isEmpty ∨ returning ∨ f.falling.isSome then s
    else if !pathOk s f then
      if f.noPath then s else heldNote fl (setFlow fl { f with noPath := true } s)
    else
      let room := min 16 f.credit - (f.out.filter (·.sent)).length
      let new := (f.out.filter (fun m => !m.sent)).take room
      let out := f.out.map (fun m => if new.contains m then { m with sent := true, sentAt := now s } else m)
      new.foldl (fun s m => emitMsg fl f m s) (setFlow fl { f with out := out, noPath := false } s)

/-- A path is there again for flow `fl`: what was kept goes first, in order (R496). -/
def resume (fl : Nat) (s : State) : State :=
  match flow? s fl with
  | none => s
  | some f =>
    if f.noPath ∧ pathOk s f then
      pump fl (setFlow fl { f with noPath := false, misses := 0, out := f.out.map (fun m => { m with sent := false }) } s)
    else s

/-- Every path of a flow is lost: its messages are kept and reported (R183, R400). -/
def losePath (fl : Nat) (s : State) : State :=
  match flow? s fl with
  | none => s
  | some f => heldNote fl (setFlow fl { f with noPath := true, misses := 0, out := f.out.map (fun m => { m with sent := false }) } s)

/-- A message to be sent on flow `fl`, under ledger entry `lref`, with the STAMP and FLAGS of `o`; its SEQ is the flow's next (R202; log 97). -/
def addMsg (fl lref : Nat) (o : Offer) (payload : List Byte) (s : State) : State :=
  match flow? s fl with
  | none => s
  | some f =>
    let m : AMsg := { seq := f.txSeq, lref := lref, prio := f.prio, payload := payload, sent := false, sentAt := now s,
                      stamp := o.stamp, settle := o.settle, err := o.err, last := o.last }
    let s1 := setFlow fl { f with out := f.out ++ [m], txSeq := f.txSeq + 1 } s
    if f.noPath then heldNote fl s1 else pump fl s1

/-- An accepted message is delivered to its flow's egress: to Onyx at once, or on to the next node (Table 8.1). -/
def relayMsg (fl lref : Nat) (o : Offer) (payload : List Byte) (s : State) : State :=
  match flow? s fl with
  | none => s
  | some f =>
    if f.egress = 0x20 then ledgerRelease lref (ledgerPhase lref 4 0 0 s) else addMsg fl lref o payload s

/-- Take queued copies of a delivered message out of the queues. -/
def unqueue (fl : Nat) (seq : BitVec 16) (s : State) : State :=
  let keep : QItem → Bool := fun q => !(q.item.wh.assured && decide (q.flow = some fl) && decide (q.item.wh.seq = seq))
  let cut : Tbl (List QItem) → Tbl (List QItem) := tblMap (fun _ l => l.filter keep)
  let s := { s with net := { s.net with ports := tblMap (fun _ (v : EthPort) => { v with q := cut v.q, held := cut v.held }) s.net.ports } }
  let keepU : PUnit → Bool := fun u => !(decide (u.ft = 3) && decide (u.flow = some fl) && decide (u.seq = seq))
  { s with plc := { s.plc with ports := tblMap (fun _ (v : PlcPort) => { v with txq := v.txq.filter keepU }) s.plc.ports } }

/-- An acknowledgement of `seq` on flow `fl` over a path: every message up to it is delivered (R201, R202, R183). -/
def acked (fl : Nat) (seq : BitVec 16) (credit path : Nat) (s : State) : State :=
  match flow? s fl with
  | none => s
  | some f =>
    let done := f.out.filter (fun m => !later16 m.seq seq && (m.sent || f.noPath))
    let f1 := { f with out := f.out.filter (fun m => !done.contains m), credit := min 16 credit, misses := if done.isEmpty then f.misses else 0 }
    let s := setFlow fl f1 s
    let s := done.foldl (fun s m =>
      let s := unqueue fl m.seq s
      if (entry s m.lref).kind = 3 then ledgerRelease m.lref (ledgerPhase m.lref 4 0 0 s)
      else finishWait (.assured fl m.seq) stOk (le 1 path) s) s
    -- a flow that returns moves back once nothing of it is unacknowledged on the powerline (R402)
    let back : Bool := match f1.fallen with
      | some n => !(f1.out.any (·.sent)) && !(tblAny (fun _ c => c.plc == n && c.active) s.plc.fall)
      | none => false
    pump fl (if back then setFlow fl { f1 with fallen := none } s else s)

/-- An acknowledgement reaches Onyx, or waits in its boundary queue while it restarts (R42, R403). -/
def ackEvent (fl : Nat) (seq : BitVec 16) (credit path : Nat) (s : State) : State :=
  if eventsWait s then post (.ack fl seq credit path) s else if onyxUp s then acked fl seq credit path s else s

/-- Free places in a receiver's window (Table 12.5): messages accepted and not yet delivered take one each. -/
def creditOf (f : Flow) : Nat := 16 - min 16 f.out.length

/-- A received assured message (R201): what is acknowledged, if anything. `plcPort` is set when it came over the powerline. -/
def assuredIn (fl ingress : Nat) (o : Offer) (payload : List Byte) (iface port vcode : Nat) (s : State) : Option (BitVec 16) × State :=
  match flow? s fl with
  | none => (none, s)
  | some f =>
    let seq := o.seq
    if seq = f.nextSeq then
      let kib := payload.length / 1024 + 1
      if admitted (if f.prio = 0 then 1 else 0) kib s then
        let origin := ingress + fl * 0x100 + seq.toNat * 0x1000000
        match ledgerAccept 3 0xFF origin kib fl (crc32c payload) false false s with
        | (some i, s) => (some seq, relayMsg fl i o payload (modFlow fl (fun f => { f with nextSeq := f.nextSeq + 1, later := 0 }) s))
        | (none, s) => (none, flowBump fl 52 (modFlow fl (fun f => { f with later := 0 }) s))
      else (none, flowBump fl 52 (modFlow fl (fun f => { f with later := 0 }) s))
    else if later16 seq f.nextSeq then
      let s := setFlow fl { flowBumpN 44 1 f with later := if f.later + 1 = 64 then 0 else f.later + 1 } s
      (none, if f.later + 1 = 64 then violation iface port vcode 5 fl [] [] s else s)
    else (some (f.nextSeq - 1), setFlow fl { f with later := 0 } s)

/-! ### Fallover (R401, R402) -/

/-- The flows that port `p` carries: its own, and those of a pair with no port up. -/
def flowsOn (s : State) (p : Nat) : Tbl Flow :=
  s.net.flows.filter (fun e => (egressPorts s e.2.egress).contains p && !(decide (0x10 ≤ e.2.egress) && partnerHas s p))

/-- The node asks for the emergency slot for the first channel it moves (R396, R401). The peer node that the spec does not say how to
find is free (log 2). -/
def askSlot (n lchan : Nat) (s : State) : State :=
  let v := plcP s n
  if v.emMine.isSome then s
  else setPlc n { v with emMine := some { lchan := lchan, node := rd s (plcNode n), peer := (freeBits 12 s).toNat } } (tookFree s)

/-- Items of an assured flow that have not been delivered to the packet engine yet. -/
def undelivered (s : State) (f : Flow) : Bool :=
  (s.fab.wait ++ s.fab.flight).any (fun i => i.wh.assured && decide (i.wh.wclass = 4) && f.out.any (fun m => m.lref == i.wh.lref.toNat))

/-- The DEST of an assured flow is rewritten to PLC port `n` once every item sent before has been delivered (R36, R341). -/
def turnTo (n fl : Nat) (f : Flow) (s : State) : State :=
  setFlow fl (if undelivered s f then { f with falling := some n } else { f with fallen := some n, falling := none }) s

/-- An item delivered to the packet engine (WCLASS 0, 1 and 4). A stopped flow discards. An assured flow that waits for its last item
turns to the powerline after it. -/
def packetItem (i : Item) (s : State) : State :=
  if i.wh.assured then match flowOfRef s i.wh.lref.toNat with
    | some fl =>
      let s := egress fl i none s
      (match flow? s fl with
        | some f => (match f.falling with | some n => if undelivered s f then s else pump fl (turnTo n fl f s) | none => s)
        | none => s)
    | none => s
  else match flowOfChan s i.wh.chan.toNat with
    | some fl => (match rtpBuild fl i s with | (some r, s) => egress fl i r s | (none, s) => s)
    | none => s

/-- One flow moves: a PRIO 0 channel with its leg, or an assured flow. Other voice stays and is shed. -/
def moveFlow (n fl : Nat) (r : Nat × State) : Nat × State :=
  let (k, s) := r
  match flow? s fl with
  | none => r
  | some f =>
    if !movable f ∨ f.fallen.isSome then r
    else if fAssured f then (k + 1, turnTo n fl { f with noPath := false, misses := 0 } s)
    else if fVoice f ∧ f.prio = 0 ∧ legRoom s then
      (k + 1, askSlot n f.linkchan (setFlow fl { f with falling := some n } (modChan f.chan (fun c => { c with leg := true }) s)))
    else r

/-- Fallover of port `p` starts; the number of flows moved. The held items follow through `expire`. -/
def startFall (p : Nat) (c : FallCfg) (s : State) : Nat × State :=
  if c.active ∨ !plcReady s c.plc then (0, s)
  else
    let s := setFall p { c with active := true } s
    let (k, s) := (flowsOn s p).foldl (fun r e => moveFlow c.plc e.1 r) (0, s)
    (k, ruleEvent 3 p 0 (notify 4 p 0 s))

/-- Messages that were kept go out on the powerline. -/
def pumpFallen (n : Nat) (s : State) : State :=
  (s.net.flows.filter (fun e => decide (e.2.fallen = some n))).foldl (fun s e => pump e.1 s) s

/-- The node gives the emergency slot back (R396, R402). -/
def releaseSlot (n : Nat) (s : State) : State :=
  let v := plcP s n
  match v.emMine with
  | none => s
  | some r =>
    if rd s (plcState n) = 5 then
      let v := { v with emMine := none, emReqs := v.emReqs.filter (· ≠ r) }
      let s := setPlc n (if v.emown = r.node then { v with emown := 0, empeer := 0, erelay := [] } else v) s
      if v.emown = r.node then wr (plcEmgrant n) 0 (unclaim 5 n s) else s
    else
      let v' := { v with emMine := none, txq := v.txq ++ [ctlUnit 5 (v.coord.getD 0xFFF) (le 1 0x0A ++ le 2 r.lchan) s] }
      wr (plcEmgrant n) 0 (setPlc n v' s)

/-- A return starts (R402): voice moves at its next frame boundary, assured flows once nothing is unacknowledged. -/
def startReturn (p : Nat) (c : FallCfg) (s : State) : Nat × State :=
  if !c.active then (0, s)
  else
    let s := setFall p { c with active := false } s
    let moved := s.net.flows.filter (fun e => (egressPorts s e.2.egress).contains p && (e.2.fallen == some c.plc || e.2.falling == some c.plc))
    let s := moved.foldl (fun s e => match flow? s e.1 with
      | some f =>
        if fAssured f then
          (if f.out.any (·.sent) then s else pump e.1 (setFlow e.1 { f with fallen := none } s))
        else if f.falling.isSome then modChan f.chan (fun c => { c with leg := false }) (setFlow e.1 { f with falling := none } s)
        else s
      | none => s) s
    (moved.length, notify 4 (p + 0x1000000) 0 (releaseSlot c.plc s))

/-- Every item that the channel's flow has sent under its present DEST and PRIO has been delivered (R36). -/
def flowDrained (s : State) (ch : Nat) : Bool :=
  let out : Nat → Bool := fun d => decide ((0x40 ≤ d ∧ d ≤ 0x48) ∨ (0x50 ≤ d ∧ d ≤ 0x53) ∨ d = 0x59)
  !((s.fab.wait ++ s.fab.flight).any (fun i => i.wh.chan.toNat == ch && out i.wh.dest.toNat && [0, 1, 4, 6].contains i.wh.wclass.toNat))

/-- The frame boundary of a channel: its flows' DEST is rewritten, once nothing sent before is still under way (R36, R341, R402). -/
def boundaryFlows (ch : Nat) (s : State) : State :=
  if !flowDrained s ch then s
  else (s.net.flows.filter (fun e => decide (e.2.chan = ch) && fVoice e.2)).foldl (fun s e =>
    match e.2.falling, e.2.fallen with
    | some n, _ => setFlow e.1 { e.2 with fallen := some n, falling := none } s
    | none, some n =>
      if tblAny (fun _ c => c.plc == n && c.active) s.plc.fall then s
      else modChan ch (fun c => { c with leg := false }) (setFlow e.1 { e.2 with fallen := none } s)
    | none, none => s) s

end Sys2Proof.Machine
end

