-- ==== Sys2Proof/Machine/Net.lean ====
section
/-! DEFINITION. The Ethernet ports and the packet engine (R309 to R344): the network family of commands (R182, R183) and the ports'
events. -/

namespace Sys2Proof.Machine

def netInfo (op tmo : Nat) : OpInfo := { opcode := op, idem := .ck, lcls := .c, timeout := some tmo, setup := false }

/-! ### Ports: commands -/

/-- PORT_CFG (R309). PTPLAT values per mode are not listed and free (R334; log 2). -/
def specPortCfg (port mode : BitVec 8) (maxframe : BitVec 16) (flags : BitVec 8) (hold settle age pauseWd : BitVec 16) : Spec where
  info := netInfo 0x0301 2000000
  par := firstRej [(decide (7 < port.toNat), badParam 0), (decide (5 < mode.toNat ∨ (mode = 0 ∧ 1 < port.toNat)), badParam 1),
    (decide (maxframe.toNat < 1518 ∨ 9216 < maxframe.toNat), badParam 2), (decide (7 < flags.toNat), badParam 4),
    (decide (2000 < hold.toNat), badParam 5), (decide (5000 < settle.toNat), badParam 7),
    (decide (age.toNat < 10 ∨ 2000 < age.toNat), badParam 9), (decide (pauseWd = 0 ∨ 1000 < pauseWd.toNat), badParam 11)]
  st := fun s => orRej (domRej s 4)
    (if flag s (ethEn port.toNat) ∧ rd s (ethMode port.toNat) ≠ mode.toNat then some (rej stBadState) else none)
  objs := [.eth port.toNat]
  eff := fun s =>
    let p := port.toNat
    if flag s (ethEn p) ∧ rd s (ethMode p) ≠ mode.toNat then .done stBadState [] s
    else
      let changed := decide (rd s (ethMode p) ≠ mode.toNat)
      let s := wr (ethMode p) mode.toNat (wr (ethMaxframe p) maxframe.toNat s)
      let s := wr (ethPauseRx p) flags.toNat (wr (ethPauseTx p) (flags.toNat / 2) (wr (ethSst p) (flags.toNat / 4) s))
      let s := wr (ethHold p) hold.toNat (wr (ethSettle p) settle.toNat (wr (ethAge p) age.toNat (wr (ethPauseWd p) pauseWd.toNat s)))
      ok (if changed then wr (ptplatRx p) (Config.freeNat s.free) (wr (ptplatTx p) (Config.freeNat (s.free + 1)) (tookFree (tookFree s)))
          else s)

def execPortCfg (h : Hdr) (port mode : BitVec 8) (maxframe : BitVec 16) (flags : BitVec 8) (hold settle age pauseWd : BitVec 16)
    (s : State) : Out :=
  .next (scp h (.portCfg h port mode maxframe flags hold settle age pauseWd)
    (specPortCfg port mode maxframe flags hold settle age pauseWd) s)

/-- Kept items go first when a port enters UP, a fault of the port is over, and flows that fell over return if so configured (R402, R496). -/
def enterUp (p : Nat) (s : State) : State :=
  let s := undegrade 0x50 p (setEth p { ethP s p with settleUntil := none, holdUntil := none } (wr (ethState p) 1 s))
  let s := s.net.flows.foldl (fun s e => if (egressPorts s e.2.egress).contains p then resume e.1 s else s) s
  match fallOf s p with
  | some c => if c.active && c.autoReturn then (startReturn p c s).2 else s
  | none => s

/-- PORT_STATE action 1 (R337). -/
def specPortEnable (port : BitVec 8) : Spec where
  info := netInfo 0x0302 5000000
  par := firstRej [(decide (7 < port.toNat), badParam 0)]
  st := fun s => orRej (domRej s 4) (if ethSt s port.toNat ≠ 0 then some (rej stBadState) else none)
  objs := [.eth port.toNat]
  eff := fun s =>
    let p := port.toNat
    if ethSt s p ≠ 0 then .done stBadState [] s
    else .wait (.link p) (wr (ethEn p) 1 (wr (ethForceDown p) 0 s))

def execPortEnable (h : Hdr) (port : BitVec 8) (s : State) : Out := .next (scp h (.portEnable h port) (specPortEnable port) s)

/-- What keeps a port from being disabled (R337): a flow's EGRESS, a pair, or the PTP discipline claim. -/
def disableRej (p : Nat) (s : State) : Option Rej :=
  match tblFirst (fun _ f => f.egress == p) s.net.flows with
  | some (n, _) => some (conflict s { cls := 10, idx := p, holder := 0x48, obj := n })
  | none => match claimOf s 10 p with
    | some c => some (conflict s c)
    | none => match claimOf s 3 0 with
      | some c => if c.holder = 0x40 + p then some (conflict s c) else none
      | none => none

/-- The link of a port is gone: pauses end (Edges of Chapter 12), notification LINK. -/
def linkGone (p : Nat) (s : State) : State :=
  let v := ethP s p
  let s1 := setEth p { v with pauseUntil := none, wdSince := none, holdoff := none } s
  let s1 := wr (ethPaused p) 0 (wr (ethHoldoff p) 0 s1)
  if flag s (ethLink p) then notify 3 p 0 (wr (ethLink p) 0 s1) else s1

/-- PORT_STATE action 0 (R337). -/
def specPortDisable (port : BitVec 8) : Spec where
  info := netInfo 0x0302 5000000
  par := firstRej [(decide (7 < port.toNat), badParam 0)]
  st := fun s => orRej (orRej (domRej s 4) (if ethSt s port.toNat = 0 then some (rej stBadState) else none)) (disableRej port.toNat s)
  objs := [.eth port.toNat]
  eff := fun s =>
    let p := port.toNat
    if ethSt s p = 0 then .done stBadState [] s
    else match disableRej p s with
      | some _ => .done stBadState [] s
      | none =>
        let v := ethP s p
        let s := match v.sending with
          | some (c, q) => setEth p { v with sending := none, q := tblSet c (q :: tblGet v.q c []) v.q } s
          | none => s
        let s := linkGone p (expireAll p s)
        let s := setEth p { ethP s p with settleUntil := none, xoff := none } s
        okRes [0] (wr (ethState p) 0 (wr (ethEn p) 0 s))

def execPortDisable (h : Hdr) (port : BitVec 8) (s : State) : Out := .next (scp h (.portDisable h port) (specPortDisable port) s)

/-- A port reaches OUT_OF_SERVICE: claims that the unit holds are released (R495). -/
def portOut (p : Nat) (s : State) : State :=
  unclaimIf (fun c => c.holder == 0x40 + p) (wr (ethState p) 5 s)

/-- The hold time of port `p` ends without a return (R341): fallover where it is automatic, then every item by Table 12.7. A port
forced down ends OUT_OF_SERVICE (R496). -/
def holdEnd (p : Nat) (s : State) : State :=
  let s := if flag s (ethForceDown p) then portOut p s else wr (ethState p) 3 s
  let s := match fallOf s p with
    | some c => if c.auto then (startFall p c s).2 else s
    | none => s
  let s := expireAll p s
  match fallTo s p with
  | some n => pumpFallen n s
  | none => s

/-- Link loss (R338): the cut frame goes back to the head of its class, and the class queues become the held queue. A pair's copies
stay with the partner while it is up; when both are down the hold time runs from the later loss (R333). A hold time of 0 ends at
once. -/
def linkLoss (p : Nat) (s : State) : State :=
  let st := ethSt s p
  let s := linkGone p s
  if st = 1 then
    let v := ethP s p
    let cut : Nat → List QItem := fun c => match v.sending with | some (k, q) => if k = c then [q] else [] | none => []
    let all := (fromN 0 8).map (fun c => (c, cut c ++ tblGet v.held c [] ++ tblGet v.q c []))
    let keep := fun (q : QItem) => !(pairCopy s q && partnerHas s p)
    let held := (all.map (fun e => (e.1, e.2.filter keep))).filter (fun e => !e.2.isEmpty)
    let hold (k : Nat) : Nat := now s + rd s (ethHold k) * 1000
    let s := wr (ethState p) 2 (setEth p { v with sending := none, q := [], held := held, holdUntil := some (hold p) } s)
    let s := match pairOf s p with
      | some k =>
        let o := partner s k p
        if ethSt s o = 2 then setEth o { ethP s o with holdUntil := some (hold o) } s else s
      | none => s
    if rd s (ethHold p) = 0 ∧ onyxUp s then holdEnd p s else s
  else if st = 4 then setEth p { ethP s p with settleUntil := none } (wr (ethState p) 3 s)
  else s

/-- PORT_STATE action 2 (R337, R496): the link is forced down and the loss treated as one; a port past its hold time is out at
once. -/
def specPortOutOfService (port : BitVec 8) : Spec where
  info := netInfo 0x0302 5000000
  par := firstRej [(decide (7 < port.toNat), badParam 0)]
  st := fun s => orRej (domRej s 4) (if ethSt s port.toNat = 0 ∨ ethSt s port.toNat = 5 then some (rej stBadState) else none)
  objs := [.eth port.toNat]
  eff := fun s =>
    let p := port.toNat
    let st := ethSt s p
    if st = 0 ∨ st = 5 then .done stBadState [] s
    else
      let s := linkLoss p (wr (ethForceDown p) 1 s)
      okRes [0] (if ethSt s p = 3 then portOut p s else s)

def execPortOutOfService (h : Hdr) (port : BitVec 8) (s : State) : Out :=
  .next (scp h (.portOutOfService h port) (specPortOutOfService port) s)

/-- PORT_STATE action 3 (R337, R496): FINAL at link up. -/
def specPortReturn (port : BitVec 8) : Spec where
  info := netInfo 0x0302 5000000
  par := firstRej [(decide (7 < port.toNat), badParam 0)]
  st := fun s => orRej (domRej s 4) (if ethSt s port.toNat ≠ 5 ∧ ethSt s port.toNat ≠ 3 then some (rej stBadState) else none)
  objs := [.eth port.toNat]
  eff := fun s =>
    let p := port.toNat
    if ethSt s p ≠ 5 ∧ ethSt s p ≠ 3 then .done stBadState [] s
    else .wait (.link p) (wr (ethEn p) 1 (wr (ethForceDown p) 0 s))

def execPortReturn (h : Hdr) (port : BitVec 8) (s : State) : Out := .next (scp h (.portReturn h port) (specPortReturn port) s)

/-! ### Flows: commands (R320 to R322, R328 to R330) -/

/-- Length of MATCH by KIND (Table 12.2). -/
def matchLen (kind : Nat) : Nat := if kind = 0 then 12 else if kind = 1 then 36 else 0

/-- The key of a flow. -/
def flowKey (f : Flow) : Nat × Nat × Nat × Nat × List Byte := (f.kind, f.portIn, f.vlan, if f.kind = 2 then f.linkchan else 0, f.mtch)

/-- A flow as FLOW_ADD makes it: NEXT_SEQ 0 (R201). -/
def newFlow (kind portIn : BitVec 8) (vlan chan linkchan : BitVec 16) (prio egress flags : BitVec 8) (mtch : List Byte) : Flow :=
  { kind := kind.toNat, portIn := portIn.toNat, vlan := vlan.toNat, chan := chan.toNat, linkchan := linkchan.toNat,
    prio := prio.toNat, egress := egress.toNat, flags := flags.toNat, mtch := mtch, template := none, tx := none, rx := none,
    rxOld := none, stopped := false, stats := [], rtpSeq := 0, rtpTs := 0, ssrc := none, nextSeq := 0, later := 0, out := [],
    txSeq := 0, credit := 16, misses := 0, fallen := none, falling := none, noPath := false, rtcpPort := none, rtcpAt := 0 }

/-- An existing flow with the same key. -/
def sameKey (f : Flow) (s : State) : Option Nat := (tblFirst (fun _ g => decide (flowKey g = flowKey f)) s.net.flows).map (·.1)

def flowBad (flow : BitVec 16) : Bool := decide (8191 < flow.toNat)

/-- PRIO of a flow that a command creates or changes: 0 with EMERG (R176). -/
def flowPrio (h : Hdr) (f : Flow) : Flow := if h.emerg then { f with prio := 0 } else f

/-- FLOW_ADD. -/
def specFlowAdd (h : Hdr) (flow : BitVec 16) (kind portIn : BitVec 8) (vlan chan linkchan : BitVec 16) (prio egress flags : BitVec 8)
    (mtch : List Byte) : Spec where
  info := netInfo 0x0303 10000
  par := firstRej [(flowBad flow, badParam 0), (decide (2 < kind.toNat), badParam 2),
    (decide (7 < portIn.toNat ∧ portIn ≠ 0xFF), badParam 3), (decide (4095 < vlan.toNat ∧ vlan ≠ 0xFFFF), badParam 4),
    (decide (8191 < chan.toNat ∧ chan ≠ 0xFFFF), badParam 6), (decide (8191 < linkchan.toNat), badParam 8),
    (decide (7 < prio.toNat), badParam 10),
    (decide (7 < egress.toNat ∧ ¬(0x10 ≤ egress.toNat ∧ egress.toNat ≤ 0x13) ∧ egress ≠ 0x20), badParam 11),
    (decide (15 < flags.toNat ∨ (flags.toNat / 8 = 1 ∧ flags.toNat % 2 = 0)), badParam 12),
    (decide (kind = 1) && !h.indirect && !mtch.isEmpty, badParam 13),
    (decide (mtch.length < matchLen kind.toNat), badLength 13),
    (decide (matchLen kind.toNat < mtch.length), badLength (13 + matchLen kind.toNat))]
  st := fun s => orRej (domRej s 4) (match flow? s flow.toNat with
    | some _ => some (rej stBadState)
    | none => match sameKey (newFlow kind portIn vlan chan linkchan prio egress flags mtch) s with
      | some n => some (conflict s { cls := 12, idx := n, holder := 0x48, obj := n })
      | none => none)
  objs := [.flow flow.toNat]
  acc := fun _ s => claim 12 flow.toNat 0x48 flow.toNat s
  eff := fun s => match flow? s flow.toNat with
    | some _ => .done stBadState [] s
    | none => ok (setFlow flow.toNat (flowPrio h (newFlow kind portIn vlan chan linkchan prio egress flags mtch)) s)

def execFlowAdd (h : Hdr) (flow : BitVec 16) (kind portIn : BitVec 8) (vlan chan linkchan : BitVec 16) (prio egress flags : BitVec 8)
    (mtch : List Byte) (s : State) : Out :=
  .next (scp h (.flowAdd h flow kind portIn vlan chan linkchan prio egress flags mtch)
    (specFlowAdd h flow kind portIn vlan chan linkchan prio egress flags mtch) s)

/-- NOT_PROVISIONED for a flow that does not exist. -/
def noFlow (s : State) (n : Nat) : Option Rej := orRej (domRej s 4) (if (flow? s n).isNone then some (rej stNotProvisioned) else none)

/-- The tags of a template stand in the order of R319: at most one S-tag, then at most one C-tag, and no tag after them. -/
def tplOrdered (t : List Byte) : Bool :=
  let et := (t.drop (12 + tplTags t)).take 2
  !(et == [0x88, 0xA8] || et == [0x81, 0x00] || et == [0x88, 0xB5])

/-- FLOW_TX (R320, R325): the sequence number and timestamp start from the template's. -/
def specFlowTx (h : Hdr) (flow : BitVec 16) (tlen : BitVec 8) (template : List Byte) : Spec where
  info := netInfo 0x0304 10000
  par := firstRej [(flowBad flow, badParam 0), (decide (tlen.toNat < 14 ∨ 96 < tlen.toNat), badParam 2),
    (decide (template.length < tlen.toNat), badLength 3), (decide (tlen.toNat < template.length), badLength (3 + tlen.toNat)),
    (!tplOrdered template, badParam 3)]
  st := fun s => noFlow s flow.toNat
  objs := [.flow flow.toNat]
  eff := fun s => match flow? s flow.toNat with
    | none => .done stBadState [] s
    | some f =>
      let o := tplHeaders f template - 12
      let rtp := fRtp f
      let at' := if rtp then now s + 2500000 + Config.freeNat s.free % 5000001 else 0
      let f := { f with template := some template, rtpSeq := if rtp then BitVec.ofNat 16 (unBe ((template.drop (o + 2)).take 2)) else 0,
                        rtpTs := if rtp then BitVec.ofNat 32 (unBe ((template.drop (o + 4)).take 4)) else 0, rtcpAt := at' }
      ok (setFlow flow.toNat (flowPrio h f) (tookFree s))

def execFlowTx (h : Hdr) (flow : BitVec 16) (tlen : BitVec 8) (template : List Byte) (s : State) : Out :=
  .next (scp h (.flowTx h flow tlen template) (specFlowTx h flow tlen template) s)

/-- FLOW_DEL. -/
def specFlowDel (flow : BitVec 16) : Spec where
  info := netInfo 0x0305 10000
  par := firstRej [(flowBad flow, badParam 0)]
  st := fun s => noFlow s flow.toNat
  objs := [.flow flow.toNat]
  eff := fun s => match flow? s flow.toNat with
    | none => .done stBadState [] s
    | some _ => ok (unclaim 12 flow.toNat { s with net := { s.net with flows := tblDel flow.toNat s.net.flows } })

def execFlowDel (h : Hdr) (flow : BitVec 16) (s : State) : Out := .next (scp h (.flowDel h flow) (specFlowDel flow) s)

/-- SRTP_KEY (R328, R329). -/
def specSrtpKey (h : Hdr) (flow : BitVec 16) (dir suite kdr : BitVec 8) (roc : BitVec 32) (keylen saltlen : BitVec 8) (key : List Byte) : Spec where
  info := netInfo 0x0306 10000
  par := firstRej [(flowBad flow, badParam 0), (decide (1 < dir.toNat), badParam 2), (decide (3 < suite.toNat), badParam 3),
    (decide (25 < kdr.toNat), badParam 4), (decide (keylen.toNat ≠ (if suite.toNat < 2 then 16 else 32)), badParam 9),
    (decide (saltlen ≠ 14), badParam 10), (decide (key.length < keylen.toNat), badLength 11),
    (decide (key.length < keylen.toNat + 14), badLength (11 + keylen.toNat)),
    (decide (keylen.toNat + 14 < key.length), badLength (25 + keylen.toNat))]
  st := fun s => noFlow s flow.toNat
  objs := [.flow flow.toNat]
  eff := fun s => match flow? s flow.toNat with
    | none => .done stBadState [] s
    | some f =>
      let k : SrtpKey := { suite := suite.toNat, kdr := kdr.toNat, roc := roc, key := key.take keylen.toNat, salt := key.drop keylen.toNat,
                           count := 0, top := none, seen := [], ctl := 0 }
      ok (setFlow flow.toNat
        (flowPrio h <| if dir = 1 then { f with tx := some k, stopped := false }
         else { f with rx := some k, rxOld := f.rx.map (fun o => (o, now s + 2000000)), stopped := false }) s)

def execSrtpKey (h : Hdr) (flow : BitVec 16) (dir suite kdr : BitVec 8) (roc : BitVec 32) (keylen saltlen : BitVec 8) (key : List Byte)
    (s : State) : Out :=
  .next (scp h (.srtpKey h flow dir suite kdr roc keylen saltlen key) (specSrtpKey h flow dir suite kdr roc keylen saltlen key) s)

/-! ### PRP, PTP, statistics, assured messages: commands -/

/-- PRP_PAIR (R332). -/
def specPrpPair (pair portA portB : BitVec 8) (window : BitVec 16) : Spec where
  info := netInfo 0x0307 100000
  par := firstRej [(decide (3 < pair.toNat), badParam 0), (decide (7 < portA.toNat), badParam 1),
    (decide (7 < portB.toNat ∨ portB = portA), badParam 2), (decide (window = 0 ∨ 1000 < window.toNat), badParam 3)]
  st := fun s => orRej (domRej s 4) (orRej (claimRej s 10 portA.toNat 0x48 pair.toNat) (orRej (claimRej s 10 portB.toNat 0x48 pair.toNat)
    (if rd s (ethMode portA.toNat) ≠ rd s (ethMode portB.toNat) then
      some (conflict s { cls := 10, idx := portB.toNat, holder := 0x48, obj := pair.toNat }) else none)))
  objs := [.pair pair.toNat, .eth portA.toNat, .eth portB.toNat]
  acc := fun _ s =>
    let k := pair.toNat
    claim 10 portB.toNat 0x48 k (claim 10 portA.toNat 0x48 k (unclaimIf (fun c => c.cls == 10 && c.obj == k) s))
  eff := fun s =>
    let k := pair.toNat
    if rd s (ethMode portA.toNat) ≠ rd s (ethMode portB.toNat) then .done stBadState [] s
    else
      let s := wr (prpA k) portA.toNat (wr (prpB k) portB.toNat (wr (prpWindow k) window.toNat (wr (prpEn k) 1 s)))
      ok { s with net := { s.net with pairs := tblSet k { pairInit with supAt := now s + 2000000 } s.net.pairs } }

def execPrpPair (h : Hdr) (pair portA portB : BitVec 8) (window : BitVec 16) (s : State) : Out :=
  .next (scp h (.prpPair h pair portA portB window) (specPrpPair pair portA portB window) s)

/-- PTP_CFG (R335). -/
def specPtpCfg (port flags domain logsync : BitVec 8) : Spec where
  info := netInfo 0x0308 100000
  par := firstRej [(decide (7 < port.toNat), badParam 0), (decide (1 < flags.toNat), badParam 1), (decide (127 < domain.toNat), badParam 2),
    (decide (logsync.toInt < -7 ∨ 4 < logsync.toInt), badParam 3)]
  st := fun s => domRej s 4
  objs := [.eth port.toNat]
  eff := fun s => ok { s with net := { s.net with
    ptp := some { port := port.toNat, oneStep := decide (flags = 1), domain := domain.toNat, logsync := logsync.toInt } } }

def execPtpCfg (h : Hdr) (port flags domain logsync : BitVec 8) (s : State) : Out :=
  .next (scp h (.ptpCfg h port flags domain logsync) (specPtpCfg port flags domain logsync) s)

/-- ASSURED_SEND (R183, R202). -/
def specAssuredSend (h : Hdr) (flow len : BitVec 16) (payload : List Byte) : Spec where
  info := { opcode := 0x0309, idem := .oo, lcls := .w, timeout := none, setup := false }
  par := firstRej [(flowBad flow, badParam 0), (decide (len = 0 ∨ 4076 < len.toNat), badParam 2),
    (decide (payload.length < len.toNat), badLength 4), (decide (len.toNat < payload.length), badLength (4 + len.toNat))]
  st := fun s => orRej (noFlow s flow.toNat) (match flow? s flow.toNat with
    | some f => if fAssured f then none else some (rej stBadState)
    | none => none)
  objs := [.flow flow.toNat]
  eff := fun s => match flow? s flow.toNat with
    | none => .done stBadState [] s
    | some f =>
      if !fAssured f then .done stBadState [] s
      else
        let lref := match cmdAt s h.queue.val h.seq with | some c => c.lref.getD 0 | none => 0
        let o : Offer := { seq := f.txSeq, stamp := (rtbNs s).extractLsb' 0 40, settle := false, err := false, last := true }
        .wait (.assured flow.toNat f.txSeq) (addMsg flow.toNat lref o payload (setFlow flow.toNat (flowPrio h f) s))

def execAssuredSend (h : Hdr) (flow len : BitVec 16) (payload : List Byte) (s : State) : Out :=
  .next (scp h (.assuredSend h flow len payload) (specAssuredSend h flow len payload) s)

/-- The result of NET_STATS (R342, Table 12.8). -/
def netStatsBytes (s : State) (port flow : Nat) : List Byte :=
  if port = 0xFF then
    match flow? s flow with
    | some f =>
      (fromN 0 16).flatMap (fun k => le 4 (tblGet f.stats (4 * k) 0)) ++ le 4 (match f.tx with | some k => k.roc.toNat | none => 0) ++
        List.replicate 188 0
    | none => []
  else if port = 0xFE then le 4 (rd s (prpDup flow)) ++ le 4 (rd s (prpEvict flow))
  else regWords s 1 (0x100 + 0x80 * port + 0x40) 11

/-- NET_STATS (R190, R342). -/
def specNetStats (port : BitVec 8) (flow : BitVec 16) (flags : BitVec 8) : Spec where
  info := { opcode := 0x030A, idem := if flags = 1 then .oo else .rx, lcls := if flags = 1 then .c else .n, timeout := some 10000, setup := false }
  par := firstRej [(decide (7 < port.toNat ∧ port.toNat < 0xFE), badParam 0),
    (decide ((port = 0xFF ∧ 8191 < flow.toNat) ∨ (port = 0xFE ∧ 3 < flow.toNat)), badParam 1), (decide (1 < flags.toNat), badParam 3)]
  st := fun s => if port = 0xFF then noFlow s flow.toNat else domRej s 4
  objs := if port = 0xFF then [.flow flow.toNat] else if port = 0xFE then [.pair flow.toNat] else [.eth port.toNat]
  eff := fun s =>
    if port = 0xFF ∧ (flow? s flow.toNat).isNone then .done stBadState [] s
    else
      let b := netStatsBytes s port.toNat flow.toNat
      okRes b (if flags ≠ 1 then s
        else if port = 0xFF then modFlow flow.toNat (fun f => { f with stats := [] }) s
        else if port = 0xFE then wr (prpDup flow.toNat) 0 (wr (prpEvict flow.toNat) 0 s)
        else (fromN 0 11).foldl (fun s k => regClear (rk 1 (0x100 + 0x80 * port.toNat + 0x40 + 4 * k)) s) s)

def execNetStats (h : Hdr) (port : BitVec 8) (flow : BitVec 16) (flags : BitVec 8) (s : State) : Out :=
  .next (scp h (.netStats h port flow flags) (specNetStats port flow flags) s)

/-! ### Reception (R311, R313, R319, R321 to R328, R333, R334) -/

/-- Tags in the order of R319, each at most once: codes strictly rising. -/
def tagCode (t : Tag) : Nat := match t with | .sTag _ => 1 | .cTag _ => 2 | .sst _ => 3

def tagsOrdered : Nat → List Tag → Bool
  | _, [] => true
  | lo, t :: r => decide (lo < tagCode t) && tagsOrdered (tagCode t) r

def tagVid : List Tag → Option Nat
  | [] => none
  | .cTag v :: _ => some v.toNat
  | .sTag v :: t => match tagVid t with | some c => some c | none => some v.toNat
  | .sst _ :: t => tagVid t

def tagSst : List Tag → Option Sst
  | [] => none
  | .sst t :: _ => some t
  | _ :: r => tagSst r

/-- The tags that the MAC of port `p` parses: without SST enabled it stops at an SST (R319). -/
def parsed (s : State) (p : Nat) (l : List Tag) : List Tag := if flag s (ethSst p) then l else l.takeWhile (fun t => tagCode t != 3)

/-- Where in the flow's MATCH the addresses and ports lie: address bytes. -/
def addrBytes (kind : Nat) : Nat := if kind = 0 then 4 else 16

/-- The flow matches (R321): `sst` its link channel for KIND 2, else the IP and UDP fields; `dport` is the port to compare. -/
def flowMatches (f : Flow) (p : Nat) (vid : Option Nat) (sst : Option Nat) (ip : Option IpInfo) (sport dport : Nat) : Bool :=
  (f.portIn == 0xFF || f.portIn == p) && (match vid with | none => f.vlan == 0xFFFF | some v => f.vlan == v) &&
    (match f.kind, sst, ip with
      | 2, some c, _ => f.linkchan == c
      | 0, none, some i =>
        let n := 4
        let sa := unBe (f.mtch.take n)
        !i.v6 && (sa == 0 || sa == i.src.toNat % 2 ^ 32) && unBe ((f.mtch.drop n).take n) == i.dst.toNat % 2 ^ 32 &&
          (let sp := unBe ((f.mtch.drop (2 * n)).take 2); sp == 0 || sp == sport) && unBe ((f.mtch.drop (2 * n + 2)).take 2) == dport
      | 1, none, some i =>
        let n := 16
        let sa := unBe (f.mtch.take n)
        i.v6 && (sa == 0 || sa == i.src.toNat) && unBe ((f.mtch.drop n).take n) == i.dst.toNat &&
          (let sp := unBe ((f.mtch.drop (2 * n)).take 2); sp == 0 || sp == sport) && unBe ((f.mtch.drop (2 * n + 2)).take 2) == dport
      | _, _, _ => false)

/-- How exact an entry is: source address, then source port, then PORT_IN (R322). -/
def flowRank (f : Flow) : Nat :=
  let n := addrBytes f.kind
  (if unBe (f.mtch.take n) ≠ 0 then 4 else 0) + (if unBe ((f.mtch.drop (2 * n)).take 2) ≠ 0 then 2 else 0) + (if f.portIn ≠ 0xFF then 1 else 0)

/-- The entry chosen among those that match. -/
def lookup (s : State) (p : Nat) (vid sst : Option Nat) (ip : Option IpInfo) (sport dport : Nat) : Option (Nat × Flow) :=
  (s.net.flows.filter (fun e => flowMatches e.2 p vid sst ip sport dport)).foldl (fun b e => match b with
    | none => some e
    | some o => if flowRank o.2 < flowRank e.2 then some e else b) none

/-- IP checks of step 3: what passes is UDP in one unfragmented datagram. -/
def ipOk (i : IpInfo) : Bool :=
  if i.v6 then i.version == 6 && i.lengthOk else i.version == 4 && decide (5 ≤ i.ihl.toNat) && i.checksumOk && i.lengthOk

/-- A frame may be admitted to the packet buffer (R313). -/
def bufOk (s : State) (prio cells : Nat) : Bool :=
  let free := 32768 - usedCells s
  if prio ≤ 1 then decide (cells ≤ free) else decide (cells + 2048 < free)

/-- The ingress stamp (R334): the frame ends now; its first bit passed a frame's time ago, less the receive latency. -/
def ingressStamp (s : State) (p bytes : Nat) : Nat := (rtbNs s).toNat - bytes * 8000 / ethMbps s p - rd s (ptplatRx p)

/-- A received frame leaves as an item of the packet engine and keeps its cells until it is gone. -/
def emitRx (p cells : Nat) (fl : Option Nat) (i : Item) (s : State) : State :=
  let kept := s.net.rx.filter (fun r => inBuffer s r.item)
  pauseTxUpd p (offer i { s with net := { s.net with rx := kept ++ [{ port := p, cells := cells, flow := fl, item := i }] } })

/-- A packet item under the port's own SEQ (Table 2.3). -/
def packetOf (p cls prio dest ch stamp : Nat) (seq : Option (BitVec 16)) (settle err last : Bool) (payload : List Byte) (s : State) :
    Item × State :=
  match seq with
  | some q => (mkItem cls prio dest 0x48 ch q stamp settle err last payload, s)
  | none =>
    let v := ethP s p
    (mkItem cls prio dest 0x48 ch v.rxSeq stamp settle err last payload, setEth p { v with rxSeq := v.rxSeq + 1 } s)

/-- PRP discard (R333): none for a duplicate, else the state with the frame noted. -/
def prpRx (p : Nat) (src : BitVec 48) (seq : BitVec 16) (s : State) : Option State :=
  match pairOf s p with
  | none => some s
  | some k =>
    let pr := tblGet s.net.pairs k pairInit
    let lan := if rd s (prpA k) = p then 0 else 1
    let win := rd s (prpWindow k) * 1000
    let seen := pr.seen.filter (fun e => decide (now s ≤ e.2.2.2 + win))
    if seen.any (fun e => e.1 == src && e.2.1 == seq && e.2.2.1 != lan) then none
    else
      let full := decide (512 ≤ pr.srcs.length) && !pr.srcs.contains src
      let old := pr.srcs.take 1
      let srcs := if pr.srcs.contains src then pr.srcs else (if full then pr.srcs.drop 1 else pr.srcs) ++ [src]
      let seen := if full then seen.filter (fun e => !old.contains e.1) else seen
      let s := if full then bump (prpEvict k) s else s
      some { s with net := { s.net with
        pairs := tblSet k { pr with seen := seen ++ [(src, seq, lan, now s)], srcs := srcs } s.net.pairs } }

/-- An SRTP key takes a packet in: replay window of 128 and the count under the key (R328). -/
def srtpTake (k : SrtpKey) (idx : Nat) : SrtpKey :=
  { k with count := k.count + 1, top := some (max idx (k.top.getD 0)), seen := (k.seen ++ [idx]).filter (fun x => decide (max idx (k.top.getD 0) < x + 128)) }

def srtpReplayed (k : SrtpKey) (idx : Nat) : Bool := k.seen.contains idx || (match k.top with | some t => decide (idx + 128 ≤ t) | none => false)

/-- SRTP on receive: the counter offset of Table 12.8 under which the packet is discarded (0: uncounted), or none if it passes; and the
flow after it (R328, R329). -/
def srtpRx (f : Flow) (i : Option SrtpInfo) (t : Nat) : Option Nat × Flow :=
  if f.stopped then (some 0, f)
  else match i, f.rx with
    | some i, some k =>
      let idx := i.index.toNat
      if i.authNew then
        if srtpReplayed k idx then (some 24, f)
        else
          let k := srtpTake k idx
          (none, { f with rx := some k, rxOld := none, stopped := decide (2 ^ 48 ≤ k.count) })
      else match f.rxOld with
        | some (o, e) =>
          if i.authOld && decide (t < e) then
            if srtpReplayed o idx then (some 24, f) else (none, { f with rxOld := some (srtpTake o idx, e) })
          else (some 20, f)
        | none => (some 20, f)
    | _, _ => (some 20, f)

/-- Payload types a flow accepts: the media type, and EVPT and CNPT where used (R325, R326). A flow without a template names none, and
none is refused. -/
def ptOk (f : Flow) (pt : Nat) : Bool :=
  match f.template with
  | none => true
  | some t =>
    let h := tplHeaders f t
    let media := (t.getD (h - 11) 0).toNat % 128
    let ev := if tplHasTypes f t then (t.getD h 0).toNat else 0
    let cn := if tplHasTypes f t then (t.getD (h + 1) 0).toNat else 0
    pt == media || (ev != 0 && pt == ev) || (cn != 0 && pt == cn)

/-- An RTP packet without its padding: the last byte counts the padding bytes, itself among them (R326, RFC 3550). -/
def unpad (b : List Byte) : List Byte :=
  if (b.getD 0 0).getLsbD 5 then patch (b.take (b.length - (b.getLastD 0).toNat)) 0 [b.getD 0 0 &&& 0xDF] else b

/-- The core a channel's packets go to. -/
def chanCore (s : State) (ch : Nat) : Option Nat := match chan? s ch with | some c => if isRunning c then some (0x10 + c.core) else none | none => none

/-- Steps 6 and 7 of R323 for a frame of flow `n`: RTP and SRTP, then emission with the flow's CHAN and PRIO. -/
def flowFrame (p n : Nat) (f : Flow) (fr : EthFrame) (sst : Option Sst) (s : State) : State :=
  let cells := cellsOf fr.length
  let stamp := ingressStamp s p fr.length
  let mac := be 6 fr.srcMac.toNat
  let off := match sst with | some t => decide (t.prio.toNat ≠ f.prio) | none => false
  if !bufOk s f.prio cells then
    let s := bump (rxNobuf p) s
    if fVoice f then voiceLost 3 52 (some f.chan) (some n) s else s
  else
    let f := if off then flowBumpN 32 1 f else f
    let s := if off then setFlow n f s else s
    let (seq, settle, err, last) := match sst with | some t => (some t.seq, t.settle, t.err, t.last) | none => (none, false, false, true)
    if (match sst with | some t => t.assured | none => false) then
      let s := modFlow n (fun f => { flowBumpN 0 1 f with peer := some fr.srcMac }) s
      let (i, s) := packetOf p 4 f.prio 0x00 (if fForward f then 0 else f.chan) stamp seq settle err last fr.payload s
      (splitItem 4096 4 i).foldl (fun s x => emitRx p cells (some n) x s) s
    else if fForward f then
      let ports := egressPorts s f.egress
      let dests := if f.egress = 0x20 then [0x00] else ((ports.filter (fun o => decide (ethSt s o = 1)) ++ ports).take 1).map (0x40 + ·)
      let (hd, s) := (freeBytes (fr.length - 4 - fr.payload.length) s, tookFree s)
      let s := flowBump n 0 s
      dests.foldl (fun s d => let (i, s) := packetOf p 1 f.prio d 0 stamp seq settle err last (hd ++ fr.payload) s; emitRx p cells (some n) i s) s
    else
      let send (s : State) : State := match chanCore s f.chan with
        | some d =>
          let s := flowBump n 0 s
          let (i, s) := packetOf p 1 f.prio d f.chan stamp seq settle err last (if fRtp f then unpad fr.payload else fr.payload) s
          emitRx p cells (some n) i s
        | none => bump (rxNoflow p) s
      if !fRtp f then send s
      else match fr.rtp with
        | none => violation 1 p 0x0103 1 n mac [] (flowBump n 8 s)
        | some r =>
          if r.version ≠ 2 ∨ r.short then violation 1 p 0x0103 1 n mac [] (flowBump n 8 s)
          else if !ptOk f r.pt.toNat then violation 1 p 0x0104 1 n mac [] (flowBump n 12 s)
          else
            let (bad, f1) := if fSrtp f then srtpRx f fr.srtp (now s) else (none, f)
            match bad with
            | some off =>
              let s := setFlow n f1 s
              let s := if off = 0 then s else flowBump n off s
              if off = 20 ∧ fVoice f then modChan f.chan (fun c => { c with lostIn := c.lostIn ++ [2] }) s else s
            | none =>
              let f2 := match f1.ssrc with
                | some x => if x = r.ssrc then f1 else flowBumpN 16 1 { f1 with ssrc := some r.ssrc }
                | none => { f1 with ssrc := some r.ssrc }
              let s := setFlow n f2 s
              send (if f1.stopped && !f.stopped then violation 1 p 0x0105 3 n mac [] s else s)

/-- A frame that matches no flow (R324). -/
def strayFrame (p : Nat) (fr : EthFrame) (s : State) : State :=
  match fr.dst with
  | .other => bump (rxNoflow p) s
  | _ =>
    let v := ethP s p
    let v := if v.rateAt + 1000000 ≤ now s then { v with rateN := 0, rateAt := now s } else v
    if 20000 ≤ v.rateN then bump (rxRatelim p) (setEth p v s)
    else if !bufOk s 4 (cellsOf fr.length) then bump (rxNobuf p) s
    else
      let s := setEth p { v with rateN := v.rateN + 1 } s
      let (i, s) := packetOf p 1 4 0x00 0 (ingressStamp s p fr.length) none false false true fr.payload s
      emitRx p (cellsOf fr.length) none i s

/-- RTCP by its port, or by its second byte on the flow's own port (R327). -/
def isRtcp (b : List Byte) : Bool := decide (200 ≤ (b.getD 1 0).toNat ∧ (b.getD 1 0).toNat ≤ 204)

/-- RTCP of a flow goes to Onyx under the flow's CHAN (R327). -/
def rtcpFrame (p n : Nat) (f : Flow) (fr : EthFrame) (s : State) : State :=
  let cells := cellsOf fr.length
  if !bufOk s f.prio cells then bump (rxNobuf p) s
  else
    let (i, s) := packetOf p 1 f.prio 0x00 (if fForward f then 0 else f.chan) (ingressStamp s p fr.length) none false false true fr.payload s
    emitRx p cells (some n) i s

/-- Steps 3 to 7 of R323. -/
def classify (p : Nat) (fr : EthFrame) (s : State) : State :=
  let vid := tagVid (parsed s p fr.tags)
  let sst := tagSst (parsed s p fr.tags)
  match sst with
  | some t =>
    if t.ver ≠ 1 ∨ t.rsvd1 ≠ 0 ∨ t.rsvd2 ≠ 0 then
      violation 1 p 0x0101 1 0xFFFF (be 6 fr.srcMac.toNat) (be 2 0x88B5) (bump (rxTagerr p) s)
    else if fr.etherType = 0x88B6 then s
    else match lookup s p vid (some t.chan.toNat) none 0 0 with
      | some (n, f) => flowFrame p n f fr sst s
      | none => violation 1 p 0x0101 1 0xFFFF (be 6 fr.srcMac.toNat) (be 2 0x88B5) (bump (rxNoflow p) s)
  | none =>
    if !(fr.tags.all (fun t => tagCode t != 3)) then strayFrame p fr s
    else match fr.ip with
      | none => strayFrame p fr s
      | some i =>
        if !ipOk i then bump (rxNoflow p) s
        else if i.fragment || i.next != 17 then strayFrame p fr s
        else if (match fr.udpSum with | .bad => true | .zero => i.v6 | .good => false) then bump (rxNoflow p) s
        else
          let sp := fr.sport.toNat
          let dp := fr.dport.toNat
          match lookup s p vid none (some i) sp dp with
          | some (n, f) => if fRtp f && !fForward f && isRtcp fr.payload then rtcpFrame p n f fr s else flowFrame p n f fr none s
          | none => match lookup s p vid none (some i) 0 (dp - 1) with
            | some (n, f) => if fRtp f && !fForward f && decide (0 < dp) then rtcpFrame p n f fr s else strayFrame p fr s
            | none => strayFrame p fr s

/-- The link of a port carries frames. -/
def linkOn (s : State) (p : Nat) : Bool := domOn s 4 && flag s (ethLink p)

/-- ETH_FRAME_RECEIVED: steps 1 and 2 of R323, then PRP and the rest (R311, R319, R333). -/
def execEthFrameReceived (port : Fin 8) (f : EthFrame) (s : State) : Out :=
  let p := port.val
  .next (if !linkOn s p then s
    else if !f.fcsOk then bump (rxFcs p) s
    else if f.length < 64 then bump (rxRunt p) s
    else if rd s (ethMaxframe p) < f.length then bump (rxOversize p) s
    else if !tagsOrdered 0 (parsed s p f.tags) then bump (rxTagerr p) s
    else match f.prpSeq with
      | none => classify p f s
      | some q => match prpRx p f.srcMac q s with
        | none => (match pairOf s p with | some k => bump (prpDup k) s | none => s)
        | some s => classify p f s)

/-! ### PAUSE events (R316 to R318) -/

/-- PAUSE_FRAME_RECEIVED: the MAC consumes it; with receive disabled, in the hold-off, or with another opcode it is discarded and counted, in
no register (log 46). -/
def execPauseFrameReceived (port : Fin 8) (opcode quanta : BitVec 16) (s : State) : Out :=
  let p := port.val
  let v := ethP s p
  .next (if !linkOn s p then s
    else if opcode ≠ 1 ∨ !flag s (ethPauseRx p) ∨ v.holdoff.isSome then setEth p { v with ctlDisc := satAdd 32 v.ctlDisc 1 } s
    else if quanta = 0 then wr (ethPaused p) 0 (setEth p { v with pauseUntil := none, wdSince := none } s)
    else
      let us := (quanta.toNat * 512 + ethMbps s p - 1) / ethMbps s p
      wdStart p (wr (ethPaused p) 1 (setEth p { v with pauseUntil := some (now s + us) } s)))

/-- PAUSE_EXPIRY. -/
def execPauseExpiry (port : Fin 8) (s : State) : Out :=
  let p := port.val
  let v := ethP s p
  .next (if due s v.pauseUntil then wr (ethPaused p) 0 (setEth p { v with pauseUntil := none, wdSince := none } s) else s)

/-- PAUSE_WATCHDOG_EXPIRY: the pause is broken. -/
def execPauseWatchdogExpiry (port : Fin 8) (s : State) : Out :=
  let p := port.val
  let v := ethP s p
  let wd := rd s (ethPauseWd p) * 1000
  .next (if flag s (ethPaused p) ∧ due s (v.wdSince.map (· + wd)) then
      let s := setEth p { v with pauseUntil := none, wdSince := none, holdoff := some (now s + 4 * wd) } s
      let s := wr (ethPaused p) 0 (wr (ethHoldoff p) 1 (wr (ethBreak p) 1 (bump (pauseBreak p) s)))
      violation 1 p 0x0102 2 0xFFFF [] [] s
    else s)

/-- PAUSE_HOLDOFF_END. -/
def execPauseHoldoffEnd (port : Fin 8) (s : State) : Out :=
  let p := port.val
  let v := ethP s p
  .next (if due s v.holdoff then wr (ethHoldoff p) 0 (setEth p { v with holdoff := none } s) else s)

/-- PAUSE_REFRESH: repeated while the cells have not fallen below XON. -/
def execPauseRefresh (port : Fin 8) (s : State) : Out :=
  let p := port.val
  let s1 := pauseTxUpd p s
  let v := ethP s1 p
  .next (if due s1 v.xoff then setEth p { v with xoff := some (now s1 + halfPause s1 p) } s1 else s1)

/-! ### Link and hold time (R310, R338 to R341, R496) -/

/-- LINK_UP. A port that is disabled acts on it only under PORT_STATE action 1, one out of service only under action 3. -/
def execLinkUp (port : Fin 8) (speed : BitVec 2) (s : State) : Out :=
  let p := port.val
  .next (if !domOn s 4 ∨ !flag s (ethEn p) ∨ flag s (ethForceDown p) ∨ flag s (ethLink p) ∨ s.onyx.degraded.contains (0x31, 9) then s
    else
      let s := notify 3 (p + 0x1000000) 0 (wr (ethSpeed p) (if rd s (ethMode p) = 2 then speed.toNat else 0) (wr (ethLink p) 1 s))
      let st := ethSt s p
      if st = 0 ∨ st = 2 then finishWait (.link p) stOk [1] (enterUp p s)
      else if st = 3 ∨ st = 5 then
        let s := setEth p { ethP s p with settleUntil := some (now s + rd s (ethSettle p) * 1000) } (wr (ethState p) 4 s)
        finishWait (.link p) stOk [1] s
      else s)

/-- LINK_DOWN. -/
def execLinkDown (port : Fin 8) (s : State) : Out :=
  let p := port.val
  .next (if flag s (ethLink p) then linkLoss p s else s)

/-- HOLD_TIME_END: while Onyx restarts, held items wait for it (R23). -/
def execHoldTimeEnd (port : Fin 8) (s : State) : Out :=
  let p := port.val
  .next (if ethSt s p = 2 ∧ due s (ethP s p).holdUntil ∧ onyxUp s then holdEnd p s else s)

/-- SETTLE_END. -/
def execSettleEnd (port : Fin 8) (s : State) : Out :=
  let p := port.val
  .next (if ethSt s p = 4 ∧ due s (ethP s p).settleUntil ∧ onyxUp s then enterUp p s else s)

/-- Voice items of a queue that have reached the age limit, and the rest (R339). -/
def agedSplit (t lim : Nat) (l : List QItem) : List QItem × List QItem := l.partition (fun q => q.voice.isSome && decide (q.at' + lim ≤ t))

/-- HELD_AGED: voice items at NET_AGE_LIMIT are discarded, in any port state (R339). -/
def execHeldAged (port : Fin 8) (s : State) : Out :=
  let p := port.val
  let v := ethP s p
  let lim := rd s (ethAge p) * 1000
  let gone := v.q.flatMap (fun e => (agedSplit (now s) lim e.2).1) ++ v.held.flatMap (fun e => (agedSplit (now s) lim e.2).1)
  let rest : Tbl (List QItem) → Tbl (List QItem) := tblMap (fun _ l => (agedSplit (now s) lim l).2)
  let s1 := setEth p { v with q := rest v.q, held := rest v.held } s
  .next (pauseTxUpd p (gone.foldl (fun s q => lostAt p 4 56 q (bump (heldAged p) s)) s1))

/-! ### Transmission (R312, R314, R316, R340) -/

/-- The first item of a queue in strict priority. -/
def firstClass (q : Tbl (List QItem)) : Option (Nat × QItem) :=
  (fromN 0 8).findSome? (fun c => match tblGet q c [] with | x :: _ => some (c, x) | [] => none)

def popClass (c : Nat) (q : Tbl (List QItem)) : Tbl (List QItem) :=
  match tblGet q c [] with | _ :: [] => tblDel c q | _ :: r => tblSet c r q | [] => q

/-- LAT_M2W of a voice frame whose packet begins now: the egress timestamp point, with the transmit latency, less the STAMP of its first local
sample, µs; and its maximum (R297, R334). -/
def latM2w (p : Nat) (q : QItem) (s : State) : State :=
  match q.voice with
  | some ch =>
    let t := (rtbNs s).toNat + rd s (ptplatTx p) - (fullStamp s q.item.wh.stamp).toNat
    modChan ch (fun c => { c with stats := tblSet 96 (max (t / 1000) (tblGet c.stats 96 0)) (tblSet 92 (t / 1000) c.stats) }) s
  | none => s

/-- ETH_FRAME_TX_START: held items before new ones, classes in strict priority, no new frame in a pause that is honoured. -/
def execEthFrameTxStart (port : Fin 8) (s : State) : Out :=
  let p := port.val
  let v := ethP s p
  .next (if !domOn s 4 ∨ s.pwr.safe ∨ ethSt s p ≠ 1 ∨ v.sending.isSome ∨ flag s (ethPaused p) then s
    else match firstClass v.held with
      | some (c, q) => latM2w p q (setEth p { v with held := popClass c v.held, sending := some (c, q), wdSince := none } s)
      | none => match firstClass v.q with
        | some (c, q) => latM2w p q (setEth p { v with q := popClass c v.q, sending := some (c, q), wdSince := none } s)
        | none => s)

/-- ETH_FRAME_TX_END: the frame is sent and its cells free. -/
def execEthFrameTxEnd (port : Fin 8) (s : State) : Out :=
  let p := port.val
  let v := ethP s p
  .next (match v.sending with
    | none => s
    | some (_, q) =>
      let s := wdStart p (setEth p { v with sending := none } s)
      let s := match q.flow with | some n => flowBump n 4 s | none => s
      let s := match q.flow with
        | some n => if q.item.wh.assured then modFlow n (fun f => { f with out := f.out.map (fun m => if m.seq = q.item.wh.seq then { m with sentAt := now s } else m) }) s else s
        | none => s
      match q.inPort with | some i => pauseTxUpd i s | none => s)

/-! ### Assured messages (R201 to R203, R330, R331) -/

/-- The acknowledgement frame of Table 12.5: to the source of the message where a frame of it has been seen; the port's own address,
which no register holds, is free (log 2). -/
def ackBytes (f : Flow) (seq : BitVec 16) (s : State) : List Byte :=
  let tag := if f.vlan = 0xFFFF then [] else be 2 0x8100 ++ be 2 (rd s (netPcp f.prio) * 8192 + f.vlan)
  let dst := match f.peer with | some m => be 6 m.toNat | none => freeBytes 6 s
  let sst : Sst := { ver := 1, prio := BitVec.ofNat 3 f.prio, assured := false, rsvd1 := 0, chan := BitVec.ofNat 13 f.linkchan, seq := seq,
                     settle := false, err := false, last := true, rsvd2 := 0 }
  padTo 60 (dst ++ (freeBytes 12 s).drop 6 ++ tag ++ sstBytes sst ++ be 2 0x88B6 ++ [1, BitVec.ofNat 8 (creditOf f), 0, 0])

/-- A frame that Onyx builds, for a port, under the SEQ of its channel (R28). -/
def onyxFrame (prio p chan : Nat) (b : List Byte) (s : State) : State :=
  let k := 65536 + chan
  seqUp k 1 (offer (mkItem 1 prio (0x40 + p) 0x00 chan (seqAt s k) (rtbNs s).toNat false false true b) s)

/-- Send an acknowledgement on the port of arrival, or on both ports of its pair. -/
def sendAck (fl p : Nat) (seq : BitVec 16) (s : State) : State :=
  match flow? s fl with
  | none => s
  | some f =>
    let ports := match pairOf s p with | some k => [rd s (prpA k), rd s (prpB k)] | none => [p]
    let b := ackBytes f seq s
    let s := flowBump fl 48 (tookFree s)
    ports.foldl (fun s o => onyxFrame f.prio o (if fForward f then 0 else f.chan) b s) s

/-- STAMP and FLAGS of a message that Onyx offers: those of its item, or of now where none was delivered. -/
def offerOf (s : State) (f : Flow) (seq : BitVec 16) : Offer :=
  (f.offers.find? (fun o => o.seq == seq)).getD { seq := seq, stamp := (rtbNs s).extractLsb' 0 40, settle := false, err := false, last := true }

/-- ASSURED_MESSAGE_RECEIVED: Onyx offers the message for acceptance (R201). Once a hibernate has been accepted nothing more is (R97). -/
def execAssuredMessageReceived (flow : BitVec 13) (ingress : BitVec 8) (seq : BitVec 16) (payload : List Byte) (s : State) : Out :=
  let fl := flow.toNat
  let p := ingress.toNat - 0x40
  .next (if !onyxUp s ∨ s.pwr.hib ≠ .awake ∨ s.ledger.tail.isSome ∨ ingress.toNat < 0x40 ∨ 0x47 < ingress.toNat then s
    else match flow? s fl with
      | none => s
      | some f =>
        if !fAssured f then s
        else match assuredIn fl ingress.toNat (offerOf s f seq) payload 1 p 0x0107 s with
          | (some a, s) => sendAck fl p a s
          | (none, s) => s)

/-- An acknowledgement is for this flow: its link channel, its VLAN, and its port, PORT_IN or one that it sends on (R331; log 118). -/
def ackFor (s : State) (p : Nat) (vid : Option Nat) (ch : Nat) (f : Flow) : Bool :=
  fAssured f && f.linkchan == ch && (match vid with | none => f.vlan == 0xFFFF | some v => f.vlan == v) && (f.portIn == 0xFF || f.portIn == p || (egressPorts s f.egress).contains p)

/-- ACKNOWLEDGEMENT_FRAME_RECEIVED (R50, R331): an event to Onyx. PATH 1 when it comes on PORT_B of the flow's pair. -/
def execAcknowledgementFrameReceived (port : Fin 8) (a : AckFrame) (s : State) : Out :=
  let p := port.val
  let viol (code fl : Nat) (s : State) : State := violation 1 p code 1 fl (be 6 a.srcMac.toNat) [] s
  .next (if !linkOn s p ∨ !flag s (ethSst p) then s
    else match tagSst a.tags with
      | none => s
      | some t =>
        if t.ver ≠ 1 ∨ t.rsvd1 ≠ 0 ∨ t.rsvd2 ≠ 0 then viol 0x0101 0xFFFF (bump (rxTagerr p) s)
        else match tblFirst (fun _ f => ackFor s p (tagVid a.tags) t.chan.toNat f) s.net.flows with
          | some (n, f) =>
            if a.typ ≠ 1 ∨ a.rsvd ≠ 0 then viol 0x0106 n s
            else
              let path := if 0x10 ≤ f.egress ∧ f.egress ≤ 0x13 ∧ rd s (prpB (f.egress - 0x10)) = p then 1 else 0
              let s := eventNow 0x48 7 t.seq.toNat n s
              ackEvent n t.seq a.credit.toNat path s
          | none => viol 0x0106 0xFFFF (bump (rxNoflow p) s))

/-- ASSURED_RETRY: from the oldest unacknowledged message; after 4 intervals with the link up the path is lost (R202, R331). -/
def execAssuredRetry (flow : BitVec 13) (s : State) : Out :=
  let fl := flow.toNat
  .next (match flow? s fl with
    | none => s
    | some f =>
      let out := f.out.filter (·.sent)
      let last := out.foldl (fun t m => max t m.sentAt) 0
      let ports := egressPorts s f.egress
      let up := ports.any (fun p => decide (ethSt s p = 1))
      if !fAssured f ∨ f.fallen.isSome ∨ f.noPath ∨ out.isEmpty ∨ !up ∨ !onyxUp s ∨ now s < last + rd s netAretry * 1000 then s
      else if f.misses + 1 ≥ 4 then
        -- the path is lost: as at the end of the hold time
        let dst := ports.findSome? (fun p => match fallOf s p with
          | some c => if (c.auto || c.active) && movable f && plcReady s c.plc then some (p, c) else none
          | none => none)
        match dst with
        | some (p, c) =>
          let s := if c.active then s else (startFall p c s).2
          match flow? s fl with
          | some f => pump fl (turnTo c.plc fl { f with misses := 0, out := f.out.map (fun m => { m with sent := false }) } s)
          | none => s
        | none => losePath fl s
      else
        let again := f.out.map (fun m => if m.sent then { m with sentAt := now s } else m)
        let s := setFlow fl (flowBumpN 40 out.length { f with misses := f.misses + 1, out := again }) s
        out.foldl (fun s m => emitMsg fl f m s) (out.foldl (fun s m => unqueue fl m.seq s) s))

/-! ### RTCP, supervision, keys (R327, R329, R333) -/

/-- One SRTCP packet under a key, and whether it brings the key to its limit of 2^31 (R328). -/
def srtcpCount (k : SrtpKey) : SrtpKey := { k with ctl := k.ctl + 1 }

def srtcpFull (k : Option SrtpKey) : Bool := match k with | some k => decide (2 ^ 31 ≤ k.ctl + 1) | none => false

/-- A flow that has just reached the limit of its key is recorded (R328). -/
def keyEnd (fl : Nat) (s : State) : State :=
  match flow? s fl with
  | some f => if f.stopped then violation 1 (f.egress % 16) 0x0105 3 fl [] [] s else s
  | none => s

/-- RTCP_RECEIVED at Onyx. -/
def execRtcpReceived (port : Fin 8) (flow : BitVec 13) (onRtpPort authOk : Bool) (s : State) : Out :=
  let fl := flow.toNat
  .next (if !linkOn s port.val ∨ !onyxUp s then s
    else match flow? s fl with
      | none => s
      | some f =>
        if !fRtp f then s
        else if fSrtp f && f.stopped then s
        else if fSrtp f && (!authOk || f.rx.isNone) then flowBump fl 28 s
        else
          let f1 := if fSrtp f then { f with rx := f.rx.map srtcpCount, stopped := srtcpFull f.rx } else f
          keyEnd fl (setFlow fl { f1 with rtcpPort := some (if onRtpPort then 0 else 1) } s))

/-- The frame of an RTCP packet of a flow on port `p`: the template's headers, to the port where RTCP was last received, else to the
destination port plus 1; its report, 100 bytes here, is free (R327; log 2). -/
def rtcpBytes (s : State) (f : Flow) (t : List Byte) (p : Nat) : List Byte :=
  let n := tplTags t
  let et := (t.drop (12 + n)).take 2
  let rest := t.drop (14 + n)
  let v6 := decide (et = [0x86, 0xDD])
  let ipl := if v6 then 48 else if et = [0x08, 0x00] then (rest.getD 0 0).toNat % 16 * 4 + 8 else 0
  let hd := rest.take ipl
  let dport := unBe ((hd.drop (ipl - 6)).take 2) + (if f.rtcpPort = some 0 then 0 else 1)
  let hd := if ipl = 0 then hd else patch hd (ipl - 6) (be 2 dport)
  let sst := if fSst f && flag s (ethSst p) then sstBytes (sstOf f (mkItem 1 f.prio (0x40 + p) 0x00 f.chan f.rtpSeq 0 false false true []).wh) else []
  let body := freeBytes 100 s
  t.take 12 ++ tagBytes s t f.prio ++ sst ++ et ++ (if ipl = 0 then body else fillIp v6 (Config.freeNat s.free % 65536) hd body)

/-- RTCP_TIMER: a compound packet, and the next within 0.5 to 1.5 times 5 s. -/
def execRtcpTimer (flow : BitVec 13) (s : State) : Out :=
  let fl := flow.toNat
  .next (match flow? s fl with
    | none => s
    | some f =>
      if !fRtp f ∨ f.template.isNone ∨ !onyxUp s ∨ now s < f.rtcpAt ∨ (fSrtp f ∧ f.stopped) then s
      else
        let t := f.template.getD []
        let frame : Nat → List Byte := rtcpBytes s f t
        let s := tookFree s
        let f1 := if fSrtp f then { f with tx := f.tx.map srtcpCount, stopped := srtcpFull f.tx } else f
        let s := keyEnd fl (setFlow fl { f1 with rtcpAt := now s + 2500000 + Config.freeNat s.free % 5000001 } (tookFree s))
        (egressPorts s f.egress).foldl (fun s p =>
          onyxFrame f.prio p (if fForward f then 0 else f.chan) (frame p) s) s)

/-- PRP_SUPERVISION. The frame's bytes are those of IEC 62439-3, free here (log 2). -/
def execPrpSupervision (pair : Fin 4) (s : State) : Out :=
  let k := pair.val
  let pr := tblGet s.net.pairs k pairInit
  .next (if !flag s (prpEn k) ∨ !onyxUp s ∨ now s < pr.supAt then s
    else
      let b := freeBytes 60 s
      let s := tookFree s
      let s := { s with net := { s.net with pairs := tblSet k { pr with supAt := pr.supAt + 2000000 } s.net.pairs } }
      [rd s (prpA k), rd s (prpB k)].foldl (fun s p => onyxFrame 4 p 0 b s) s)

/-- OLD_KEY_ERASE: 2 s after the new key. -/
def execOldKeyErase (flow : BitVec 13) (s : State) : Out :=
  let fl := flow.toNat
  .next (match flow? s fl with
    | some f => match f.rxOld with
      | some (_, t) => if reached s t then setFlow fl { f with rxOld := none } s else s
      | none => s
    | none => s)

end Sys2Proof.Machine
end

