-- ==== Sys2Proof/Machine/PlcPhy.lean ====
section
/-! DEFINITION. The powerline physical layer (R345 to R376): numerology and band plans, the coding chain of a frame, its length
in symbol positions, and reception. -/

namespace Sys2Proof.Machine

/-! ### Band plans and tone maps (R350, R351, R364, Tables 13.3, 13.4) -/

/-- The carriers of the plan in force: the lowest and the highest. -/
def bandLo (s : State) (n : Nat) : Nat :=
  match rd s (plcBand n) with | 0 => 24 | 1 => 64 | 2 => 100 | 3 => 24 | _ => rd s (plcCstart n)

def bandHi (s : State) (n : Nat) : Nat :=
  match rd s (plcBand n) with | 0 => 60 | 1 => 98 | 2 => 332 | 3 => 332 | _ => rd s (plcCend n)

/-- Nc. -/
def bandN (s : State) (n : Nat) : Nat := bandHi s n - bandLo s n + 1

/-- The 2-bit code of carrier `c` in a tone map of 86 bytes. -/
def toneCode (m : List Byte) (c : Nat) : Nat := (m.getD (4 + (c - 6) / 4) 0).toNat / 4 ^ ((c - 6) % 4) % 4

/-- The codes of a plan's carriers, lowest first. -/
def toneCodes (m : List Byte) (lo nc : Nat) : List Nat := (fromN lo nc).map (toneCode m)

/-- A map is valid on a plan (R364). -/
def toneValid (m : List Byte) (lo hi : Nat) : Bool :=
  let all := fromN 6 327
  decide (m.length = 86) && m.getD 1 0 == 0 && m.getD 2 0 == 0 && m.getD 3 0 == 0 && decide ((m.getD 85 0).toNat < 64) &&
    all.all (fun c => decide (lo ≤ c ∧ c ≤ hi) || toneCode m c == 0) &&
    decide (16 ≤ (all.filter (fun c => decide (toneCode m c ≠ 0))).length) && decide (sumOf (toneCode m) all ≤ 704)

/-- The codes that tone map index `tmi` of a port gives its carriers: map 0 is DBPSK throughout (R384). -/
def mapCodes (s : State) (n tmi : Nat) : Option (List Nat) :=
  if tmi = 0 then some (List.replicate (bandN s n) 1)
  else match tblFind tmi (plcP s n).tones with
    | some m => if toneValid m (bandLo s n) (bandHi s n) then some (toneCodes m (bandLo s n) (bandN s n)) else none
    | none => none

/-! ### Lengths (R356, R360, R362, R363, R367, R383) -/

/-- Header symbols, H. -/
def hdrSymbols (nc : Nat) : Nat := (432 + nc - 1) / nc

/-- Codewords of a payload, NCW. -/
def codewords (bytes : Nat) : Nat := (bytes + 238) / 239

/-- Coded bits, NCB. -/
def codedBits (bytes : Nat) : Nat := 2 * (8 * (bytes + 16 * codewords bytes) + 6)

/-- Repetitions of a mode: 0 a tone map, else R of Sturdy-R. -/
def sturdyR (mode : Nat) : Nat := if mode = 1 then 4 else if mode = 2 then 6 else 0

/-- Payload symbols, NSYM. -/
def paySymbols (mode nc bs bytes : Nat) : Nat :=
  let r := sturdyR mode
  if r = 0 then (codedBits bytes + bs - 1) / bs else r * ((codedBits bytes + nc - 1) / nc)

/-- F(b): symbol positions of a frame with a payload of `bytes`. -/
def frameLen (mode nc bs bytes : Nat) : Nat := 3 + hdrSymbols nc + paySymbols mode nc bs bytes

/-- F(b) on a port, in a mode and with a tone map; none without the map. -/
def portFrameLen (s : State) (n mode tmi bytes : Nat) : Option Nat :=
  (mapCodes s n (if mode = 0 then tmi else 0)).map (fun c => frameLen mode (bandN s n) (sumOf id c) bytes)

/-! ### The header word (R359, R374, Table 13.7) -/

def hdrWord (mode tmi ft ilv plen : Nat) : Nat := 1 + mode * 4 + tmi * 32 + ft * 512 + ilv * 8192 + plen * 524288

/-- Bit `k` of a number. -/
def bitOf (v k : Nat) : Nat := v / 2 ^ k % 2

/-- The lowest `n` bits of a number, least significant first. -/
def bitsLsb (v n : Nat) : List Nat := (fromN 0 n).map (bitOf v)

/-- One bit into the header check: polynomial x^16 + x^12 + x^5 + 1. -/
def hdrCrcBit (reg b : Nat) : Nat :=
  let f := (reg / 32768 + b) % 2
  (if f = 1 then (reg * 2 % 65536) ^^^ 0x1021 else reg * 2 % 65536)

/-- The header check of a bit sequence. -/
def hdrCrc (bits : List Nat) : Nat := bits.foldl hdrCrcBit 0xFFFF

/-- The 48 header bits in transmission order. -/
def hdrBits (hw : Nat) : List Nat := let b := bitsLsb hw 32; b ++ (bitsLsb (hdrCrc b) 16).reverse

/-- A header that passes its check is valid (R374). -/
def hdrValid (s : State) (n hw : Nat) : Bool :=
  let mode := hw / 4 % 8
  let tmi := hw / 32 % 16
  decide (hw % 4 = 1) && decide (mode ≤ 2) && decide (hw / 512 % 16 ≤ 8) && decide (hw / 2 ^ 30 % 4 = 0) &&
    (if mode = 0 then (mapCodes s n tmi).isSome else tmi == 0) && decide (15 ≤ hw / 524288 % 2048)

/-! ### Coding (R360 to R363, R365, R366, R368) -/

/-- The scrambler: register and bits (R361). -/
def scramble : Nat → List Nat → List Nat
  | _, [] => []
  | reg, d :: t =>
    let f := (bitOf reg 6 + bitOf reg 3) % 2
    ((d + f) % 2) :: scramble ((reg * 2 + f) % 128) t

/-- Bytes as bits, each least significant first. -/
def byteBits (b : List Byte) : List Nat := b.flatMap (fun x => bitsLsb x.toNat 8)

/-- Bits regrouped into bytes. -/
def bitsBytes : Nat → List Nat → List Nat
  | 0, _ => []
  | n + 1, l => ((l.take 8).foldr (fun b a => b + 2 * a) 0) :: bitsBytes n (l.drop 8)

/-- Multiplication in GF(2^8) with x^8 + x^4 + x^3 + x^2 + 1 (R362): `n` bits of `b` left. -/
def gfMul : Nat → Nat → Nat → Nat
  | 0, _, _ => 0
  | n + 1, a, b => (if b % 2 = 1 then a else 0) ^^^ gfMul n (if 128 ≤ a then (a * 2 % 256) ^^^ 0x1D else a * 2) (b / 2)

def gf (a b : Nat) : Nat := gfMul 8 a b

/-- The product of a polynomial, highest coefficient first, with (x − r). -/
def polyMul (p : List Nat) (r : Nat) : List Nat :=
  let sh := p ++ [0]
  let low := 0 :: p.map (gf r)
  List.zipWith (· ^^^ ·) sh low

/-- The generator of RS(255,239), highest coefficient first. -/
def rsGen : List Nat := ((fromN 0 16).foldl (fun (e : List Nat × Nat) _ => (polyMul e.1 e.2, gf e.2 2)) ([1], 1)).1

/-- One data byte into the division register of 16 bytes. -/
def rsStep (g : List Nat) (reg : List Nat) (d : Nat) : List Nat :=
  let f := d ^^^ reg.getD 0 0
  List.zipWith (fun r c => r ^^^ gf f c) (reg.drop 1 ++ [0]) (g.drop 1)

/-- A systematic codeword: data, then 16 parity bytes. -/
def rsWord (data : List Nat) : List Nat := data ++ data.foldl (rsStep rsGen) (List.replicate 16 0)

/-- How many data bytes codeword `k` of a payload takes. -/
def cwLen (bytes k : Nat) : Nat :=
  let n := codewords bytes
  if k < bytes % n then bytes / n + 1 else bytes / n

/-- The codewords from number `k` on. -/
def rsWords (bytes : Nat) : Nat → Nat → List Nat → List Nat
  | _, 0, _ => []
  | k, n + 1, l => rsWord (l.take (cwLen bytes k)) ++ rsWords bytes (k + 1) n (l.drop (cwLen bytes k))

/-- Parity of a 7-bit value. -/
def parity7 (v : Nat) : Nat := sumOf (bitOf v) (fromN 0 7) % 2

/-- The convolutional encoder (R363). -/
def convEnc : Nat → List Nat → List Nat
  | _, [] => []
  | sr, u :: t =>
    let w := u * 64 + sr
    parity7 (w &&& 0x79) :: parity7 (w &&& 0x5B) :: convEnc (w / 2) t

/-- Input bits with 6 zero tail bits, encoded. -/
def fecBits (b : List Nat) : List Nat := convEnc 0 (b ++ List.replicate 6 0)

/-- The coded bits of a payload (R361 to R363). -/
def payCoded (b : List Byte) : List Nat :=
  let n := b.length
  let scr := bitsBytes n (scramble 0x7F (byteBits b))
  fecBits ((rsWords n 0 (codewords n) scr).flatMap (fun x => bitsLsb x 8))

/-- Within a block of `sp` units of `bs` bits, the coded bit that stands at bit `j` of unit `u` (the inverse of R368). -/
def deint (sp bs u j : Nat) : Nat := sp * ((j + bs * 13 * (u + 1) - 13 * u) % bs) + u

/-- The units of interleaved bits: `units` of them, spans of `span` (R368). -/
def interleave (coded : List Nat) (span units bs : Nat) : List (List Nat) :=
  let a := coded.toArray
  (fromN 0 units).map (fun x =>
    let blk := x / span
    let sp := min span (units - blk * span)
    (fromN 0 bs).map (fun j => a.getD (blk * span * bs + deint sp bs (x % span) j) 0))

/-- Δφ in units of π/4 for a code and its label bits (Table 13.9). -/
def dphi (code : Nat) (bits : List Nat) : Nat :=
  match code, bits with
  | 1, [b] => 4 * b
  | 2, [0, 0] => 0
  | 2, [0, 1] => 2
  | 2, [1, 1] => 4
  | 2, _ => 6
  | 3, [0, 0, 0] => 0
  | 3, [0, 0, 1] => 1
  | 3, [0, 1, 1] => 2
  | 3, [0, 1, 0] => 3
  | 3, [1, 1, 0] => 4
  | 3, [1, 1, 1] => 5
  | 3, [1, 0, 1] => 6
  | 3, _ => 7
  | _, _ => 0

/-- One payload symbol: phases of the carriers from those before; a carrier that is off shows 8 and keeps its phase. -/
def mapSymbol : List Nat → List Nat → List Nat → List Nat × List Nat
  | [], _, _ => ([], [])
  | c :: cs, prev, bits =>
    let p := prev.headD 0
    let q := (p + dphi c (bits.take c)) % 8
    let (sh, nx) := mapSymbol cs (prev.drop 1) (bits.drop c)
    ((if c = 0 then 8 else q) :: sh, (if c = 0 then p else q) :: nx)

/-- The payload symbols in tone-map mode (R365). -/
def toneSymbols (codes : List Nat) : List Nat → List (List Nat) → List (List Nat)
  | _, [] => []
  | prev, b :: t => let (sh, nx) := mapSymbol codes prev b; sh :: toneSymbols codes nx t

/-- One DBPSK symbol on every carrier. -/
def bpskSymbol (prev bits : List Nat) : List Nat := List.zipWith (fun p b => (p + 4 * b) % 8) prev bits

/-- Successive DBPSK symbols. -/
def bpskSymbols : List Nat → List (List Nat) → List (List Nat)
  | _, [] => []
  | prev, b :: t => let x := bpskSymbol prev b; x :: bpskSymbols x t

/-- The bits of symbol `r` of a Sturdy group (R366). -/
def sturdyBits (nc rr r : Nat) (b : List Nat) : List Nat :=
  (fromN 0 nc).map (fun i => b.getD ((i + nc * rr - r * (nc / rr)) % nc) 0)

/-- The header symbols, each carrier's phase against REF (R360). -/
def hdrSyms (nc hw : Nat) : List (List Nat) :=
  let e := fecBits (hdrBits hw)
  let bit (q : Nat) : Nat := if q < 432 then e.getD (q % 108) 0 else 0
  bpskSymbols (List.replicate nc 0) ((fromN 0 (hdrSymbols nc)).map (fun h => (fromN 0 nc).map (fun i => bit (h * nc + i))))

/-- The payload symbols after the last header symbol. -/
def paySyms (mode ilv nc : Nat) (codes : List Nat) (prev : List Nat) (b : List Byte) : List (List Nat) :=
  let coded := payCoded b
  let r := sturdyR mode
  if r = 0 then
    let bs := sumOf id codes
    toneSymbols codes prev (interleave coded (ilv + 1) (paySymbols 0 nc bs b.length) bs)
  else
    let units := interleave coded (max 1 ((ilv + 1) / r)) (paySymbols mode nc nc b.length / r) nc
    bpskSymbols prev (units.flatMap (fun u => (fromN 0 r).map (fun k => sturdyBits nc r k u)))

/-! ### Reception (R370 to R375) -/

/-- The port is in service and its domain on. -/
def plcOn (s : State) (n : Nat) : Bool := domOn s 5 && flag s (plcEn n)

/-- A PLC port's violation, with its partner's NETID and TXA (Table 18.7). -/
def plcViol (n vcode action flow : Nat) (netid txa : Nat) (s : State) : State :=
  violation 2 n vcode action flow (le 2 netid ++ le 2 txa) [] s

/-- A flag for each sample: it lies at most `g` samples after one that is set; `k` of them are still to come. -/
def spread (g : Nat) : Nat → List Bool → List Bool
  | _, [] => []
  | _, true :: t => true :: spread g g t
  | 0, false :: t => false :: spread g 0 t
  | k + 1, false :: t => true :: spread g k t

/-- The samples that impulse blanking sets to zero: those at PLC_BLANK.THR or above, and GUARD samples on either side (R371). -/
def blankMask (thr g : Nat) (mags : List Nat) : List Bool :=
  let hit := mags.map (fun m => decide (thr ≤ m))
  List.zipWith (· || ·) (spread g 0 hit) (spread g 0 hit.reverse).reverse

/-- How many samples are blanked on a port. -/
def blanked (s : State) (n : Nat) (mags : List Nat) : Nat := ((blankMask (rd s (plcBlankThr n)) (rd s (plcGuard n)) mags).filter id).length

/-- AGC_BLOCK, with the magnitudes of its samples: blanked samples are counted, and the PGA takes one step while no frame is received or sent
and no candidate holds the gain (R370, R371). -/
def execAgcBlock (port : Fin 4) (rmsDbfs : Int) (mags : List Nat) (s : State) : Out :=
  let n := port.val
  let v := plcP s n
  let full := (mags.filter (fun m => decide (8191 ≤ m))).length
  let g := if -18 < rmsDbfs ∨ 4 ≤ full then v.pga - 1 else if rmsDbfs < -30 then min 7 (v.pga + 1) else v.pga
  .next (if plcOn s n && decide (v.rx = .search) && v.sending.isNone then
      let s1 := bumpN (plcCnt n 4) (blanked s n mags) s
      if g = v.pga then s1 else pgaStep n (setPlc n { v with pga := g } s1)
    else s)

/-- The sample that RTB has come to, at 1.536 MS/s (Table 13.3). -/
def sampleNow (s : State) : Nat := (rtbNs s).toNat * 1536 / 1000000

/-- How far the search has got: at up to 4 times real time, until it has caught up (R373). -/
def searchPos (v : PlcPort) (nw : Nat) : Nat := min nw (v.searched + 4 * (nw - v.searchedAt))

/-- The search resumes at sample `x`. What the buffer of 131,072 samples no longer holds is dropped and counted in RX_OVR (R373). -/
def searchFrom (n x : Nat) (s : State) : State :=
  let nw := sampleNow s
  let s := bumpN (plcCnt n 5) (nw - 131072 - x) s
  setPlc n { (plcP s n) with rx := .search, searched := max x (nw - 131072), searchedAt := nw } s

/-- A candidate is rejected: the search resumes at the sample after its false-start point, and no candidate near that point is tried again
(R373). The points kept are those within the receiver's buffer. -/
def rejectCand (n start : Nat) (s : State) : State :=
  let v := plcP s n
  searchFrom n (start + 1) (setPlc n { v with rejected := (v.rejected.filter (fun x => decide (start < x + 131072))) ++ [start] } s)

/-- PREAMBLE_CANDIDATE (R370, R372, R373): in samples that the search has not passed, that the buffer holds, and that were not discarded for
a transmission. -/
def execPreambleCandidate (port : Fin 4) (correlation : BitVec 8) (stamp : BitVec 64) (inversion : Bool) (start : Nat) (s : State) : Out :=
  let n := port.val
  let v := plcP s n
  let near := v.rejected.any (fun x => decide (x ≤ start + 128 ∧ start ≤ x + 128))
  .next (if !plcOn s n ∨ v.rx ≠ .search ∨ v.sending.isSome ∨ correlation.toNat < rd s (plcDetthr n) ∨ near then s
    else if start < v.searched ∨ start + 131072 < sampleNow s ∨ stamp.toNat < v.deafTo then s
    else if inversion then setPlc n { v with rx := .cand start stamp, searched := start, searchedAt := sampleNow s } s else rejectCand n start s)

/-- HEADER_DECODED (R373, R374). -/
def execHeaderDecoded (port : Fin 4) (checkOk : Bool) (hw : BitVec 32) (s : State) : Out :=
  let n := port.val
  let v := plcP s n
  .next (match v.rx with
    | .cand start stamp =>
      if !plcOn s n then s
      else if !checkOk then rejectCand n start (bump (plcCnt n 0) s)
      else if !hdrValid s n hw.toNat then plcViol n 0x0201 1 0xFFFF 0 0 (rejectCand n start (bump (plcCnt n 1) s))
      else
        let mode := hw.toNat / 4 % 8
        let plen := hw.toNat / 524288 % 2048 + 1
        let bs := sumOf id ((mapCodes s n (if mode = 0 then hw.toNat / 32 % 16 else 0)).getD [])
        setPlc n { v with rx := .frame plen (paySymbols mode (bandN s n) bs plen) (hw.toNat / 512 % 16) stamp } s
    | _ => s)

/-- A link header's 14 bytes (Table 14.1). -/
def lhBytes (h : LinkHdr) : List Byte :=
  le 2 h.netid.toNat ++ le 2 h.txa.toNat ++ le 2 h.rxa.toNat ++ le 2 (h.orig.toNat + h.ttl.toNat * 4096) ++
    le 2 (h.final.toNat + h.prio.toNat * 4096 + b2n h.assured * 32768) ++
    le 2 (h.lchan.toNat + b2n h.last * 8192 + b2n h.err * 16384 + b2n h.settle * 32768) ++ le 2 h.seq.toNat

/-- A frame's payload: header, body, and LCK over both (R377). -/
def linkPayload (h : LinkHdr) (body : List Byte) : List Byte :=
  let b := lhBytes h ++ body
  b ++ le 4 (crc32c b).toNat

/-! ### The preamble and REF (R357, R358) -/

/-- The preamble's carriers: those of the plan that 4 divides, each with m², its phase in units of π/M. -/
def preamblePhases (lo nc : Nat) : List (Nat × Nat) := ((fromN lo nc).filter (fun c => decide (c % 4 = 0))).zipIdx.map (fun e => (e.1, e.2 * e.2))

/-- REF: every carrier of the plan with m², its phase in units of π/Nc. -/
def refPhases (lo nc : Nat) : List (Nat × Nat) := (fromN lo nc).zipIdx.map (fun e => (e.1, e.2 * e.2))

end Sys2Proof.Machine
end

