-- ==== Sys2Proof/Machine/Time.lean ====
section
/-! DEFINITION. Clocks, the Rail Time Base, its discipline, and the zero-crossing inputs (Chapter 3). -/

namespace Sys2Proof.Machine

/-! ### The counters -/

/-- RTB moved by a signed count of nanoseconds; the fraction stays, and the TICK grid does not move (R68, R71). -/
def rtbAdd (d : Int) (s : State) : State :=
  { s with time := { s.time with rtb := s.time.rtb + BitVec.ofInt 96 (d * 4294967296),
                                 tickRtb := s.time.tickRtb + BitVec.ofInt 64 d } }

def setZc (n : Nat) (z : Zc) (s : State) : State := { s with time := { s.time with zc := tblSet n z s.time.zc } }

/-- A zero-crossing input in DC mode: its present cycle contains an RTB step (R76). -/
def zcStepped (s : State) : State :=
  (fromN 0 4).foldl (fun s n => if flag s (zcEn n) && rd s (zcMode n) == 3 then setZc n { zcOf s n with stepped := true } s else s) s

/-- A step: RTB moves, RTB_STATUS.STEPPED is set and Onyx has its event (R68). -/
def rtbStep (d : Int) (s : State) : State := eventNow 0x00 4 0 0 (zcStepped (wr rtbStepped 1 (rtbAdd d s)))

/-- A value written to RTB_ADJ replaces any remainder (R67). -/
def adjWrite (ns : Int) (s : State) : State := { s with time := { s.time with slew := ns * 4294967296 } }

/-- The addend in force, which RTB_ADDEND_LO and RTB_ADDEND_HI then hold (Table 3.9). -/
def putAddend (a : BitVec 40) (s : State) : State :=
  wrW (rk 9 0x18) (a.truncate 32) (wrW (rk 9 0x1C) ((a >>> 32).truncate 32) { s with time := { s.time with addend := a } })

/-- An addend written takes effect, clamped to 1,000 ppm either side of nominal (R67). -/
def addendWrite (v : Nat) (s : State) : State :=
  let lo := 4294967296 - 4294967
  let hi := 4294967296 + 4294967
  let c := clamp lo hi v
  let s := putAddend (BitVec.ofNat 40 c) s
  if c = v then s else wr rtbClamped 1 s

/-- `n` periods of CK_AO, in whole µs (R70). -/
def aoUsec (n : Nat) : Nat := n * 1000000 / 32768

/-- The anchor pair is renewed with the addend in force, unless it is held for a loss of CK_REF (R72, R558). -/
def renewAnchor (s : State) : State :=
  if s.time.anchorHeld then s
  else { s with time := { s.time with anchor := some { rtb := rtbNs s, ao := s.time.ao, addend := s.time.addend } } }

/-- RTB restarts from the anchor, or from a seed of TIME_SET; without either it starts at zero (R72, R80, R179). -/
def reseed (s : State) : State :=
  let t := s.time
  let s := match t.seed, t.anchor with
    | some ns, _ => wr rtbSeeded 1 { s with time := { t with rtb := (ns.zeroExtend 96) <<< 32, slew := 0, seed := none,
                                                              addend := (t.anchor.map Anchor.addend).getD t.addend } }
    | none, some a =>
      let el := (t.ao - a.ao).toNat
      -- 30517.578125 ns is 3,906,250/128 ns: the fraction is kept
      let r := a.rtb.toNat * 4294967296 + el * 3906250 * 33554432
      wr rtbSeeded 1 { s with time := { t with rtb := BitVec.ofNat 96 r, addend := a.addend, slew := 0 } }
    | none, none => { s with time := { t with rtb := 0, addend := 0x0100000000, slew := 0 } }
  wr rtbState 0 (putAddend s.time.addend { s with time := { s.time with anchorHeld := false, tickRtb := rtbNs s } })

/-- One microsecond of the clocks, which the block makes when nothing waits (log 11): CLK_USEC, 1,000 cycles of RTB
with any slew, and the part of a CK_AO period. Asleep, and until the end of the core ramp at wake, CLK_USEC is held (R70). -/
def tickUs (s : State) : State :=
  let t := s.time
  let run := t.refRun && decide (s.pwr.hib = .awake ∨ s.pwr.hib = .armed)
  let part := t.aoFrac + 32768
  let t := if t.aoRun then { t with ao := if 1000000 ≤ part then t.ao + 1 else t.ao, aoFrac := part % 1000000 } else t
  if !run then { s with time := t }
  else if !domOn s 1 then { s with time := { t with usec := t.usec + 1 } }
  else
    let lim : Int := (1000 * slewE s : Nat)
    let eat : Int := if 0 ≤ t.slew then min t.slew lim else max t.slew (-lim)
    { s with time := { t with usec := t.usec + 1, rtb := t.rtb + BitVec.ofInt 96 (1000 * (t.addend.toNat : Int) - eat), slew := t.slew - eat,
                              servo := { t.servo with slewed := t.servo.slewed + eat } } }

/-! ### Discipline (R65 to R69) -/

/-- The discipline state changes; entry to LOCKED, HOLDOVER or FREE is an event, which Onyx forwards as a notification (R66). -/
def setRtbState (c : Nat) (s : State) : State :=
  let s := wr rtbState c s
  if c = 2 ∨ c = 3 ∨ c = 4 then notify 2 c 0 (eventNow 0x00 3 c 0 s) else s

/-- RTB_SRC selects source `src`: FREE is entered at once; any other leaves UNSYNCED, and the first update may then step (R66, R68). -/
def srcSelected (src : Nat) (s : State) : State :=
  if src = 0 then (if rd s rtbState = 4 then s else setRtbState 4 s)
  else
    let v := { s.time.servo with lastAt := now s, good := 0, lastOff := none }
    if rd s rtbState = 0 then wr rtbState 1 { s with time := { s.time with servo := { v with fresh := true } } }
    else { s with time := { s.time with servo := v } }

/-- RTB_SRC, which held `was`, has been written with `src`: a source named again is a selection only where the state is UNSYNCED. -/
def srcWritten (was src : Nat) (s : State) : State :=
  if was = src ∧ src ≠ 0 ∧ rd s rtbState ≠ 0 then s else srcSelected src s

def absI (x : Int) : Nat := x.natAbs

/-- The servo, at an update with a measured offset in ns (R66, R67, R68, R80). The interval that a frequency error is measured over is counted
in ns of RTB (log 101). -/
def servoUpdate (off : Int) (s : State) : State :=
  if rd s rtbSrc = 0 ∨ !onyxUp s ∨ !s.time.refRun then s
  else
    let v := s.time.servo
    let st := rd s rtbState
    let thr := rd s rtbLockthr
    let enter := decide (st = 0 ∨ st = 3 ∨ st = 4 ∨ (st = 2 ∧ 4 * thr ≤ absI off))
    let mayStep := enter || (decide (st = 1) && v.fresh)
    let big := decide (rd s rtbStepthr ≠ 0 ∧ rd s rtbStepthr * 1000 < absI off)
    let mark (s : State) (good nInt : Nat) (sum : Rat) : State :=
      { s with time := { s.time with servo := { v with lastAt := now s, lastOff := some off, lastRtb := rtbNs s, good := good,
                                                       nInt := nInt, sumF := sum, slewed := 0, fresh := false } } }
    if mayStep && big && decide (549755813888 ≤ absI off) then setRtbState 4 (mark s 0 0 0)
    else if mayStep && big then
      mark (rtbStep (-off) (wr rtbStepLo (toU 32 (-off)) (wr rtbStepHi (toU 64 (-off) / 4294967296) (wr rtbState 1 s)))) 0 0 0
    else
      let lim : Int := 2147483647
      let s := adjWrite (max (-lim) (min lim off)) s
      let good := (if enter then 0 else v.good) + 1
      let good := if absI off < thr then good else 0
      if enter then mark (wr rtbState 1 s) good 0 0
      else if st = 1 then
        if 16 ≤ good then mark (setRtbState 2 s) good 0 0 else mark s good 0 0
      else
        let dt := (rtbNs s - v.lastRtb).toNat
        let f : Rat := (((off - v.lastOff.getD off) * 4294967296 + v.slewed : Int) : Rat) / (dt : Rat)
        let n := v.nInt + 1
        let sum := v.sumF + f
        if n < 16 then mark s good n sum
        else
          let corr := (sum / 16 + 1 / 2).floor
          mark (addendWrite ((s.time.addend.toNat : Int) - corr).toNat s) good 0 0

/-- DISCIPLINE_UPDATE: an offset measured against PTP or a beacon is applied (R67). -/
def execDisciplineUpdate (offset : Int) (s : State) : Out := .next (servoUpdate offset s)

/-- The offset of a PPS edge from a whole second, folded to ±0.5 s (Table 3.4). -/
def ppsOffset (s : State) (ns : BitVec 64) : Int :=
  let r := (ns.toNat + 1000000000 - rd s ppsDelay) % 1000000000
  if r ≤ 500000000 then (r : Int) else (r : Int) - 1000000000

/-- PPS_EDGE: with PPS selected, a stamped edge of the polarity that RTB_PPSCFG.EDGE names gives the servo its offset (R65). -/
def execPpsEdge (edge : PinEdge) (s : State) : Out :=
  .next (if rd s rtbSrc = 3 ∧ rd s ppsEdge = b2n (!edge.rising) then servoUpdate (ppsOffset s edge.stamp) s else s)

/-- RTB_SOURCE_TIMEOUT: no update for RTB_SRCTO (R66, Table 3.5). -/
def execRtbSourceTimeout (s : State) : Out :=
  .next (if rd s rtbSrc ≠ 0 ∧ (rd s rtbState = 1 ∨ rd s rtbState = 2) ∧
            s.time.servo.lastAt + rd s rtbSrcto * 1000 ≤ now s then
    setRtbState 3 (wr rtbSrcLost 1 { s with time := { s.time with servo := { s.time.servo with holdAt := now s, fresh := false } } })
    else s)

/-- RTB_HOLDOVER_EXPIRY (R69). -/
def execRtbHoldoverExpiry (s : State) : Out :=
  .next (if rd s rtbState = 3 ∧ s.time.servo.holdAt + rd s rtbHoldover * 1000000 ≤ now s then setRtbState 4 s else s)

/-- RTB_CMD_STEP: the value of RTB_STEP is added (R68). -/
def cmdStep (s : State) : State := rtbStep (sx 64 (rd s rtbStepHi * 4294967296 + rd s rtbStepLo)) s

def execRtbCmdStep (s : State) : Out := .next (cmdStep s)

/-- RTB_ADJ_WRITE (R67). -/
def execRtbAdjWrite (value : BitVec 32) (s : State) : Out := .next (adjWrite (sx 32 value.toNat) s)

/-- One microsecond is enough to consume what remains in RTB_ADJ (R67). -/
def slewEnds (s : State) : Bool :=
  decide (s.time.slew ≠ 0 ∧ s.time.slew.natAbs ≤ 1000 * slewE s) && s.time.refRun && domOn s 1 &&
    decide (s.pwr.hib = .awake ∨ s.pwr.hib = .armed)

/-- SLEW_COMPLETE: the microsecond in which the last of the offset is consumed. RTB goes on by its addend less what remained, so it never goes
back (R67). -/
def execSlewComplete (s : State) : Out := .next (if slewEnds s then tickUs s else s)

/-- A write of RTB_ADDEND_HI applies both halves (Table 3.9). -/
def addendHi (hi : Nat) (s : State) : State := addendWrite (hi % 256 * 4294967296 + (rdW s (rk 9 0x18)).toNat) s

/-- RTB_ADDEND_WRITE (R67). -/
def execRtbAddendWrite (hi : BitVec 32) (s : State) : Out := .next (addendHi hi.toNat s)

/-- ANCHOR_RENEWAL: CLK_AO_CNT passes a multiple of 32,768. In hibernate, and while PD_CTRL has no RTB to copy, the anchor is held (R72,
Table 4.6). -/
def execAnchorRenewal (s : State) : Out :=
  .next (if s.time.ao.toNat % 32768 = 0 ∧ domOn s 1 ∧ (s.pwr.hib = .awake ∨ s.pwr.hib = .armed) then renewAnchor s else s)

/-! ### The clock monitors (R56, R57, R558) -/

/-- CK_AO_START: the oscillator's first cycle (R56, R537). -/
def execCkAoStart (s : State) : Out := .next { s with time := { s.time with aoRun := true } }

/-- The CK_REF monitor counts: CK_AO runs and the core ramp is over (R56, R96, R101). -/
def refMonitor (s : State) : Bool := s.time.aoRun && flag s coreEn && decide (rd s (domStat 1) ≠ 0)

/-- The device is asleep or waking: CLK_USEC is held and is made good at the end of the core ramp alone (R70). -/
def hibHeld (s : State) : Bool := decide (s.pwr.hib = .asleep ∨ s.pwr.hib = .leaving)

/-- CK_REF has stopped: RTB and CLK_USEC stop with it. -/
def refStop (s : State) : State :=
  { s with time := { s.time with refRun := false, refLostAo := if s.time.refRun && !hibHeld s then s.time.ao else s.time.refLostAo } }

/-- CK_REF_LOSS: two CK_AO periods without an edge. An armed monitor sets REFLOSS, the anchor is kept, and the device enters SAFE, whether CK_REF
ran at arming or not; one not armed sees nothing of it (R56, R96, R558). -/
def execCkRefLoss (s : State) : Out :=
  .next (if !refMonitor s then refStop s
    else if s.time.refTrip then s
    else
      let s := refStop s
      enterSafe (journal 0x30 0 3 0 0 [] (wr rtbState 0 (wr clkRefloss 1 { s with time := { s.time with refTrip := true, anchorHeld := true } }))))

/-- CK_REF_RETURN: CLK_USEC is advanced by the CK_AO periods gone by, unless hibernate holds it, and RTB resumes (R70, R558). -/
def execCkRefReturn (s : State) : Out :=
  .next (if s.time.refRun then s
    else if hibHeld s then { s with time := { s.time with refRun := true } }
    else { s with time := { s.time with refRun := true, refTrip := false,
                                        usec := s.time.usec + BitVec.ofNat 64 (aoUsec (s.time.ao - s.time.refLostAo).toNat) } })

/-- AUD_FALLBACK: CK_AUD goes over to PLL_AUD and stays there (R57). -/
def execAudFallback (s : State) : Out :=
  .next (if rd s audSrc = 1 ∧ rd s audAuto = 1 ∧ rd s audActive = 1 then
    journal 0x32 0 8 0 0 [] (wr audActive 0 (wr clkAudfb 1 s)) else s)

/-! ### Zero crossings (R73 to R76) -/

/-- The nominal period of a mode, ns (Table 3.6); at 60 Hz 16,666,667 ns, for the 16.667 ms of the table (log 100). -/
def zcNominal (mode : Nat) : Nat := if mode = 0 then 20000000 else if mode = 1 then 16666667 else if mode = 2 then 60000000 else 20000000

/-- Within `pct` % of the nominal period? -/
def zcWithin (nom pct x : Nat) : Bool := decide (nom * (100 - pct) ≤ x * 100 ∧ x * 100 ≤ nom * (100 + pct))

/-- The tracked period: the mean of the last 8 accepted intervals. -/
def zcMean (l : List Nat) : Nat := if l.isEmpty then 0 else l.sum / l.length

/-- A true crossing is taken: interval, tracked period, stamp (R75). -/
def zcTake (n : Nat) (z : Zc) (stamp : BitVec 64) (itv : Nat) (st : Nat) (s : State) : State :=
  let ints := lastN 8 (z.ints ++ [itv])
  let per := zcMean ints
  let nom := zcNominal (rd s (zcMode n))
  let st := if st = 1 ∧ !zcWithin nom 2 per then 2 else st
  wr (zcState n) st (wr (zcSynth n) 0 (wr (zcPeriod n) per
    (setZc n { z with prev := some stamp, ints := ints, last := stamp, synth := false } s)))

/-- A change of level counts as an edge: the new level has held for FILT samples, and the polarity is the one EDGE names (R74). -/
def zcCounts (s : State) (n : Nat) (rising : Bool) (held : Nat) : Bool :=
  decide (rd s (zcFilt n) ≤ held ∧ rd s (zcEdge n) = b2n (!rising))

/-- ZERO_CROSSING: a change of level (R74, R75). What R75 leaves open (log 102):
an edge outside ±2 % in ACQUIRING or LOST is not counted in REJ; the first true crossing after a synthetic one gives the mean the interval
from the synthetic one; STATE stays 3 after MODE leaves DC until four good intervals lock it. -/
def execZeroCrossing (zc : Fin 4) (edge : ZcEdge) (s : State) : Out :=
  let n := zc.val
  let stamp := edge.stamp
  let z := zcOf s n
  let nom := zcNominal (rd s (zcMode n))
  .next (if !flag s (zcEn n) || rd s (zcMode n) == 3 || !zcCounts s n edge.rising edge.held then s
    else if rd s (zcState n) = 1 then
      let pred := z.last.toNat + rd s (zcPeriod n)
      let d := if pred ≤ stamp.toNat then stamp.toNat - pred else pred - stamp.toNat
      if d * 100 ≤ nom then zcTake n z stamp (stamp - z.last).toNat 1 s else bump (zcRej n) (setZc n { z with prev := some stamp } s)
    else match z.prev with
      | none => setZc n { z with prev := some stamp } s
      | some p =>
        let itv := (stamp - p).toNat
        if zcWithin nom 2 itv then
          let g := z.good + 1
          let st := if 4 ≤ g then 1 else rd s (zcState n)
          let z := { z with good := if 4 ≤ g then 0 else g }
          let s := zcTake n z stamp itv st s
          if 4 ≤ g then s else wr (zcState n) st s
        else setZc n { z with prev := some stamp, good := 0 } s)

/-- SYNTHETIC_CROSSING: at the predicted time, or in DC mode where RTB modulo 20 ms is zero (R75, R76). It may be made at the predicted instant
while the window is still open, and a later edge of that window is then rejected (log 102). -/
def execSyntheticCrossing (zc : Fin 4) (s : State) : Out :=
  let n := zc.val
  let z := zcOf s n
  .next (if !flag s (zcEn n) then s
    else if rd s (zcMode n) = 3 then
      let t := (rtbNs s).toNat / 20000000 * 20000000
      wr (zcState n) 3 (wr (zcPeriod n) 20000000 (setZc n { z with last := BitVec.ofNat 64 t, synth := true, flagged := z.stepped, stepped := false } s))
    else if rd s (zcState n) = 1 ∨ rd s (zcState n) = 2 then
      let t := z.last + BitVec.ofNat 64 (rd s (zcPeriod n))
      if t.toNat ≤ (rtbNs s).toNat then
        let s := bump (zcSynth n) (setZc n { z with last := t, synth := true } s)
        if 8 ≤ rd s (zcSynth n) ∧ rd s (zcState n) = 1 then wr (zcState n) 2 (setZc n { zcOf s n with good := 0 } s) else s
      else s
    else s)

/-! ### Commands -/

/-- TIME_SET with FLAGS[0] = 0 does not apply while a source that gives whole time disciplines RTB (R179); the state is looked at again when
the command executes (R175). -/
def timeSetBad (s : State) : Bool := decide ((rd s rtbState = 1 ∨ rd s rtbState = 2) ∧ (rd s rtbSrc = 1 ∨ rd s rtbSrc = 2))

/-- TIME_SET with FLAGS[0] = 0 (R179). -/
def specTimeSet (timeNs : BitVec 64) (flags : BitVec 8) : Spec where
  info := { opcode := 0x0103, idem := .ck, lcls := .c, timeout := some 100000, setup := false }
  par := if flags.toNat / 2 ≠ 0 then some (badParam 8) else none
  st := fun s => if timeSetBad s then some (rej stBadState) else none
  objs := [.device]
  eff := fun s =>
    if timeSetBad s then .done stBadState [] s
    else
    let cur : Int := (rtbNs s).toNat
    let t : Int := if rd s rtbSrc = 3 then (timeNs.toNat / 1000000000 * 1000000000 + (rtbNs s).toNat % 1000000000 : Nat) else timeNs.toNat
    ok (rtbStep (t - cur) s)

def execTimeSet (h : Hdr) (timeNs : BitVec 64) (flags : BitVec 8) (s : State) : Out :=
  .next (scp h (.timeSet h timeNs flags) (specTimeSet timeNs flags) s)

/-- The holder of the discipline source for a SRC and PORT (Table 19.4). -/
def rtbHolder (src port : Nat) : Nat × Nat :=
  if src = 1 then (0x40 + port, port) else if src = 2 then (0x50 + port, port) else (0x00, 0xFFFF)

/-- The claims of a source (R518), which stand already where the same holder has them: taken at acceptance, and held when the command executes
though an RTB_CFG with SRC 0 before it has released them. -/
def rtbClaims (src port : Nat) (s : State) : State :=
  let hd := rtbHolder src port
  if src = 0 then s else if src = 3 then claim 2 5 0 0xFFFF (claim 3 0 hd.1 hd.2 s) else claim 3 0 hd.1 hd.2 s

/-- RTB_CFG (R179, R517, R518). -/
def specRtbCfg (src port : BitVec 8) (srcto : BitVec 16) (holdover stepthr : BitVec 32) (lockthr slewmax : BitVec 16) : Spec where
  info := { opcode := 0x0104, idem := .ck, lcls := .c, timeout := some 100000, setup := false }
  par := firstRej [
    (decide (3 < src.toNat), badParam 0),
    (decide ((src = 1 ∧ 7 < port.toNat) ∨ (src = 2 ∧ 3 < port.toNat) ∨ ((src = 0 ∨ src = 3) ∧ port ≠ 0)), badParam 1),
    (decide (srcto.toNat < 100 ∨ 60000 < srcto.toNat), badParam 2),
    (decide (holdover.toNat < 1 ∨ 86400 < holdover.toNat), badParam 4),
    (decide (1048575 < stepthr.toNat), badParam 8),
    (decide (slewmax.toNat < 1 ∨ 1000 < slewmax.toNat), badParam 14)]
  st := fun s =>
    if src = 0 then none
    else
      let hd := rtbHolder src.toNat port.toNat
      (claimRej s 3 0 hd.1 hd.2).orElse fun _ => if src = 3 then claimRej s 2 5 0 0xFFFF else none
  objs := [.device]
  acc := fun _ s => rtbClaims src.toNat port.toNat s
  eff := fun s =>
    let s := if src = 0 then unclaimIf (fun c => c.cls == 3 || (c.cls == 2 && c.idx == 5 && c.holder == 0)) s
      else rtbClaims src.toNat port.toNat s
    let was := rd s rtbSrc
    let s := wr rtbSrc src.toNat (wr rtbPtpPort (if src = 1 then port.toNat else 0) (wr rtbPlcPort (if src = 2 then port.toNat else 0) s))
    let s := wr rtbSrcto srcto.toNat (wr rtbHoldover holdover.toNat (wr rtbStepthr stepthr.toNat
      (wr rtbLockthr lockthr.toNat (wr rtbSlewmax slewmax.toNat s))))
    ok (srcWritten was src.toNat s)

def execRtbCfg (h : Hdr) (src port : BitVec 8) (srcto : BitVec 16) (holdover stepthr : BitVec 32) (lockthr slewmax : BitVec 16)
    (s : State) : Out :=
  .next (scp h (.rtbCfg h src port srcto holdover stepthr lockthr slewmax) (specRtbCfg src port srcto holdover stepthr lockthr slewmax) s)

end Sys2Proof.Machine
end

