-- ==== Sys2Proof/Machine/PlcOps.lean ====
section
/-! DEFINITION. Shared operations of the powerline link: superframe numbers, slot permission, neighbours, routes and chains,
the emergency slot, joining, conflicts, and leaving service (R377 to R404). -/

namespace Sys2Proof.Machine

/-! ### Superframe numbers (R354, R381, R383) -/

def plcNom (s : State) (n : Nat) : Nat := zcNominal (rd s (zcMode n))

/-- K. -/
def plcKk (s : State) (n : Nat) : Nat := rd s (plcK n) + 1

/-- N_MIN = ⌊K × 0.97 × P_nom / 750 µs⌋. -/
def nMin (s : State) (n : Nat) : Nat := plcKk s n * 97 * plcNom s n / 75000000

/-- N_SF = ⌊K × (P − 0.01 P_nom) / 750 µs⌋, P the tracked period, or P_nom in DC mode. -/
def nSf (s : State) (n : Nat) : Nat :=
  let p := if rd s (zcMode n) = 3 then plcNom s n else rd s (zcPeriod n)
  plcKk s n * (100 * p - plcNom s n) / 75000000

/-- NB = ⌊1.02 × K × P_nom / 20 ms⌋ + 1. -/
def plcNb (s : State) (n : Nat) : Nat := plcKk s n * 102 * plcNom s n / 2000000000 + 1

def modPlc (n : Nat) (g : PlcPort → PlcPort) (s : State) : State := setPlc n (g (plcP s n)) s

def sfno (s : State) (n : Nat) : Nat := rd s (plcSfno n)

/-- Own node address. -/
def plcMe (s : State) (n : Nat) : Nat := rd s (plcNode n)

/-- Coordinating, or master. -/
def plcCoord (s : State) (n : Nat) : Bool := rd s (plcState n) == 5

/-- The network the port belongs to. -/
def plcMyNet (s : State) (n : Nat) : Nat := if plcCoord s n then rd s (plcNetid n) else (plcP s n).seek

/-! ### Units -/

/-- Queue a management message with its backoff draw (R388, R390). -/
def mgmt (n final : Nat) (body : List Byte) (s : State) : State :=
  let v := plcP s n
  let u := { ctlUnit 5 final body s with wait := drawWait s n }
  setPlc n { v with txq := v.txq ++ [u] } (tookFree s)

/-- A management message whose like (same MTYPE) is not queued already. -/
def mgmtOnce (n final : Nat) (body : List Byte) (s : State) : State :=
  if (plcP s n).txq.any (fun u => u.ft == 5 && u.body.take 1 == body.take 1) then s else mgmt n final body s

/-! ### Neighbours and link cost (R391, R392) -/

def nbrInit : PNbr := { heardAt := 0, margin := 0, sent := [], tmi := 0, hops := 0, bcost := none, bfrom := 0 }

/-- Something is received from node `j`: the SNR measured on its REF symbols, and the richest map decoded from it, are free (log 2). -/
def hear (n j : Nat) (s : State) : State :=
  if j = 0 ∨ j = 0xFFF then s
  else
    let v := plcP s n
    let b := tblGet v.nbrs j nbrInit
    let m := sx 8 (Config.freeNat s.free)
    let d := Config.freeNat (s.free + 1) % 16
    setPlc n { v with nbrs := tblSet j { b with heardAt := sfno s n, margin := m, dec := d } v.nbrs } (tookFree (tookFree s))

/-- cost = 1 + A + B. -/
def linkCost (b : PNbr) : Nat :=
  let short : Nat := (24 - b.margin).toNat
  let t := b.sent.length
  let r := (b.sent.filter (· = true)).length
  1 + min 12 ((short + 1) / 2) + (if t = 0 then 0 else 16 * r / t)

/-- Links that routes may use: from, to, cost; as this port measures them and as the nodes report them (R392, R393, R395). -/
def linksOf (s : State) (n : Nat) : List (Nat × Nat × Nat) :=
  let v := plcP s n
  let mine := v.nbrs.map (fun e => (plcMe s n, e.1, linkCost e.2))
  let theirs := v.nodes.flatMap (fun e => e.2.nbrs.map (fun x => (e.1, x.node.toNat, x.cost.toNat)))
  (mine ++ theirs).filter (fun l => decide (l.2.2 ≤ rd s (plcCostmax n)))

/-- Cost, hops, next hop: the lesser in this order (R393). -/
def lessRoute (a b : Nat × Nat × Nat) : Bool :=
  decide (a.1 < b.1) || (a.1 == b.1 && (decide (a.2.1 < b.2.1) || (a.2.1 == b.2.1 && decide (a.2.2 < b.2.2))))

/-- One round over every link. -/
def relax (links : List (Nat × Nat × Nat)) (t : Tbl (Nat × Nat × Nat)) : Tbl (Nat × Nat × Nat) :=
  links.foldl (fun acc l => match tblFind l.2.1 t with
    | some (c, h, _) =>
      let x := (c + l.2.2, h + 1, l.2.1)
      match tblFind l.1 acc with
      | some y => if lessRoute x y then tblSet l.1 x acc else acc
      | none => tblSet l.1 x acc
    | none => acc) t

/-- Least-cost routes to `d` of at most `h` hops. -/
def routesTo (links : List (Nat × Nat × Nat)) (d : Nat) : Nat → Tbl (Nat × Nat × Nat)
  | 0 => [(d, (0, 0, d))]
  | h + 1 => relax links (routesTo links d h)

/-- Every next hop: node × 4096 + destination. -/
def allRoutesOf (s : State) (n : Nat) : Tbl Nat :=
  let ns := plcMe s n :: (plcP s n).nodes.map (·.1)
  let links := (linksOf s n).filter (fun l => ns.contains l.1 && ns.contains l.2.1)
  ns.foldl (fun t d => (routesTo links d 8).foldl (fun t e => if e.1 = d then t else tblSet (e.1 * 4096 + d) e.2.2.2 t) t) []

/-- The routes of one node: destination and next hop. -/
def routesFrom (t : Tbl Nat) (node : Nat) : Tbl Nat := (t.filter (fun e => decide (e.1 / 4096 = node))).map (fun e => (e.1 % 4096, e.2))

/-- The coordinator computes the routes anew, and ROUTE_SET goes to each node whose next hops change (R393). -/
def recompute (n : Nat) (s : State) : State :=
  let v := plcP s n
  let t := allRoutesOf s n
  let s := setPlc n { v with allRoutes := t, routes := routesFrom t (plcMe s n) } s
  v.nodes.foldl (fun s e =>
    let r := routesFrom t e.1
    if r = routesFrom v.allRoutes e.1 then s
    else mgmt n e.1 ([0x06, BitVec.ofNat 8 r.length] ++ r.flatMap (fun x => le 2 x.1 ++ le 2 x.2)) s) s

/-- The relays of the route from `a` to `b`; none without a route. -/
def relaysOf (t : Tbl Nat) (b : Nat) : Nat → Nat → Option (List Nat)
  | 0, _ => none
  | k + 1, a => match tblFind (a * 4096 + b) t with
    | some x => if x = b then some [] else (relaysOf t b k x).map (x :: ·)
    | none => none

/-! ### Relay chains (R395) -/

/-- Every chain of at most `k` relays from `cur` to `dst`, with its cost. -/
def chainsFrom (links : List (Nat × Nat × Nat)) (dst : Nat) : Nat → Nat → List Nat → List (List Nat × Nat)
  | 0, cur, _ => (links.filter (fun l => l.1 == cur && l.2.1 == dst)).map (fun l => ([], l.2.2))
  | k + 1, cur, seen =>
    (links.filter (fun l => l.1 == cur && l.2.1 == dst)).map (fun l => ([], l.2.2)) ++
      (links.filter (fun l => l.1 == cur && l.2.1 != dst && !seen.contains l.2.1)).flatMap (fun l =>
        (chainsFrom links dst k l.2.1 (l.2.1 :: seen)).map (fun c => (l.2.1 :: c.1, c.2 + l.2.2)))

/-- Addresses in order. -/
def lessAddrs : List Nat → List Nat → Bool
  | a :: x, b :: y => decide (a < b) || (a == b && lessAddrs x y)
  | _, _ => false

/-- The master's choice: least cost, then fewer relays, then lower addresses; chains excluded left out, and a chain fixed by
PLC_ROUTE alone where there is one. -/
def bestChain (s : State) (n slave : Nat) (excl : List (List Nat × Nat)) : Option (List Nat) :=
  match tblFind slave (plcP s n).fixed with
  | some c => if excl.any (fun x => x.1 = c) then none else some c
  | none =>
    let cs := (chainsFrom (linksOf s n) slave 4 (plcMe s n) [plcMe s n]).filter (fun c => !(excl.any (fun x => x.1 = c.1)))
    (cs.foldl (fun b c => match b with
      | none => some c
      | some o =>
        if c.2 < o.2 ∨ (c.2 = o.2 ∧ (c.1.length < o.1.length ∨ (c.1.length = o.1.length ∧ lessAddrs c.1 o.1))) then some c else some o)
      (none : Option (List Nat × Nat))).map (·.1)

/-! ### Paths over the powerline (R400, R402) -/

/-- The powerline path of a flow is lost: back to Ethernet where that path is in service, else its messages are kept. -/
def plcPathLost (fl : Nat) (s : State) : State :=
  match flow? s fl with
  | none => s
  | some f =>
    let s := losePath fl s
    if (egressPorts s f.egress).any (fun p => decide (ethSt s p = 1)) then resume fl (modFlow fl (fun f => { f with fallen := none }) s) else s

/-- Every assured flow that has fallen over to port `n` loses its path. -/
def plcAllLost (n : Nat) (s : State) : State :=
  (s.net.flows.filter (fun e => fAssured e.2 && decide (e.2.fallen = some n))).foldl (fun s e => plcPathLost e.1 s) s

/-- The port is JOINED or coordinating: kept messages of its flows go out. -/
def plcUp (n : Nat) (s : State) : State :=
  (s.net.flows.filter (fun e => decide (e.2.fallen = some n))).foldl (fun s e => resume e.1 s) s

/-! ### Emergency slot (R396) -/

/-- The grant ends. -/
def endGrant (n : Nat) (s : State) : State :=
  wr (plcEmgrant n) 0 (unclaim 5 n (modPlc n (fun v => { v with emown := 0, empeer := 0, erelay := [], emIdle := 0 }) s))

/-- The coordinator or master grants the slot, while it is free, to the first request whose route has at most ENRMAX relays. -/
def tryGrant (n : Nat) (s : State) : State :=
  let v := plcP s n
  let reqs := v.emReqs ++ (match v.emMine with | some r => [r] | none => [])
  if !plcCoord s n ∨ v.emown ≠ 0 ∨ v.resignLeft.isSome then s
  else
    let ok : EmReq → Option (EmReq × List Nat) := fun r =>
      match relaysOf v.allRoutes r.peer 8 r.node with
      | some l => if l.length ≤ rd s (plcEnrmax n) then some (r, l) else none
      | none => none
    match reqs.findSome? ok with
    | none => s
    | some (r, l) =>
      let s := setPlc n { v with emown := r.node, empeer := r.peer, erelay := l, emIdle := 0, emReqs := v.emReqs.filter (· ≠ r) } s
      wr (plcEmgrant n) (b2n (r.node = plcMe s n)) (claim 5 n (0x50 + n) r.node s)

/-! ### Slots (R378, R382) -/

/-- The slot kinds a frame type may be sent in (Table 14.2), by KIND code of R382; 9 is the polling region. -/
def ftSlots (ft : Nat) : List Nat :=
  match ft with | 0 => [0] | 1 => [1] | 2 => [2] | 3 => [3, 4] | 4 => [3, 5, 4] | 5 => [5, 3, 4] | 6 => [4, 3] | 7 => [9] | 8 => [9] | _ => []

def slotCode (k : SlotKind) : Nat :=
  match k with | .beacon => 0 | .emergency => 1 | .voice => 2 | .assured => 3 | .contention => 4 | .management => 5 | .polling => 9 | .idle => 10

/-- Nodes named for the emergency slot. -/
def emNamed (v : PlcPort) (a : Nat) : Bool := a != 0 && (a == v.emown || a == v.empeer || v.erelay.contains a)

/-! ### What is received: the checks every frame passes (R379, R406) -/

/-- The answer to a received frame: none it is dropped or not for this node; true it is this node's; false it is to be relayed. A
JOIN_REQ may come from a node that has not joined, and each hop forwards it itself (R389, R406). -/
def linkInOf (joinReq : Bool) (n ft : Nat) (fr : PlcFrame) (s : State) : Option Bool × State :=
  let h := fr.hdr
  let v := plcP s n
  let me := plcMe s n
  let tx := h.txa.toNat
  let viol (code k : Nat) (s : State) : State := plcViol n code 1 h.lchan.toNat h.netid.toNat tx (bump (plcCnt n k) s)
  if !plcOn s n ∨ rd s (plcState n) = 0 then (none, s)
  else if fr.bad then (none, bump (plcCnt n 3) s)
  else if h.netid.toNat ≠ plcMyNet s n then (none, bump (plcCnt n 9) s)
  else
    let s := hear n tx s
    if h.rxa.toNat ≠ me ∧ h.rxa ≠ 0xFFF then (none, s)
    else
      let k := slotCode fr.slot
      let polled := flag s (plcPolled n)
      let kindOk := if fr.enclosed then decide (2 ≤ ft ∧ ft ≤ 6) && polled else
        (ftSlots ft).contains k && (decide (ft < 7) || polled)
      let whoOk := if fr.enclosed ∨ k = 4 ∨ k = 9 then true else if k = 1 then emNamed v tx else h.txa == fr.owner
      let known (a : Nat) : Bool :=
        if plcCoord s n then a == me || (tblFind a v.nodes).isSome else a != 0 && a != 0xFFF
      if !kindOk || !whoOk then (none, viol 0x0202 10 s)
      else if !(known tx && known h.orig.toNat) && !joinReq then (none, viol 0x0203 11 s)
      else if h.final.toNat = me ∨ h.final = 0xFFF ∨ joinReq then (some true, s)
      else if h.ttl = 0 ∨ (!polled && (tblFind h.final.toNat v.routes).isNone) then (none, viol 0x0204 12 s)
      else (some false, s)

def linkIn (n ft : Nat) (fr : PlcFrame) (s : State) : Option Bool × State := linkInOf false n ft fr s

/-- A frame to be relayed is queued again as it came, with one hop less; over a chain its next hop is fixed (R393, R394, R397). -/
def relayVia (hop : Option Nat) (n ft : Nat) (fr : PlcFrame) (body : List Byte) (s : State) : State :=
  let h := fr.hdr
  let u : PUnit := { ft := ft, flow := none, voice := none, at' := now s, final := some h.final.toNat, prio := h.prio.toNat,
                     assured := h.assured, lchan := h.lchan.toNat, seq := h.seq, segidx := 0, last := h.last, body := body, settle := h.settle,
                     err := h.err, orig := some h.orig.toNat, hop := hop, ttl := h.ttl.toNat - 1, tries := 0, wait := drawWait s n }
  plcPut n u (tookFree s)

def relayUnit (n ft : Nat) (fr : PlcFrame) (body : List Byte) (s : State) : State := relayVia none n ft fr body s

/-- A management message: a body that does not fit its MTYPE is a violation (R406). -/
def mgmtIn (n : Nat) (fr : PlcFrame) (good : Bool) (body : List Byte) (act : State → State) (s : State) : State :=
  match linkInOf (body.take 1 == [0x01]) n 5 fr s with
  | (none, s) => s
  | (some mine, s) =>
    if !good then plcViol n 0x0206 1 0xFFFF fr.hdr.netid.toNat fr.hdr.txa.toNat (bump (plcCnt n 14) s)
    else if mine then act s
    else relayUnit n 5 fr body s

/-! ### Joining (R387, R389, R391) -/

/-- The parent: least COST plus link cost, then fewer HOPS, then the lower address. -/
def pickParent (v : PlcPort) : Option Nat :=
  (v.nbrs.foldl (fun b e => match e.2.bcost with
    | none => b
    | some c =>
      let x := (c + linkCost e.2, e.2.hops, e.1)
      match b with
      | none => some x
      | some y => if lessRoute x y then some x else some y) (none : Option (Nat × Nat × Nat))).map (fun x => x.2.2)

/-- This part's UID. -/
def myUid (s : State) : Nat := s.boot.fuses.uid.toNat

/-- JOIN_REQ to the parent, with its backoff (R389, R390). -/
def sendJoin (n : Nat) (s : State) : State :=
  let v := plcP s n
  mgmtOnce n 0xFFF ([0x01] ++ le 8 (myUid s) ++ le 2 v.want) (modPlc n (fun v => { v with join := .asked 4 }) s)

/-- The node is JOINED: it holds JOIN_ACC and the map of the beacon's SMGEN. -/
def joinDone (n : Nat) (s : State) : State :=
  let v := plcP s n
  if v.join = .accepted ∧ v.map.isSome then
    let s := wr (plcState n) 3 (setPlc n { v with join := .no } s)
    let r := le 2 (plcMe s n) ++ le 2 (v.coord.getD 0) ++ le 1 (rd s (plcHops n))
    plcUp n (finishWait (.plcJoin n) stOk r s)
  else s

/-- Start listening for a network (R389). -/
def startJoin (n net want : Nat) (s : State) : State :=
  modPlc n (fun v => { v with seek := net, want := want, join := .listen 3, cw := 4, parent := none, nbrs := v.nbrs.map (fun e => (e.1, { e.2 with bcost := none })) }) s

/-! ### Slot maps (R382 to R384) -/

def parseEntry (b : List Byte) : MapEntry :=
  { start := leAt b 0 2, len := leAt b 2 2, kind := leAt b 4 1, mode := leAt b 5 1 % 8, tmi := leAt b 5 1 / 16, owner := leAt b 6 2 }

def parseEntries : Nat → List Byte → List MapEntry
  | 0, _ => []
  | k + 1, b => parseEntry b :: parseEntries k (b.drop 8)

/-- The map of an 8-byte header and its entries. -/
def parseMap (b : List Byte) : SMap := { vmode := leAt b 1 1, enrmax := leAt b 2 1, entries := parseEntries (leAt b 0 1) (b.drop 8) }

/-- The bytes of a map, as SLOTMAP messages carry them. -/
def mapBytes (m : SMap) : List Byte :=
  le 1 m.entries.length ++ le 1 m.vmode ++ le 1 m.enrmax ++ le 5 0 ++
    m.entries.flatMap (fun e => le 2 e.start ++ le 2 e.len ++ le 1 e.kind ++ le 1 (e.mode + 16 * e.tmi) ++ le 2 e.owner)

/-- A map comes into force. -/
def installMap (n gen : Nat) (m : SMap) (s : State) : State :=
  let s := modPlc n (fun v => { v with smgen := gen, map := some m, next := none }) s
  wr (plcEnrmax n) m.enrmax (wr (plcVmode n) m.vmode s)

/-! ### Conflicts between coordinators (R404) -/

/-- A conflict with the network `net` whose coordinator is `node`: the lower NETID, or for equal ones the lower address, goes on. -/
def conflictWith (n net node : Nat) (s : State) : State :=
  let mine := rd s (plcNetid n)
  let s := plcViol n 0x020A 6 0xFFFF net node (wr (plcConflict n) 1 (bump (plcCnt n 18) s))
  if mine < net ∨ (mine = net ∧ plcMe s n ≤ node) ∨ (plcP s n).resignLeft.isSome then s
  else
    let s := endGrant n s
    let s := modPlc n (fun v => { v with resignLeft := some 4, seek := net, emReqs := [] }) s
    mgmt n 0xFFF ([0x0B] ++ le 2 net) s

/-- A beacon of another network, or of a second coordinator, heard or reported: three superframes on end declare a conflict. -/
def foreignHeard (n net node : Nat) (s : State) : State :=
  modPlc n (fun v =>
    if v.foreign.any (fun f => f.1 == net) then { v with foreign := v.foreign.map (fun f => if f.1 = net then (net, node, f.2.2.1, true) else f) }
    else { v with foreign := v.foreign ++ [(net, node, 0, true)] }) s

/-! ### Into and out of service (R348, R349, R396, R495, R497) -/

/-- A lease from the pool for the node's slot ownerships: RCLASS 5. -/
def plcLease (n : Nat) (s : State) : State :=
  match leasePool s with
  | some m => modPlc n (fun v => { v with lease := some m }) (leaseGrant m (0x50 + n) 5 n 100000 s)
  | none => s

/-- Jasper renews the leases of its ports (R219, R396). -/
def jasperRenew (s : State) : State :=
  s.plc.ports.foldl (fun s e => match e.2.lease with
    | some m =>
      let l := lease s m
      if (l.state = 1 ∨ l.state = 2) ∧ l.owner.toNat = 0x50 + e.1 then
        setLease m { l with state := 1, deadline := BitVec.ofNat 44 (now s + l.duration.toNat) } s
      else s
    | none => s) s

/-- The port comes into service after its calibration (R497). -/
def plcInService (n : Nat) (rxdly txdly : BitVec 16) (s : State) : State :=
  let s := jasperSlot n true (wr (plcRxdly n) rxdly.toNat (wr (plcTxdly n) txdly.toNat (wr (plcEn n) 1 s)))
  let s := plcLease n (modPlc n (fun v => { v with calibrating := false, searched := sampleNow s, searchedAt := sampleNow s }) s)
  if flag s (plcRole n) then plcUp n (wr (plcState n) 5 s)
  else startJoin n (rd s (plcNetid n)) (rd s (plcNode n)) (wr (plcState n) 1 s)

/-- The port goes out of service: voice queued is lost as PLC_LOSS, assured paths are lost, the grant ends, and what the unit holds is
released (R346, R400, R495, Table 18.2). -/
def plcOut (n : Nat) (s : State) : State :=
  let v := plcP s n
  let units := v.txq ++ (match v.sending with | some t => t.units | none => [])
  let s := units.foldl (fun s u => if u.voice.isSome then voiceLost 6 0 u.voice none s else s) s
  let s := if v.emown ≠ 0 then endGrant n s else s
  let s := jasperSlot n false s
  let s := match v.lease with | some m => leaseRevoke m s | none => s
  let s := setPlc n { plcInit with conf := v.conf, cw := 4, fixed := v.fixed, smgen := v.smgen } s
  let s := wr (plcEn n) 0 (wr (plcState n) 0 (wr (plcHops n) 0 (wr (plcEmgrant n) 0 s)))
  plcAllLost n (unclaimIf (fun c => c.holder == 0x50 + n) s)

end Sys2Proof.Machine
end

