-- ==== Sys2Proof/Machine/PlcLink.lean ====
section
/-! DEFINITION. The powerline family of commands (R184), superframes and frames sent (R354, R355, R380 to R386), the link's
frames received (R386 to R404), and its timers (R405). -/

namespace Sys2Proof.Machine

def plcInfo (op tmo : Nat) : OpInfo := { opcode := op, idem := .ck, lcls := .c, timeout := some tmo, setup := false }

/-! ### Commands: ports -/

/-- The ball group a ZC input of a port shares (Table 19.4): ZC2 and ZC3. -/
def zcGroup (n : Nat) (zcmode : Nat) : Option Nat := if zcmode = 3 then none else if n = 2 then some 4 else if n = 3 then some 5 else none

/-- PLC_PORT_CFG (R351, R354, R376). -/
def specPlcPortCfg (port linkmode role : BitVec 8) (netid node : BitVec 16) (bandplan : BitVec 8) (cstart cend : BitVec 16)
    (zcmode k : BitVec 8) (phase : BitVec 16) (txlevel : BitVec 8) : Spec where
  info := plcInfo 0x0401 1000000
  par := firstRej [(decide (3 < port.toNat), badParam 0), (decide (1 < linkmode.toNat), badParam 1), (decide (1 < role.toNat), badParam 2),
    (decide (4094 < node.toNat), badParam 5), (decide (4 < bandplan.toNat), badParam 7),
    (if bandplan = 4 then decide (cstart.toNat < 6 ∨ 317 < cstart.toNat) else decide (cstart ≠ 0), badParam 8),
    (if bandplan = 4 then decide (cend.toNat < cstart.toNat + 15 ∨ 332 < cend.toNat) else decide (cend ≠ 0), badParam 10),
    (decide (3 < zcmode.toNat), badParam 12), (decide (k = 0 ∨ 16 < k.toNat), badParam 13),
    (decide (k.toNat * zcNominal zcmode.toNat ≤ phase.toNat * 1000), badParam 14), (decide (31 < txlevel.toNat), badParam 16)]
  st := fun s => orRej (domRej s 5) (if flag s (plcEn port.toNat) ∨ (plcP s port.toNat).calibrating then some (rej stBadState)
    else match zcGroup port.toNat zcmode.toNat with
      | some g => claimRej s 2 g (0x50 + port.toNat) port.toNat
      | none => none)
  objs := [.plc port.toNat]
  acc := fun _ s =>
    let n := port.toNat
    let s := unclaimIf (fun c => c.cls == 2 && c.holder == 0x50 + n) s
    match zcGroup n zcmode.toNat with | some g => claim 2 g (0x50 + n) n s | none => s
  eff := fun s =>
    let n := port.toNat
    if flag s (plcEn n) then .done stBadState [] s
    else
      let s := wr (plcPolled n) linkmode.toNat (wr (plcRole n) role.toNat (wr (plcNetid n) netid.toNat (wr (plcNode n) node.toNat s)))
      let s := wr (plcBand n) bandplan.toNat (wr (plcCstart n) cstart.toNat (wr (plcCend n) cend.toNat s))
      let s := wr (zcMode n) zcmode.toNat (wr (zcEn n) 1 s)
      let s := wr (plcK n) (k.toNat - 1) (wr (plcPhase n) phase.toNat (wr (plcTxlevel n) txlevel.toNat s))
      ok (modPlc n (fun v => { v with conf := true }) s)

def execPlcPortCfg (h : Hdr) (port linkmode role : BitVec 8) (netid node : BitVec 16) (bandplan : BitVec 8) (cstart cend : BitVec 16)
    (zcmode k : BitVec 8) (phase : BitVec 16) (txlevel : BitVec 8) (s : State) : Out :=
  .next (scp h (.plcPortCfg h port linkmode role netid node bandplan cstart cend zcmode k phase txlevel)
    (specPlcPortCfg port linkmode role netid node bandplan cstart cend zcmode k phase txlevel) s)

/-- PLC_PORT_STATE action 0 (R495). -/
def specPlcPortOutOfService (port : BitVec 8) : Spec where
  info := plcInfo 0x0402 5000000
  par := firstRej [(decide (3 < port.toNat), badParam 0)]
  st := fun s => domRej s 5
  objs := [.plc port.toNat]
  eff := fun s => ok (plcOut port.toNat s)

def execPlcPortOutOfService (h : Hdr) (port : BitVec 8) (s : State) : Out :=
  .next (scp h (.plcPortOutOfService h port) (specPlcPortOutOfService port) s)

/-- PLC_PORT_STATE action 1 (R348, R497): the claims at acceptance, then calibration. -/
def specPlcPortInService (port : BitVec 8) : Spec where
  info := plcInfo 0x0402 5000000
  par := firstRej [(decide (3 < port.toNat), badParam 0)]
  st := fun s =>
    let n := port.toNat
    orRej (domRej s 5) (orRej (if !(plcP s n).conf then some (rej stNotProvisioned)
      else if flag s (plcEn n) ∨ (plcP s n).calibrating then some (rej stBadState) else none)
      (orRej (claimRej s 1 (60 + n) (0x50 + n) n) (if (leasePool s).isNone then some (rej stQueueFull) else none)))
  objs := [.plc port.toNat]
  acc := fun _ s => claim 11 (0x8000 + port.toNat) (0x50 + port.toNat) port.toNat (claim 1 (60 + port.toNat) (0x50 + port.toNat) port.toNat s)
  eff := fun s =>
    let n := port.toNat
    if flag s (plcEn n) then .done stBadState [] s else .wait (.plcCal n) (modPlc n (fun v => { v with calibrating := true }) s)

def execPlcPortInService (h : Hdr) (port : BitVec 8) (s : State) : Out :=
  .next (scp h (.plcPortInService h port) (specPlcPortInService port) s)

/-- PLC_CALIBRATION_DONE (R349): a failed check leaves the port out of service, and the command ends with FAULTED. -/
def execPlcCalibrationDone (port : Fin 4) (v : Verdict) (rxdly txdly : BitVec 16) (s : State) : Out :=
  let n := port.val
  .next (if !(plcP s n).calibrating then s
    else match v with
      | .pass => finishWait (.plcCal n) stOk [] (undegrade 0x51 n (plcInService n rxdly txdly s))
      | .fail c _ =>
        let s := plcOut n (modPlc n (fun v => { v with calibrating := false }) s)
        finishWait (.plcCal n) stFaulted [] (degrade 0x51 n (journal 0x51 (0x50 + n) 4 n c.toNat [] s)))

/-- DRIVER_OVER_TEMPERATURE: the driver is off, the port out of service, and an event goes to Onyx (R346, Table 18.2). -/
def execDriverOverTemperature (port : Fin 4) (s : State) : Out :=
  let n := port.val
  .next (if flag s (plcEn n) then degrade 0x51 n (journal 0x51 (0x50 + n) 4 n 0 [] (eventNow (0x50 + n) 9 n 0 (plcOut n s))) else s)

/-! ### Commands: slot map (R382 to R384) -/

/-- The first header field at fault: its offset in the parameters. -/
def mapHdrBad (map : List Byte) : Option Nat :=
  if leAt map 0 1 < 2 ∨ 64 < leAt map 0 1 then some 1 else if 1 < leAt map 1 1 then some 2 else if 4 < leAt map 2 1 then some 3
  else if leAt map 3 5 ≠ 0 then some 4 else none

/-- The first entry field at fault by its own range: its offset. -/
def plcEntryBad (map : List Byte) (k : Nat) : Option Nat :=
  let o := 8 + 8 * k
  let kind := leAt map (o + 4) 1
  let mode := leAt map (o + 5) 1
  let owner := leAt map (o + 6) 2
  if 5 < kind then some (o + 5)
  else if 2 < mode % 8 ∨ mode / 8 % 2 = 1 ∨ (mode % 8 ≠ 0 ∧ mode / 16 ≠ 0) then some (o + 6)
  else if 4094 < owner ∨ (kind = 4 ∧ owner ≠ 0) then some (o + 7)
  else none

/-- Conditions 1 to 7 of R383 for entry `k` of a map. -/
def entryFails (s : State) (n : Nat) (m : SMap) (k : Nat) (e : MapEntry) (prevEnd : Nat) : Bool :=
  let f (b : Nat) : Option Nat := portFrameLen s n e.mode e.tmi b
  let vb := 20 + 14 * plcNb s n
  decide (e.start < prevEnd) || decide (nMin s n < e.start + e.len) ||
    (k == 0 && !(e.kind == 0 && e.start == 0 && e.owner == plcMe s n && (e.mode != 0 || e.tmi == 0) &&
      (match f 50 with | some x => decide (x ≤ e.len) | none => false))) ||
    (k == 1 && !(e.kind == 1 && e.start == prevEnd &&
      (match f vb with | some x => decide (2 * (m.enrmax + 1) * x ≤ e.len) | none => false))) ||
    (decide (2 ≤ k) && e.kind == 1) ||
    (e.kind == 2 && !(match f vb with | some x => decide (x ≤ e.len) | none => false)) ||
    (e.kind == 0 && decide (8 ≤ ((m.entries.take k).filter (fun x => x.kind = 0)).length)) ||
    (flag s (plcPolled n) && !([0, 1, 4].contains e.kind)) ||
    (e.mode == 0 && (mapCodes s n e.tmi).isNone)

/-- The first entry that fails. -/
def mapFails (s : State) (n : Nat) (m : SMap) : Nat → Nat → List MapEntry → Option Nat
  | _, _, [] => none
  | k, pe, e :: t => if entryFails s n m k e pe then some k else mapFails s n m (k + 1) (e.start + e.len) t

/-- The emergency slot of a map. -/
def emSlot (m : SMap) : Option (Nat × Nat) := (m.entries.find? (fun e => e.kind = 1)).map (fun e => (e.start, e.len))

/-- PLC_SLOTMAP: in effect, and FINAL, from the second superframe after acceptance. -/
def specPlcSlotmap (h : Hdr) (port : BitVec 8) (map : List Byte) : Spec where
  info := plcInfo 0x0403 2000000
  par := orRej (firstRej [(decide (3 < port.toNat), badParam 0), (!h.indirect && !map.isEmpty, badParam 1),
      (decide (map.length < 8), badLength (1 + map.length))])
    (orRej ((mapHdrBad map).map badParam)
      (orRej (firstRej [(decide (map.length < 8 + 8 * leAt map 0 1), badLength (1 + map.length)),
          (decide (8 + 8 * leAt map 0 1 < map.length), badLength (9 + 8 * leAt map 0 1))])
        (((fromN 0 (leAt map 0 1)).findSome? (plcEntryBad map)).map badParam)))
  st := fun s =>
    let n := port.toNat
    let m := parseMap map
    orRej (domRej s 5) (if !plcCoord s n then some (rej stBadState)
      else match mapFails s n m 0 0 m.entries with
        | some k => some (badParam (9 + 8 * k))
        | none => match claimOf s 5 n, (plcP s n).map with
          | some c, some o => if emSlot o ≠ emSlot m then some (conflict s c) else none
          | _, _ => none)
  objs := [.plc port.toNat]
  eff := fun s =>
    let n := port.toNat
    if !plcCoord s n then .done stBadState [] s
    else
      let v := plcP s n
      .wait (.plcMap n) (setPlc n { v with next := some ((v.smgen + 1) % 256, sfno s n + 2, parseMap map), mapCasts := 2 } s)

def execPlcSlotmap (h : Hdr) (port : BitVec 8) (map : List Byte) (s : State) : Out :=
  .next (scp h (.plcSlotmap h port map) (specPlcSlotmap h port map) s)

/-! ### Commands: network -/

/-- PLC_JOIN (R389). -/
def specPlcJoin (h : Hdr) (port : BitVec 8) (netid node : BitVec 16) : Spec where
  info := plcInfo 0x0404 10000000
  par := firstRej [(decide (3 < port.toNat), badParam 0), (decide (4094 < node.toNat), badParam 3)]
  st := fun s => orRej (domRej s 5) (if rd s (plcState port.toNat) = 0 ∨ flag s (plcRole port.toNat) then some (rej stBadState) else none)
  objs := [.plc port.toNat]
  eff := fun s =>
    let n := port.toNat
    if rd s (plcState n) = 0 ∨ flag s (plcRole n) then .done stBadState [] s
    else
      let v := plcP s n
      let back := [rd s (plcNetid n), v.seek, v.want, rd s (plcState n), v.parent.getD 0xFFFF, v.coord.getD 0xFFFF, b2n (v.join = .no),
        rd s (plcNode n), rd s (plcHops n)]
      let s := match meCmd h s with | some me => setCmd { me with early := back } s | none => s
      .wait (.plcJoin n) (startJoin n netid.toNat node.toNat (wr (plcNetid n) netid.toNat (wr (plcState n) 1 s)))

def execPlcJoin (h : Hdr) (port : BitVec 8) (netid node : BitVec 16) (s : State) : Out :=
  .next (scp h (.plcJoin h port netid node) (specPlcJoin h port netid node) s)

/-- The node has left: it listens again, without a network. -/
def plcLeft (n : Nat) (s : State) : State :=
  plcAllLost n (wr (plcState n) 1 (modPlc n (fun v => { v with join := .no, parent := none, map := none, routes := [] }) s))

/-- PLC_LEAVE (R391): complete when LEAVE has been sent. -/
def specPlcLeave (port : BitVec 8) : Spec where
  info := plcInfo 0x0405 2000000
  par := firstRej [(decide (3 < port.toNat), badParam 0)]
  st := fun s => orRej (domRej s 5) (if rd s (plcState port.toNat) = 0 ∨ plcCoord s port.toNat then some (rej stBadState) else none)
  objs := [.plc port.toNat]
  eff := fun s =>
    let n := port.toNat
    if rd s (plcState n) = 0 ∨ plcCoord s n then .done stBadState [] s
    else if rd s (plcState n) = 3 then .wait (.plcLeave n) (mgmtOnce n ((plcP s n).coord.getD 0xFFF) [0x04] s)
    else ok (plcLeft n s)

def execPlcLeave (h : Hdr) (port : BitVec 8) (s : State) : Out := .next (scp h (.plcLeave h port) (specPlcLeave port) s)

/-- PLC_ROUTE (R395). -/
def specPlcRoute (port : BitVec 8) (dest : BitVec 16) (nrelay : BitVec 8) (relays : List (BitVec 16)) : Spec where
  info := plcInfo 0x0406 2000000
  par := orRej (firstRej [(decide (3 < port.toNat), badParam 0), (decide (dest = 0 ∨ 4094 < dest.toNat), badParam 1),
      (decide (4 < nrelay.toNat), badParam 3), (decide (relays.length < nrelay.toNat), badLength (4 + 2 * relays.length)),
      (decide (nrelay.toNat < relays.length), badLength (4 + 2 * nrelay.toNat))])
    (((firstIdx (fun r : BitVec 16 => decide (r = 0 ∨ 4094 < r.toNat)) relays).map (fun k => badParam (4 + 2 * k))))
  st := fun s => orRej (domRej s 5) (if rd s (plcState port.toNat) = 0 then some (rej stBadState) else none)
  objs := [.plc port.toNat]
  eff := fun s => ok (modPlc port.toNat (fun v => { v with fixed := tblSet dest.toNat (relays.map (·.toNat)) v.fixed }) s)

def execPlcRoute (h : Hdr) (port : BitVec 8) (dest : BitVec 16) (nrelay : BitVec 8) (relays : List (BitVec 16)) (s : State) : Out :=
  .next (scp h (.plcRoute h port dest nrelay relays) (specPlcRoute port dest nrelay relays) s)

/-! ### Commands: fallover (R401, R402) -/

/-- FALLOVER_CFG: with FLAGS[0] set on a port already DOWN, fallover starts. -/
def specFalloverCfg (ethport plcport flags : BitVec 8) : Spec where
  info := plcInfo 0x0407 10000
  par := firstRej [(decide (7 < ethport.toNat), badParam 0), (decide (3 < plcport.toNat), badParam 1), (decide (3 < flags.toNat), badParam 2)]
  st := fun s => claimRej s 11 plcport.toNat (0x50 + plcport.toNat) ethport.toNat
  objs := [.eth ethport.toNat, .plc plcport.toNat]
  acc := fun _ s => claim 11 plcport.toNat (0x50 + plcport.toNat) ethport.toNat
    (unclaimIf (fun c => c.cls == 11 && c.obj == ethport.toNat && decide (c.idx < 4)) s)
  eff := fun s =>
    let p := ethport.toNat
    let act := match fallOf s p with | some c => c.active && decide (c.plc = plcport.toNat) | none => false
    let c : FallCfg := { plc := plcport.toNat, auto := decide (flags.toNat % 2 = 1), autoReturn := decide (flags.toNat / 2 = 1), active := act }
    let s := setFall p c s
    ok (if c.auto ∧ ethSt s p = 3 then pumpFallen c.plc (startFall p c s).2 else s)

def execFalloverCfg (h : Hdr) (ethport plcport flags : BitVec 8) (s : State) : Out :=
  .next (scp h (.falloverCfg h ethport plcport flags) (specFalloverCfg ethport plcport flags) s)

/-- FALLOVER needs the PLC port JOINED or coordinating. -/
def fallRej (s : State) (p : Nat) : Option Rej :=
  match fallOf s p with
  | none => some (rej stNotProvisioned)
  | some c => if plcReady s c.plc then none else some (conflict s { cls := 11, idx := c.plc, holder := 0x50 + c.plc, obj := p })

/-- FALLOVER action 0. -/
def specFalloverToPowerline (ethport : BitVec 8) : Spec where
  info := plcInfo 0x0408 1000000
  par := firstRej [(decide (7 < ethport.toNat), badParam 0)]
  st := fun s => fallRej s ethport.toNat
  objs := [.eth ethport.toNat]
  eff := fun s =>
    let p := ethport.toNat
    match fallOf s p with
    | none => .done stBadState [] s
    | some c =>
      let (k, s) := startFall p c s
      let s := if ethSt s p = 2 ∨ ethSt s p = 3 then expireAll p s else s
      okRes (le 2 k) (pumpFallen c.plc s)

def execFalloverToPowerline (h : Hdr) (ethport : BitVec 8) (s : State) : Out :=
  .next (scp h (.falloverToPowerline h ethport) (specFalloverToPowerline ethport) s)

/-- FALLOVER action 1. -/
def specFalloverBackToEthernet (ethport : BitVec 8) : Spec where
  info := plcInfo 0x0408 1000000
  par := firstRej [(decide (7 < ethport.toNat), badParam 0)]
  st := fun s => fallRej s ethport.toNat
  objs := [.eth ethport.toNat]
  eff := fun s =>
    match fallOf s ethport.toNat with
    | none => .done stBadState [] s
    | some c => let (k, s) := startReturn ethport.toNat c s; okRes (le 2 k) s

def execFalloverBackToEthernet (h : Hdr) (ethport : BitVec 8) (s : State) : Out :=
  .next (scp h (.falloverBackToEthernet h ethport) (specFalloverBackToEthernet ethport) s)

/-- The result of PLC_STATS: the words at 0x40 to 0xFC, and up to 104 neighbours (R407). -/
def plcStatsBytes (s : State) (n : Nat) : List Byte :=
  regWords s 2 (0x100 * n + 0x40) 48 ++ ((plcP s n).nbrs.take 104).flatMap (fun e =>
    le 2 e.1 ++ le 1 (linkCost e.2) ++ le 1 (toU 8 e.2.margin) ++ le 1 e.2.dec ++ le 1 e.2.hops ++ le 2 0)

def specPlcStats (port flags : BitVec 8) : Spec where
  info := { opcode := 0x0409, idem := if flags = 1 then .oo else .rx, lcls := if flags = 1 then .c else .n, timeout := some 10000, setup := false }
  par := firstRej [(decide (3 < port.toNat), badParam 0), (decide (1 < flags.toNat), badParam 1)]
  st := fun s => domRej s 5
  objs := [.plc port.toNat]
  eff := fun s =>
    let n := port.toNat
    let b := plcStatsBytes s n
    okRes b (if flags = 1 then (fromN 0 22).foldl (fun s k => wr (plcCnt n k) 0 s) s else s)

def execPlcStats (h : Hdr) (port flags : BitVec 8) (s : State) : Out := .next (scp h (.plcStats h port flags) (specPlcStats port flags) s)

/-! ### Superframes (R354, R355, R380, R384, R385, R396, R403) -/

/-- Tone maps whose SFNO has come are installed. -/
def installTones (n : Nat) (s : State) : State :=
  modPlc n (fun v =>
    let due := v.pendTones.filter (fun e => decide (e.2.1 ≤ sfno s n))
    { v with tones := due.foldl (fun t e => tblSet e.1 e.2.2 t) v.tones, pendTones := v.pendTones.filter (fun e => decide (sfno s n < e.2.1)) }) s

/-- A frame still being sent at T_SF is cut and its units return as not sent. -/
def truncTx (n : Nat) (s : State) : State :=
  let v := plcP s n
  match v.sending with
  | some t => bump (plcCnt n 8) (setPlc n { v with sending := none, txq := t.units ++ v.txq } s)
  | none => s

/-- A tone map to be broadcast and installed at an SFNO (R385). -/
def castTone (n tmi sf : Nat) (map : List Byte) (s : State) : State :=
  mgmt n 0xFFF ([0x08, BitVec.ofNat 8 tmi] ++ le 4 sf ++ map) (modPlc n (fun v => { v with pendTones := v.pendTones ++ [(tmi, sf, map)] }) s)

/-- Contention slots of a map. -/
def contSlots (v : PlcPort) : Nat := match v.map with | some m => (m.entries.filter (fun e => e.kind = 4)).length | none => 1

/-- What Onyx does at the start of a superframe: grants, distribution of a new map, renewed requests (R384, R396, R403). -/
def sfOnyx (n : Nat) (s : State) : State :=
  let v := plcP s n
  let s := if plcCoord s n then
      let s := tryGrant n s
      match v.next, decide (0 < v.mapCasts) with
      | some (gen, _, m), true =>
        mgmt n 0xFFF ([0x07] ++ le 1 gen ++ [0, 1] ++ mapBytes m) (modPlc n (fun v => { v with mapCasts := v.mapCasts - 1 }) s)
      | _, _ => s
    else match v.emMine with
      | some r => if rd s (plcState n) = 3 ∧ v.emown ≠ plcMe s n then mgmtOnce n (v.coord.getD 0xFFF) ([0x09] ++ le 2 r.lchan ++ le 2 r.peer) s else s
      | none => s
  match (plcP s n).foreign.find? (fun f => decide (3 ≤ f.2.2.1)) with
  | some f => if plcCoord s n then conflictWith n f.1 f.2.1 s else s
  | none => s

/-- The superframe crossing that has come: the first, or the K-th since the last start. -/
def sfStart (s : State) (n : Nat) : Option (BitVec 64) :=
  let v := plcP s n
  let nom := plcNom s n
  let t := (zcOf s n).last.toNat + rd s (plcPhase n) * 1000
  let node := !plcCoord s n && v.phases.isEmpty
  match v.tsf with
  | none => if node ∨ (rtbNs s).toNat < t ∨ (zcOf s n).last = 0 then none else some (BitVec.ofNat 64 t)
  | some o => if node ∨ (rtbNs s).toNat < t ∨ t < o.toNat + plcKk s n * nom - nom / 2 then none else some (BitVec.ofNat 64 t)

/-- SUPERFRAME_START. -/
def execSuperframeStart (port : Fin 4) (s : State) : Out :=
  let n := port.val
  .next (if !plcOn s n ∨ rd s (plcState n) = 0 then s
    else match sfStart s n with
      | none => s
      | some t =>
        let s := truncTx n s
        let s := wr (plcSfno n) (sfno s n + 1) (wr (plcNsf n) (nSf s n) (wr (plcNmin n) (nMin s n) s))
        let v := plcP s n
        let v' : PlcPort :=
          { v with tsf := some t, silent := v.silent + 1, sinceRep := v.sinceRep + 1,
                   join := (match v.join with | .listen k => .listen (k - 1) | .asked k => .asked (k - 1) | j => j),
                   emIdle := if v.emown = 0 ∨ v.emHeard then 0 else v.emIdle + 1, emHeard := false,
                   resignLeft := v.resignLeft.map (· - 1),
                   quiet := if v.foreign.any (fun f => f.2.2.2) then 0 else v.quiet + 1,
                   foreign := (v.foreign.filter (fun f => f.2.2.2)).map (fun f => (f.1, f.2.1, f.2.2.1 + 1, false)),
                   txq := v.txq.map (fun u => { u with wait := u.wait - contSlots v }) }
        let s := installTones n (setPlc n v' s)
        let s := match v.next with
          | some (gen, at', m) =>
            if plcCoord s n ∧ at' ≤ sfno s n then finishWait (.plcMap n) stOk [] (installMap n gen m s) else s
          | none => s
        if onyxUp s then sfOnyx n s else s)

/-! ### Frames sent (R346, R377, R382, R386, R396, R397) -/

/-- The beacon body of the coordinator or master (Table 14.4). -/
def ownBeacon (s : State) (n : Nat) (txrtb : Nat) : List Byte :=
  let v := plcP s n
  let fl := (if v.resignLeft.isSome then 2 else 1) + (if tblAny (fun _ c => c.plc == n && c.active) s.plc.fall then 4 else 0)
  le 8 txrtb ++ le 4 (sfno s n) ++ le 1 (rd s (plcK n) + 16 * rd s (zcMode n) + 64 * rd s (plcPolled n)) ++ le 1 v.smgen ++
    le 1 0 ++ le 1 0 ++ le 2 fl ++ le 2 v.emown ++ le 2 v.empeer ++ le 1 v.erelay.length ++ [0] ++ padTo 8 (v.erelay.flatMap (fun a => le 2 a))

/-- The beacon body; a relay sends its own TXRTB, HOPS and COST and copies the rest from its parent's last beacon (R386). SFNO counts on
between beacons (R403). -/
def beaconBody (s : State) (n : Nat) (txrtb : Nat) : List Byte :=
  match plcCoord s n, (plcP s n).pbeacon with
  | false, some b =>
    le 8 txrtb ++ le 4 (sfno s n) ++ [b.sfcfg, b.smgen] ++ le 1 (rd s (plcHops n)) ++ le 1 (min 255 (plcP s n).cost) ++ le 2 b.flags.toNat ++
      le 2 b.emown.toNat ++ le 2 b.empeer.toNat ++ [b.enr, 0] ++ padTo 8 (b.erelay.flatMap (fun a => le 2 a.toNat))
  | _, _ => ownBeacon s n txrtb

/-- The voice units a bundle takes: those of its link channel queued 750 µs before the slot begins, at most NB (R397). -/
def bundleUnits (s : State) (n lchan begin' : Nat) : List PUnit :=
  let at' := now s + (begin' - (rtbNs s).toNat) / 1000 - ((rtbNs s).toNat - begin') / 1000
  (((plcP s n).txq.filter (fun u => u.voice.isSome && decide (u.lchan = lchan) && decide (u.at' + 750 ≤ at'))).take (plcNb s n))

/-- A voice bundle (R397). -/
def bundleBody (us : List PUnit) : List Byte := [BitVec.ofNat 8 us.length, 0] ++ us.flatMap (·.body)

/-- The units of a frame and its body. `cont` is the place of a contention slot among those of the superframe: a unit goes there once it has let
its draw pass (R390). -/
def frameUnits (s : State) (n ft : Nat) (h : LinkHdr) (body : List Byte) (txrtb begin' : Nat) (cont : Option Nat) : Option (List PUnit × List Byte) :=
  let q := (plcP s n).txq
  let due : PUnit → Bool := fun u => match cont with | some j => decide (u.wait ≤ j) | none => true
  if ft = 0 then some ([], beaconBody s n txrtb)
  else if ft = 1 ∨ ft = 2 then
    match q.find? (fun u => decide (u.ft = ft) && u.voice.isNone && decide (u.body = body)) with
    | some u => some ([u], body)
    | none =>
      let us := bundleUnits s n h.lchan.toNat begin'
      some (us, bundleBody us)
  else if ft = 3 then
    (q.find? (fun u => decide (u.ft = 3) && decide (u.lchan = h.lchan.toNat) && decide (u.seq = h.seq) && due u &&
      (u.flow.isNone || body.take 1 == [BitVec.ofNat 8 u.segidx]))).map
      (fun u => ([u], if u.flow.isSome then [BitVec.ofNat 8 u.segidx, 0] ++ u.body else u.body))
  else (q.find? (fun u => decide (u.ft = ft) && decide (u.body = body) && due u)).map (fun u => ([u], u.body))

/-- The node address a port sends under: 0 until it has joined (R377). -/
def plcAddr (s : State) (n : Nat) : Nat := if plcReady s n then plcMe s n else 0

/-- The next hop towards a destination: ROUTE_SET's, or the destination itself (R393). -/
def nextHop (s : State) (n final : Nat) : Nat :=
  if final = 0xFFF then 0xFFF else match tblFind final (plcP s n).routes with | some x => x | none => final

/-- A beacon's link header (R386). -/
def beaconHdr (s : State) (n : Nat) : LinkHdr :=
  { netid := BitVec.ofNat 16 (plcMyNet s n), txa := BitVec.ofNat 12 (plcMe s n), rxa := 0xFFF, orig := BitVec.ofNat 12 (plcMe s n), ttl := 0,
    final := 0xFFF, prio := 0, assured := false, lchan := 0, last := true, err := false, settle := false, seq := 0 }

/-- The link header of the units a frame carries: what describes a unit comes from the unit, SETTLE and ERR where any of them carries it; a relayed
unit keeps its ORIG with one hop less; a JOIN_REQ goes to the parent (R30, R377, R389, R393, R397; log 120). Only FINAL, where Onyx has not set it,
and what no unit says of an empty bundle, are as given. -/
def unitHdr (s : State) (n : Nat) (us : List PUnit) (h : LinkHdr) : LinkHdr :=
  let me := BitVec.ofNat 12 (plcAddr s n)
  let net := BitVec.ofNat 16 (plcMyNet s n)
  match us with
  | u :: _ =>
    let final := u.final.getD h.final.toNat
    let hop := u.hop.getD (if u.ft = 5 ∧ u.body.take 1 = [0x01] then (plcP s n).parent.getD 0xFFF else nextHop s n final)
    { netid := net, txa := me, rxa := BitVec.ofNat 12 hop, orig := (match u.orig with | some o => BitVec.ofNat 12 o | none => me),
      ttl := BitVec.ofNat 4 u.ttl, final := BitVec.ofNat 12 final, prio := BitVec.ofNat 3 u.prio, assured := u.assured,
      lchan := BitVec.ofNat 13 u.lchan, last := u.last, err := us.any (·.err), settle := us.any (·.settle), seq := u.seq }
  | [] => { h with netid := net, txa := me, rxa := BitVec.ofNat 12 (nextHop s n h.final.toNat), orig := me, ttl := 8, err := false, settle := false }

/-- May this node use the slot for this frame (R378, R382, R384)? The entry is none for the polling region or before a map is held. -/
def mayUse (s : State) (n ft : Nat) (e : Option MapEntry) (mode tmi : Nat) : Bool :=
  let v := plcP s n
  match e with
  | none => if v.map.isNone then decide (ft = 5) && !plcCoord s n else flag s (plcPolled n) && decide (ft = 7 ∨ ft = 8)
  | some e =>
    (ftSlots ft).contains e.kind &&
      (if e.kind = 4 then true else if e.kind = 1 then emNamed v (plcMe s n) else decide (e.owner = plcMe s n)) &&
      (if e.kind ≤ 2 then decide (mode = e.mode) && (decide (mode ≠ 0) || decide (tmi = e.tmi)) else true) &&
      (plcCoord s n || rd s (plcState n) == 3 || (e.kind == 4 && decide (ft = 5)))

/-- F_E, the length of an emergency frame in the entry's mode (R383, R397). -/
def emLen (s : State) (n : Nat) (e : MapEntry) : Nat := (portFrameLen s n e.mode e.tmi (20 + 14 * plcNb s n)).getD 1

/-- The positions of the emergency slot, from its START, at which this node sends: EMOWN at 0, relay i at i × F_E, EMPEER at (ENR + 1) × F_E,
and the relays again in reverse order (R397). -/
def emOffsets (s : State) (n : Nat) (e : MapEntry) : List Nat :=
  let v := plcP s n
  let f := emLen s n e
  let me := plcMe s n
  let r := v.erelay.length
  (if me = v.emown then [0] else []) ++ (if me = v.empeer then [(r + 1) * f] else []) ++
    (v.erelay.zipIdx.flatMap (fun x => if x.1 = me then [(x.2 + 1) * f, (2 * r + 1 - x.2) * f] else []))

/-- The symbol position at whose start a frame begun now reaches the balls: the driver is enabled 20 µs before (R346, R354). -/
def txPos (s : State) (n : Nat) : Nat := ((rtbNs s).toNat + 20000 + rd s (plcTxdly n) - ((plcP s n).tsf.getD 0).toNat) / 750000

/-- Positions of the map's slots do not meet `len` positions from `pos`. -/
def mapFree (v : PlcPort) (pos len : Nat) : Bool :=
  match v.map with | some m => m.entries.all (fun e => decide (e.start + e.len ≤ pos ∨ pos + len ≤ e.start)) | none => true

/-- The positions that a frame of the polling region needs: for a POLL, those of its whole exchange with a response of BUDGET bytes (R394). -/
def regionNeed (s : State) (n ft mode bs len : Nat) (body : List Byte) : Nat :=
  if ft = 7 ∧ plcCoord s n then
    let k := leAt body 2 1 + 1
    k * len + k * frameLen mode (bandN s n) bs (18 + leAt body 0 2)
  else len

/-- A frame of `len` positions fits where it begins now: wholly within its slot, at the first position of a contention slot, and at its node's
place in the emergency slot; in the polling region between the slots and below N_MIN; before a map is held, within the superframe (R381, R382,
R390, R394, R397). -/
def placeOk (s : State) (n : Nat) (e : Option MapEntry) (len need : Nat) : Bool :=
  let v := plcP s n
  let p := txPos s n
  match e with
  | some e => decide (e.start ≤ p) && decide (p + len ≤ e.start + e.len) && (e.kind != 4 || p == e.start) &&
      (e.kind != 1 || (emOffsets s n e).contains (p - e.start))
  | none => if v.map.isSome then decide (p + need ≤ nMin s n) && mapFree v p need else decide (p + len ≤ rd s (plcNsf n))

/-- A frame in a slot whose entry does not give the mode: a unicast one uses the richest map that its receiver reports, or map 0, and a broadcast
one Sturdy-4 (R385). -/
def modeOk (s : State) (n : Nat) (e : Option MapEntry) (rxa mode tmi : Nat) : Bool :=
  (match e with | some e => decide (e.kind ≤ 2) | none => false) ||
    (if rxa = 0xFFF then mode == 1 else mode == 0 && tmi == (match tblFind rxa (plcP s n).nbrs with | some b => b.tmi | none => 0))

/-- The place of a contention slot among those of its superframe; 0 before a map is held. -/
def contPlace (v : PlcPort) (entry : Nat) : Option Nat :=
  match v.map with
  | some m => match m.entries[entry]? with
    | some e => if e.kind = 4 then some ((m.entries.take entry).filter (fun x => x.kind = 4)).length else none
    | none => none
  | none => some 0

/-- PLC_FRAME_TX_START: at its place in the superframe, under the lease of the node's slot ownerships (R218), if the frame
fits. -/
def execPlcFrameTxStart (port : Fin 4) (entry : BitVec 6) (mode : BitVec 3) (tmi : BitVec 4) (ilv : BitVec 6) (ft : BitVec 4)
    (hdr : LinkHdr) (body : List Byte) (s : State) : Out :=
  let n := port.val
  let v := plcP s n
  let e := match v.map with | some m => m.entries[entry.toNat]? | none => none
  let f := ft.toNat
  let txrtb := (v.tsf.getD 0).toNat + txPos s n * 750000
  let begin' := match e with | some e => (v.tsf.getD 0).toNat + e.start * 750000 | none => txrtb
  let cont := contPlace v entry.toNat
  let held := match v.lease with | some m => gateOk s m (0x50 + n) (lease s m).epoch | none => false
  .next (if !plcOn s n ∨ s.pwr.safe ∨ v.tsf.isNone ∨ v.sending.isSome ∨ 2 < mode.toNat ∨ (mode ≠ 0 ∧ tmi ≠ 0) ∨ !mayUse s n f e mode.toNat tmi.toNat then s
    else if rd s (plcState n) = 6 ∧ f ≠ 5 then s
    else if rd s (plcState n) = 4 ∧ ¬(f = 5 ∧ body.take 1 = [0x01]) then s
    else if !held then (match v.lease with | some m => leaseDenied m s | none => s)
    else match mapCodes s n (if mode = 0 then tmi.toNat else 0), frameUnits s n f hdr body txrtb begin' cont with
      | some codes, some (us, b) =>
        let h := if f = 0 then beaconHdr s n else unitHdr s n us hdr
        let p := linkPayload h b
        let nc := bandN s n
        let bs := sumOf id codes
        let len := frameLen mode.toNat nc bs p.length
        if p.length < 16 ∨ 2048 < p.length ∨ !modeOk s n e h.rxa.toNat mode.toNat tmi.toNat ∨ !placeOk s n e len (regionNeed s n f mode.toNat bs len b) then s
        else
          let hs := hdrSyms nc (hdrWord mode.toNat tmi.toNat f ilv.toNat (p.length - 1))
          let ps := paySyms mode.toNat ilv.toNat nc codes (hs.getLast?.getD []) p
          let tx : PTx := { ft := f, entry := entry.toNat, units := us, rxa := h.rxa.toNat, len := len, hdr := h, cont := cont.isSome,
                            level := 9 + rd s (plcTxlevel n), pre := preamblePhases (bandLo s n) nc, ref := refPhases (bandLo s n) nc, hdrSyms := hs, paySyms := ps }
          let q := us.foldl (fun q u => removeFirst u q) v.txq
          let fin := match us with
            | u :: _ => (match f, u.flow with | 3, some fl => tblSet fl h.final.toNat v.finals | _, _ => v.finals)
            | [] => v.finals
          pgaStep n (setPlc n { v with sending := some tx, txq := q, rx := .search, pga := 0, finals := fin } s)
      | _, _ => s)

/-- A unicast transmission that needs an acknowledgement is noted for its link (R392). -/
def noteSent (rxa : Nat) (rep : Bool) (v : PlcPort) : PlcPort :=
  match tblFind rxa v.nbrs with
  | some b => { v with nbrs := tblSet rxa { b with sent := lastN 64 (b.sent ++ [rep]) } v.nbrs }
  | none => v

/-- PLC_FRAME_TX_END (R346, R347, R370): the driver is off, samples received count again 20 µs later, what needs no answer is done with; an assured segment is noted for its retry. -/
def execPlcFrameTxEnd (port : Fin 4) (limited clipped : Bool) (s : State) : Out :=
  let n := port.val
  let v := plcP s n
  .next (match v.sending with
    | none => s
    | some t =>
      let s := if limited then bump (plcCnt n 6) s else s
      let s := if clipped then bump (plcCnt n 7) s else s
      let quiet := (rtbNs s).toNat + 20000
      let v := { v with sending := none, deafTo := quiet, searched := quiet * 1536 / 1000000, searchedAt := quiet * 1536 / 1000000, emHeard := v.emHeard || (decide (t.ft = 1) && decide (v.emown = plcMe s n)) }
      match t.ft, t.units with
      | 3, u :: _ =>
        let v := if t.rxa = 0xFFF then v else noteSent t.rxa (decide (0 < u.tries)) v
        setPlc n (match u.flow with | some fl => { v with sentSf := tblSet fl (sfno s n) v.sentSf, sentCont := tblSet fl t.cont v.sentCont } | none => v) s
      | 5, u :: _ =>
        let s := setPlc n v s
        if u.body.take 1 = [0x04] ∧ someWait (.plcLeave n) s then finishWait (.plcLeave n) stOk [] (plcLeft n s) else s
      | _, _ => setPlc n v s)

/-! ### Beacons received (R380, R386, R387, R389, R391, R404) -/

/-- The parent's beacon sets T_SF, PHASE, SFNO and what the beacon carries; under RTB_SRC BEACON it is an update (R387, Table 3.4). -/
def fromParent (n : Nat) (par : Nat) (b : Beacon) (stamp : BitVec 64) (s : State) : State :=
  let v := plcP s n
  let nom := plcNom s n
  let tsf := stamp.toNat - 1333333 - rd s (plcRxdly n)
  let zl := (zcOf s n).last.toNat
  -- the node's crossing nearest to T_SF
  let c : Nat := if zl + nom / 2 ≤ tsf then zl + (tsf - zl + nom / 2) / nom * nom else zl
  let ph : List Int := lastN 8 (v.phases ++ [(tsf : Int) - (c : Int)])
  let mean : Int := (ph.foldl (· + ·) 0) / (ph.length : Int)
  let s := wr (plcPhase n) (toU 20 (mean / 1000)) (wr (plcSfno n) b.sfno.toNat (wr (plcHops n) (b.hops.toNat + 1) s))
  let lc := match tblFind par v.nbrs with | some x => linkCost x | none => 0
  let v' : PlcPort :=
    { v with parent := some par, pbeacon := some b, tsf := some (BitVec.ofNat 64 tsf), phases := ph, silent := 0, cost := b.cost.toNat + lc,
             bflags := b.flags.toNat, emown := b.emown.toNat, empeer := b.empeer.toNat,
             erelay := (b.erelay.take b.enr.toNat).map (·.toNat),
             coord := if b.hops = 0 then some par else v.coord }
  let s := wr (plcEmgrant n) (b2n (b.emown ≠ 0 ∧ b.emown.toNat = plcMe s n)) (setPlc n v' s)
  let s := if v.smgen = b.smgen.toNat then s
    else match v.next with
      | some (gen, _, m) =>
        if gen = b.smgen.toNat then installMap n gen m s else modPlc n (fun v => { v with smgen := b.smgen.toNat, map := none }) s
      | none => modPlc n (fun v => { v with smgen := b.smgen.toNat, map := none }) s
  let s := joinDone n s
  if rd s rtbSrc = 2 ∧ rd s rtbPlcPort = n then
    servoUpdate ((stamp.toNat : Int) - 1333333 - rd s (plcRxdly n) - b.txrtb.toNat) s
  else s

/-- BEACON_RECEIVED. -/
def execBeaconReceived (port : Fin 4) (hdr : LinkHdr) (b : Beacon) (stamp : BitVec 64) (s : State) : Out :=
  let n := port.val
  let tx := hdr.txa.toNat
  .next (if !plcOn s n ∨ rd s (plcState n) = 0 then s
    else if hdr.netid.toNat ≠ plcMyNet s n then
      let s := foreignHeard n hdr.netid.toNat tx s
      if rd s (plcState n) = 3 ∧ onyxUp s then
        mgmtOnce n ((plcP s n).coord.getD 0xFFF) ([0x0C] ++ le 2 hdr.netid.toNat ++ le 4 b.sfno.toNat) s
      else s
    else
      let s := hear n tx s
      let s := modPlc n (fun v => { v with nbrs := tblSet tx { (tblGet v.nbrs tx nbrInit) with bcost := some b.cost.toNat, bfrom := sfno s n, hops := b.hops.toNat } v.nbrs }) s
      if plcCoord s n then
        let owner := match (plcP s n).map with | some m => m.entries.any (fun e => e.kind == 0 && e.owner == tx) | none => false
        if !owner ∧ b.hops = 0 ∧ tx ≠ plcMe s n ∧ onyxUp s then conflictWith n hdr.netid.toNat tx s else s
      else
        let par := pickParent (plcP s n)
        if par = some tx then fromParent n tx b stamp s else modPlc n (fun v => { v with silent := 0 }) s)

/-! ### Voice (R397, R398) -/

/-- The KIND 2 flow of a link channel, whatever its PORT_IN and VLAN. -/
def flowOfLink (s : State) (lchan : Nat) (assured : Bool) : Option (Nat × Flow) :=
  tblFirst (fun _ f => f.kind == 2 && f.linkchan == lchan && fAssured f == assured) s.net.flows

/-- A bundle: one WCLASS 6 item to the core of its channel, whose RX job takes its sub-frames in SEQ order. -/
def bundleIn (n ft : Nat) (fr : PlcFrame) (subs : List (List Byte)) (s : State) : State :=
  let h := fr.hdr
  let body := [BitVec.ofNat 8 subs.length, 0] ++ subs.flatMap (padTo 14)
  let viol (code k : Nat) (s : State) : State := plcViol n code 1 h.lchan.toNat h.netid.toNat h.txa.toNat (bump (plcCnt n k) s)
  let lost (s : State) : State := match flowOfLink s h.lchan.toNat false with
    | some (_, f) => modChan f.chan (fun c => { c with lostIn := c.lostIn ++ List.replicate subs.length 6 }) s
    | none => s
  let s0 := if ft = 1 ∧ !fr.bad ∧ h.txa.toNat = (plcP s n).emown then modPlc n (fun v => { v with emHeard := true }) s else s
  match linkIn n ft fr s0 with
  | (none, s) => if fr.bad ∧ plcOn s n then lost s else s
  | (some mine, s) =>
    if plcNb s n < subs.length then viol 0x0209 17 s
    else if !mine then relayUnit n ft fr body s
    else
      let s := if ft = 1 ∧ emNamed (plcP s n) (plcMe s n) ∧ (plcP s n).erelay.contains (plcMe s n) then relayUnit n ft fr body s else s
      match flowOfLink s h.lchan.toNat false with
      | none => viol 0x0205 13 s
      | some (fl, f) => match chanCore s f.chan with
        | some d =>
          if subs.isEmpty then s
          else flowBump fl 0 (offer (mkItem 6 f.prio d (0x50 + n) f.chan h.seq (plcP s n).rxStamp.toNat h.settle h.err h.last body) s)
        | none => s

def execEmergencyVoiceReceived (port : Fin 4) (fr : PlcFrame) (subs : List (List Byte)) (s : State) : Out := .next (bundleIn port.val 1 fr subs s)

def execVoiceReceived (port : Fin 4) (fr : PlcFrame) (subs : List (List Byte)) (s : State) : Out := .next (bundleIn port.val 2 fr subs s)

/-! ### Data (R378, R399) -/

/-- ASSURED_DATA_RECEIVED: a segment is collected in order; the whole message is offered for acceptance under R201. -/
def execAssuredDataReceived (port : Fin 4) (fr : PlcFrame) (segidx : BitVec 8) (bytes : List Byte) (s : State) : Out :=
  let n := port.val
  let h := fr.hdr
  .next (match linkIn n 3 fr s with
    | (none, s) => s
    | (some false, s) => relayUnit n 3 fr ([segidx, 0] ++ bytes) s
    | (some true, s) =>
      match flowOfLink s h.lchan.toNat true with
      | none => plcViol n 0x0205 1 h.lchan.toNat h.netid.toNat h.txa.toNat (bump (plcCnt n 13) s)
      | some (fl, f) =>
        let got := if segidx = 0 then [] else tblGet (plcP s n).segs fl []
        if got.length ≠ segidx.toNat ∨ !onyxUp s ∨ s.pwr.hib ≠ .awake ∨ s.ledger.tail.isSome then s
        else
          let got := got ++ [bytes]
          if !h.last then modPlc n (fun v => { v with segs := tblSet fl got v.segs }) s
          else
            let s := modPlc n (fun v => { v with segs := tblDel fl v.segs }) s
            let o : Offer := { seq := h.seq, stamp := (plcP s n).rxStamp.extractLsb' 0 40, settle := h.settle, err := h.err, last := h.last }
            match assuredIn fl (0x50 + n) o got.flatten 2 n 0x020B s with
            | (some a, s) =>
              plcPut n { ctlUnit 4 h.orig.toNat (le 2 a.toNat ++ [BitVec.ofNat 8 (creditOf f), 0]) s with lchan := h.lchan.toNat } (flowBump fl 48 s)
            | (none, s) => s)

/-- PLC_ACKNOWLEDGEMENT_RECEIVED: an acknowledgement of a SEQ never sent is a violation (R406). -/
def execPlcAcknowledgementReceived (port : Fin 4) (fr : PlcFrame) (ackseq : BitVec 16) (credit : BitVec 8) (s : State) : Out :=
  let n := port.val
  let h := fr.hdr
  .next (match linkIn n 4 fr s with
    | (none, s) => s
    | (some false, s) => relayUnit n 4 fr (le 2 ackseq.toNat ++ [credit, 0]) s
    | (some true, s) =>
      match flowOfLink s h.lchan.toNat true with
      | none => plcViol n 0x0205 1 h.lchan.toNat h.netid.toNat h.txa.toNat (bump (plcCnt n 13) s)
      | some (fl, f) =>
        let next := match f.out.find? (fun m => !m.sent && !f.noPath) with | some m => m.seq | none => f.txSeq
        if ackseq = next ∨ later16 ackseq next then
          plcViol n 0x0207 1 h.lchan.toNat h.netid.toNat h.txa.toNat (bump (plcCnt n 15) s)
        else ackEvent fl ackseq credit.toNat 2 (modPlc n (fun v => { v with cw := 4 }) s))

/-- CONTENTION_DATA_RECEIVED: unacknowledged data for a KIND 2 flow goes to Onyx under the flow's CHAN. -/
def execContentionDataReceived (port : Fin 4) (fr : PlcFrame) (bytes : List Byte) (s : State) : Out :=
  let n := port.val
  let h := fr.hdr
  .next (match linkIn n 6 fr s with
    | (none, s) => s
    | (some false, s) => relayUnit n 6 fr bytes s
    | (some true, s) =>
      match tblFirst (fun _ f => f.kind == 2 && f.linkchan == h.lchan.toNat) s.net.flows with
      | none => plcViol n 0x0205 1 h.lchan.toNat h.netid.toNat h.txa.toNat (bump (plcCnt n 13) s)
      | some (fl, f) => flowBump fl 0 (offer (mkItem 6 f.prio 0x00 (0x50 + n) (if fForward f then 0 else f.chan) h.seq (plcP s n).rxStamp.toNat h.settle h.err
          h.last (padTo (max 16 bytes.length) bytes)) s))

/-! ### Polling (R394, R395) -/

/-- One unit enclosed in a poll or its response: ENC_FT, ENC_LEN, then its link header and body (R394). -/
def enclose (ft : Nat) (h : LinkHdr) (body : List Byte) : List Byte := [BitVec.ofNat 8 ft] ++ le 2 (14 + body.length) ++ lhBytes h ++ body

/-- The units that a poll or response to node `j` encloses, of at most `room` bytes: a voice bundle before any other unit (R394). -/
def toEnclose (s : State) (n j room : Nat) : Option (Nat × List PUnit × List Byte) :=
  let q := (plcP s n).txq
  let isFor : PUnit → Bool := fun u => match u.final, u.flow with
    | some d, _ => d == j || d == 0xFFF
    | none, some fl => tblFind fl (plcP s n).finals == some j || plcMe s n != 0 && !plcCoord s n
    | none, none => false
  let us := match q.find? (fun u => u.voice.isSome && isFor u) with
    | some u => (q.filter (fun x => x.voice.isSome && x.lchan == u.lchan)).take (plcNb s n)
    | none => []
  if !us.isEmpty ∧ (bundleBody us).length + 17 ≤ room then some (2, us, bundleBody us)
  else (q.find? (fun u => u.voice.isNone && decide (3 ≤ u.ft ∧ u.ft ≤ 6) && isFor u && decide (u.body.length + 19 ≤ room))).map
    (fun u => (u.ft, [u], if u.ft = 3 ∧ u.flow.isSome then [BitVec.ofNat 8 u.segidx, 0] ++ u.body else u.body))

/-- Take what is enclosed to node `j` off the queue: its bytes. -/
def takeEnclosed (n j room : Nat) (s : State) : List Byte × State :=
  match toEnclose s n j room with
  | some (ft, us, b) =>
    let h := { unitHdr s n us { (beaconHdr s n) with final := BitVec.ofNat 12 j } with rxa := BitVec.ofNat 12 j }
    (enclose ft h b, modPlc n (fun v => { v with txq := us.foldl (fun q u => removeFirst u q) v.txq }) s)
  | none => ([], s)

/-- The node that a relay of the chain sends the poll on to: the next relay, or the slave. -/
def pollNext (me slave : Nat) : List Nat → Nat
  | a :: b :: t => if a = me then b else pollNext me slave (b :: t)
  | _ => slave

/-- POLL: a slave answers with one enclosed unit that fits BUDGET, the way the poll came; a relay of the chain sends the poll on (R394). -/
def execPlcPoll (port : Fin 4) (fr : PlcFrame) (budget : BitVec 16) (relays : List (BitVec 12)) (enclosed : List Byte) (s : State) : Out :=
  let n := port.val
  let h := fr.hdr
  let body := le 2 budget.toNat ++ le 1 relays.length ++ padTo 8 (relays.flatMap (fun a => le 2 a.toNat)) ++ enclosed
  .next (match linkIn n 7 fr s with
    | (none, s) => s
    | (some mine, s) =>
      if h.final.toNat = plcMe s n ∧ mine then
        let (enc, s) := takeEnclosed n h.orig.toNat budget.toNat s
        plcPut n { ctlUnit 8 h.orig.toNat enc s with hop := some h.txa.toNat } s
      else if relays.any (fun a => a.toNat = plcMe s n) then
        relayVia (some (pollNext (plcMe s n) h.final.toNat (relays.map (·.toNat)))) n 7 fr body
          (modPlc n (fun v => { v with pollFrom := tblSet h.final.toNat h.txa.toNat v.pollFrom }) s)
      else s)

/-- POLL_RESPONSE: at the master the exchange is complete; an enclosure above BUDGET is discarded (R406). -/
def execPollResponse (port : Fin 4) (fr : PlcFrame) (enclosed : List Byte) (s : State) : Out :=
  let n := port.val
  .next (match linkIn n 8 fr s with
    | (none, s) => s
    | (some mine, s) =>
      if !plcCoord s n then (if mine then s else relayVia (tblFind fr.hdr.orig.toNat (plcP s n).pollFrom) n 8 fr enclosed s)
      else match tblFind fr.hdr.orig.toNat (plcP s n).nodes with
        | none => s
        | some p =>
          let s1 := modPlc n (fun v => { v with nodes := tblSet fr.hdr.orig.toNat { p with poll := none, misses := 0, polledAt := sfno s n } v.nodes }) s
          match p.poll with
          | some b => if b < enclosed.length then plcViol n 0x0208 1 0xFFFF fr.hdr.netid.toNat fr.hdr.txa.toNat (bump (plcCnt n 16) s1) else s1
          | none => s1)

/-- The joined slave has an active powerline voice flow: it is polled in every superframe. -/
def slaveVoice (s : State) (n slave : Nat) : Bool := s.net.flows.any (fun e => fVoice e.2 && decide (e.2.fallen = some n) && decide (tblFind e.1 (plcP s n).finals = some slave))

/-- POLL_PERIOD: the master polls the slave over its chain. BUDGET is the master's choice and free (log 2). -/
def execPollPeriod (port : Fin 4) (slave : BitVec 12) (s : State) : Out :=
  let n := port.val
  let j := slave.toNat
  .next (if !plcOn s n ∨ !plcCoord s n ∨ !flag s (plcPolled n) ∨ !onyxUp s then s
    else match tblFind j (plcP s n).nodes with
      | none => s
      | some p =>
        let every := if slaveVoice s n j then 1 else rd s (plcPollper n)
        if p.poll.isSome ∨ sfno s n < p.polledAt + every then s
        else match bestChain s n j p.excluded with
          | none => s
          | some c =>
            let b := (freeBits 11 s).toNat
            let s := modPlc n (fun v => { v with nodes := tblSet j { p with poll := some b, chain := c, polledAt := sfno s n } v.nodes }) (tookFree s)
            let (enc, s) := takeEnclosed n j 2019 s
            let body := le 2 b ++ le 1 c.length ++ padTo 8 (c.flatMap (fun a => le 2 a)) ++ enc
            plcPut n { ctlUnit 7 j body s with hop := some (c.headD j) } s)

/-- POLL_MISS: after POLLMISS in a row the chain is excluded for 60 s; with none left the slave is unreachable. -/
def execPollMiss (port : Fin 4) (slave : BitVec 12) (s : State) : Out :=
  let n := port.val
  let j := slave.toNat
  .next (if !plcOn s n ∨ !plcCoord s n then s
    else match tblFind j (plcP s n).nodes with
      | none => s
      | some p =>
        if p.poll.isNone then s
        else
          let s := bump (plcCnt n 20) s
          let put (p : PNode) (s : State) : State := modPlc n (fun v => { v with nodes := tblSet j p v.nodes }) s
          if p.misses + 1 < rd s (plcPollmiss n) then put { p with poll := none, misses := p.misses + 1 } s
          else
            let ex := p.excluded ++ [(p.chain, now s + 60000000)]
            let s := put { p with poll := none, misses := 0, excluded := ex } s
            match bestChain s n j ex with
            | some c => put { p with poll := none, misses := 0, excluded := ex, chain := c } s
            | none =>
              let s := bump (plcCnt n 21) s
              (s.net.flows.filter (fun e => fAssured e.2 && decide (e.2.fallen = some n) && decide (tblFind e.1 (plcP s n).finals = some j))).foldl
                (fun s e => plcPathLost e.1 s) s)

/-- CHAIN_EXCLUSION_END. -/
def execChainExclusionEnd (port : Fin 4) (slave : BitVec 12) (s : State) : Out :=
  let n := port.val
  .next (match tblFind slave.toNat (plcP s n).nodes with
    | some p => modPlc n (fun v => { v with nodes := tblSet slave.toNat { p with excluded := p.excluded.filter (fun x => decide (now s < x.2)) } v.nodes }) s
    | none => s)

/-! ### Management messages (R384, R385, R388 to R391, R393, R396, R404) -/

/-- The address a joining node gets: the one it asks for where free, else the lowest free. -/
def joinAddr (v : PlcPort) (me uid want : Nat) : Option Nat :=
  let used (a : Nat) : Bool := a == me || (match tblFind a v.nodes with | some p => p.uid.toNat != uid | none => false)
  if want ≠ 0 ∧ !used want then some want
  else if want ≠ 0 then none
  else (fromN 1 4094).find? (fun a => !used a && (tblFind a v.nodes).isNone)

/-- JOIN_REQ: forwarded by a parent, answered by the coordinator or master. The network is open while it is not resigning. HOPS of the answer are
the hops that the request has made (log 120). -/
def joinReqIn (n : Nat) (fr : PlcFrame) (body : List Byte) (s : State) : State :=
  let uid := BitVec.ofNat 64 (leAt body 1 8)
  let want := leAt body 9 2 % 4096
  if !plcCoord s n then
    (if rd s (plcState n) = 3 ∧ fr.hdr.ttl ≠ 0 then
      relayUnit n 5 { fr with hdr := { fr.hdr with final := BitVec.ofNat 12 ((plcP s n).coord.getD 0xFFF) } } body s else s)
  else
    let v := plcP s n
    let rejm (r : Nat) : State := mgmt n 0xFFF ([0x03] ++ le 8 uid.toNat ++ le 1 r) s
    let known := (tblFirst (fun _ p => p.uid == uid) v.nodes).map (·.1)
    if v.resignLeft.isSome then rejm 3
    else if known.isNone ∧ 256 ≤ v.nodes.length then rejm 1
    else match joinAddr v (plcMe s n) uid.toNat want with
      | none => rejm 2
      | some a =>
        let nodes := match known with | some k => tblDel k v.nodes | none => v.nodes
        let p : PNode := { uid := uid, reportAt := sfno s n, missed := 0, nbrs := [], polledAt := 0, misses := 0, chain := [], excluded := [], poll := none }
        let s := recompute n (setPlc n { v with nodes := tblSet a p nodes } s)
        mgmt n 0xFFF ([0x02] ++ le 8 uid.toNat ++ le 2 a ++ le 1 (9 - fr.hdr.ttl.toNat) ++ le 1 v.smgen) s

/-- JOIN_ACC. -/
def joinAccIn (n : Nat) (fr : PlcFrame) (body : List Byte) (s : State) : State :=
  match (plcP s n).join with
  | .asked _ =>
    if leAt body 1 8 ≠ myUid s then s
    else
      let a := leAt body 9 2 % 4096
      let s := wr (plcNode n) a (wr (plcHops n) (leAt body 11 1) s)
      joinDone n (modPlc n (fun v => { v with join := .accepted, cw := 4, coord := some fr.hdr.orig.toNat, want := a }) s)
  | _ => s

/-- JOIN_REJ: the node listens and asks again until its command's timeout. -/
def joinRejIn (n : Nat) (body : List Byte) (s : State) : State :=
  match (plcP s n).join with
  | .asked _ => if leAt body 1 8 = myUid s then modPlc n (fun v => { v with join := .listen 3, cw := 4 }) s else s
  | _ => s

/-- A node is taken off the coordinator's list and its address is free. -/
def dropNode (n a : Nat) (s : State) : State := recompute n (modPlc n (fun v => { v with nodes := tblDel a v.nodes }) s)

/-- Do two reports differ enough for the routes to be computed anew (R393)? -/
def reportMoved (old new : List NbrEntry) : Bool :=
  new.any (fun e => match old.find? (fun o => o.node == e.node) with
    | some o => decide (o.cost.toNat + 2 ≤ e.cost.toNat ∨ e.cost.toNat + 2 ≤ o.cost.toNat)
    | none => true) || old.any (fun o => !new.any (fun e => e.node == o.node))

/-- The entries of an NBR_REPORT (Table 14.5). -/
def nbrEntries (body : List Byte) : List NbrEntry :=
  (fromN 0 (leAt body 1 1)).map (fun k =>
    { node := BitVec.ofNat 12 (leAt body (2 + 5 * k) 2), cost := BitVec.ofNat 8 (leAt body (4 + 5 * k) 1),
      margin := BitVec.ofNat 8 (leAt body (5 + 5 * k) 1), tmi := BitVec.ofNat 8 (leAt body (6 + 5 * k) 1) })

/-- NBR_REPORT: routes are computed anew where it moves them, and what the node decodes from this one is noted (R385, R393). -/
def nbrReportIn (n : Nat) (fr : PlcFrame) (body : List Byte) (s : State) : State :=
  let o := fr.hdr.orig.toNat
  let entries := nbrEntries body
  match tblFind o (plcP s n).nodes with
  | some p =>
    if !plcCoord s n then s
    else
      let tmi := (entries.find? (fun e => e.node.toNat = plcMe s n)).map (·.tmi.toNat)
      let s := modPlc n (fun v =>
        { v with nodes := tblSet o { p with reportAt := sfno s n, missed := 0, nbrs := entries } v.nodes,
                 nbrs := match tmi, tblFind o v.nbrs with
                   | some t, some b => tblSet o { b with tmi := t } v.nbrs
                   | _, _ => v.nbrs }) s
      if reportMoved p.nbrs entries then recompute n s else s
  | none => s

/-- ROUTE_SET: new next hops. -/
def routeSetIn (n : Nat) (body : List Byte) (s : State) : State :=
  let add : Tbl Nat → Nat → Tbl Nat := fun t k => tblSet (leAt body (2 + 4 * k) 2) (leAt body (4 + 4 * k) 2) t
  if plcCoord s n then s else modPlc n (fun v => { v with routes := (fromN 0 (leAt body 1 1)).foldl add v.routes }) s

/-- The bytes of a map once every part is there. -/
def joinParts (parts : List (Nat × Nat × Nat × List Byte)) (gen np : Nat) : Option (List Byte) :=
  let ps := (fromN 0 np).map (fun k => (parts.find? (fun p => p.1 = gen ∧ p.2.1 = k)).map (·.2.2.2))
  if ps.all (·.isSome) then some (ps.flatMap (·.getD [])) else none

/-- A management message whose body does not fit its MTYPE (R406). -/
def mgmtBad (n : Nat) (fr : PlcFrame) (s : State) : State :=
  plcViol n 0x0206 1 0xFFFF fr.hdr.netid.toNat fr.hdr.txa.toNat (bump (plcCnt n 14) s)

/-- SLOTMAP: parts collected; the map is kept for the beacon that carries its SMGEN, or taken at once when it already does. -/
def slotmapIn (n : Nat) (fr : PlcFrame) (body : List Byte) (s : State) : State :=
  if plcCoord s n then s
  else
    let v := plcP s n
    let g := leAt body 1 1
    let part := leAt body 2 1
    let np := leAt body 3 1
    let parts := (v.parts.filter (fun p => p.1 = g ∧ p.2.1 ≠ part)) ++ [(g, part, np, body.drop 4)]
    match joinParts parts g np with
    | none => setPlc n { v with parts := parts } s
    | some b =>
      if (mapHdrBad b).isSome ∨ b.length ≠ 8 + 8 * leAt b 0 1 then mgmtBad n fr s
      else
        let s := setPlc n { v with parts := [], next := some (g, 0, parseMap b) } s
        if v.smgen = g then joinDone n (installMap n g (parseMap b) s) else s

/-- TONEMAP: installed at the superframe it names. One whose TXA is the coordinator's own stands for its own choice, which it broadcasts, for an
SFNO at least two superframes ahead (R385, log 55). -/
def tonemapIn (n : Nat) (fr : PlcFrame) (body : List Byte) (s : State) : State :=
  let tmi := leAt body 1 1
  let sf := leAt body 2 4
  let map := body.drop 6
  if !toneValid map (bandLo s n) (bandHi s n) then s
  else if plcCoord s n then (if fr.hdr.txa.toNat = plcMe s n ∧ sfno s n + 2 ≤ sf then castTone n tmi sf map s else s)
  else modPlc n (fun v => { v with pendTones := v.pendTones ++ [(tmi, sf, map)] }) s

/-- EM_REQ: held, and granted in the next beacon when the slot is free. -/
def emReqIn (n : Nat) (fr : PlcFrame) (body : List Byte) (s : State) : State :=
  if !plcCoord s n then s
  else
    let r : EmReq := { lchan := leAt body 1 2, node := fr.hdr.orig.toNat, peer := leAt body 3 2 % 4096 }
    tryGrant n (modPlc n (fun v => if v.emReqs.contains r then v else { v with emReqs := v.emReqs ++ [r] }) s)

/-- EM_REL. -/
def emRelIn (n : Nat) (fr : PlcFrame) (body : List Byte) (s : State) : State :=
  if !plcCoord s n then s
  else
    let o := fr.hdr.orig.toNat
    let s := modPlc n (fun v => { v with emReqs := v.emReqs.filter (fun r => !(r.node == o && r.lchan == leAt body 1 2)) }) s
    if (plcP s n).emown = o then tryGrant n (endGrant n s) else s

/-- RESIGN: the nodes of a resigning network join the surviving one, keeping their addresses where free. -/
def resignIn (n : Nat) (body : List Byte) (s : State) : State :=
  if plcCoord s n then s else startJoin n (leAt body 1 2) (plcMe s n) (wr (plcState n) 2 s)

/-- FOREIGN: a node's report counts as a beacon heard. -/
def foreignIn (n : Nat) (body : List Byte) (s : State) : State :=
  if plcCoord s n ∧ leAt body 1 2 ≠ rd s (plcNetid n) then foreignHeard n (leAt body 1 2) 0 s else s

/-- What Onyx does with a management message for this node, by its MTYPE (Table 14.5). -/
def mgmtDo (n : Nat) (fr : PlcFrame) (body : List Byte) (s : State) : State :=
  match leAt body 0 1 with
  | 0x01 => joinReqIn n fr body s
  | 0x02 => joinAccIn n fr body s
  | 0x03 => joinRejIn n body s
  | 0x04 => if plcCoord s n then dropNode n fr.hdr.orig.toNat s else s
  | 0x05 => nbrReportIn n fr body s
  | 0x06 => routeSetIn n body s
  | 0x07 => slotmapIn n fr body s
  | 0x08 => tonemapIn n fr body s
  | 0x09 => emReqIn n fr body s
  | 0x0A => emRelIn n fr body s
  | 0x0B => resignIn n body s
  | 0x0C => foreignIn n body s
  | _ => s

/-- A management message of this node reaches Onyx, or waits in its boundary queue while it restarts (R42, R403). -/
def mgmtEvent (n : Nat) (fr : PlcFrame) (body : List Byte) (s : State) : State :=
  if eventsWait s then post (.mgmt n fr body) s else if onyxUp s then mgmtDo n fr body s else s

/-- A management frame: the checks of every frame, a body that does not fit its MTYPE, relaying, and what Onyx does. -/
def mgmtMsg (n : Nat) (fr : PlcFrame) (good : Bool) (body : List Byte) (s : State) : State := mgmtIn n fr good body (mgmtEvent n fr body) s

def execJoinReq (port : Fin 4) (fr : PlcFrame) (uid : BitVec 64) (reqnode : BitVec 12) (s : State) : Out :=
  .next (mgmtMsg port.val fr (decide (reqnode ≠ 0xFFF)) ([0x01] ++ le 8 uid.toNat ++ le 2 reqnode.toNat) s)

def execJoinAcc (port : Fin 4) (fr : PlcFrame) (uid : BitVec 64) (node : BitVec 12) (hops smgen : BitVec 8) (s : State) : Out :=
  .next (mgmtMsg port.val fr true ([0x02] ++ le 8 uid.toNat ++ le 2 node.toNat ++ [hops, smgen]) s)

def execJoinRej (port : Fin 4) (fr : PlcFrame) (uid : BitVec 64) (reason : BitVec 8) (s : State) : Out :=
  .next (mgmtMsg port.val fr (decide (1 ≤ reason.toNat ∧ reason.toNat ≤ 3)) ([0x03] ++ le 8 uid.toNat ++ [reason]) s)

def execMgmtLeave (port : Fin 4) (fr : PlcFrame) (s : State) : Out := .next (mgmtMsg port.val fr true [0x04] s)

def execNbrReport (port : Fin 4) (fr : PlcFrame) (entries : List NbrEntry) (s : State) : Out :=
  .next (mgmtMsg port.val fr (decide (entries.length ≤ 104)) ([0x05, BitVec.ofNat 8 entries.length] ++
    entries.flatMap (fun e => le 2 e.node.toNat ++ [e.cost, e.margin, e.tmi])) s)

def execRouteSet (port : Fin 4) (fr : PlcFrame) (entries : List (BitVec 12 × BitVec 12)) (s : State) : Out :=
  .next (mgmtMsg port.val fr (decide (entries.length ≤ 255)) ([0x06, BitVec.ofNat 8 entries.length] ++
    entries.flatMap (fun e => le 2 e.1.toNat ++ le 2 e.2.toNat)) s)

def execSlotmap (port : Fin 4) (fr : PlcFrame) (smgen part npart : BitVec 8) (bytes : List Byte) (s : State) : Out :=
  .next (mgmtMsg port.val fr (decide (part.toNat < npart.toNat)) ([0x07, smgen, part, npart] ++ bytes) s)

def execTonemap (port : Fin 4) (fr : PlcFrame) (tmi : BitVec 8) (sfno' : BitVec 32) (map : List Byte) (s : State) : Out :=
  let good := decide (1 ≤ tmi.toNat ∧ tmi.toNat ≤ 15) && decide (map.length = 86) && decide (map.take 1 = [tmi])
  .next (mgmtMsg port.val fr good ([0x08, tmi] ++ le 4 sfno'.toNat ++ map) s)

def execEmReq (port : Fin 4) (fr : PlcFrame) (lchan peer : BitVec 16) (s : State) : Out :=
  .next (mgmtMsg port.val fr true ([0x09] ++ le 2 lchan.toNat ++ le 2 peer.toNat) s)

def execEmRel (port : Fin 4) (fr : PlcFrame) (lchan : BitVec 16) (s : State) : Out :=
  .next (mgmtMsg port.val fr true ([0x0A] ++ le 2 lchan.toNat) s)

def execPlcResign (port : Fin 4) (fr : PlcFrame) (netid : BitVec 16) (s : State) : Out :=
  .next (mgmtMsg port.val fr true ([0x0B] ++ le 2 netid.toNat) s)

def execPlcForeign (port : Fin 4) (fr : PlcFrame) (netid : BitVec 16) (sf : BitVec 32) (s : State) : Out :=
  .next (mgmtMsg port.val fr true ([0x0C] ++ le 2 netid.toNat ++ le 4 sf.toNat) s)

/-- PAYLOAD_DECODED: the payload goes to Onyx as one WCLASS 6 item of PLEN + 1 bytes, ERR set where a codeword could not be corrected; the search
resumes at the sample after the frame (R375). Samples of the frame that were blanked are counted (R371). A payload whose check fails is delivered
with bytes that are free (log 2). A management frame of an MTYPE that Table 14.5 does not list is a violation (R388). -/
def execPayloadDecoded (port : Fin 4) (rsFail : Nat) (mags : List Nat) (fr : PlcFrame) (body : List Byte) (s : State) : Out :=
  let n := port.val
  let v := plcP s n
  .next (match v.rx with
    | .frame plen nsym ft stamp =>
      if !plcOn s n then s
      else
        let past := stamp.toNat * 1536 / 1000000 + 256 + 1152 * (1 + hdrSymbols (bandN s n) + nsym)
        let s1 := searchFrom n past (bumpN (plcCnt n 2) rsFail (bumpN (plcCnt n 4) (blanked s n mags) (setPlc n { v with rxStamp := stamp } s)))
        if ft = 5 ∧ rsFail = 0 ∧ !fr.bad ∧ !(decide (1 ≤ leAt body 0 1 ∧ leAt body 0 1 ≤ 12)) then mgmtIn n fr false body id s1
        else
          let p := if fr.bad then freeBytes plen s1 else padTo plen (linkPayload fr.hdr body)
          offer (mkItem 6 fr.hdr.prio.toNat 0x00 (0x50 + n) fr.hdr.lchan.toNat fr.hdr.seq stamp.toNat fr.hdr.settle
            (decide (rsFail ≠ 0) || fr.hdr.err) fr.hdr.last p) (tookFree s1)
    | _ => s)

/-! ### Timers (R405) -/

/-- BEACON_LOSS: the node is LOST and rejoins; under a RESIGN it rejoins its configured network (R391, R400, R404). -/
def execBeaconLoss (port : Fin 4) (s : State) : Out :=
  let n := port.val
  .next (if rd s (plcState n) = 3 ∧ rd s (plcBloss n) ≤ (plcP s n).silent ∧ onyxUp s then
      let s := wr (plcState n) 4 s
      plcAllLost n (startJoin n (rd s (plcNetid n)) (plcMe s n) s)
    else s)

/-- JOIN_LISTEN_END: the parent must carry the network sought and have FLAGS[0] set. -/
def execJoinListenEnd (port : Fin 4) (s : State) : Out :=
  let n := port.val
  let v := plcP s n
  .next (if v.join = .listen 0 ∧ v.parent.isSome ∧ v.bflags % 2 = 1 ∧ onyxUp s then
      sendJoin n (if rd s (plcState n) = 4 then s else wr (plcState n) 2 s)
    else s)

/-- JOIN_ANSWER_WAIT: again, with CW doubled up to 64. -/
def execJoinAnswerWait (port : Fin 4) (s : State) : Out :=
  let n := port.val
  let v := plcP s n
  .next (if v.join = .asked 0 ∧ onyxUp s then sendJoin n (setPlc n { v with cw := min 64 (2 * v.cw) } s) else s)

/-- NBR_REPORT_PERIOD. -/
def execNbrReportPeriod (port : Fin 4) (s : State) : Out :=
  let n := port.val
  let v := plcP s n
  let near := (v.nbrs.filter (fun e => decide (sfno s n < e.2.heardAt + 64))).take 104
  .next (if rd s (plcState n) = 3 ∧ rd s (plcNbrper n) ≤ v.sinceRep ∧ onyxUp s then
      mgmtOnce n (v.coord.getD 0xFFF) ([0x05, BitVec.ofNat 8 near.length] ++
        near.flatMap (fun e => le 2 e.1 ++ le 1 (linkCost e.2) ++ le 1 (toU 8 e.2.margin) ++ le 1 e.2.dec)) (setPlc n { v with sinceRep := 0 } s)
    else s)

/-- NODE_DROP: 4 reports in a row missed (R391). -/
def execNodeDrop (port : Fin 4) (node : BitVec 12) (s : State) : Out :=
  let n := port.val
  .next (match tblFind node.toNat (plcP s n).nodes with
    | some p => if plcCoord s n ∧ onyxUp s ∧ p.reportAt + 4 * rd s (plcNbrper n) ≤ sfno s n then dropNode n node.toNat s else s
    | none => s)

/-- LINK_ABSENT: nothing received for 64 superframes. -/
def execLinkAbsent (port : Fin 4) (node : BitVec 12) (s : State) : Out :=
  let n := port.val
  .next (match tblFind node.toNat (plcP s n).nbrs with
    | some b =>
      if b.heardAt + 64 ≤ sfno s n then
        let s := modPlc n (fun v => { v with nbrs := tblDel node.toNat v.nbrs, parent := if v.parent = some node.toNat then none else v.parent }) s
        if plcCoord s n ∧ onyxUp s then recompute n s else s
      else s
    | none => s)

/-- PLC_ASSURED_RETRY: after ARETRY superframes every segment from the oldest message is sent again; ALOSS intervals lose the path
(R399, R400). It goes on while Onyx restarts, the loss of a path apart (R403). -/
def execPlcAssuredRetry (port : Fin 4) (flow : BitVec 13) (s : State) : Out :=
  let n := port.val
  let fl := flow.toNat
  .next (match flow? s fl with
    | none => s
    | some f =>
      let out := f.out.filter (·.sent)
      let at' := tblGet (plcP s n).sentSf fl 0
      if f.fallen ≠ some n ∨ out.isEmpty ∨ !plcReady s n ∨ sfno s n < at' + rd s (plcAretry n) then s
      else if rd s (plcAloss n) ≤ f.misses + 1 ∧ onyxUp s then plcPathLost fl s
      else
        let cw (v : PlcPort) : Nat := if tblGet v.sentCont fl false then min 64 (2 * v.cw) else v.cw
        let s := modPlc n (fun v => { v with cw := cw v }) (setFlow fl (flowBumpN 40 out.length { f with misses := f.misses + 1 }) (bumpN (plcCnt n 19) out.length s))
        let s := out.foldl (fun s m => unqueue fl m.seq s) s
        let s := out.foldl (fun s m => plcMsg n fl f m.seq m.settle m.err m.payload s) s
        modPlc n (fun v => { v with sentSf := tblSet fl (sfno s n) v.sentSf,
                                    txq := v.txq.map (fun u => if u.flow = some fl then { u with tries := u.tries + 1 } else u) }) s)

/-- EMERGENCY_GRANT_IDLE. -/
def execEmergencyGrantIdle (port : Fin 4) (s : State) : Out :=
  let n := port.val
  let v := plcP s n
  .next (if plcCoord s n ∧ v.emown ≠ 0 ∧ rd s (plcEmidle n) ≤ v.emIdle ∧ onyxUp s then tryGrant n (endGrant n s) else s)

/-- VOICE_AGE: voice units at PLC_VAGE are discarded (R398). -/
def execVoiceAge (port : Fin 4) (s : State) : Out :=
  let n := port.val
  let v := plcP s n
  let old : PUnit → Bool := fun u => u.voice.isSome && decide (u.at' + rd s (plcVage n) * 1000 ≤ now s)
  .next ((v.txq.filter old).foldl (fun s u => voiceLost 6 0 u.voice none s) (setPlc n { v with txq := v.txq.filter (fun u => !old u) } s))

/-- RESIGN_ANNOUNCEMENT_END: the port stops beaconing and joins the surviving network as a node (R404). -/
def execResignAnnouncementEnd (port : Fin 4) (s : State) : Out :=
  let n := port.val
  let v := plcP s n
  .next (if v.resignLeft = some 0 ∧ onyxUp s then
      startJoin n v.seek (plcMe s n) (wr (plcState n) 6 (setPlc n { v with resignLeft := none, resigned := true, nodes := [] } s))
    else s)

/-- RESIGNED_PORT_ROLE_RESUME: no foreign beacon for BLOSS superframes. -/
def execResignedPortRoleResume (port : Fin 4) (s : State) : Out :=
  let n := port.val
  let v := plcP s n
  .next (if v.resigned ∧ rd s (plcBloss n) ≤ v.quiet ∧ onyxUp s ∧ flag s (plcEn n) then
      plcUp n (wr (plcState n) 5 (wr (plcHops n) 0 (setPlc n { v with resigned := false, join := .no, parent := none, cost := 0, foreign := [] } s)))
    else s)

end Sys2Proof.Machine
end

