-- ==== Sys2Proof/Machine/Tdm.lean ====
section
/-! DEFINITION. The TDM ports (R421 to R428, R430). -/

namespace Sys2Proof.Machine

/-! ### Registers of a port (Table 15.4) -/

def tdmRate (p : Nat) : Fld := tdm p 0x00 0 2
def tdmFlags (p : Nat) : Fld := tdm p 0x00 8 8
def tdmSlots (p : Nat) : Fld := tdm p 0x00 16 8
def tdmEn (p : Nat) : Fld := tdm p 0x00 31 1
def tdmAw (p : Nat) : Fld := tdm p 0x04 0 8
def tdmState (p : Nat) : Fld := tdm p 0x08 0 2
def tdmCand (p : Nat) : Fld := tdm p 0x08 4 4
def tdmAmbig (p : Nat) : Fld := tdm p 0x08 8 1
def tdmOffset (p : Nat) : Fld := tdm p 0x08 16 10
def tdmFsErr (p : Nat) : Fld := tdm p 0x10 0 32
def tdmAlignLoss (p : Nat) : Fld := tdm p 0x14 0 32
def tdmTxIdle (p : Nat) : Fld := tdm p 0x18 0 32
def tdmRxErr (p : Nat) : Fld := tdm p 0x1C 0 32
def tdmAmbigCnt (p : Nat) : Fld := tdm p 0x20 0 32
/-- Slot-map entry `k` of port `p`. -/
def tdmEntry (p k : Nat) : Fld := ⟨rk 4 (0x2000 + 0x200 * p + 4 * k), 0, 32⟩

def portInit : TdmPort :=
  { n := 0, prevFs := none, miss := 0, cands := [], ambig := 0, hist := [], err := false, settleAt := none, seq := 0, tx := [] }

def tdmPort (s : State) (p : Nat) : TdmPort := tblGet s.tdm p portInit

def setTdm (p : Nat) (v : TdmPort) (s : State) : State := { s with tdm := tblSet p v s.tdm }

/-- A port that TDM_PORT_CFG has configured: it has an entry in the table. -/
def tdmConf (s : State) (p : Nat) : Bool := (tblFind p s.tdm).isSome

/-- Slots in a frame, S_F (R421). -/
def frameSlots (rate : Nat) : Nat := 32 * 2 ^ rate

def inBand (s : State) (p : Nat) : Bool := decide (rd s (tdmFlags p) / 4 % 2 = 1)
def intFs (s : State) (p : Nat) : Bool := decide (rd s (tdmFlags p) / 2 % 2 = 1)
def intClk (s : State) (p : Nat) : Bool := decide (rd s (tdmFlags p) % 2 = 1)

/-! ### Slot-map entries (R423) -/

def entSlot (e : Nat) : Nat := e % 256
def entWidth (e : Nat) : Nat := e / 256 % 4
def entWb (e : Nat) : Bool := decide (e / 2048 % 2 = 1)
def entRx (e : Nat) : Bool := decide (e / 65536 % 2 = 1)
def entTx (e : Nat) : Bool := decide (e / 131072 % 2 = 1)
/-- Slots an entry takes. -/
def entLen (e : Nat) : Nat := (entWidth e + 1) * (if entWb e then 2 else 1)

def entLaw (e : Nat) : Bool := decide (e / 1024 % 2 = 1)

/-- Two entries with a common direction overlap. -/
def entClash (a b : Nat) : Bool :=
  ((entRx a && entRx b) || (entTx a && entTx b)) && decide (entSlot a < entSlot b + entLen b ∧ entSlot b < entSlot a + entLen a)

/-! ### Words (R421, R423) -/

/-- A-law expansion to 16 bits (ITU-T G.711; log 122). -/
def alawOut (b : Nat) : Int :=
  let x := b ^^^ 0x55
  let e := x / 16 % 8
  let m := (if e = 0 then x % 16 else x % 16 + 16) * 16 + 8
  let v : Int := (m * 2 ^ (e - 1) : Nat)
  if 128 ≤ x then v else -v

/-- The segment of a magnitude: halved until it is below `lim`, with how often. -/
def halve (lim : Nat) : Nat → Nat → Nat → Nat × Nat
  | 0, v, n => (v, n)
  | k + 1, v, n => if v < lim then (v, n) else halve lim k (v / 2) (n + 1)

/-- A-law compression of a 16-bit value. -/
def alawIn (v : Int) : Nat :=
  let m := (if v < 0 then (-v - 1).toNat else v.toNat) / 16
  let x := if m ≤ 15 then m else let (q, n) := halve 32 8 m 0; q - 16 + 16 * (n + 1)
  (if v < 0 then x else x + 128) ^^^ 0x55

/-- µ-law expansion to 16 bits. -/
def ulawOut (b : Nat) : Int :=
  let x := 255 - b
  let e := x / 16 % 8
  let v : Int := ((128 * 2 ^ e + 8 * 2 ^ e * (x % 16) + 4 * 2 ^ e : Nat) : Int) - 132
  if 128 ≤ b then v else -v

/-- µ-law compression of a 16-bit value. -/
def ulawIn (v : Int) : Nat :=
  let m := min 8191 ((if v < 0 then (-v - 1).toNat else v.toNat) / 4 + 33)
  let (_, n) := halve 64 8 m 0
  let x := 16 * (7 - n) + (15 - m / 2 ^ (n + 1) % 16)
  if v < 0 then x else x + 128

/-- A received word of an entry as Q1.23: its slots, most significant first. -/
def wordIn (e : Nat) (b : List Byte) : Int :=
  let v := b.foldl (fun a x => a * 256 + x.toNat) 0
  match entWidth e with
  | 0 => (if entLaw e then ulawOut v else alawOut v) * 256
  | 1 => sx 16 v * 256
  | _ => sx 24 v

/-- A Q1.23 value as the slots of an entry's word: compressed, or truncated towards minus infinity. -/
def wordOut (e : Nat) (v : Int) : List Byte :=
  match entWidth e with
  | 0 => [BitVec.ofNat 8 (if entLaw e then ulawIn (v / 256) else alawIn (v / 256))]
  | 1 => be 2 (toU 16 (v / 256))
  | _ => be 3 (toU 24 v)

/-- The idle word of an entry (R424). -/
def idleOut (e : Nat) : List Byte :=
  match entWidth e with
  | 0 => [if entLaw e then 0xFF else 0xD5]
  | 1 => [0, 0]
  | _ => [0, 0, 0]

/-- Words of an entry in a frame. -/
def entWords (e : Nat) : Nat := if entWb e then 2 else 1

/-- What an entry receives in a frame's slots, the older word first. -/
def entIn (e : Nat) (slots : List Byte) : List Int :=
  (fromN 0 (entWords e)).map (fun w => wordIn e ((slots.drop (entSlot e + w * (entWidth e + 1))).take (entWidth e + 1)))

/-- A frame's bits: the most significant bit of each slot first (R421). -/
def slotBits (b : List Byte) : List Bool := b.flatMap (fun x => (fromN 0 8).map (fun k => x.getLsbD (7 - k)))

/-- Bits as slots. -/
def bitSlots : Nat → List Bool → List Byte
  | 0, _ => []
  | n + 1, l => BitVec.ofNat 8 ((l.take 8).foldl (fun a b => a * 2 + b2n b) 0) :: bitSlots n (l.drop 8)

/-- The places, counted from `j`, at which 8 bits equal the alignment word. -/
def awScan (aw : List Bool) : Nat → List Bool → Nat → List Nat
  | 0, _, _ => []
  | n + 1, l, j => if l.take 8 = aw then j :: awScan aw n (l.drop 1) (j + 1) else awScan aw n (l.drop 1) (j + 1)

/-- The bit offsets at which the alignment word ended in the frame's worth of bits `cur`, which follows `prev` (R426). -/
def awOffsets (aw : Byte) (sf : Nat) (prev cur : List Byte) : List Nat :=
  let l := (slotBits prev).drop (8 * sf - 7) ++ slotBits cur
  (awScan (slotBits [aw]) (8 * sf) l 0).map (fun j => (j + 8 * sf - 7) % (8 * sf))

/-- The claim that binds entry `k` of port `p` to a channel. -/
def entryIdx (p k : Nat) : Nat := 0x8000 + 256 * p + k

/-- The channel entry `k` is bound to. -/
def entryChan (s : State) (p k : Nat) : Option Nat := (claimOf s 9 (entryIdx p k)).map (·.obj)

/-! ### Alignment -/

/-- A gain or loss of alignment after the enable has ended raises TDM_ALIGN (R425). -/
def alignNote (p : Nat) (gained : Bool) (s : State) : State :=
  if (tdmPort s p).settleAt.isSome then s else notify 9 (p + (if gained then 0x1000000 else 0)) 0 s

/-- The port becomes aligned, or loses alignment. -/
def setAligned (p offset : Nat) (s : State) : State := alignNote p true (wr (tdmOffset p) offset (wr (tdmState p) 2 s))
def setLost (p st : Nat) (s : State) : State :=
  if rd s (tdmState p) = 2 then alignNote p false (wr (tdmOffset p) 0 (wr (tdmState p) st s)) else wr (tdmState p) st s

/-- One frame under an external frame sync, seen at bit position `fs` of the present timing (R422). -/
def fsFrame (p : Nat) (fs : Option Nat) (rxSide : Bool) (s : State) : State :=
  let v := tdmPort s p
  let aligned := decide (rd s (tdmState p) = 2) || !rxSide
  match fs with
  | some 0 =>
    if aligned then setTdm p { v with prevFs := none, miss := 0 } s
    else if v.prevFs = some 0 then setAligned p 0 (setTdm p { v with prevFs := none, miss := 0 } s)
    else setTdm p { v with prevFs := some 0 } s
  | some q =>
    if aligned then
      let s := bump (tdmFsErr p) s
      if v.prevFs = some q then
        -- two at the same new position move the frame timing there
        setTdm p { v with prevFs := none, miss := 0, err := v.err || rxSide } (if rxSide then bump (tdmRxErr p) s else s)
      else if v.miss + 1 = 8 then (if rxSide then setLost p 0 else id) (setTdm p { v with prevFs := none, miss := 0 } s)
      else setTdm p { v with prevFs := some q, miss := v.miss + 1 } s
    else if v.prevFs = some q then setAligned p 0 (setTdm p { v with prevFs := none, miss := 0 } s)
    else setTdm p { v with prevFs := some q } s
  | none =>
    if aligned then
      if v.miss + 1 = 8 then (if rxSide then setLost p 0 else id) (setTdm p { v with prevFs := none, miss := 0 } s)
      else setTdm p { v with prevFs := none, miss := v.miss + 1 } s
    else setTdm p { v with prevFs := none } s

/-- New matches are taken up as places free, at most 8 candidates (R426). -/
def takeUp : List Nat → List TdmCand → List TdmCand
  | [], c => c
  | o :: t, c => if c.length < 8 ∧ !(c.any (fun x => x.offset == o)) then takeUp t (c ++ [{ offset := o, n := 1 }]) else takeUp t c

/-- One frame of the in-band search (R426) or of the check once aligned (R427). -/
def awFrame (p : Nat) (aws : List Nat) (s : State) : State :=
  let v := tdmPort s p
  let offs := aws.filter (fun o => decide (o < 8 * frameSlots (rd s (tdmRate p))))
  if rd s (tdmState p) = 2 then
    let hist := lastN 8 (v.hist ++ [offs.contains (rd s (tdmOffset p))])
    if 4 ≤ (hist.filter (fun b => !b)).length then
      wr (tdmCand p) 0 (setLost p 0 (bump (tdmAlignLoss p) (setTdm p { v with hist := [], cands := [], ambig := 0 } s)))
    else setTdm p { v with hist := hist } s
  else
    let kept := (v.cands.filter (fun c => offs.contains c.offset)).map (fun c => { c with n := c.n + 1 })
    let cs := takeUp offs kept
    let conf := (cs.filter (fun c => decide (3 ≤ c.n))).length
    match cs with
    | [c] =>
      if 3 ≤ c.n then setAligned p c.offset (wr (tdmCand p) 1 (setTdm p { v with cands := cs, ambig := 0, hist := [] } s))
      else wr (tdmState p) 1 (wr (tdmCand p) 1 (setTdm p { v with cands := cs, ambig := 0 } s))
    | _ =>
      let amb := if 2 ≤ conf then v.ambig + 1 else 0
      let s := wr (tdmState p) (if cs.isEmpty then 0 else 1) (wr (tdmCand p) cs.length s)
      if amb = 64 then bump (tdmAmbigCnt p) (wr (tdmAmbig p) 1 (setTdm p { v with cands := cs, ambig := 0 } s))
      else setTdm p { v with cands := cs, ambig := amb } s

/-- The slots of the frame just received: under in-band alignment at offset `a` it began in the bits before (R421, R426). -/
def rxSlots (sf a : Nat) (prev cur : List Byte) : List Byte :=
  if a = 0 then cur else bitSlots sf ((slotBits prev).drop a ++ slotBits cur)

/-- What the receive entries take from the frame, whose first bit was sampled at `at'` (R423, R424). -/
def takeRx (p at' : Nat) (slots : List Byte) (s : State) : State :=
  (fromN 0 (tdmPort s p).n).foldl (fun s k =>
    let e := rd s (tdmEntry p k)
    if entRx e then
      let v := tdmPort s p
      let had := tblGet v.rx k []
      setTdm p { v with rx := tblSet k (lastN (20 * entWords e) (had ++ entIn e slots)) v.rx,
                        rxAt := if had.isEmpty then tblSet k at' v.rxAt else v.rxAt } s
    else s) s

/-- Bytes put over a frame from a slot on. -/
def putSlots (o : Nat) (b : List Byte) (slots : List Byte) : List Byte := slots.take o ++ b ++ slots.drop (o + b.length)

/-- The frame that the port sends: the next samples of its transmit entries or their idle words, the alignment word in slot 0 under in-band
alignment; what a slot without an entry carries is the model's choice, zero (R421, R424; log 122). -/
def sendTx (p : Nat) (s : State) : State :=
  let sf := frameSlots (rd s (tdmRate p))
  let base := if inBand s p then putSlots 0 [BitVec.ofNat 8 (rd s (tdmAw p))] (List.replicate sf 0) else List.replicate sf 0
  let v := tdmPort s p
  let r := (fromN 0 v.n).foldl (fun (r : List Byte × Tbl TdmTx) k =>
    let e := rd s (tdmEntry p k)
    if entTx e then
      let t := tblGet r.2 k { waiting := [], left := 0 }
      let w := entWords e
      let b := (fromN 0 w).flatMap (fun j => match t.play[j]? with | some y => wordOut e y | none => idleOut e)
      (putSlots (entSlot e) b r.1, if t.play.isEmpty then r.2 else tblSet k { t with play := t.play.drop w } r.2)
    else r) (base, v.tx)
  setTdm p { v with out := r.1, tx := r.2 } s

/-- TDM_FRAME_END: what was received in the frame time, and where the frame sync was found (R421 to R424,
R426, R427). -/
def execTdmFrameEnd (port : Fin 16) (fsPos : Option (BitVec 10)) (rx : TdmData) (s : State) : Out :=
  let p := port.val
  .next (if !domOn s 6 || !flag s (tdmEn p) || rd s (tdmState p) == 3 then s
    else
      let ib := inBand s p
      let sf := frameSlots (rd s (tdmRate p))
      let cur := padTo sf rx.bytes
      let prev := (tdmPort s p).prev
      let a := rd s (tdmOffset p)
      let slots := rxSlots sf a prev cur
      let first := if a = 0 then rx.stamp.toNat else rx.stamp.toNat - 125000 + a * 125000 / (8 * sf)
      let s := sendTx p (takeRx p first slots (setTdm p { tdmPort s p with prev := cur } s))
      let s := if intFs s p then (if !ib && rd s (tdmState p) != 2 then setAligned p 0 s else s)
               else fsFrame p (fsPos.map (·.toNat)) (!ib) s
      let s := if ib then awFrame p (awOffsets (BitVec.ofNat 8 (rd s (tdmAw p))) sf prev cur) s else s
      if rd s (tdmState p) = 2 then s else bump (tdmRxErr p) (setTdm p { tdmPort s p with err := true } s))

/-- TDM_CLOCK_LOST (R422). -/
def execTdmClockLost (port : Fin 16) (s : State) : Out :=
  let p := port.val
  .next (if flag s (tdmEn p) && !intClk s p && rd s (tdmState p) != 3 then
    wr (tdmCand p) 0 (setLost p 3 (setTdm p { tdmPort s p with err := true, cands := [], prevFs := none, miss := 0 } s)) else s)

/-- TDM_CLOCK_RETURN: frame timing is regained as after FS_LOST (R422). -/
def execTdmClockReturn (port : Fin 16) (s : State) : Out :=
  let p := port.val
  .next (if rd s (tdmState p) = 3 then wr (tdmState p) 0 s else s)

/-- TDM_ENABLE_SETTLED: 16 frames after the start the enable ends with ALIGN (R425). -/
def execTdmEnableSettled (port : Fin 16) (s : State) : Out :=
  let p := port.val
  let v := tdmPort s p
  .next (if due s v.settleAt then
    finishWait (.tdm p) stOk (le 1 (b2n (rd s (tdmState p) = 2))) (setTdm p { v with settleAt := none } s) else s)

/-! ### Blocks at a TICK boundary (R424) -/

/-- A receive entry bound to a channel sends its block: the samples of the frames since its last, zeros with ERR out of alignment; samples of
frames of which no row has told are zero too (R422, R424; log 122). -/
def tdmRxEntry (p k e ch : Nat) (s : State) : State :=
  let v := tdmPort s p
  let n := 20 * entWords e
  let bad := v.err || rd s (tdmState p) != 2
  let got := tblGet v.rx k []
  let ys := if bad then [] else got
  let st := if got.isEmpty then (rtbNs s).toNat - 2500000 else tblGet v.rxAt k 0
  let s := setTdm p { v with rx := tblDel k v.rx } s
  match chan? s ch with
  | none => s
  | some c =>
    if c.st ≠ 2 then s
    else
      offer (mkItem 2 c.p.prio.toNat (0x10 + c.core) 0x59 ch v.seq st false bad true (padTo (3 * n) (ys.flatMap sampleBytes)))
        (setTdm p { tdmPort s p with seq := v.seq + 1 } s)

/-- A transmit entry bound to a channel plays its frames, or idle (R424); LAT_W2E of the channel follows (R297). -/
def tdmTxEntry (p k e ch : Nat) (s : State) : State :=
  let v := tdmPort s p
  let t := tblGet v.tx k { waiting := [], left := 0 }
  let put (x : TdmTx) (s : State) : State := setTdm p { tdmPort s p with tx := tblSet k x (tdmPort s p).tx } s
  let idle (s : State) : State := bumpN (tdmTxIdle p) (if entWb e then 40 else 20) s
  if 0 < t.left then (if t.play.isEmpty then idle else id) (put { t with left := t.left - 1 } s)
  else match t.waiting with
    | [] => idle (put { t with play := [] } s)
    | f :: r =>
      let lat := ((rtbNs s).toNat - f.stamp) / 1000
      let s := put { waiting := r, left := f.ticks - 1, play := f.samples } s
      if f.live then modChan ch (fun c => { c with stats := tblSet 100 lat c.stats }) s else idle s

/-- Every bound entry of every enabled port at a TICK boundary. -/
def tdmTick (s : State) : State :=
  if !domOn s 6 then s
  else s.tdm.foldl (fun s pe =>
    let p := pe.1
    if !flag s (tdmEn p) then s
    else
      let s := (fromN 0 pe.2.n).foldl (fun s k =>
        match entryChan s p k with
        | none => s
        | some ch =>
          let e := rd s (tdmEntry p k)
          let s := if entRx e then tdmRxEntry p k e ch s else s
          if entTx e then tdmTxEntry p k e ch s else s) s
      setTdm p { tdmPort s p with err := false } s) s

/-- The samples of a committed frame: linear Q1.23, 3 bytes each, as the items of R420 (log 122). -/
def frameSamples : Nat → List Byte → List Int
  | 0, _ => []
  | n + 1, b => sx 24 (unLe (b.take 3)) :: frameSamples n (b.drop 3)

/-- A committed voice frame reaches the transmit entry its channel is bound to. -/
def tdmFrame (i : Item) (s : State) : State :=
  let ch := i.wh.chan.toNat
  match s.claims.find? (fun c => c.cls == 9 && decide (0x8000 ≤ c.idx) && c.obj == ch && entTx (rd s (tdmEntry ((c.idx - 0x8000) / 256) (c.idx % 256)))) with
  | none => s
  | some c =>
    let p := (c.idx - 0x8000) / 256
    let k := c.idx % 256
    let v := tdmPort s p
    let t := tblGet v.tx k { waiting := [], left := 0 }
    let ticks := match chan? s ch with | some x => x.p.ptime.toNat | none => 1
    let f : TdmFrm := { ticks := ticks, stamp := (fullStamp s i.wh.stamp).toNat, live := decide (i.wh.len ≠ 0),
                        samples := frameSamples (i.payload.length / 3) i.payload }
    setTdm p { v with tx := tblSet k { t with waiting := t.waiting ++ [f] } v.tx } s

/-! ### Commands -/

/-- TDM_PORT_CFG (R421, R428). -/
def specTdmPortCfg (port rate flags slots : BitVec 8) : Spec where
  info := opalInfo 0x0505 10000
  par := firstRej [(decide (15 < port.toNat), badParam 0), (decide (2 < rate.toNat), badParam 1), (decide (127 < flags.toNat), badParam 2),
    (decide (slots.toNat < 1 ∨ frameSlots rate.toNat < slots.toNat), badParam 3)]
  st := fun s =>
    let p := port.toNat
    let same := rd s (tdmRate p) == rate.toNat && rd s (tdmSlots p) + 1 == slots.toNat &&
      decide (rd s (tdmFlags p) / 8 = flags.toNat / 8 ∧ rd s (tdmFlags p) % 4 = flags.toNat % 4)
    orRej (domRej s 6) (orRej (if flag s (tdmEn p) && !same then some (rej stBadState) else none) (orRej
      (claimRej s 9 p 0x59 p) (if 12 ≤ p then ballRej s (p - 12) 0x59 else none)))
  objs := [.tdm port.toNat]
  acc := fun _ s =>
    let p := port.toNat
    let s := claim 9 p 0x59 p s
    if 12 ≤ p then claim 2 (p - 12) 0x59 p s else s
  eff := fun s =>
    let p := port.toNat
    let ib := inBand s p
    let s := wr (tdmRate p) rate.toNat (wr (tdmFlags p) flags.toNat (wr (tdmSlots p) (slots.toNat - 1) (setTdm p (tdmPort s p) s)))
    if flag s (tdmEn p) && ib != inBand s p then
      ok (wr (tdmCand p) 0 (setLost p 0 (setTdm p { tdmPort s p with cands := [], hist := [], prevFs := none, miss := 0 } s)))
    else ok s

def execTdmPortCfg (h : Hdr) (port rate flags slots : BitVec 8) (s : State) : Out :=
  .next (scp h (.tdmPortCfg h port rate flags slots) (specTdmPortCfg port rate flags slots) s)

/-- The first field of an entry that R423 does not allow, as an offset within the entry. -/
def entFieldBad (e : Nat) : Option Nat :=
  if entWidth e = 3 ∨ e / 4096 % 16 ≠ 0 then some 1 else if e / 262144 % 64 ≠ 0 then some 2 else if e / 16777216 ≠ 0 then some 3 else none

/-- The first entry that R423 refuses for the port's configuration. -/
def entryBad (slots : Nat) (ib : Bool) (es : List Nat) : Option Nat :=
  (fromN 0 es.length).find? (fun k =>
    let e := es.getD k 0
    decide (slots < entSlot e + entLen e) || (ib && entSlot e == 0) || (es.take k).any (fun x => entClash x e))

/-- TDM_SLOTMAP (R423). -/
def specTdmSlotmap (h : Hdr) (port n : BitVec 8) (entries : List (BitVec 32)) : Spec where
  info := opalInfo 0x0506 10000
  par :=
    let es := entries.map (·.toNat)
    let bad := (fromN 0 es.length).find? (fun k => (entFieldBad (es.getD k 0)).isSome)
    firstRej [(decide (15 < port.toNat), badParam 0), (decide (n.toNat < 1 ∨ 128 < n.toNat), badParam 1), (!h.indirect, badParam 2),
      (decide (es.length < n.toNat), badLength (2 + 4 * es.length)), (decide (n.toNat < es.length), badLength (2 + 4 * n.toNat)),
      (bad.isSome, badParam (2 + 4 * bad.getD 0 + (entFieldBad (es.getD (bad.getD 0) 0)).getD 0))]
  st := fun s =>
    let p := port.toNat
    let es := entries.map (·.toNat)
    let bad := entryBad (rd s (tdmSlots p) + 1) (inBand s p) es
    let bound := s.claims.find? (fun c => c.cls == 9 && decide (0x8000 + 256 * p ≤ c.idx ∧ c.idx < 0x8100 + 256 * p) &&
      decide (es[c.idx % 256]? ≠ some (rd s (tdmEntry p (c.idx % 256)))))
    orRej (domRej s 6) (orRej (if !tdmConf s p then some (rej stBadState) else none) (orRej
      (bad.map (fun k => badParam (2 + 4 * k))) (bound.map (conflict s))))
  objs := [.tdm port.toNat]
  eff := fun s =>
    let p := port.toNat
    let old := (tdmPort s p).n
    let s := setTdm p { tdmPort s p with n := n.toNat } s
    let s := (fromN n.toNat (old - n.toNat)).foldl (fun s k => wr (tdmEntry p k) 0 s) s
    ok ((fromN 0 n.toNat).foldl (fun s k => wr (tdmEntry p k) (entries.getD k 0).toNat s) s)

def execTdmSlotmap (h : Hdr) (port n : BitVec 8) (entries : List (BitVec 32)) (s : State) : Out :=
  .next (scp h (.tdmSlotmap h port n entries) (specTdmSlotmap h port n entries) s)

/-- TDM_PORT_STATE, action 1: the port starts, and its FINAL entry follows 16 frames later (R425). -/
def specTdmPortEnable (port : BitVec 8) : Spec where
  info := opalInfo 0x0507 1000000
  par := if 15 < port.toNat then some (badParam 0) else none
  st := fun s => orRej (domRej s 6) (if tdmConf s port.toNat then none else some (rej stBadState))
  objs := [.tdm port.toNat]
  eff := fun s =>
    let p := port.toNat
    if flag s (tdmEn p) then .wait (.tdm p) (setTdm p { tdmPort s p with settleAt := some (now s + 2000) } s)
    else
      let v := { tdmPort s p with prevFs := none, miss := 0, cands := [], ambig := 0, hist := [], err := false,
                                  settleAt := some (now s + 2000) }
      .wait (.tdm p) (wr (tdmEn p) 1 (wr (tdmCand p) 0 (wr (tdmState p) (if intFs s p && !inBand s p then 2 else 0) (setTdm p v s))))

def execTdmPortEnable (h : Hdr) (port : BitVec 8) (s : State) : Out :=
  .next (scp h (.tdmPortEnable h port) (specTdmPortEnable port) s)

/-- TDM_PORT_STATE, action 0: the port stops, and its claims are released (Table 19.4); ALIGN is 0. -/
def specTdmPortDisable (port : BitVec 8) : Spec where
  info := opalInfo 0x0507 1000000
  par := if 15 < port.toNat then some (badParam 0) else none
  st := fun s => domRej s 6
  objs := [.tdm port.toNat]
  eff := fun s =>
    let p := port.toNat
    let s := unclaimIf (fun c => (c.cls == 9 && c.idx == p) || (c.cls == 2 && c.holder == 0x59 && c.obj == p)) s
    let s := if tdmConf s p then setTdm p { tdmPort s p with settleAt := none, tx := [] } s else s
    okRes [0] (wr (tdmEn p) 0 (wr (tdmState p) 0 (wr (tdmCand p) 0 (wr (tdmOffset p) 0 s))))

def execTdmPortDisable (h : Hdr) (port : BitVec 8) (s : State) : Out :=
  .next (scp h (.tdmPortDisable h port) (specTdmPortDisable port) s)

end Sys2Proof.Machine
end

