-- ==== Sys2Proof/Machine/Inflate.lean ====
section
/-! DEFINITION. Check values, Huffman codes, and the inflate decoder of Topaz, one bit at a time, so that a stream may stop and go on at any
bit (RFC 1950, RFC 1951 and RFC 1952 as R442, R443, R446 and R449 have them). -/

namespace Sys2Proof.Machine

/-! ### Check values (R442) -/

/-- One byte into Adler-32. -/
def adlerByte (c : Nat) (b : Byte) : Nat :=
  let a := (c % 65536 + b.toNat) % 65521
  a + (c / 65536 + a) % 65521 * 65536

/-- One bit of the reflected polynomial of RFC 1952. -/
def crcZBit (c : Nat) : Nat := if c % 2 = 1 then (c / 2) ^^^ 0xEDB88320 else c / 2

/-- One byte into the CRC-32 register of RFC 1952. -/
def crcZByte (c : Nat) (b : Byte) : Nat := crcZBit (crcZBit (crcZBit (crcZBit (crcZBit (crcZBit (crcZBit (crcZBit (c ^^^ b.toNat))))))))

/-- The check value of a new stream. -/
def checkStart (wrap : Nat) : BitVec 32 := if wrap = 1 then 1 else 0

/-- The check value carried on over more uncompressed data: Adler-32 for zlib, the CRC-32 of RFC 1952 for gzip and raw (R442). -/
def checkOver (wrap : Nat) (c : BitVec 32) (d : List Byte) : BitVec 32 :=
  if wrap = 1 then BitVec.ofNat 32 (d.foldl adlerByte c.toNat)
  else BitVec.ofNat 32 (d.foldl crcZByte (c.toNat ^^^ 0xFFFFFFFF) ^^^ 0xFFFFFFFF)

/-! ### Bits -/

/-- `n` bits of `v`, least significant first. -/
def bitsOf (n v : Nat) : List Bool :=
  match n with
  | 0 => []
  | n + 1 => decide (v % 2 = 1) :: bitsOf n (v / 2)

/-- The bits of bytes, in the order in which they are packed. -/
def bytesBits (b : List Byte) : List Bool := b.flatMap (fun x => bitsOf 8 x.toNat)

/-- The value of bits given least significant first. -/
def bitsVal : List Bool → Nat
  | [] => 0
  | b :: t => b2n b + 2 * bitsVal t

/-! ### Huffman codes (RFC 1951, 3.2.2) -/

/-- How many symbols have codes of `l` bits. -/
def lenCount (lens : List Nat) (l : Nat) : Nat := (lens.filter (· == l)).length

/-- The first code of `l` bits. -/
def firstCode (lens : List Nat) : Nat → Nat
  | 0 => 0
  | l + 1 => 2 * (firstCode lens l + if l = 0 then 0 else lenCount lens l)

/-- The code of a symbol, its first bit first. -/
def codeOf (lens : List Nat) (sym : Nat) : List Bool :=
  let l := lens.getD sym 0
  (bitsOf l (firstCode lens l + lenCount (lens.take sym) l)).reverse

/-- The number of the `k`-th symbol with a code of `l` bits, counted from `i`. -/
def nthLen (l : Nat) : List Nat → Nat → Nat → Option Nat
  | [], _, _ => none
  | x :: t, k, i => if x = l then (match k with | 0 => some i | k + 1 => nthLen l t k (i + 1)) else nthLen l t k (i + 1)

/-- The symbol whose code is the `l` bits `c`, if there is one. -/
def symOf (lens : List Nat) (l c : Nat) : Option Nat :=
  if l = 0 ∨ c < firstCode lens l then none else nthLen l lens (c - firstCode lens l) 0

/-- The room that the codes take of 32,768: more is over-subscribed, less is incomplete. -/
def kraft (lens : List Nat) : Nat := sumOf (fun l => if l = 0 then 0 else 2 ^ (15 - l)) lens

/-- The longest code. -/
def maxLen (lens : List Nat) : Nat := lens.foldl max 0

/-- Code lengths of a fixed-Huffman block. -/
def fixedLit : List Nat := List.replicate 144 8 ++ List.replicate 112 9 ++ List.replicate 24 7 ++ List.replicate 8 8
def fixedDist : List Nat := List.replicate 32 5

/-- Lengths 257 to 285: base and extra bits. -/
def lenTab : List (Nat × Nat) :=
  [(3, 0), (4, 0), (5, 0), (6, 0), (7, 0), (8, 0), (9, 0), (10, 0), (11, 1), (13, 1), (15, 1), (17, 1), (19, 2), (23, 2), (27, 2), (31, 2)] ++
  [(35, 3), (43, 3), (51, 3), (59, 3), (67, 4), (83, 4), (99, 4), (115, 4), (131, 5), (163, 5), (195, 5), (227, 5), (258, 0)]

/-- Distances 0 to 29: base and extra bits. -/
def distTab : List (Nat × Nat) :=
  [(1, 0), (2, 0), (3, 0), (4, 0), (5, 1), (7, 1), (9, 2), (13, 2), (17, 3), (25, 3), (33, 4), (49, 4), (65, 5), (97, 5), (129, 6)] ++
  [(193, 6), (257, 7), (385, 7), (513, 8), (769, 8), (1025, 9), (1537, 9), (2049, 10), (3073, 10), (4097, 11), (6145, 11), (8193, 12),
   (12289, 12), (16385, 13), (24577, 13)]

/-- The order in which the lengths of the code-length code are sent. -/
def clOrder : List Nat := [16, 17, 18, 0, 8, 7, 9, 6, 10, 5, 11, 4, 12, 3, 13, 2, 14, 1, 15]

/-! ### The decoder -/

/-- A decoder at the start of a stream. -/
def infStart (wrap : Nat) : Inf :=
  { ph := if wrap = 1 then .zCmf else if wrap = 2 then .gHdr 0 else .blk, n := 0, v := 0, fin := false, lit := [], dist := [], cl := [], lens := [],
    hlit := 0, hdist := 0, hclen := 0, len := 0, flg := 0, hcrc := 0xFFFFFFFF }

/-- What one bit brings: the decoder goes on, with bytes decoded, or an error of Table 16.4. -/
inductive InfOut where
  | go (i : Inf) (out : List Byte)
  | err (e : Nat)
  deriving DecidableEq, Repr

/-- On to the next field. -/
def Inf.to (i : Inf) (ph : InfPh) : Inf := { i with ph := ph, n := 0, v := 0 }

/-- After part `k` of a gzip header: FEXTRA, FNAME, FCOMMENT and FHCRC where FLG has them, then the blocks. -/
def gzipNext (k : Nat) (i : Inf) : Inf :=
  if k ≤ 0 ∧ i.flg / 4 % 2 = 1 then i.to .gXlen
  else if k ≤ 1 ∧ i.flg / 8 % 2 = 1 then i.to .gName
  else if k ≤ 2 ∧ i.flg / 16 % 2 = 1 then i.to .gComm
  else if k ≤ 3 ∧ i.flg / 2 % 2 = 1 then i.to .gHcrc
  else i.to .blk

/-- Which byte of a gzip header's first ten is wrong: ID1, ID2, CM, or reserved bits of FLG. -/
def gzipBad (k v : Nat) : Bool :=
  decide ((k = 0 ∧ v ≠ 0x1F) ∨ (k = 1 ∧ v ≠ 0x8B) ∨ (k = 2 ∧ v ≠ 8) ∨ (k = 3 ∧ 32 ≤ v))

/-- A block has ended: the next one's header, or the trailer. `last` says that the bit read was the last of its byte. -/
def blockEnd (wrap : Nat) (last : Bool) (i : Inf) : Inf :=
  if !i.fin then i.to .blk
  else if wrap = 0 then i.to .done
  else if last then i.to (if wrap = 1 then .tAdler else .tCrc) else i.to .endPad

/-- All the code lengths have been read: they are checked in the order of Table 16.4. -/
def dynEnd (i : Inf) : InfOut :=
  let lit := i.lens.take i.hlit
  let dist := (i.lens.drop i.hlit).take i.hdist
  if kraft lit ≠ 32768 then .err 0x13
  else if 32768 < kraft dist ∨ (kraft dist < 32768 ∧ 1 < (dist.filter (· != 0)).length) then .err 0x14
  else if lit.getD 256 0 = 0 then .err 0x17
  else .go ({ i with lit := lit, dist := dist }.to .sym) []

/-- Code lengths are added to those read. -/
def dynPush (l : List Nat) (i : Inf) : InfOut :=
  let i := { i with lens := i.lens ++ l }
  if i.hlit + i.hdist < i.lens.length then .err 0x16
  else if i.lens.length = i.hlit + i.hdist then dynEnd i else .go (i.to .lens) []

/-- The code-length code by symbol. -/
def clenTable (l : List Nat) : List Nat :=
  (fromN 0 19).map (fun s => match firstIdx (· == s) clOrder with | some k => l.getD k 0 | none => 0)

/-- The bytes of a match, of which the newest bytes come first in `hist`. -/
def matchBytes (hist : List Byte) (d len : Nat) : List Byte :=
  let p := (hist.take d).reverse
  (fromN 0 len).map (fun k => p.getD (k % d) 0)

/-- A match is known: DIST_TOO_FAR beyond the bytes produced in the stream, or beyond 32,768. -/
def matchOut (hist : List Byte) (total d : Nat) (i : Inf) : InfOut :=
  if total < d ∨ 32768 < d then .err 0x19 else .go (i.to .sym) (matchBytes hist d i.len)

/-- A symbol of the literal/length code. -/
def litSym (wrap : Nat) (last : Bool) (k : Nat) (i : Inf) : InfOut :=
  if k < 256 then .go (i.to .sym) [BitVec.ofNat 8 k]
  else if k = 256 then .go (blockEnd wrap last i) []
  else match lenTab[k - 257]? with
    | none => .err 0x18
    | some (base, 0) => .go ({ i with len := base }.to .dst) []
    | some _ => .go (i.to (.lenX (k - 257))) []

/-- A symbol of the distance code. -/
def distSym (hist : List Byte) (total k : Nat) (i : Inf) : InfOut :=
  match distTab[k]? with
  | none => .err 0x18
  | some (base, 0) => matchOut hist total base i
  | some _ => .go (i.to (.dstX k)) []

/-- One bit into the decoder: WRAP, whether the bit is the last of its byte, the bytes decoded before (newest first), how many the stream has
had, and their check value. -/
def infBit (wrap : Nat) (last : Bool) (hist : List Byte) (total : Nat) (check : BitVec 32) (i : Inf) (b : Bool) : InfOut :=
  -- a field, least significant bit first; a Huffman code, first bit first
  let f := { i with n := i.n + 1, v := i.v + b2n b * 2 ^ i.n }
  let c := { i with n := i.n + 1, v := 2 * i.v + b2n b }
  let crc (n : Nat) : Nat := (le n f.v).foldl crcZByte f.hcrc
  match i.ph with
  | .zCmf => if f.n < 8 then .go f [] else if f.v % 16 ≠ 8 ∨ 7 < f.v / 16 then .err 0x20 else .go ({ f with flg := f.v }.to .zFlg) []
  | .zFlg => if f.n < 8 then .go f [] else if (f.flg * 256 + f.v) % 31 ≠ 0 then .err 0x20 else if f.v / 32 % 2 = 1 then .err 0x21 else .go (f.to .blk) []
  | .gHdr k =>
    if f.n < 8 then .go f []
    else if gzipBad k f.v then .err 0x28
    else
      let g := { f with hcrc := crc 1, flg := if k = 3 then f.v else f.flg }
      .go (if k < 9 then g.to (.gHdr (k + 1)) else gzipNext 0 g) []
  | .gXlen =>
    if f.n < 16 then .go f []
    else
      let g := { f with hcrc := crc 2, len := f.v }
      .go (if f.v = 0 then gzipNext 1 g else g.to .gXtra) []
  | .gXtra =>
    if f.n < 8 then .go f []
    else
      let g := { f with hcrc := crc 1, len := f.len - 1 }
      .go (if g.len = 0 then gzipNext 1 g else g.to .gXtra) []
  | .gName => if f.n < 8 then .go f [] else let g := { f with hcrc := crc 1 }; .go (if f.v = 0 then gzipNext 2 g else g.to .gName) []
  | .gComm => if f.n < 8 then .go f [] else let g := { f with hcrc := crc 1 }; .go (if f.v = 0 then gzipNext 3 g else g.to .gComm) []
  | .gHcrc => if f.n < 16 then .go f [] else if f.v ≠ (f.hcrc ^^^ 0xFFFFFFFF) % 65536 then .err 0x29 else .go (f.to .blk) []
  | .blk =>
    if f.n < 3 then .go f []
    else
      let g := { f with fin := decide (f.v % 2 = 1) }
      let t := f.v / 2
      if t = 0 then .go (g.to (if last then .slen else .pad)) []
      else if t = 1 then .go ({ g with lit := fixedLit, dist := fixedDist }.to .sym) []
      else if t = 2 then .go (g.to .dyn) []
      else .err 0x10
  | .pad => .go (if last then i.to .slen else i) []
  | .slen =>
    if f.n < 32 then .go f []
    else if f.v % 65536 + f.v / 65536 ≠ 65535 then .err 0x11
    else if f.v % 65536 = 0 then .go (blockEnd wrap last f) [] else .go ({ f with len := f.v % 65536 }.to .copy) []
  | .copy =>
    if f.n < 8 then .go f []
    else
      let g := { f with len := f.len - 1 }
      .go (if g.len = 0 then blockEnd wrap last g else g.to .copy) [BitVec.ofNat 8 f.v]
  | .dyn =>
    if f.n < 14 then .go f []
    else .go ({ f with hlit := f.v % 32 + 257, hdist := f.v / 32 % 32 + 1, hclen := f.v / 1024 + 4, lens := [] }.to .clen) []
  | .clen =>
    if f.n < 3 then .go f []
    else
      let g := { f with lens := f.lens ++ [f.v] }
      if g.lens.length < g.hclen then .go (g.to .clen) []
      else
        let cl := clenTable g.lens
        if kraft cl ≠ 32768 then .err 0x12 else .go ({ g with cl := cl, lens := [] }.to .lens) []
  | .lens =>
    match symOf i.cl c.n c.v with
    | none => .go c []
    | some k => if k < 16 then dynPush [k] c else if k = 16 ∧ c.lens = [] then .err 0x15 else .go (c.to (.rep k)) []
  | .rep k =>
    if f.n < (if k = 16 then 2 else if k = 17 then 3 else 7) then .go f []
    else if k = 16 then dynPush (List.replicate (3 + f.v) (f.lens.getLast?.getD 0)) f
    else dynPush (List.replicate ((if k = 17 then 3 else 11) + f.v) 0) f
  | .sym => match symOf i.lit c.n c.v with | none => .go c [] | some k => litSym wrap last k c
  | .lenX k =>
    let (base, x) := lenTab.getD k (0, 0)
    if f.n < x then .go f [] else .go ({ f with len := base + f.v }.to .dst) []
  | .dst =>
    match symOf i.dist c.n c.v with
    | some k => distSym hist total k c
    | none => if maxLen i.dist ≤ c.n then .err (if Config.noDistCode then 0x14 else 0x18) else .go c []
  | .dstX k =>
    let (base, x) := distTab.getD k (0, 0)
    if f.n < x then .go f [] else matchOut hist total (base + f.v) f
  | .endPad => .go (if last then i.to (if wrap = 1 then .tAdler else .tCrc) else i) []
  | .tAdler => if f.n < 32 then .go f [] else if unBe (le 4 f.v) ≠ check.toNat then .err 0x22 else .go (f.to .done) []
  | .tCrc => if f.n < 32 then .go f [] else if f.v ≠ check.toNat then .err 0x2A else .go (f.to .tIsize) []
  | .tIsize => if f.n < 32 then .go f [] else if f.v ≠ total % 4294967296 then .err 0x2B else .go (f.to .done) []
  | .done => .go i []

/-! ### A job's inflation -/

/-- A context after more uncompressed bytes of its stream. -/
def ctxGrow (c : TpzCtx) (d : List Byte) : TpzCtx :=
  { c with check := checkOver c.wrap c.check d, total := c.total + d.length, window := (d.reverse ++ c.window).take 32768 }

/-- Output into a chain with `room` bytes left: what fits, and the rest held in the context (R446). -/
def ctxPut (c : TpzCtx) (room : Nat) (d : List Byte) : List Byte × TpzCtx := (d.take room, { c with held := d.drop room })

/-- How a job stops: ERR, the bits or bytes of input left, its output, and its context. -/
structure TpzStop where
  err : Nat
  left : Nat
  out : List Byte
  ctx : TpzCtx
  deriving DecidableEq, Repr

/-- Decode the `left` bits of `bits` until an error, the end of the stream, a full chain with output held, or the end of the input. -/
def infRun : List Bool → Nat → Nat → TpzCtx → List Byte → TpzStop
  | bits, left, room, c, out =>
    if c.held ≠ [] then { err := 1, left := left, out := out, ctx := { c with res := bits.take (left % 8) } }
    else if c.inf.ph = .done then { err := 0, left := left, out := out, ctx := c }
    else match bits with
      | [] => { err := 0, left := 0, out := out, ctx := c }
      | b :: t =>
        match infBit c.wrap (left % 8 == 1) c.window c.total c.check c.inf b with
        | .err e => { err := e, left := left, out := out, ctx := c }
        | .go i d =>
          let (w, c') := ctxPut (ctxGrow { c with inf := i } d) room d
          infRun t (left - 1) (room - w.length) c' (out ++ w)

end Sys2Proof.Machine
end

