-- ==== Sys2Proof/Machine/Deflate.lean ====
section
/-! DEFINITION. The deflate engine of Topaz: match search, blocks, wrappers, and a job over the blocks of its input (R441, R442, R444, R446). -/

namespace Sys2Proof.Machine

/-! ### Bits into bytes -/

/-- Whole bytes of bits, first bit least significant, and the bits short of a byte. -/
def packBits : List Bool → List Byte × List Bool
  | a :: b :: c :: d :: e :: f :: g :: h :: t =>
    let (o, r) := packBits t
    (BitVec.ofNat 8 (bitsVal [a, b, c, d, e, f, g, h]) :: o, r)
  | r => ([], r)

/-- Zero bits up to a byte boundary. -/
def padBits (l : List Bool) : List Bool := l ++ List.replicate ((8 - l.length % 8) % 8) false

/-! ### The match search (R444, Table 16.3) -/

/-- A literal byte, or a match. -/
inductive Lz where
  | lit (b : Byte)
  | mat (len dist : Nat)
  deriving DecidableEq, Repr

/-- How many of the first bytes of two lists agree. -/
def commonLen : List Byte → List Byte → Nat
  | a :: s, b :: t => if a = b then commonLen s t + 1 else 0
  | _, _ => 0

/-- The length of the match at distance `d`, at most 258; `hist` has the newest byte first. -/
def lzLen (hist rest : List Byte) (d : Nat) : Nat := commonLen (((hist.take d).reverse ++ rest).take 258) rest

/-- The longest match of 3 bytes or more among at most `depth` earlier positions no more than 32,768 bytes back, the first of equals (log 109). -/
def bestMatch (depth : Nat) (hist rest : List Byte) : Option (Nat × Nat) :=
  (((Config.hashChain hist rest).take depth).filter (fun d => decide (1 ≤ d ∧ d ≤ min 32768 hist.length))).foldl (fun best d =>
    let n := lzLen hist rest d
    if n < 3 then best else match best with | some (m, _) => if m < n then some (n, d) else best | none => some (n, d)) none

/-- Chain depth of an effort. -/
def depthOf (effort : Nat) : Nat := ([0, 1, 4, 8, 16, 32, 64, 128, 256] : List Nat).getD effort 0

/-- Literals and matches over `rest`: a lazy search puts a match off by one position when the next position gives a longer one. -/
def lzWalk (lazy : Bool) (depth : Nat) : Nat → List Byte → List Byte → List Lz
  | 0, _, _ => []
  | _, _, [] => []
  | n + 1, hist, b :: t =>
    match bestMatch depth hist (b :: t) with
    | none => .lit b :: lzWalk lazy depth n (b :: hist) t
    | some (len, d) =>
      if lazy && decide (len < ((bestMatch depth (b :: hist) t).getD (0, 0)).1) then .lit b :: lzWalk lazy depth n (b :: hist) t
      else .mat len d :: lzWalk lazy depth n (((b :: t).take len).reverse ++ hist) ((b :: t).drop len)

/-- What the effort makes of a block's bytes. -/
def lzOf (effort : Nat) (hist d : List Byte) : List Lz := lzWalk (decide (4 ≤ effort)) (depthOf effort) d.length hist d

/-! ### Symbols (RFC 1951, 3.2.5) -/

/-- The number of the last row whose base is no more than `v`. -/
def rowOf (tab : List (Nat × Nat)) (v : Nat) : Nat := (tab.filter (fun e => decide (e.1 ≤ v))).length - 1

/-- The literal/length symbols and the distance symbols of a token. -/
def Lz.lits : Lz → List Nat
  | .lit b => [b.toNat]
  | .mat len _ => [257 + rowOf lenTab len]

def Lz.dists : Lz → List Nat
  | .lit _ => []
  | .mat _ d => [rowOf distTab d]

/-- A value's extra bits in its row. -/
def extraBits (tab : List (Nat × Nat)) (v : Nat) : List Bool :=
  let (base, x) := tab.getD (rowOf tab v) (0, 0)
  bitsOf x (v - base)

def Lz.bits (lit dist : List Nat) : Lz → List Bool
  | .lit b => codeOf lit b.toNat
  | .mat len d => codeOf lit (257 + rowOf lenTab len) ++ extraBits lenTab len ++ codeOf dist (rowOf distTab d) ++ extraBits distTab d

/-! ### Blocks (R441) -/

/-- How often each of `n` symbols occurs. -/
def countSyms (n : Nat) (l : List Nat) : List Nat := (fromN 0 n).map (fun k => (l.filter (· == k)).length)

/-- What a decoder makes of the bits of a dynamic header. -/
def dynRead : List Bool → Inf → Option Inf
  | [], i => if i.ph = .sym then some i else none
  | b :: t, i => if i.ph = .sym then none else match infBit 0 false [] 0 0 i b with | .go j _ => dynRead t j | .err _ => none

/-- The header that a dynamic block has where nothing better is known: flat codes over all 286 and 30 symbols. -/
def flatLit : List Nat := List.replicate 226 8 ++ List.replicate 60 9
def flatDist : List Nat := List.replicate 2 4 ++ List.replicate 28 5
def flatHeader : List Bool :=
  let cl (k : Nat) : Nat := if k = 4 ∨ k = 5 ∨ k = 8 ∨ k = 9 then 2 else 0
  let code := (fromN 0 19).map cl
  bitsOf 5 29 ++ bitsOf 5 29 ++ bitsOf 4 8 ++ (clOrder.take 12).flatMap (fun k => bitsOf 3 (cl k)) ++ (flatLit ++ flatDist).flatMap (codeOf code)

/-- Every symbol that occurs has a code. -/
def coded (counts lens : List Nat) : Bool := (fromN 0 counts.length).all (fun k => counts.getD k 0 == 0 || lens.getD k 0 != 0)

/-- The header of a dynamic block and the code lengths in it: the engine's, where a decoder reads it and it has a code for all that occurs. -/
def dynOf (lits dists : List Nat) : List Bool × List Nat × List Nat :=
  let h := Config.dynHeader lits dists
  match dynRead h { infStart 0 with ph := .dyn } with
  | some i => if coded lits i.lit && coded dists i.dist then (h, i.lit, i.dist) else (flatHeader, flatLit, flatDist)
  | none => (flatHeader, flatLit, flatDist)

/-- The bits of a block after the `n` bits before it: stored at EFFORT 0; dynamic or fixed Huffman codes above it, by FLAGS[0]. -/
def blockBits (effort flags : Nat) (fin : Bool) (n : Nat) (hist d : List Byte) : List Bool :=
  if effort = 0 then
    fin :: false :: false :: List.replicate ((8 - (n + 3) % 8) % 8) false ++ bitsOf 16 d.length ++ bitsOf 16 (65535 - d.length) ++ bytesBits d
  else
    let z := lzOf effort hist d
    if flags % 2 = 1 then
      let (h, lit, dist) := dynOf (countSyms 286 (z.flatMap Lz.lits ++ [256])) (countSyms 30 (z.flatMap Lz.dists))
      fin :: false :: true :: h ++ z.flatMap (Lz.bits lit dist) ++ codeOf lit 256
    else fin :: true :: false :: z.flatMap (Lz.bits fixedLit fixedDist) ++ codeOf fixedLit 256

/-! ### Wrappers (R442) -/

/-- The header of a stream: CMF 0x78 with FLEVEL by EFFORT, and FCHECK; or gzip's ten bytes. -/
def wrapHeader (wrap effort : Nat) : List Byte :=
  if wrap = 1 then
    let flg := 64 * (if effort ≤ 1 then 0 else if effort ≤ 5 then 1 else if effort = 6 then 2 else 3)
    [0x78, BitVec.ofNat 8 (flg + (31 - (0x7800 + flg) % 31) % 31)]
  else if wrap = 2 then [0x1F, 0x8B, 8, 0, 0, 0, 0, 0, 0, 255]
  else []

/-- The trailer: Adler-32, or CRC-32 and ISIZE. -/
def wrapTrailer (c : TpzCtx) : List Byte :=
  if c.wrap = 1 then be 4 c.check.toNat else if c.wrap = 2 then le 4 c.check.toNat ++ le 4 c.total else []

/-! ### A job's deflation -/

/-- A context at the start of a stream. -/
def streamStart (op wrap effort : Nat) : TpzCtx :=
  { st := 2, op := op, wrap := wrap, check := checkStart wrap, held := if op = 0 then wrapHeader wrap effort else [], inf := infStart wrap }

/-- A block of `d`, held in the context: the last block of a stream is padded and has the trailer after it. -/
def defBlock (effort flags : Nat) (fin : Bool) (d : List Byte) (c : TpzCtx) : TpzCtx :=
  let bits := c.res ++ blockBits effort flags fin c.res.length c.window d
  let g := ctxGrow c d
  if fin then { g with held := (packBits (padBits bits)).1 ++ wrapTrailer g, res := [], ended := true }
  else { g with held := (packBits bits).1, res := (packBits bits).2 }

/-- The blocks of a job's input. -/
def defChunks : Nat → List Byte → List (List Byte)
  | 0, _ => []
  | n + 1, d => if d = [] then [] else d.take 65535 :: defChunks n (d.drop 65535)

/-- Block after block, until the chain is full with output held or the input is used up. -/
def defRun (effort flags : Nat) : List (List Byte) → Nat → TpzCtx → List Byte → TpzStop
  | [], _, c, out => { err := if c.held = [] then 0 else 1, left := 0, out := out, ctx := c }
  | d :: t, room, c, out =>
    if c.held ≠ [] then { err := 1, left := 8 * sumOf List.length (d :: t), out := out, ctx := c }
    else
      let b := defBlock effort flags (decide (flags / 4 % 2 = 1) && t.isEmpty) d c
      let (w, c') := ctxPut b room b.held
      defRun effort flags t (room - w.length) c' (out ++ w)

/-- A deflate job over its whole input: an empty final job makes the final block; nothing follows a stream that has ended. -/
def defJob (effort flags : Nat) (d : List Byte) (room : Nat) (c : TpzCtx) (out : List Byte) : TpzStop :=
  if c.ended then { err := if d = [] then 0 else 2, left := 8 * d.length, out := out, ctx := c }
  else
    let l := defChunks (d.length / 65535 + 1) d
    defRun effort flags (if l.isEmpty ∧ flags / 4 % 2 = 1 then [[]] else l) room c out

/-- An inflate job over its whole input: what follows the end of the stream is TRAILING, and a final job's stream must end. -/
def infJob (flags : Nat) (d : List Byte) (room : Nat) (c : TpzCtx) (out : List Byte) : TpzStop :=
  let bits := c.res ++ bytesBits d
  let r := infRun bits bits.length room { c with res := [] } out
  if r.err = 0 ∧ r.ctx.inf.ph = .done ∧ 8 ≤ r.left then { r with err := 2 }
  else if r.err = 0 ∧ r.ctx.inf.ph ≠ .done ∧ flags / 4 % 2 = 1 then { r with err := 0x1A }
  else r

/-- What a job does with its input `d`, a chain of `room` bytes and its context (R435): it writes what is held first. -/
def jobRun (op wrap effort flags : Nat) (c : TpzCtx) (d : List Byte) (room : Nat) : TpzStop :=
  let c := if flags / 8 % 2 = 1 then c else streamStart op wrap effort
  let (w, c) := ctxPut c room c.held
  if c.held ≠ [] then { err := 1, left := 8 * d.length, out := w, ctx := c }
  else if op = 1 then infJob flags d (room - w.length) c w
  else defJob effort flags d (room - w.length) c w

end Sys2Proof.Machine
end

