-- ==== Sys2Proof/Machine/Host.lean ====
section
/-! DEFINITION. The host interface: BAR0 registers, doorbells, submission and completion rings, interrupts, host
epochs, heartbeat, host link resets and MSPI (Chapter 6). -/

namespace Sys2Proof.Machine

/-! ### Ownership, epochs and ring sizes -/

/-- Queue `q` is owned by MSPI. -/
def mspiOwned (s : State) (q : Nat) : Bool := s.host.owner.getLsbD q

/-- The epoch of the interface that owns queue `q` (R156). -/
def ownerEpoch (s : State) (q : Nat) : Nat := if mspiOwned s q then rd s hbEpochMspi else rd s hbEpochPcie

/-- The next host epoch: 0xFFFF is followed by 1 (R156). -/
def hostEpochNext (e : Nat) : Nat := if e = 65535 then 1 else e + 1

/-- Entries in the completion ring of queue `q` (Table 6.2); SIZE above 4 is taken as 4 (log 12). -/
def ringSize (s : State) (q : Nat) : Nat := 2 ^ (8 + min 4 (rd s (cqSize q)))

/-- The function answers configuration requests: the link is up and PD_HOST powered. -/
def hostLinkUp (s : State) : Bool := s.host.link.up && domOn s 2

/-- The function is in D3hot (R139). -/
def inD3 (s : State) : Bool := rd s cfgPower == 3

/-- PCI Express accesses reach BAR0: the link is up, PD_HOST powered, and the function not in D3hot (R139). -/
def pcieUp (s : State) : Bool := hostLinkUp s && !inD3 s

/-- The host DMA unit may issue requests (R139, R140). -/
def dmaOk (s : State) : Bool := pcieUp s && flag s cfgBme

/-- The 32-bit number `a` is later than `b` in serial order. -/
def later32 (a b : BitVec 32) : Bool := let d := (a - b).toNat; decide (1 ≤ d ∧ d < 2147483648)

/-- Stop a queue with a cause (Table 6.2, HB_QERR_n). -/
def stopQueue (q cause : Nat) (s : State) : State := irq irqQerr (wr (qErr q) cause s)

/-! ### Doorbells and HEAD (R144, R148, R151) -/

/-- A write of HB_SQDB_n. Before S12 and during RECOVERING the TAILSEQ is recorded all the same; fetching waits. A doorbell to a queue that
HB_QERR_n has stopped is dropped, neither recorded nor counted: the spec does not say (DESIGN CHOICE, log 108). -/
def doorbell (q : Nat) (v : BitVec 32) (s : State) : State :=
  let tseq : BitVec 16 := v.extractLsb' 0 16
  let u := queue s q
  let cmp : BitVec 16 := BitVec.ofNat 16 (rd s (qCmp q))
  if mspiOwned s q then bump badAcc s
  else if (v.extractLsb' 16 8).toNat ≠ ownerEpoch s q % 256 then bump badAcc (irq irqDbstale s)
  else if rd s hbRun ≠ 1 ∨ rd s (qErr q) ≠ 0 then s
  else if later16 u.tail tseq ∨ 256 < (tseq - (cmp + 1)).toNat then stopQueue q 3 s
  else setQueue q { u with tail := tseq } s

/-- Retire a command whose FINAL entry HEAD has passed (R151): its record goes, and its ledger entry is released; accepted work stays untouched in
minimal mode (R123). -/
def retire (q : Nat) (c : Cpl) (s : State) : State :=
  match cmdAt s q c.seq with
  | some d =>
    if c.typ = 2 ∧ d.fin.isSome ∧ !d.suspended ∧ (d.lref.isNone ∨ !minimal s) then
      let s := { s with host := { s.host with cmds := s.host.cmds.filter (fun x => !(x.queue == q && x.seq == c.seq)) } }
      match d.lref with
      | some i => ledgerRelease i s
      | none => s
    else s
  | none => s

/-- A write of HB_CQHEAD_n acknowledges the entries before HEAD. One from the interface that does not own the queue is ignored and counted, as the
spec says of a doorbell, whatever its epoch byte (DESIGN CHOICE, log 108). -/
def headWrite (q : Nat) (mspi : Bool) (v : BitVec 32) (s : State) : State :=
  let hd := v.toNat % 4096
  let u := queue s q
  if (v.extractLsb' 16 8).toNat ≠ ownerEpoch s q % 256 ∨ mspiOwned s q ≠ mspi then bump badAcc s
  else
    let acked := u.written.takeWhile (fun e => e.1 ≠ hd)
    let s := setQueue q { u with written := u.written.drop acked.length, head := hd, cursor := hd } s
    updQ q (acked.foldl (fun s e => retire q e.2 s) s)

def execHbSqdb (q : Fin 4) (value : BitVec 32) (s : State) : Out :=
  .next (if pcieUp s then doorbell q.val value s else s)

def execHbCqhead (q : Fin 4) (value : BitVec 32) (s : State) : Out :=
  .next (if pcieUp s then headWrite q.val false value s else s)

/-! ### Heartbeat (R157) -/

/-- A heartbeat written: a changed value ends HOST_ABSENT; while Onyx restarts it counts once Onyx resumes. -/
def heartbeat (v : BitVec 32) (s : State) : State :=
  let changed := decide (rd s hbHeartbeat ≠ v.toNat)
  let s := wr hbHeartbeat v.toNat s
  if changed && s.host.absent && onyxUp s then refresh { s with host := { s.host with absent := false, hbMisses := 0 } } else s

def execHbHeartbeat (value : BitVec 32) (s : State) : Out := .next (if pcieUp s then heartbeat value s else s)

/-- HEARTBEAT_PERIOD_END: an unchanged value is a miss. -/
def execHeartbeatPeriodEnd (s : State) : Out :=
  let h := s.host
  .next (if !reached s h.hbPeriodEnd then s
    else
      let cur : BitVec 32 := BitVec.ofNat 32 (rd s hbHeartbeat)
      let h' := { h with hbPrev := cur, hbPeriodEnd := now s + rd s hbPeriod * 1000 }
      if cur ≠ h.hbPrev then { s with host := { h' with hbMisses := 0 } }
      else
        let m := h.hbMisses + 1
        let s := irq irqHbmiss { s with host := { h' with hbMisses := m } }
        if rd s hbMiss ≤ m ∧ !s.host.absent then refresh { s with host := { s.host with absent := true } } else s)

/-- DEVBEAT_INCREMENT: every 100 ms while Onyx runs (R141, R478). -/
def execDevbeatIncrement (s : State) : Out :=
  .next (if s.onyx.phase = .running ∧ reached s s.host.devbeatAt then
    wr hbDevbeat (rd s hbDevbeat + 1) { s with host := { s.host with devbeatAt := now s + 100000 } } else s)

/-! ### Segments (R152) -/

/-- A write of HB_SEGACK: a number beyond the last written is stored as that number and counted; covered segments, whether they were to be
written again after a host link reset or not, are delivered and their entries released. In minimal mode accepted work stays untouched (R123). -/
def segAckWrite (v : BitVec 32) (s : State) : State :=
  let beyond := later32 v s.host.segLast
  let v := if beyond then s.host.segLast else v
  let s := if beyond then bump badAcc s else s
  let s := wr segAck v.toNat s
  if minimal s then s
  else
  let covered := s.host.segs.filter (fun g => !later32 g.num v)
  let s := { s with host := { s.host with segs := s.host.segs.filter (fun g => later32 g.num v) } }
  covered.foldl (fun s g => ledgerRelease g.lref (ledgerPhase g.lref 4 0 0 s)) s

def execHbSegack (value : BitVec 32) (s : State) : Out := .next (if pcieUp s then segAckWrite value s else s)

/-! ### Ring control (R147, R162) -/

/-- A write of HB_CQCFG_n: setting EN starts the ring afresh. -/
def cqcfgWrite (q : Nat) (v : BitVec 32) (s : State) : State :=
  let was := flag s (cqEn q)
  let s := wr (cqSize q) v.toNat (wr (cqEn q) (v.toNat / 2147483648) s)
  if flag s (cqEn q) && !was then
    wr (cqTail q) 0 (wr (cqPhase q) 1 (setQueue q { queue s q with written := [], head := 0, cursor := 0, unsig := 0, sigBy := none } s))
  else s

def execHbCqcfgEnable (q : Fin 4) (value : BitVec 32) (s : State) : Out :=
  .next (if pcieUp s then cqcfgWrite q.val value s else s)

/-- A write of HB_CTRL: RUN from 0 to 1 restarts every queue that was stopped. -/
def ctrlWrite (v : BitVec 32) (s : State) : State :=
  let was := rd s hbRun
  let s := wr hbRun v.toNat (wr hbNotifyq (v.toNat / 256) s)
  if was = 0 ∧ rd s hbRun = 1 then (fromN 0 4).foldl (fun s q => wr (qErr q) 0 s) s else s

def execHbCtrlRun (value : BitVec 32) (s : State) : Out := .next (if pcieUp s then ctrlWrite value s else s)

/-- A dword written at a BAR0 offset (R141): registers with an action of their own, then the plain ones. A vector that
is unmasked sends the message its PBA bit holds (R155). HB_SQDB_n has no effect over MSPI, and is counted nowhere: SUBMIT is that interface's
doorbell, and the spec does not say (DESIGN CHOICE, log 108). -/
def hbWrite (mspi : Bool) (off : Nat) (v : BitVec 32) (s : State) : State :=
  let q := (off - 0x100) / 0x40
  let r := (off - 0x100) % 0x40
  let isQ := decide (0x100 ≤ off ∧ off < 0x200)
  if off = 0x14 then heartbeat v s
  else if off = 0x1C then ctrlWrite v s
  else if off = 0x28 then segAckWrite v s
  else if off = 0x10 then
    wr hbPeriod (clamp 100 60000 (v.toNat % 65536)) (wr hbMiss (max 1 (v.toNat / 65536 % 16)) s)
  else if isQ && r == 0x08 then (if mspi then s else doorbell q v s)
  else if isQ && r == 0x18 then cqcfgWrite q v s
  else if isQ && r == 0x1C then headWrite q mspi v s
  else
    let s := regStore (rk 10 off) v s
    if 0x2000 ≤ off ∧ off < 0x2400 ∧ off % 16 = 12 then sendPending s else s

/-! ### Fetching (R145, R167) -/

/-- Queue `q` has an entry that the host DMA unit may fetch. -/
def fetchable (s : State) (q : Nat) : Bool :=
  !mspiOwned s q && dmaOk s && rd s hbRun == 1 && rd s (qErr q) == 0 && (queue s q).tail != BitVec.ofNat 16 (rd s (sqFetch q))

/-- The queue that is served next: queue 0, then queues 1 to 3 in turn after the last one served. -/
def nextQueue (s : State) : Option Nat :=
  if fetchable s 0 then some 0
  else [s.host.rr % 3 + 1, (s.host.rr + 1) % 3 + 1, (s.host.rr + 2) % 3 + 1].find? (fun q => fetchable s q)

/-- A DMA error is reported through AER as a non-fatal error (R167). -/
def aerNonFatal (s : State) : State := wr cfgNonFatal 1 { s with host := { s.host with link := { s.host.link with aer := true } } }

/-- An entry has been fetched: it reaches Onyx as an item of WCLASS 3 under its own SEQ (R145), and HB_SQFETCH_n moves on. -/
def fetchPut (n : Nat) (seq : BitVec 16) (b p : List Byte) (s : State) : State :=
  let u := queue s n
  let wh := { cmdHeader n (BitVec.ofNat 16 (leAt b 0 2)) (leAt b 6 2) with stamp := (rtbNs s).extractLsb' 0 40 }
  let s := setQueue n { u with fetched := u.fetched ++ [{ slotSeq := seq, entry := b, params := p, wh := wh }] } s
  wr (sqFetch n) (seq + 1).toNat s

/-- Entries of an MSPI-owned queue are fetched from its on-chip ring, oldest first. -/
def ringFetch (n : Nat) (s : State) : State :=
  (queue s n).ring.foldl (fun s f => fetchPut n f.slotSeq f.entry f.params s) (setQueue n { queue s n with ring := [] } s)

/-- SUBMISSION_FETCH: the entry, and its indirect parameters when it asks for them; of an MSPI-owned queue what its on-chip ring holds. -/
def execSubmissionFetch (q : Fin 4) (e params : Dma) (s : State) : Out :=
  let n := q.val
  .next (if !served s then s
    else if mspiOwned s n then ringFetch n s
    else if nextQueue s != some n then s
    else if rd s (sqBaseLo n) % 4096 ≠ 0 then stopQueue n 1 s
    else
      let seq : BitVec 16 := BitVec.ofNat 16 (rd s (sqFetch n))
      let fail := stopQueue n 2 (aerNonFatal s)
      match e with
      | .error => fail
      | .data b =>
        let b := padTo 64 b
        let indirect := (b.getD 4 0).getLsbD 2
        let put (p : List Byte) : State :=
          let s := fetchPut n seq b p s
          if n = 0 then s else { s with host := { s.host with rr := n } }
        if !indirect then put []
        else match params with
          | .error => fail
          | .data p => put p)

/-! ### Completion rings (R147 to R150, R153, R155) -/

/-- The 32 bytes of a completion entry (Table 6.4). -/
def cplBytes (c : Cpl) (phase : Nat) : List Byte :=
  let fl := phase + (if c.trunc then 2 else 0) + (if c.replayed then 4 else 0)
  le 2 c.seq.toNat ++ le 1 c.typ ++ le 1 c.status ++ le 1 c.orig ++ le 1 fl ++ le 2 c.opcode ++ le 4 c.w8 ++ le 4 c.w12
    ++ padTo 16 c.payload

/-- The NOTIFY entry of a notification. -/
def noteCpl (n : Notif) : Cpl :=
  { typ := 4, seq := 0, status := 0, orig := 0, opcode := n.code, trunc := false, replayed := false, w8 := n.detail,
    w12 := n.w12, payload := le 8 n.rtb.toNat ++ le 8 n.w24, room := 0, urgent := false }

/-- The entries held on queue `q` are one fewer: every notification waits behind one fewer. -/
def heldPop (q : Nat) (t : List Cpl) (s : State) : State :=
  let s := setQueue q { queue s q with held := t } s
  if rd s hbNotifyq ≠ q then s
  else { s with host := { s.host with notifs := s.host.notifs.map (fun (n : Notif) => { n with behind := n.behind - 1 }) } }

/-- A notification that is the next entry of its queue: none held before it is still to be written. -/
def noteFirst (q : Nat) (s : State) : Option (Notif × List Notif) :=
  match s.host.notifs with
  | n :: t => if rd s hbNotifyq = q ∧ (n.behind = 0 ∨ (queue s q).held = []) then some (n, t) else none
  | [] => none

/-- The entry that queue `q` writes next, and the state without it: entries in the order in which they came to be held (R148), and LOST after every
notification still held, where the spec does not place it (DESIGN CHOICE, log 108). -/
def nextCpl (q : Nat) (s : State) : Option (Cpl × State) :=
  match noteFirst q s with
  | some (n, t) => some (noteCpl n, { s with host := { s.host with notifs := t } })
  | none =>
    match (queue s q).held with
    | c :: t => some (c, heldPop q t s)
    | [] =>
      if rd s hbNotifyq ≠ q ∨ s.host.lost = 0 then none
      else some (noteCpl { code := 0xFFFF, detail := 0, w12 := s.host.lost, rtb := rtbNs s, w24 := 0 }, { s with host := { s.host with lost := 0 } })

/-- The ring of queue `q` can take an entry (R148). -/
def ringOpen (s : State) (q : Nat) : Bool :=
  flag s (cqEn q) && rd s (qErr q) == 0 && decide ((rd s (cqTail q) + 1) % ringSize s q ≠ (queue s q).head) &&
    (if mspiOwned s q then domOn s 2 else dmaOk s && rd s hbRun == 1)

/-- An entry has been written: the command's record and its ledger entry say so (R207). -/
def cplSent (q : Nat) (c : Cpl) (s : State) : State :=
  match cmdAt s q c.seq with
  | some d =>
    if d.suspended ∨ 2 < c.typ then s
    else
      let s := if c.typ = 2 then setCmd { d with finWritten := true } s else s
      match (if minimal s then none else d.lref) with
      | some i => ledgerPhase i (entry s i).phase.toNat (entry s i).fstatus.toNat (if c.typ = 1 then 2 else 4) s
      | none => s
  | none => s

/-- Write one entry at TAIL and signal as HB_CQIRQ_n says (R155). -/
def writeCpl (q : Nat) (c : Cpl) (s : State) : State :=
  let t := rd s (cqTail q)
  let t' := (t + 1) % ringSize s q
  let u := queue s q
  let n := u.unsig + 1
  let at_once := c.urgent || rd s (cqDelay q) == 0 || decide (max 1 (rd s (cqCount q)) ≤ n)
  let s := setQueue q { u with written := u.written ++ [(t, c)], unsig := if at_once then 0 else n,
                               sigBy := if at_once then none else some (u.sigBy.getD (now s + rd s (cqDelay q))) } s
  let s := wr (cqTail q) t' (if t' = 0 then wr (cqPhase q) (1 - rd s (cqPhase q)) s else s)
  let s := cplSent q c s
  if at_once then signal (1 + q) s else s

/-- The write of the next completion entry of a queue: a DMA error stops the queue and the entry is held (R167). -/
def completionWrite (n : Nat) (wrote : Bool) (s : State) : State :=
  if !ringOpen s n then s
  else if !mspiOwned s n && rd s (cqBaseLo n) % 4096 != 0 then stopQueue n 1 s
  else match nextCpl n s with
    | none => s
    | some (c, s') =>
      if wrote then writeCpl n c s'
      else stopQueue n 2 (aerNonFatal s)

/-- CQ_IRQ_DELAY_EXPIRY (R155). -/
def execCqIrqDelayExpiry (q : Fin 4) (s : State) : Out :=
  let u := queue s q.val
  .next (if due s u.sigBy then signal (1 + q.val) (setQueue q.val { u with unsig := 0, sigBy := none } s) else s)

/-! ### Host link reset (R160, R161, R165) -/

/-- What R160 does to one queue: unaccepted commands go, accepted ones stand with their completions held, and the
sequence goes back to CMP + 1. -/
def resetQueue (q : Nat) (s : State) : State :=
  let cmp : BitVec 16 := BitVec.ofNat 16 (rd s (qCmp q))
  let s := { s with host := { s.host with
    cmds := (s.host.cmds.filter (fun c => !(c.queue == q && c.lref.isNone))).map
      (fun c => if c.queue == q then { c with suspended := true } else c),
    segs := s.host.segs.map (fun g => if g.queue == q then { g with written := false } else g) } }
  let s := setQueue q { queueReset with exp := cmp + 1, tail := cmp + 1 } s
  let s := [0x00, 0x04, 0x10, 0x14, 0x18, 0x20, 0x28, 0x2C].foldl
    (fun s r => let k := rk 10 (0x100 + 0x40 * q + r); wrW k (regReset k) s) s
  wr (sqFetch q) (cmp + 1).toNat s

/-- Notifications held are lost with the interface that would have carried them (R153). -/
def dropNotifs (mspi : Bool) (s : State) : State :=
  if mspiOwned s (rd s hbNotifyq) = mspi then
    { s with host := { s.host with lost := satAdd 32 s.host.lost s.host.notifs.length, notifs := [] } }
  else s

/-- Queue ownership takes effect for a queue once both interfaces have been reset since the change (R165). -/
def takeOwner (s : State) : State :=
  let h := s.host
  let same := ~~~(h.ownP ^^^ h.ownM)
  { s with host := { h with owner := (h.ownP &&& same) ||| (h.owner &&& ~~~same) } }

/-- What a host link reset does in PD_HOST: the rings of PCIe-owned queues, the fields not marked K, the MSI-X table and configuration space
(Table 5.2, R141, R160). -/
def pdHostReset (s : State) : State :=
  let s := (fromN 0 4).foldl (fun s q => if mspiOwned s q then s else resetQueue q s) s
  let s := wr hbRun 0 s
  let s := [0x20, 0x34, 0x38].foldl (fun s r => wrW (rk 10 r) 0 s) s
  let s := resetRegs 11 0 0x1000 (resetRegs 10 0x2000 0x4000 s)
  takeOwner { s with host := { s.host with ownP := BitVec.ofNat 4 (rdW s (rk 10 0x24)).toNat, msi := [] } }

/-- A host link reset of PCI Express; the epoch rises where PD_HOST stays powered (R156, R160). -/
def linkReset (bumpEpoch : Bool) (s : State) : State :=
  let s := pdHostReset (dropNotifs false s)
  let s := if bumpEpoch then wr hbEpochPcie (hostEpochNext (rd s hbEpochPcie)) s else s
  revokeWhere (fun l => l.state ≠ 0 && l.owner == 0x01) s

/-- The device is in BOOT before S11, where a host link reset changes nothing but PD_HOST (R137, R166). -/
def earlyBoot (s : State) : Bool := decide (s.boot.step ≤ 10) && !minimal s && !s.pwr.safe

/-- A host link reset of one kind; it is absorbed into a warm reset that has been asked for (R105). -/
def linkResetOf (kind : LinkResetKind) (s : State) : State :=
  let down := match kind with | .flr => false | .d3hotToD0 => false | _ => true
  let s' := if down then { s with host := { s.host with link := { s.host.link with up := false } } } else s
  if !domOn s 2 ∨ s.boot.resetReq.isSome then s
  else if earlyBoot s then pdHostReset s' else linkReset true s'

/-- HOST_LINK_RESET: a transition from D3hot is one only in D3hot (R139). -/
def execHostLinkReset (kind : LinkResetKind) (s : State) : Out :=
  .next (if kind = .d3hotToD0 ∧ !inD3 s then s else linkResetOf kind s)

/-- A dword written to configuration space: PowerState takes D0 and D3hot, and leaving D3hot is a host link reset (R139); Initiate Function Level
Reset is an FLR; an unmasked MSI-X function sends what its PBA holds. -/
def cfgWrite (off : Nat) (v : BitVec 32) (s : State) : State :=
  if off = 0x44 then
    (if v.toNat % 4 = 0 ∧ inD3 s then linkResetOf .d3hotToD0 s else if v.toNat % 4 = 3 then wr cfgPower 3 s else s)
  else if off = 0x78 ∧ v.getLsbD 15 then linkResetOf .flr s
  else
    let s := regStore (rk 11 off) v s
    if off = 0x50 then sendPending s else s

/-- PCIE_LINK_UP: from S4 DONE, where the boot options enable PCI Express (R110, R117). -/
def execPcieLinkUp (s : State) : Out :=
  .next (if domOn s 2 && (decide (5 ≤ s.boot.step) || minimal s) && s.boot.cfg.hostif != 1 then
    { s with host := { s.host with link := { s.host.link with up := true } } } else s)

/-! ### MSPI (R163 to R165) -/

/-- The response of an MSPI transaction. -/
def mspiAnswer (st : Nat) (data : List Byte) (s : State) : State :=
  { s with host := { s.host with mspiResp := some (BitVec.ofNat 8 st, data) } }

/-- The bytes of the response after the sync byte: STATUS, RLEN, data and CRC (R164). -/
def mspiBytes (st : BitVec 8) (data : List Byte) : List Byte :=
  let b := [st] ++ le 2 data.length ++ data
  b ++ le 2 (crc16 b).toNat

/-- MSPI answers: PD_HOST powered and enabled by the boot options. -/
def mspiOn (s : State) : Bool := domOn s 2 && s.boot.cfg.hostif != 2

/-- Serve a transaction with a valid CRC: STATUS 5 before S4 DONE, else `f`; it counts for S11 (R117). -/
def mspiServe (f : State → State) (s : State) : State :=
  if !mspiOn s then s
  else if s.boot.step ≤ 4 ∧ !minimal s then mspiAnswer 5 [] s
  else f { s with boot := { s.boot with mspiSeen := true } }

/-- `n` bytes read from a BAR0 offset of any alignment: those of the enclosing dwords (R141). -/
def barBytes (s : State) (off n : Nat) : List Byte :=
  (fromN off n).map (fun a => BitVec.ofNat 8 ((regView s (rk 10 (a / 4 * 4))).toNat / 256 ^ (a % 4)))

/-- MSPI_REG_READ. -/
def execMspiRegRead (offset : BitVec 16) (s : State) : Out :=
  let o := offset.toNat
  .next (mspiServe (fun s =>
    if o % 4 = 0 then regClear (rk 10 o) (mspiAnswer 0 (le 4 (regView s (rk 10 o)).toNat) s)
    else regClear (rk 10 (o / 4 * 4 + 4)) (regClear (rk 10 (o / 4 * 4)) (mspiAnswer 0 (barBytes s o 4) s))) s)

/-- MSPI_REG_WRITE: one that is not aligned is ignored and counted (R141). -/
def execMspiRegWrite (offset : BitVec 16) (value : BitVec 32) (s : State) : Out :=
  .next (mspiServe (fun s => mspiAnswer 0 [] (if offset.toNat % 4 = 0 then hbWrite true offset.toNat value s else bump badAcc s)) s)

/-- The data of a SUBMIT has the length it says: 64 bytes, and with INDIRECT the PARAM_LEN parameters (Table 6.7). -/
def submitLen (e params : List Byte) : Bool :=
  decide (e.length = 64) && (if (e.getD 4 0).getLsbD 2 then decide (params.length = leAt e 6 2) else params.isEmpty)

/-- SUBMIT: ring write and doorbell in one. Where commands are not fetched now, the entry waits in the on-chip ring (R24, R144). -/
def execSubmit (q : BitVec 8) (e params : List Byte) (s : State) : Out :=
  .next (mspiServe (fun s =>
    let n := q.toNat
    if !submitLen e params then bump mspiStat (mspiAnswer 2 [] s)
    else if 4 ≤ n ∨ !mspiOwned s n then bump mspiStat (mspiAnswer 3 [] s)
    else
      let u := queue s n
      let seq : BitVec 16 := BitVec.ofNat 16 (rd s (sqFetch n)) + BitVec.ofNat 16 u.ring.length
      if !inWindow n seq s then mspiAnswer 4 [] s
      else
        let s := mspiAnswer 0 [] (setQueue n { u with ring := u.ring ++ [{ slotSeq := seq, entry := e, params := params }], tail := seq + 1 } s)
        if served s then ringFetch n s else s) s)

/-- FETCH_CQ: the entry at the read cursor and its result payload beyond 16 bytes. -/
def execFetchCq (q : BitVec 8) (s : State) : Out :=
  .next (mspiServe (fun s =>
    let n := q.toNat
    if 4 ≤ n ∨ !mspiOwned s n then bump mspiStat (mspiAnswer 3 [] s)
    else
      let u := queue s n
      match u.written.find? (fun x => x.1 == u.cursor) with
      | none => mspiAnswer 0 [] s
      | some (i, c) =>
        let ph := if rd s (cqTail n) ≤ i then 1 - rd s (cqPhase n) else rd s (cqPhase n)
        let s := setQueue n { u with cursor := (u.cursor + 1) % ringSize s n } s
        mspiAnswer 0 (cplBytes c ph ++ (c.payload.drop 16).take c.room) s) s)

/-- RESYNC: a host link reset of the MSPI-owned queues (R165). -/
def execResync (s : State) : Out :=
  .next (mspiServe (fun s =>
    let s := dropNotifs true s
    let s := (fromN 0 4).foldl (fun s q => if mspiOwned s q then resetQueue q s else s) s
    let s := takeOwner { s with host := { s.host with ownM := BitVec.ofNat 4 (rdW s (rk 10 0x24)).toNat } }
    let e := hostEpochNext (rd s hbEpochMspi)
    mspiAnswer 0 (le 2 e) (wr hbEpochMspi e s)) s)

/-- MSPI_BAD_REQUEST: counted and answered, not acted on. One with a valid CRC counts for S11 (R117), and before S4 DONE is not ready. -/
def execMspiBadRequest (crcOk : Bool) (s : State) : Out :=
  .next (if crcOk then mspiServe (fun s => bump mspiStat (mspiAnswer 2 [] s)) s
    else if mspiOn s then bump mspiStat (mspiAnswer 1 [] s) else s)

/-- Whether MSPI_IRQ_N is low (R163). -/
def mspiIrqLow (s : State) : Bool :=
  (fromN 0 4).any (fun q => mspiOwned s q && (queue s q).written.any (fun e => e.1 == (queue s q).cursor)) ||
    (decide ((rdW s (rk 10 0x20)).toNat ≠ 0) && decide ((rdW s (rk 10 0x24)).toNat ≠ 0))

/-! ### NOP -/

/-- NOP (R168). -/
def specNop : Spec where
  info := { opcode := 0x0000, idem := .rx, lcls := .n, timeout := none, setup := false }
  par := none
  st := fun _ => none
  objs := []
  eff := ok

def execNopCommand (h : Hdr) (s : State) : Out := .next (scp h (.nopCommand h) specNop s)

/-! ### Reads that latch or clear (R9, R64, R78, R95) -/

/-- A read of RTB_NOW_LO latches the upper half and the fraction. -/
def latchRtb (s : State) : State :=
  let t := s.time.latch
  let t := tblSet (rk 9 4) ((rtbNs s).extractLsb' 32 32) t
  let t := tblSet (rk 9 8) ((s.time.rtb.extractLsb' 16 16).zeroExtend 32) t
  { s with time := { s.time with latch := t } }

def execRtbNowLoRead (s : State) : Out := .next (latchRtb s)

/-- A read of a CLK_ register with a latched upper half. -/
def latchClk (off : Nat) (s : State) : State :=
  let put (k : Nat) (v : Word32) : State := { s with time := { s.time with latch := tblSet k v s.time.latch } }
  if off = 0x70 then put (rk 8 0x74) ((s.time.ao.extractLsb' 32 16).zeroExtend 32)
  else if off = 0x78 then put (rk 8 0x7C) (s.time.usec.extractLsb' 32 32)
  else if 0x8C ≤ off ∧ off ≤ 0xEC ∧ (off - 0x8C) % 0x20 = 0 then
    put (rk 8 (off + 4)) ((zcOf s ((off - 0x8C) / 0x20)).last.extractLsb' 32 32)
  else s

def execLatchingLoRead (offset : BitVec 16) (s : State) : Out := .next (latchClk offset.toNat s)

/-- A read of PWR_SCRUB_UECNT frees all eight index registers (R95). -/
def readUecnt (s : State) : State :=
  (fromN 0 8).foldl (fun s n => wr (scrubUe n) 0 s) (wr scrubUeN 0 s)

def execPwrScrubUecntRead (s : State) : Out := .next (readUecnt s)

/-- A clearing read of any register (R9). -/
def clearingRead (block off : Nat) (s : State) : State :=
  if block = 7 ∧ off = 0x28 then readUecnt s else regClear (rk block off) s

def execRcRegisterRead (block : BitVec 8) (offset : BitVec 16) (s : State) : Out :=
  .next (if block = 10 ∧ !pcieUp s then s else clearingRead block.toNat offset.toNat s)

end Sys2Proof.Machine
end

