-- ==== Sys2Proof/Machine/Ledger.lean ====
section
/-! DEFINITION. The ledger port, the Sealer and the lease unit as rows of their own (Chapter 8). -/

namespace Sys2Proof.Machine

/-- A write through the ledger port by Onyx carries lease 0's tag; the gate decides (R206, R218). A refused write is
counted. -/
def ledgerWrite (tag : BitVec 24) (f : State → State) (s : State) : State :=
  if gateOk s 0 0x00 tag then f s else leaseDenied 0 s

/-- The tier of work of a kind (Table 8.8). -/
def kindTier (kind : Nat) (emerg : Bool) : Nat := if emerg ∨ kind = 4 then 1 else 0

/-- LEDGER_W0_UPDATE (R205, R207). -/
def execLedgerW0Update (index : BitVec 14) (phase fstatus flags : BitVec 8) (tag : BitVec 24) (s : State) : Out :=
  .next (ledgerWrite tag (fun s =>
    if phase.toNat ≤ 5 ∧ (phase ≠ 2 ∨ (entry s index.toNat).idem = 2) then
      ledgerPhase index.toNat phase.toNat fstatus.toNat (flags.toNat % 64) s
    else s) s)

/-- LEDGER_RELEASE of a LIVE or VOID entry (R208). -/
def execLedgerRelease (index : BitVec 14) (tag : BitVec 24) (s : State) : Out :=
  .next (ledgerWrite tag (fun s =>
    let e := entry s index.toNat
    if e.state = 0xE1 ∨ e.state = 0x78 then ledgerRelease index.toNat s else s) s)

/-- The EVIDENCE of a record about an entry (Table 18.5): ORIGIN, LSN, KIND. -/
def entryEvidence (e : LEntry) : List Byte := le 7 e.origin.toNat ++ le 8 e.lsn.toNat ++ le 1 e.kind.toNat

/-- Revoke lease 0 without the Onyx notification's waiting: the Sealer's first act (R221). -/
def sealerRevoke (s : State) : State := if (lease s 0).owner = 0x00 then leaseRevoke 0 s else s

/-- The Sealer's event to Onyx, which waits in the Onyx boundary queue (R221). -/
def sealerTells (i : Nat) (e : LEntry) (s : State) : State := eventNow 0x03 6 i (e.lsn.toNat % 4294967296) s

/-- The Sealer's procedure (R221). `ue` says that a word of the open entry reads uncorrectable. -/
def sealerAct (ue : Bool) (s : State) : State :=
  let s := sealerRevoke s
  match s.ledger.tail with
  | none => s
  | some t =>
    let e := entry s t.index
    let s := { s with ledger := { s.ledger with tail := none } }
    if !ue && !entryUe s t.index && decide (e.state = 0x1E) && decide (e.lsn = t.lsn) && decide (t.mask = 15) && bchkOk e then
      let s := ueFix (6 * t.index) 1 (setEntry t.index { e with state := 0xE1, phase := 0, flags := e.flags &&& 0x28 ||| 1 } s)
      let s := { s with ledger := { s.ledger with sealed := s.ledger.sealed ++ t.cmd.toList } }
      sealerTells t.index e (journalNow 0x100 0x03 8 t.index (e.lsn.toNat % 4294967296) (entryEvidence e) (liveSet t.index s))
    else
      let s := ueFix (6 * t.index) 1 (setEntry t.index { e with state := 0x78 } s)
      sealerTells t.index e (journalNow 0x101 0x03 8 t.index (e.lsn.toNat % 4294967296) (entryEvidence e) s)

/-- SEALER_TRIGGER: the fault signal of a restarting Onyx, or an expired lease 0 (R220). -/
def execSealerTrigger (ue : Bool) (s : State) : Out :=
  .next (if s.onyx.phase = .rom ∨ ((lease s 0).owner = 0x00 ∧ (lease s 0).state = 2) then
    sealerAct ue s else s)

/-! ### Leases (R216, R217) -/

/-- LEASE_GRANT by Onyx: lease 0 guards the ledger tail alone (R219); the duration lies in its range (Table 8.9). -/
def execLeaseGrant (n : Fin 64) (owner rclass : BitVec 8) (rindex : BitVec 16) (duration : BitVec 20) (s : State) : Out :=
  .next (if onyxUp s ∧ 100 ≤ duration.toNat ∧ duration.toNat ≤ 1000000 ∧ (n.val = 0 ↔ rclass = 1) ∧ (rclass = 1 → owner = 0) then
    leaseGrant n.val owner.toNat rclass.toNat rindex.toNat duration.toNat s else s)

/-- The holder's operation passes: HELD or EXPIRED, by the owner, with the current epoch. -/
def holderOk (l : Lease) (owner : BitVec 8) (epoch : BitVec 24) : Bool :=
  decide ((l.state = 1 ∨ l.state = 2) ∧ l.owner = owner ∧ l.epoch = epoch)

/-- LEASE_RENEW. -/
def execLeaseRenew (n : Fin 64) (owner : BitVec 8) (epoch : BitVec 24) (s : State) : Out :=
  let l := lease s n.val
  .next (if holderOk l owner epoch then
    setLease n.val { l with state := 1, deadline := BitVec.ofNat 44 (now s + l.duration.toNat) } s
  else leaseStale n.val s)

/-- LEASE_RELEASE. -/
def execLeaseRelease (n : Fin 64) (owner : BitVec 8) (epoch : BitVec 24) (s : State) : Out :=
  let l := lease s n.val
  .next (if holderOk l owner epoch then unclaim 6 n.val (setLease n.val (leaseFreed l) s) else leaseStale n.val s)

/-- LEASE_REVOKE: by Onyx or, for a lease of Onyx, the Sealer, when EXPIRED; or by a reset or fault response. -/
def execLeaseRevoke (n : Fin 64) (bySealer byReset : Bool) (s : State) : Out :=
  let l := lease s n.val
  .next (if byReset ∨ (l.state = 2 ∧ (if bySealer then l.owner = 0x00 else onyxUp s = true)) then leaseRevoke n.val s else s)

/-- LEASE_EXPIRY: CLK_USEC[43:0] reaches DEADLINE in HELD, of which an event on lane 1 tells Onyx (R217). -/
def execLeaseExpiry (n : Fin 64) (s : State) : Out :=
  let l := lease s n.val
  .next (if l.state = 1 ∧ (BitVec.ofNat 44 (now s) - l.deadline).toNat < 2 ^ 43 then
    eventNow 0x03 2 n.val 2 (setLease n.val { l with state := 2 } s) else s)

end Sys2Proof.Machine
end

