-- ==== Sys2Proof/Machine/Topaz.lean ====
section
/-! DEFINITION. Topaz, the compression engine, and the compression family of commands (Chapter 16, R186); recorder
segments (R302, R152). -/

namespace Sys2Proof.Machine

/-! ### Contexts -/

/-- A context allocated with no stream in progress. -/
def ctxIdle : TpzCtx := { st := 1, op := 0, wrap := 0, check := 0 }

/-- Context `c`, while it is allocated. -/
def ctxOf (s : State) (c : Nat) : TpzCtx := tblGet s.tpz.ctxs c ctxIdle

def setCtx (c : Nat) (v : TpzCtx) (s : State) : State := { s with tpz := { s.tpz with ctxs := tblSet c v s.tpz.ctxs } }

/-- Free a context: its claim and what it held go. -/
def freeContext (c : Nat) (s : State) : State := unclaim 4 c { s with tpz := { s.tpz with ctxs := tblDel c s.tpz.ctxs } }

/-- A context nobody holds, lowest first. -/
def anyCtx (s : State) : Option Nat := (fromN 0 64).find? (fun x => (claimOf s 4 x).isNone)

/-- Is the context the host's? -/
def hostCtx (s : State) (c : Nat) : Bool := match claimOf s 4 c with | some x => x.holder == 1 | none => false

/-- RESOURCE_CONFLICT for a context not allocated to the host, naming the holder; of a FREE context nobody (R438). -/
def ctxRej (s : State) (c : Nat) : Option Rej :=
  if hostCtx s c then none
  else some (conflict s ((claimOf s 4 c).getD { cls := 4, idx := c, holder := 0xFF, obj := 0xFFFF }))

/-- Some command accepted and not ended acts on the context. -/
def ctxPending (s : State) (c : Nat) : Bool := s.host.cmds.any (fun d => unapplied d && d.objs.contains (.ctx c))

def tpzInfo (op tmo : Nat) (i : Idem) (l : Lcls) : OpInfo := { opcode := op, idem := i, lcls := l, timeout := some tmo, setup := false }

/-- PD_CMP must be ON. -/
def tpzDom (s : State) : Option Rej := domRej s 7

/-! ### TPZ_CTX_ALLOC, TPZ_CTX_FREE (R186) -/

def specTpzCtxAlloc (h : Hdr) (ctx : BitVec 8) : Spec where
  info := tpzInfo 0x0601 10000 .ck .c
  par := if 63 < ctx.toNat ∧ ctx ≠ 0xFF then some (badParam 0) else none
  st := fun s => orRej (tpzDom s)
    (if ctx = 0xFF then (if (anyCtx s).isNone then some (rej stQueueFull) else none) else claimRej s 4 ctx.toNat 1 h.queue.val)
  objs := if ctx = 0xFF then [.ctxPool] else [.ctx ctx.toNat]
  acc := fun _ s => if ctx = 0xFF then s else claim 4 ctx.toNat 1 h.queue.val s
  eff := fun s =>
    if ctx = 0xFF then
      match choose ((fromN 0 64).filter (fun x => (claimOf s 4 x).isNone)) s with
      | some x => okRes (le 1 x) (claim 4 x 1 h.queue.val (tookFree s))
      | none => .done stBadState [] s
    else if (claimOf s 4 ctx.toNat).isSome && !hostCtx s ctx.toNat then .done stBadState [] s
    else okRes (le 1 ctx.toNat) (claim 4 ctx.toNat 1 h.queue.val s)

def execTpzCtxAlloc (h : Hdr) (ctx : BitVec 8) (s : State) : Out := .next (scp h (.tpzCtxAlloc h ctx) (specTpzCtxAlloc h ctx) s)

def specTpzCtxFree (_h : Hdr) (ctx : BitVec 8) : Spec where
  info := tpzInfo 0x0605 10000 .ck .c
  par := if 63 < ctx.toNat then some (badParam 0) else none
  st := fun s => orRej (tpzDom s) (if (claimOf s 4 ctx.toNat).isNone ∧ !ctxPending s ctx.toNat then some (rej stBadState) else
    if (claimOf s 4 ctx.toNat).isNone then none else ctxRej s ctx.toNat)
  objs := [.ctx ctx.toNat]
  eff := fun s => if hostCtx s ctx.toNat then ok (freeContext ctx.toNat s) else .done stBadState [] s

def execTpzCtxFree (h : Hdr) (ctx : BitVec 8) (s : State) : Out := .next (scp h (.tpzCtxFree h ctx) (specTpzCtxFree h ctx) s)

/-! ### TPZ_CTX_SAVE, TPZ_CTX_RESTORE (R450) -/

/-! ### Host memory -/

/-- Consecutive bytes from address `a`. -/
def memRows (a : Nat) : List Byte → Tbl Byte → Tbl Byte
  | [], t => t
  | b :: l, t => memRows (a + 1) l (tblSet a b t)

/-- Bytes written to host memory from address `a`. -/
def memPut (a : Nat) (b : List Byte) (s : State) : State := { s with hostMem := { s.hostMem with bytes := memRows a b s.hostMem.bytes } }

/-- The save may be made in any state except FREE; the image goes to host memory, where only its length and its last 4 bytes are known (log 2),
and the context is unchanged. -/
def specTpzCtxSave (_h : Hdr) (ctx : BitVec 8) (addr : BitVec 64) : Spec where
  info := tpzInfo 0x0603 100000 .rx .c
  par := if 63 < ctx.toNat then some (badParam 0) else none
  st := fun s => orRej (tpzDom s) (if (claimOf s 4 ctx.toNat).isNone then some (rej stBadState) else ctxRej s ctx.toNat)
  objs := [.ctx ctx.toNat]
  eff := fun s =>
    if !hostCtx s ctx.toNat then .done stBadState [] s
    else
      let b := freeBytes 36860 s
      let image := b ++ le 4 (crc32c b).toNat
      let s := memPut addr.toNat image (tookFree s)
      ok { s with hostMem := { s.hostMem with images := (image, ctxOf s ctx.toNat) :: s.hostMem.images } }

def execTpzCtxSave (h : Hdr) (ctx : BitVec 8) (addr : BitVec 64) (s : State) : Out :=
  .next (scp h (.tpzCtxSave h ctx addr) (specTpzCtxSave h ctx addr) s)

/-- The check of a save image: its length, and CRC-32C over its last 4 bytes. -/
def imageOk (b : List Byte) : Bool := decide (b.length = 36864) && decide ((crc32c (b.take 36860)).toNat = leAt b 36860 4)

/-- The context that an image records: the one that was saved; of an image that this part has not written what its layout, internal to Topaz,
says (log 2). -/
def imageCtx (s : State) (b : List Byte) : TpzCtx :=
  match s.hostMem.images.find? (fun e => e.1 == b) with
  | some e => e.2
  | none =>
    let c := Config.imageState b
    { c with st := 1 + c.st % 3, window := c.window.take 32768, held := c.held.take 258, res := c.res.take 7 }

/-- Whether the image is of this stepping and firmware line: of one that this part has not written its header says so (log 2). -/
def imageVersion (s : State) (b : List Byte) : Bool := s.hostMem.images.any (fun e => e.1 == b) || Config.saveImage (b.take 64) % 2 == 1

/-- CTX_CHECK and CTX_VERSION are named by their ERR codes (R450, log 111). -/
def specTpzCtxRestore (_h : Hdr) (ctx : BitVec 8) (image : Dma) : Spec where
  info := tpzInfo 0x0604 100000 .ck .c
  par := if 63 < ctx.toNat then some (badParam 0) else none
  st := fun s => orRej (tpzDom s) (if (claimOf s 4 ctx.toNat).isNone then some (rej stBadState) else ctxRej s ctx.toNat)
  objs := [.ctx ctx.toNat]
  eff := fun s =>
    if !hostCtx s ctx.toNat then .done stBadState [] s
    else match image with
      | .error => .done stFaulted [] s
      | .data b => if !imageOk b then .done stDataError (le 2 0x40) s else if !imageVersion s b then .done stDataError (le 2 0x41) s
        else ok (setCtx ctx.toNat (imageCtx s b) s)

def execTpzCtxRestore (h : Hdr) (ctx : BitVec 8) (addr : BitVec 64) (image : Dma) (s : State) : Out :=
  .next (scp h (.tpzCtxRestore h ctx addr image) (specTpzCtxRestore h ctx image) s)

/-! ### Jobs (R432 to R449) -/

/-- Grant a free lease of the pool for a job's context to Topaz (R440). -/
def grantLease (ctx : Nat) (s : State) : Option (Nat × BitVec 24) × State :=
  match leasePool s with
  | some l => (some (l, (lease s l).epoch), leaseGrant l 0x60 3 ctx 5000 s)
  | none => (none, s)

/-- The header of a job's item (R432, Table 2.3): SEQ counts per context. -/
def jobWh (prio ctx ninline : Nat) (lref : Option Nat) (s : State) : WH :=
  { (mkItem 5 prio 0x60 0x00 ctx (seqAt s (5 * 65536 + ctx)) (rtbNs s).toNat false false true []).wh with
    len := BitVec.ofNat 16 (64 + 16 * ninline), assured := lref.isSome, lref := BitVec.ofNat 14 (lref.getD 0) }

/-- The descriptor that is the item's payload (Table 16.2). -/
def descBytes (j : TpzJob) : List Byte :=
  le 1 j.op ++ le 1 j.wrap ++ le 1 j.effort ++ le 1 j.flags ++ le 1 j.ctx ++ le 1 (b2n j.data.isSome) ++
    (match j.lease with | some (l, e) => le 1 l ++ le 1 0 ++ le 4 e.toNat | none => le 6 0) ++ le 4 j.srclen ++ le 8 j.src.toNat ++ le 8 j.chain.toNat ++
    le 2 j.nchain ++ le 2 (j.inline.length / 16) ++ List.replicate 28 0 ++ j.inline

/-- The WCLASS 5 item by which a job reaches Topaz. -/
def jobItem (j : TpzJob) : Item := { wh := j.wh, payload := descBytes j }

/-- Hand a job to Topaz, with the lease of its context and its context as it stands. -/
def submitJob (j : TpzJob) (s : State) : State :=
  let (l, s) := grantLease j.ctx s
  seqUp (5 * 65536 + j.ctx) 1 { s with tpz := { s.tpz with jobs := s.tpz.jobs ++ [{ j with lease := l, saved := ctxOf s j.ctx }] } }

/-- What keeps a continuing job from running on a context (R438). -/
def contRej (c : TpzCtx) (op wrap : Nat) : Option Rej :=
  if c.st = 3 then some (rej stBadState) else if c.st = 1 ∨ c.op ≠ op ∨ c.wrap ≠ wrap then some (badParam 4) else none

/-- The checkpoint of R451: the context as it stands when a continuing job is accepted. -/
def takeCkpt (ctx : Nat) (s : State) : State := { s with tpz := { s.tpz with ckpt := tblSet ctx (ctxOf s ctx) s.tpz.ckpt } }

/-- A context as its checkpoint has it. -/
def putCkpt (ctx : Nat) (s : State) : State := setCtx ctx (tblGet s.tpz.ckpt ctx ctxIdle) s

/-- TPZ_JOB. -/
def specTpzJob (h : Hdr) (op : Nat) (ctx wrap effort flags : BitVec 8) (src : BitVec 64) (srclen : BitVec 32) (chain : BitVec 64)
    (nchain : BitVec 16) : Spec where
  info := tpzInfo 0x0602 10000000 (if flags.getLsbD 3 then .ck else .rx) .w
  par := firstRej [(decide (63 < ctx.toNat), badParam 0), (decide (2 < wrap.toNat), badParam 2),
    (decide (op = 0 ∧ 8 < effort.toNat), badParam 3), (decide (15 < flags.toNat ∨ (op = 1 ∧ flags.getLsbD 1)), badParam 4),
    (decide (268435456 < srclen.toNat), badParam 13), (decide (nchain.toNat < 1 ∨ 1024 < nchain.toNat), badParam 25)]
  st := fun s => orRej (tpzDom s) (orRej (ctxRej s ctx.toNat)
    (orRej (if flags.getLsbD 3 && !ctxPending s ctx.toNat then contRej (ctxOf s ctx.toNat) op wrap.toNat else none)
      (if 64 ≤ (s.tpz.jobs.filter (fun j => j.eng.isNone)).length ∨ (leasePool s).isNone then some (rej stQueueFull) else none)))
  objs := [.ctx ctx.toNat]
  acc := fun _ s => if flags.getLsbD 3 then takeCkpt ctx.toNat s else s
  eff := fun s =>
    match meCmd h s with
    | none => .done stBadState [] s
    | some c =>
      if !hostCtx s ctx.toNat ∨ (flags.getLsbD 3 ∧ (contRej (ctxOf s ctx.toNat) op wrap.toNat).isSome) then .done stBadState [] s
      else
        let prio := if h.emerg then 0 else 6
        let j : TpzJob := { wh := jobWh prio ctx.toNat 0 c.lref s, ctx := ctx.toNat, op := op, wrap := wrap.toNat, effort := effort.toNat,
                            flags := flags.toNat, src := src, srclen := srclen.toNat, chain := chain, nchain := nchain.toNat, inline := [],
                            data := none, prio := prio, lsn := c.lsn, cmd := (c.queue, c.seq), forLog := false, lease := none, eng := none,
                            ents := none, saved := ctxIdle }
        .wait (.tpz ctx.toNat) (submitJob j s)

def execTpzJobDeflate (h : Hdr) (ctx wrap effort flags : BitVec 8) (src : BitVec 64) (srclen : BitVec 32) (chain : BitVec 64)
    (nchain : BitVec 16) (s : State) : Out :=
  .next (scp h (.tpzJobDeflate h ctx wrap effort flags src srclen chain nchain) (specTpzJob h 0 ctx wrap effort flags src srclen chain nchain) s)

def execTpzJobInflate (h : Hdr) (ctx wrap effort flags : BitVec 8) (src : BitVec 64) (srclen : BitVec 32) (chain : BitVec 64)
    (nchain : BitVec 16) (s : State) : Out :=
  .next (scp h (.tpzJobInflate h ctx wrap effort flags src srclen chain nchain) (specTpzJob h 1 ctx wrap effort flags src srclen chain nchain) s)

/-- The job on an engine. -/
def jobOn (s : State) (e : Nat) : Option TpzJob := s.tpz.jobs.find? (fun j => j.eng == some e)

/-- The engine can run a job of this operation. -/
def engKind (e op : Nat) : Bool := e / 2 == op

/-- Replace the job on its context. -/
def setJob (j : TpzJob) (s : State) : State :=
  { s with tpz := { s.tpz with jobs := s.tpz.jobs.map (fun k => if k.ctx == j.ctx && k.lsn == j.lsn then j else k) } }

def dropJob (j : TpzJob) (s : State) : State :=
  { s with tpz := { s.tpz with jobs := s.tpz.jobs.filter (fun k => !(k.ctx == j.ctx && k.lsn == j.lsn)) } }

/-- The job that starts next at an engine: lower PRIO, then acceptance order (R432); those of PRIO 5 to 7 are held by
throttling (Table 18.9). -/
def nextJob (s : State) (e : Nat) : Option TpzJob :=
  let held (j : TpzJob) : Bool := 2 ≤ s.onyx.thermal && 5 ≤ j.prio
  let l := s.tpz.jobs.filter (fun j => j.eng.isNone && engKind e j.op && !held j)
  l.foldl (fun b j => match b with
    | none => some j
    | some k => if j.prio < k.prio || (j.prio == k.prio && decide (j.lsn < k.lsn)) then some j else b) none

/-- The lease of a job still lets it through the gate (R218). -/
def jobGate (s : State) (j : TpzJob) : Bool := match j.lease with | some (l, e) => gateOk s l 0x60 e | none => false

/-- The statuses of Table 16.4. -/
def errStatus (e : Nat) : Nat :=
  if e ≤ 2 then stOk else if e = 0x30 ∨ e = 0x31 then stVerifyFailed else if e = 0x50 ∨ e = 0x51 then stFaulted else stDataError

/-- The state of a job's context after it (R446, R448, R449, Table 18.4): 1 IDLE, 2 OPEN, 3 ERROR. -/
def ctxAfter (j : TpzJob) (e : Nat) : Nat :=
  if e = 1 then 2 else if e = 2 then 1 else if e = 0 then (if j.flags / 4 % 2 = 1 then 1 else 2) else 3

/-- A job's context after it: unchanged by BAD_CHAIN (R439); that of the checkpoint where a continuing job has lost its
lease (Table 18.4); else `v`. -/
def endCtx (j : TpzJob) (e : Nat) (v : TpzCtx) (s : State) : State :=
  if e = 3 then setCtx j.ctx j.saved s
  else if e = 0x51 ∧ j.flags / 8 % 2 = 1 then putCkpt j.ctx s
  else setCtx j.ctx { v with st := ctxAfter j e } s

/-- Output into the chain's entries in order (R445). -/
def chainPut : List (Nat × Nat) → List Byte → State → State
  | [], _, s => s
  | (a, n) :: t, b, s => if b = [] then s else chainPut t (b.drop n) (memPut a (b.take n) s)

/-- The entries written for so many bytes of output (R445). -/
def bufsFor : List (Nat × Nat) → Nat → Nat
  | [], _ => 0
  | (_, l) :: t, n => if n = 0 then 0 else 1 + bufsFor t (n - l)

/-- A completion item of Topaz ends its command. -/
def jobDone (d : TpzDone) (s : State) : State :=
  match cmdAt s d.cmd.1 d.cmd.2 with
  | some c => if c.wait = .tpz d.ctx then finish c d.status d.result s else s
  | none => s

/-- Topaz sends a job's completion item, which waits in the Onyx boundary queue while Onyx restarts (R210). -/
def tpzTell (d : TpzDone) (s : State) : State :=
  if onyxUp s then jobDone d s else { s with tpz := { s.tpz with done := s.tpz.done ++ [d] } }

/-- Onyx takes the completion items that have waited. -/
def tpzDrain (s : State) : State := s.tpz.done.foldl (fun s d => jobDone d s) { s with tpz := { s.tpz with done := [] } }

/-- What a job's end counts and records (Table 16.5, Table 18.2). -/
def endCounts (j : TpzJob) (e : Nat) (s : State) : State :=
  if e = 0x30 ∨ e = 0x31 then journal 0x60 0x60 8 j.ctx e [] (bump (tpzCnt 1) s)
  else if 0x10 ≤ e ∧ e ≤ 0x2B then bump (tpzCnt 2) s
  else if e = 1 then bump (tpzCnt 3) s
  else if e = 0x50 then journal 0x61 0x60 8 j.ctx 0 [] (bump tpzUe s)
  else s

/-- A job's lease is released (R440). -/
def dropLease (j : TpzJob) (s : State) : State :=
  match j.lease with
  | some (l, ep) => if holderOk (lease s l) 0x60 ep then unclaim 6 l (setLease l (leaseFreed (lease s l)) s) else s
  | none => s

/-- A job ends with ERR `e`: its output, its context, the counters, its lease and its command (R445 to R449). -/
def endJobAs (j : TpzJob) (e inB : Nat) (check : BitVec 32) (out : List Byte) (v : TpzCtx) (s : State) : State :=
  let s := endCounts j e (bump (tpzCnt 0) (dropJob j (chainPut (j.ents.getD []) out s)))
  let s := endCtx j e v (dropLease j s)
  let s := if j.forLog then freeContext j.ctx s else s
  let res := le 4 inB ++ le 4 out.length ++
    (if j.forLog then [] else le 4 check.toNat ++ le 2 e ++ le 2 (bufsFor (j.ents.getD []) out.length))
  tpzTell { cmd := j.cmd, ctx := j.ctx, status := errStatus e, result := res } s

/-- The chain's entries, ADDR and LEN, if each is as R437 has it (R439). -/
def chainEnts : Nat → List Byte → Option (List (Nat × Nat))
  | 0, _ => some []
  | n + 1, b =>
    let len := leAt b 8 4
    if len < 64 ∨ 16777216 < len ∨ leAt b 12 4 ≠ 0 then none else (chainEnts n (b.drop 16)).map ((leAt b 0 8, len) :: ·)

/-- A job's context once it has started: its stream is OPEN. -/
def jobCtx (j : TpzJob) : TpzCtx := if j.flags / 8 % 2 = 1 then j.saved else streamStart j.op j.wrap j.effort

/-- A job with its lease starts on engine `e`: its chain list is read whole (R437, R439). -/
def startJob (j : TpzJob) (e : Nat) (chain : Dma) (s : State) : State :=
  let v := ctxOf s j.ctx
  if !jobGate s j then endJobAs j 0x51 0 v.check [] v s
  else if j.ents.isSome then setJob { j with eng := some e } s
  else match (if j.inline = [] then chain else .data j.inline) with
    | .error => endJobAs j 0x50 0 v.check [] v s
    | .data b => match chainEnts j.nchain (padTo (16 * j.nchain) b) with
      | none => endJobAs j 3 0 v.check [] v s
      | some l => setCtx j.ctx (jobCtx j) (setJob { j with eng := some e, ents := some l } s)

/-- TOPAZ_JOB_START: the first job for a free engine starts (R432); none does in SAFE (R133). -/
def execTopazJobStart (eng : Fin 4) (chain : Dma) (s : State) : Out :=
  let e := eng.val
  .next (if !domOn s 7 ∨ s.pwr.safe ∨ (jobOn s e).isSome then s
    else match nextJob s e with
      | none => s
      | some j =>
        let (l, s) := if j.lease.isNone then grantLease j.ctx s else (j.lease, s)
        if l.isNone then s else startJob { j with lease := l } e chain s)

/-- TOPAZ_YIELD: at a boundary of 65,536 input bytes a job gives way to one of lower-numbered PRIO, or is held by
throttling (R433, Table 18.9). -/
def execTopazYield (eng : Fin 4) (s : State) : Out :=
  .next (match jobOn s eng.val with
    | none => s
    | some j =>
      let better := s.tpz.jobs.any (fun k => k.eng.isNone && k.op == j.op && decide (k.prio < j.prio))
      if !s.pwr.safe ∧ (better ∨ (2 ≤ s.onyx.thermal ∧ 5 ≤ j.prio)) then bump (tpzCnt 4) (setJob { j with eng := none } s) else s)

/-- The input of a job: from DDR, or what host memory holds at SRC, cut or filled with zeros to SRCLEN. -/
def jobData (j : TpzJob) (src : Dma) : Option (List Byte) :=
  match j.data, src with
  | some d, _ => some d
  | none, .data b => some (padTo j.srclen b)
  | none, .error => none

/-- The bytes that a job's chain takes. -/
def chainRoom (j : TpzJob) : Nat := sumOf (·.2) (j.ents.getD [])

/-- A job's run over its input: a function of its input, OP, WRAP, EFFORT, FLAGS, its context and its chain alone (R435). -/
def jobStop (j : TpzJob) (d : List Byte) : TpzStop := jobRun j.op j.wrap j.effort j.flags j.saved d (chainRoom j)

/-- IN: the bytes consumed; of an error of inflate the offset of the byte in which it was found (R446, R449). -/
def jobIn (n : Nat) (r : TpzStop) : Nat := if 0x10 ≤ r.err ∧ r.err ≤ 0x2B ∧ r.err ≠ 0x1A then n - (r.left + 7) / 8 else n - r.left / 8

/-- A job is cut off with ERR `e`: how far it had come is free (log 112). -/
def cutJob (j : TpzJob) (e : Nat) (d : Option (List Byte)) (s : State) : State :=
  let out := match d with | some d => (jobStop j d).out | none => freeBytes (chainRoom j) s
  let s := tookFree s
  let n := Config.freeNat s.free % (out.length + 1)
  let s := tookFree s
  let k := Config.freeNat s.free % (j.srclen + 1)
  let s := tookFree s
  endJobAs j e k (freeBits 32 s) (out.take n) (ctxOf s j.ctx) (tookFree s)

/-- A job comes to its end on input `d`. A mismatch of the verifier is met by a deflate job with FLAGS[1] alone (R448); what it has written is not
to be used and free, as CHECK is (log 112). -/
def closeJob (j : TpzJob) (d : List Byte) (u : TpzUpset) (s : State) : State :=
  let r := jobStop j d
  let n := jobIn j.srclen r
  let verifies : Prop := j.op = 0 ∧ j.flags / 2 % 2 = 1
  match u with
  | .none => endJobAs j r.err n r.ctx.check r.out r.ctx s
  | .memUe i o => endJobAs j 0x50 (min i.toNat n) (freeBits 32 s) (r.out.take o.toNat) r.ctx (tookFree s)
  | .verifyData i o =>
    if verifies then
      let b := freeBytes (min o.toNat (chainRoom j)) s
      endJobAs j 0x30 (min i.toNat j.srclen) (freeBits 32 (tookFree s)) b r.ctx (tookFree (tookFree s))
    else s
  | .verifyCheck =>
    if verifies then endJobAs j 0x31 n (freeBits 32 (tookFree s)) (freeBytes r.out.length s) r.ctx (tookFree (tookFree s)) else s

/-- TOPAZ_JOB_END (R445 to R449): a job whose lease is lost ends with FAULTED and ERR LEASE (R440), one whose source cannot be read with MEM_UE
(log 58); none ends in SAFE (R133). -/
def execTopazJobEnd (eng : Fin 4) (r : TpzEnd) (s : State) : Out :=
  .next (match jobOn s eng.val with
    | none => s
    | some j =>
      if s.pwr.safe then s
      else if !jobGate s j then cutJob j 0x51 (jobData j r.src) (match j.lease with | some (l, _) => leaseDenied l s | none => s)
      else match jobData j r.src with
        | none => cutJob j 0x50 none s
        | some d => closeJob j d r.upset s)

/-- Topaz renews the leases of the jobs it holds (R440). -/
def topazRenew (s : State) : State :=
  if !domOn s 7 then s
  else s.tpz.jobs.foldl (fun s j => match j.lease with
    | some (l, e) =>
      let v := lease s l
      if holderOk v 0x60 e then setLease l { v with state := 1, deadline := BitVec.ofNat 44 (now s + v.duration.toNat) } s else s
    | none => s) s

/-- Give up the job of a context: its timeout has expired, and a continuing job's context is that of its checkpoint, another's as the job found
it (R177, R451). -/
def abandonJob (ctx : Nat) (s : State) : State :=
  (s.tpz.jobs.filter (fun j => j.ctx == ctx)).foldl (fun s j =>
    let s := dropLease j (dropJob j s)
    if j.forLog then freeContext ctx s else if j.flags / 8 % 2 = 1 then putCkpt ctx s else setCtx ctx j.saved s) s

/-! ### Contexts that have been lost (R92, R209, R451, Edges of Chapter 16) -/

/-- A TPZ_JOB with FLAGS[3]. -/
def contJob (i : Instr) : Bool :=
  match i with
  | .tpzJobDeflate _ _ _ _ flags _ _ _ _ => flags.getLsbD 3
  | .tpzJobInflate _ _ _ _ flags _ _ _ _ => flags.getLsbD 3
  | _ => false

/-- Contexts that accepted work still needs: those its commands name, and that of a log export. -/
def ctxNeeded (s : State) (c : Nat) : Bool :=
  ctxPending s c || s.host.cmds.any (fun d => unapplied d && d.opcode == 0x0807 && d.early.contains c)

/-- The context on which a continuing job is the next to be executed has its checkpoint back. -/
def ckRestore (s : State) : State :=
  (fromN 0 64).foldl (fun s c =>
    match s.host.cmds.find? (fun d => unapplied d && d.objs.contains (.ctx c)) with
    | some d => if contJob d.instr then putCkpt c s else s
    | none => s) s

/-- Every context is lost: its claim goes but where accepted work needs it, and jobs are executed again but those whose completion item waits. -/
def ctxsLost (s : State) : State :=
  let again : Cmd → Cmd := fun c => match c.wait with
    | .tpz _ => if s.tpz.done.any (fun d => d.cmd == (c.queue, c.seq)) then c
                else { c with started := none, wait := .idle, deadline := none, replayed := true }
    | _ => c
  let t := { s with tpz := { s.tpz with ctxs := [], jobs := [] }, host := { s.host with cmds := s.host.cmds.map again },
                    voice := { s.voice with recCtx := none } }
  ckRestore (unclaimIf (fun c => c.cls == 4 && !ctxNeeded t c.idx) t)

/-! ### Recorder segments (R152, R302, R453) -/

/-- The open segment is due to close. -/
def segDue (s : State) (r : Recorder) : Bool :=
  !r.spill.isEmpty || decide (r.segMs * 1000000 ≤ (rtbNs s - r.start).toNat) || (r.stopping && r.nframes != 0)

/-- Frame records into an open segment while they fit (R302). -/
def fillSeg (r : Recorder) : Recorder :=
  r.spill.foldl (fun r f =>
    if r.spill.isEmpty ∧ 64 + r.bytes + f.length ≤ r.buflen then { r with nframes := r.nframes + 1, bytes := r.bytes + f.length, body := r.body ++ f }
    else { r with spill := r.spill ++ [f] }) { r with spill := [] }

/-- A stopping recorder whose last segment has its number ends its REC_STOP (R301). -/
def recDone (n : Nat) (s : State) : State :=
  match tblFind n s.voice.recs with
  | some r => if r.stopping ∧ r.nframes = 0 ∧ r.spill.isEmpty ∧ r.closed.all (fun x => x.lref.isSome) then
      recTidy (finishWait (.recorder n) stOk (le 4 r.last.toNat) s) else s
  | none => s

/-- The metadata of a segment, compressed in zlib form at EFFORT 4 with dynamic tables, verification and FLAGS[2] (R453), and its length before:
what events, group changes, echo canceller states and loss counters it has is free (log 2). What does not fit is left out (log 113). -/
def segMeta (failed : Bool) (room : Nat) (s : State) : List Byte × Nat :=
  if failed then ([], 0)
  else
    let raw := freeBytes (Config.freeNat (s.free + 1)) s
    let r := jobRun 0 1 4 7 ctxIdle raw room
    if r.err = 0 then (r.out, raw.length) else ([], 0)

/-- The bytes of a segment (R301): header, frame records, metadata. -/
def segBytes (n : Nat) (num : BitVec 32) (r : Recorder) (md : List Byte × Nat) (s : State) : List Byte :=
  let p := match chan? s r.chan with | some c => le 1 c.p.codec.toNat ++ le 1 c.p.ptime.toNat | none => [0, 0]
  let hd (crc : Nat) : List Byte :=
    le 4 0x53454752 ++ le 2 1 ++ le 2 n ++ le 4 num.toNat ++ le 2 r.chan ++ p ++ le 8 r.start.toNat ++ le 8 (rtbNs s).toNat ++ le 4 r.nframes ++
      le 4 r.bytes ++ le 4 (64 + r.bytes) ++ le 4 md.1.length ++ le 4 md.2 ++ le 4 r.drops ++ le 4 crc ++ le 4 0
  hd (crc32c (hd 0 ++ r.body ++ md.1)).toNat ++ r.body ++ md.1

/-- The context of the recorders, taken again where PD_CMP has lost it. -/
def retakeCtx (s : State) : State :=
  match s.voice.recCtx, anyCtx s with
  | none, some x => claim 4 x 0x00 0xFFFF { s with voice := { s.voice with recCtx := some x } }
  | _, _ => s

/-- What the metadata jobs of a segment leave: a job that failed its verification is counted, recorded and run once more; after a second failure the
segment has no metadata, which is recorded too (R453). -/
def metaJobs (first again : Bool) (n num : Nat) (s : State) : State :=
  let bad (s : State) : State := journal 0x60 0x60 8 (s.voice.recCtx.getD 0) 0x30 [] (bump (tpzCnt 1) (bump (tpzCnt 0) s))
  if !first then bump (tpzCnt 0) s
  else if !again then bump (tpzCnt 0) (bad s)
  else journal 0x10B 0 8 n num [] (bad (bad s))

/-- SEGMENT_CLOSE: the metadata job has ended, the segment becomes a KIND 4 entry and takes its number at the commit; a
refused commit leaves it open (R214, R302, R453). Its job has PRIO 5, which throttling holds (Table 18.9). -/
def execSegmentClose (rec : BitVec 8) (firstFailed againFailed : Bool) (s : State) : Out :=
  let n := rec.toNat
  .next (match tblFind n s.voice.recs with
    | none => s
    | some r =>
      let s0 := retakeCtx s
      if !onyxUp s ∨ !domOn s 7 ∨ s.pwr.safe ∨ 2 ≤ s.onyx.thermal ∨ s0.voice.recCtx.isNone ∨ !segDue s r ∨ 4 ≤ r.closed.length ∨ s.ledger.tail.isSome ∨
          !admitted 1 1 s then s
      else
        let num := s0.host.segNum + 1
        let md := segMeta (firstFailed && againFailed) (r.buflen - 64 - r.bytes) s0
        let data := segBytes n num r md s0
        let origin := n * 0x100 + num.toNat % 65536 * 0x1000000 + num.toNat / 65536 * 2 ^ 40
        let (li, s) := ledgerAccept 4 0xFF origin 1 n (crc32c data) false false (tookFree (tookFree s0))
        match li with
        | none => s
        | some i =>
          let s := metaJobs firstFailed againFailed n num.toNat s
          let addr := r.bufaddr + BitVec.ofNat 64 (r.index % r.nbuf * r.buflen)
          let g : Seg := { num := num, recorder := n, queue := r.queue, lref := i, addr := addr, len := data.length, rtb := r.start,
                           data := data, written := false }
          let r : Recorder := { r with start := rtbNs s, nframes := 0, bytes := 0, drops := 0, index := r.index + 1, body := [],
                                       closed := r.closed ++ [{ index := r.index, lref := some (i, num) }], last := num }
          recDone n (setRec n (fillSeg r) { s with host := { s.host with segNum := num, segs := s.host.segs ++ [g] } }))

/-- The number that HB_SEGNEXT shows: the next segment to be written (Table 6.2). -/
def segNextUpd (s : State) : State :=
  wr segNext (match s.host.segs.find? (fun g => !g.written) with | some g => g.num.toNat | none => (s.host.segNum + 1).toNat) s

/-- The buffer a segment goes to is free: HB_SEGACK covers the segment written to it before (R302). -/
def bufFree (s : State) (g : Seg) : Bool :=
  match tblFind g.recorder s.voice.recs with
  | none => true
  | some r => match tblFind ((g.addr - r.bufaddr).toNat / r.buflen) r.bufLast with
    | some b => b == g.num || !later32 b (BitVec.ofNat 32 (rd s segAck))
    | none => true

/-- SEGMENT_WRITE: the lowest-numbered segment not written goes to its buffer, and its SEGMENT entry to the ring of its
recorder's queue; a DMA error stops the queue (R152, R167, R302). -/
def execSegmentWrite (wrote : Bool) (s : State) : Out :=
  .next (match s.host.segs.find? (fun g => !g.written) with
    | none => s
    | some g =>
      if !onyxUp s ∨ !ringOpen s g.queue ∨ !bufFree s g then s
      else if !wrote then stopQueue g.queue 2 (aerNonFatal s)
      else
        let chan := match tblFind g.recorder s.voice.recs with | some r => r.chan | none => 0xFFFF
        let e : Cpl := { typ := 3, seq := 0, status := 0, orig := 0, opcode := chan, trunc := false, replayed := false, w8 := g.num.toNat,
                         w12 := g.len, payload := le 8 g.addr.toNat ++ le 8 g.rtb.toNat, room := 0, urgent := false }
        let s := match tblFind g.recorder s.voice.recs with
          | some r => recTidy (setRec g.recorder { r with closed := r.closed.filter (fun (x : ClosedSeg) => match x.lref with | some (_, m) => m != g.num | none => true),
                                                          bufLast := tblSet ((g.addr - r.bufaddr).toNat / r.buflen) g.num r.bufLast } s)
          | none => s
        let h := s.host
        let s := { s with host := { h with segs := h.segs.map (fun (x : Seg) => if x.num == g.num then { x with written := true } else x),
                                           segLast := if later32 g.num h.segLast then g.num else h.segLast } }
        pushCpl g.queue e (segNextUpd (memPut g.addr.toNat g.data s)))

end Sys2Proof.Machine
end

