-- ==== Sys2Proof/Machine/Power.lean ====
section
/-! DEFINITION. Power domains, hibernate, the Beryl scrubber and poisoned entries (Chapter 4, R211, R212); writes of registers
that have no row of their own (R9). -/

namespace Sys2Proof.Machine

/-! ### Poisoned entries (R211, R212) -/

/-- A message leaves its flow's list, and is not sent again. -/
def dropMessage (i : Nat) (s : State) : State :=
  match tblFirst (fun _ f => f.out.any (fun m => m.lref == i)) s.net.flows with
  | some (fl, f) => setFlow fl { f with out := f.out.filter (fun m => m.lref != i) } s
  | none => s

/-- The item of a KIND 2 command is not delivered again: a message leaves its flow's list, a job that has not begun is given up. What is on its
way already is not withdrawn (R212). -/
def poisonWork (i : Nat) (c : Cmd) (s : State) : State :=
  match c.wait with
  | .assured _ _ => dropMessage i s
  | .tpz ctx => if s.tpz.jobs.any (fun j => j.ctx == ctx && j.eng.isSome) then s else abandonJob ctx s
  | _ => s

/-- What becomes of a KIND 3 message or KIND 4 segment whose entry is poisoned: reported, and never delivered. -/
def poisonMessage (i : Nat) (s : State) : State :=
  let s := match tblFirst (fun _ f => f.out.any (fun m => m.lref == i)) s.net.flows with
    | some (fl, f) =>
      let seq := match f.out.find? (fun m => m.lref == i) with | some m => m.seq | none => 0
      journal 0x10A 0x48 7 fl seq.toNat [] (unqueue fl seq (setFlow fl { f with out := f.out.filter (fun m => m.lref != i) } s))
    | none => journal 0x10A 0x48 7 ((entry s i).origin.toNat / 256 % 65536) ((entry s i).origin.toNat / 16777216 % 65536) [] s
  ledgerRelease i s

def poisonSegment (i : Nat) (s : State) : State :=
  let o := (entry s i).origin.toNat
  let num := o / 16777216
  let s := journal 0x109 0 7 (o / 256 % 65536) num [] s
  let s := { s with host := { s.host with segs := s.host.segs.filter (fun g => g.lref != i) },
                    voice := { s.voice with recs := tblMap (fun _ (r : Recorder) => { r with closed := r.closed.filter (fun (x : ClosedSeg) =>
                      match x.lref with | some (l, _) => l != i | none => true) }) s.voice.recs } }
  recTidy (segNextUpd (ledgerRelease i s))

/-- Poison entry `i` for a cause of Table 8.7, and end it by its KIND. -/
def poison (i cause : Nat) (s : State) : State :=
  let e := entry s i
  let was := e.phase.toNat
  let s := journal 0x102 0x02 7 i cause (entryEvidence e)
    (ueFix (6 * i) 1 (setEntry i { e with state := 0xE1, phase := 5, fstatus := if was = 4 then e.fstatus else BitVec.ofNat 8 stPoisoned } s))
  if was = 4 then s
  else if e.kind = 3 then poisonMessage i s
  else if e.kind = 4 then poisonSegment i s
  else match s.host.cmds.find? (fun c => c.lref == some i) with
    | some c => if c.fin.isNone then finish c stPoisoned [] (poisonWork i c s) else poisonWork i c s
    | none => s

/-- A Beryl word found uncorrectable by Onyx: the index goes to the journal, and an entry that holds the word is poisoned (R95). -/
def onyxUe (w : Nat) (s : State) : State :=
  let s := journal 0x105 0 8 w 0 [] (journal 0x21 0 8 w 0 [] s)
  let i := w / 6
  if w < wBoot ∧ (entry s i).state = 0xE1 ∧ (entry s i).phase ≠ 5 then poison i 2 s else s

/-- A read by Onyx of `n` words of Beryl from word `lo` meets the uncorrectable ones (R95). -/
def ueReads (lo n : Nat) (s : State) : State :=
  (s.pwr.ueWords.filter (fun w => decide (lo ≤ w ∧ w < lo + n))).foldl (fun s w => onyxUe w s) s

/-! ### The scrubber (R94, R95) -/

/-- An uncorrectable word is recorded once: in the next free register, or in OVF. -/
def recordUe (w : Nat) (s : State) : State :=
  let n := rd s scrubUeN
  let s := { s with pwr := { s.pwr with ueWords := if s.pwr.ueWords.contains w then s.pwr.ueWords else s.pwr.ueWords ++ [w] } }
  if (fromN 0 n).any (fun k => rd s (scrubUe k) == w) then s
  else
    let s := if n < 8 then wr (scrubUe n) w (wr scrubUeN (n + 1) s) else wr scrubUeOvf 1 s
    if n < 8 ∧ onyxUp s then onyxUe w s else s

/-- SCRUB_ADVANCE: the next word is read; a single-bit error is corrected in place. -/
def execScrubAdvance (corrected uncorrectable : Bool) (s : State) : Out :=
  let w := s.pwr.scrubPos
  .next (if !flag s scrubEn then s
    else
      let bad := uncorrectable || s.pwr.ueWords.contains w
      let s := if bad then recordUe w s else if corrected then bump scrubCe s else s
      let nxt := (w + 1) % 131072
      let s := { s with pwr := { s.pwr with scrubPos := nxt } }
      if nxt = 0 then bump scrubPass s else s)

/-! ### What a domain loses when it goes off (R83, R84, R495, Table 5.2) -/

def unitIn (d u : Nat) : Bool := unitDomain u == some d

/-- The counters of a block go back to zero; its settings are those Onyx applies again after switch-on. -/
def clearCounters (block : Nat) (s : State) : State :=
  { s with regs := tblMap (fun k (v : Word32) => if k / 65536 = block then
      (match regRow block (k % 65536) with | some r => v &&& ~~~(BitVec.ofNat 32 r.rc) | none => v) else v) s.regs }

/-- Items held in units of the domain are lost; of those under way to it, the ones for a core are handled as for a core that has
faulted, and every other is a rejection of its sending port (R84). -/
def dropItems (d : Nat) (s : State) : State :=
  let mine (i : Item) : Bool := unitIn d i.wh.dest.toNat && !decide (0x10 ≤ i.wh.dest.toNat ∧ i.wh.dest.toNat ≤ 0x3F)
  let out := s.fab.flight.filter mine
  let s := { s with fab := { s.fab with flight := s.fab.flight.filter (fun i => !mine i),
                                        wait := s.fab.wait.filter (fun i => !unitIn d i.wh.src.toNat) } }
  out.foldl (fun s i => reject i.wh.src.toNat 1 i s) s

/-- PD_NET: every enabled port is OUT_OF_SERVICE, the packet buffer and held queues are lost. -/
def netLost (s : State) : State :=
  let s := (fromN 0 8).foldl (fun s p =>
    if ethSt s p = 0 then s
    else
      let s := (portItems (ethP s p)).foldl (fun s q => if q.voice.isSome then voiceLost 8 0 q.voice none s else s) s
      setEth p { ethInit with rxSeq := (ethP s p).rxSeq } (portOut p (linkGone p s))) s
  let s := (s.net.flows.filter (fun e => fAssured e.2 && e.2.fallen.isNone)).foldl (fun s e => losePath e.1 s) s
  clearCounters 1 { s with net := { s.net with rx := [], pairs := tblMap (fun _ (p : PrpPair) => { p with seen := [], srcs := [] }) s.net.pairs } }

/-- PD_PLC. -/
def plcLost (s : State) : State :=
  clearCounters 2 ((fromN 0 4).foldl (fun s n => if flag s (plcEn n) ∨ (plcP s n).calibrating then plcOut n s else s) s)

/-- PD_SSC: slots and ports stop. -/
def sscLost (s : State) : State :=
  let s := (fromN 0 64).foldl (fun s i => if flag s (sscEn i) then wr (sscEn i) 0 (wr (sscRemain i) 0 (setSlot i { slot s i with block := [], loop := [] } s)) else s) s
  let s := (fromN 0 16).foldl (fun s p =>
    let s := if tdmConf s p then setTdm p { tdmPort s p with settleAt := none, tx := [] } s else s
    if flag s (tdmEn p) then
      finishWait (.tdm p) stFaulted [] (wr (tdmEn p) 0 (wr (tdmState p) 0 (wr (tdmCand p) 0 (wr (tdmOffset p) 0 s))))
    else s) s
  let s := { s with pwr := { s.pwr with pllClaims := [], pllOut := tblDel 7 s.pwr.pllOut } }
  clearCounters 4 (clearCounters 3 (opalUpd s))

/-- PD_CMP: contexts are lost, and accepted jobs are executed again once they can be (R92, R186, R209). -/
def cmpLost (s : State) : State := clearCounters 5 (ctxsLost s)

/-- A Garnet cluster: cores out of service, memories lost, the channels on it STALLED under DOMAIN_OFF (R92, R306). -/
def clusterLost (g : Nat) (s : State) : State :=
  let s := s.voice.chans.foldl (fun s e =>
    if (e.2.st = 2 ∨ e.2.st = 3) ∧ clusterOf e.2.core = g then
      modChan e.1 (fun c => { c with st := 4, stall := 8, ckpt := none, moveTo := none }) (loseFrames 8 e.1 s) else s) s
  let s := (fromN (12 * g) 12).foldl (fun s n =>
    let c := core s n
    setCore n { coreInit with st := if c.st = 6 ∨ c.st = 7 then c.st else 5, ecause := c.ecause, faults := c.faults, ecc := c.ecc, spUe := c.spUe } s) s
  let s := { s with gar := { s.gar with clMem := tblDel g s.gar.clMem },
                    voice := { s.voice with sched := { s.voice.sched with spares := s.voice.sched.spares.filter (fun n => clusterOf n != g) } } }
  capredUpd g s

/-- The domain of a macro (Table 17.1). -/
def macroDomain (m : Nat) : Option Nat :=
  if m ≤ 0x08 then some 0 else if 0x10 ≤ m ∧ m ≤ 0x3F then some 1 else if 0x40 ≤ m ∧ m ≤ 0x47 then some 2
  else if 0x48 ≤ m ∧ m ≤ 0x4F then some 3 else if 0x100 ≤ m ∧ m ≤ 0x15F then some 4 else if 0x180 ≤ m ∧ m ≤ 0x19F then some 5
  else if 0x1A0 ≤ m ∧ m ≤ 0x1BF then some 6 else if 0x1C0 ≤ m ∧ m ≤ 0x20F then some 7
  else if 0x1000 ≤ m ∧ m ≤ 0x12FF ∧ m % 16 < 12 then some (8 + (m - 0x1000) / 192)
  else if 0x1400 ≤ m ∧ m ≤ 0x147F then some (8 + (m - 0x1400) / 32) else none

/-- The domain a run tests. -/
def runDomain (r : AgtRun) : Nat := if r.target = 0 then (macroDomain r.index).getD 0 else if r.target = 1 then 8 + clusterOf r.index else r.index

/-- A domain's units cease: what they hold is lost, what they have claimed or leased is released. -/
def domLost (d : Nat) (s : State) : State :=
  let s := dropItems d s
  let s := if d = 4 then netLost s else if d = 5 then plcLost s else if d = 6 then sscLost s else if d = 7 then cmpLost s
    else if 8 ≤ d then clusterLost (d - 8) s else s
  let s := unclaimIf (fun c => unitIn d c.holder && c.cls != 6) s
  let s := revokeWhere (fun l => l.state ≠ 0 && unitIn d l.owner.toNat) s
  abortRuns (fun r => runDomain r == d) true s

/-! ### Switching (R85 to R88) -/

/-- Stages × interval and repair reload, µs (Table 4.2). -/
def stageUs (d : Nat) : Nat := if d = 1 ∨ d = 3 ∨ d = 4 then 64 else if 8 ≤ d then 96 else 32

/-- Show the controller's state in PWR_SEQ. -/
def seqUpd (s : State) : State :=
  wr seqBusy (b2n s.pwr.cur.isSome) (wr seqDom (match s.pwr.cur with | some c => c.dom | none => 0) (wr seqPending s.pwr.queue.length s))

/-- Take the next request; those that change nothing are passed over. -/
def nextSwitch (fuel : Nat) (s : State) : State :=
  match fuel with
  | 0 => s
  | k + 1 =>
    if s.pwr.cur.isSome then s
    else match s.pwr.queue with
      | [] => s
      | (d, on) :: t =>
        let s1 := { s with pwr := { s.pwr with queue := t } }
        let st := rd s (domStat d)
        if (!on ∧ st ≠ 2) ∨ (on ∧ st = 2) then nextSwitch k s1
        else
          let sw : Switch := { dom := d, on := on, pgBy := now s + (if on then stageUs d + 32 else 10), pgSeen := false, failed := false }
          let s2 := wr (domStat d) 1 (if on then s1 else domLost d s1)
          { s2 with pwr := { s2.pwr with cur := some sw } }

/-- Queue a request (R85). -/
def switchReq (d : Nat) (on : Bool) (s : State) : State :=
  seqUpd (nextSwitch 64 { s with pwr := { s.pwr with queue := s.pwr.queue ++ [(d, on)] } })

/-- Queue a request for a domain that commands may switch. -/
def domReq (d : Nat) (on : Bool) (s : State) : State := if d < 4 ∨ 11 < d then s else switchReq d on s

def execDomainSwitchOn (dom : BitVec 4) (s : State) : Out := .next (if domOn s 1 then domReq dom.toNat true s else s)

def execDomainSwitchOff (dom : BitVec 4) (s : State) : Out := .next (if domOn s 1 then domReq dom.toNat false s else s)

/-- A domain's units are there again, out of service; a cluster's cores are tested with ALG 0x1B and become STANDBY (R498);
at S7 the step itself tests them. -/
def domBack (d : Nat) (s : State) : State :=
  if d < 8 then s
  else
    let g := d - 8
    let cores := if booted s then (fromN (12 * g) 12).filter (fun n => (core s n).st = 5) else []
    let run (n : Nat) : AgtRun := { result := none, cmd := none, target := 1, index := n, alg := 0x1B, slice := 0, since := none, pauseEnd := none,
                                    notBefore := 0, cells := [], logicFail := false, prev := 5 }
    { s with agt := { s.agt with runs := s.agt.runs ++ cores.map run },
             voice := { s.voice with sched := { s.voice.sched with noRoom := s.voice.sched.noRoom.filter (· ≠ g) } } }

/-- PD_CTRL is on: RTB starts again, and PLL_CTRL and PLL_FAB are enabled (R72, Table 4.7). -/
def ctrlUp (s : State) : State := reseed (wr (pllEn 0) 1 (wr (pllEn 1) 1 s))

/-- DOMAIN_POWER_GOOD: the comparator asserts in time, and the domain is marked ON, of which an event tells Onyx (R86). PLL_MEM is enabled once
PD_MEM is on (Table 4.8). -/
def execDomainPowerGood (s : State) : Out :=
  .next (match s.pwr.cur with
    | some c =>
      if c.on ∧ !c.failed ∧ !c.pgSeen then
        let s := wr (domStat c.dom) 2 { s with pwr := { s.pwr with cur := some { c with pgSeen := true } } }
        let s := if c.dom = 1 then ctrlUp s else if c.dom = 3 then wr (pllEn 6) 1 s else s
        eventNow 0x00 5 c.dom 2 (undegrade 0x40 c.dom (domBack c.dom s))
      else s
    | none => s)

/-- DOMAIN_POWER_GOOD_TIMEOUT: the switches are opened again, which takes 10 µs (R88). -/
def execDomainPowerGoodTimeout (s : State) : Out :=
  .next (match s.pwr.cur with
    | some c =>
      if c.on ∧ !c.pgSeen ∧ !c.failed ∧ reached s c.pgBy then
        { s with pwr := { s.pwr with cur := some { c with failed := true, pgBy := now s + 10 } } }
      else s
    | none => s)

/-- What follows a missing power-good, by domain (R88): FAULT, an event, and SAFE or the units out of service. -/
def pgFault (d : Nat) (s : State) : State :=
  let s := eventNow 0x00 5 d 3 (wr (domStat d) 3 s)
  let s := journal 0x40 0 (if d = 1 ∨ d = 2 ∨ d = 3 then 3 else 4) d 0 [] s
  let s := if d = 4 then (fromN 0 8).foldl (fun s p => wr (ethState p) 5 s) s else s
  if d = 1 ∨ d = 2 ∨ d = 3 then enterSafe s else degrade 0x40 d s

/-- DOMAIN_SWITCH_COMPLETE: the switch ends, commands that wait for it end, and the controller takes the next request (R85). -/
def execDomainSwitchComplete (s : State) : Out :=
  .next (match s.pwr.cur with
    | none => s
    | some c =>
      let free := { s with pwr := { s.pwr with cur := none } }
      if c.failed then
        if reached s c.pgBy then seqUpd (nextSwitch 64 (finishWait (.domain c.dom) stFaulted [] (pgFault c.dom free))) else s
      else if c.on then
        if c.pgSeen then seqUpd (nextSwitch 64 (finishWait (.domain c.dom) stOk [] free)) else s
      else if reached s c.pgBy then
        seqUpd (nextSwitch 64 (finishWait (.domain c.dom) stOk [] (wr (domStat c.dom) 0 free)))
      else s)

/-! ### DOMAIN_POWER (R90, R91, R560) -/

/-- Time left of the longest hold, µs. -/
def holdLeft (s : State) : Nat :=
  s.net.ports.foldl (fun m e => match e.2.holdUntil with | some t => max m (t - now s) | none => m) 0

/-- One superframe of a PLC port, µs. -/
def sfUs (s : State) (n : Nat) : Nat := plcKk s n * plcNom s n / 1000

/-- Rows 4 to 8 of Table 4.4. -/
def domUse (s : State) (d : Nat) : Option Rej :=
  if 8 ≤ d then
    let g := d - 8
    match tblFirst (fun _ c => isRunning c && c.st != 4 && (clusterOf c.core == g || c.moveTo.map clusterOf == some g)) s.voice.chans with
    | some (ch, c) => some (conflict s { cls := 7, idx := ch, holder := 0x10 + c.core, obj := ch })
    | none =>
      let sp := s.voice.sched.spares ++ s.voice.sched.next.getD []
      (sp.find? (fun n => clusterOf n == g)).map (fun n => conflict s { cls := 8, idx := n, holder := 0x10 + n, obj := n })
  else if d = 4 then
    if (fromN 0 8).any (fun p => flag s (ethEn p) || heldItems s p != 0) then some (busy (holdLeft s)) else none
  else if d = 5 then
    ((fromN 0 4).find? (fun n => flag s (plcEn n) || decide ((plcP s n).emown ≠ 0) || !(plcP s n).txq.isEmpty)).map (fun n => busy (sfUs s n))
  else if d = 6 then
    match (fromN 0 64).find? (fun i => flag s (sscEn i)) with
    | some i => some (conflict s { cls := 1, idx := i, holder := 0x58, obj := i })
    | none => ((fromN 0 16).find? (fun p => flag s (tdmEn p))).map (fun p => conflict s { cls := 9, idx := p, holder := 0x59, obj := p })
  else if d = 7 then (s.claims.find? (fun c => c.cls == 4)).map (conflict s)
  else none

/-- Every row of Table 4.4 from row 2 on, in order. -/
def domOffRej (s : State) (d : Nat) : Option Rej :=
  match s.claims.find? (fun c => c.cls != 6 && unitIn d c.holder) with
  | some c => some (conflict s c)
  | none => match (fromN 0 64).find? (fun n => decide ((lease s n).state ≠ 0) && unitIn d (lease s n).owner.toNat) with
    | some n =>
      let l := lease s n
      some (conflict s { cls := 6, idx := n, holder := l.owner.toNat, obj := l.rindex.toNat })
    | none => match domUse s d with
      | some r => some r
      | none =>
        let mine (i : Item) : Bool := i.wh.assured && (unitIn d i.wh.dest.toNat || unitIn d i.wh.src.toNat)
        if s.fab.flight.any mine || s.fab.wait.any mine ||
            (d == 4 && s.net.ports.any (fun e => (portItems e.2).any (fun q => q.item.wh.assured))) then some (busy 10000) else none

/-- The PLL that feeds a domain (Table 3.2). -/
def domPll (d : Nat) : Nat := if d = 4 then 9 else if d = 5 then 8 else if d = 6 then 7 else if d = 7 then 1 else if 8 ≤ d then d - 6 else if d = 3 then 6 else 0

/-- The PLL that feeds a domain is enabled and locked. -/
def pllReady (s : State) (p : Nat) : Bool := flag s (pllEn p) && flag s (clkLock p)

def specDomainPower (dom on : BitVec 8) : Spec where
  info := { opcode := 0x0105, idem := .ck, lcls := .c, timeout := some 1000000, setup := false }
  par := firstRej [(decide (dom.toNat < 4 ∨ 11 < dom.toNat), badParam 0), (decide (1 < on.toNat), badParam 1)]
  st := fun s => if on = 1 then (if s.pwr.hib ≠ .awake then some (busy 10000) else if 8 ≤ dom.toNat ∧ domBadMem s dom.toNat then some (rej stOutOfService) else none)
    else if rd s (domStat dom.toNat) = 2 then domOffRej s dom.toNat else none
  objs := [.device]
  acc := fun _ s => if on = 0 ∧ 8 ≤ dom.toNat ∧ domOn s dom.toNat then
      { s with voice := { s.voice with sched := { s.voice.sched with noRoom := s.voice.sched.noRoom ++ [dom.toNat - 8] } } } else s
  eff := fun s =>
    let d := dom.toNat
    if on = 1 then
      if domOn s d ∧ s.pwr.cur.isNone then ok s
      else
        let s := if pllReady s (domPll d) then domReq d true s else wr (pllEn (domPll d)) 1 s
        .wait (.domain d) s
    else if rd s (domStat d) = 0 ∨ rd s (domStat d) = 3 then ok s
    else if 8 ≤ d then .wait (.domain d) { s with pwr := { s.pwr with offAtMf := s.pwr.offAtMf ++ [d] } }
    else .wait (.domain d) (domReq d false s)

def execDomainPower (h : Hdr) (dom on : BitVec 8) (s : State) : Out := .next (scp h (.domainPower h dom on) (specDomainPower dom on) s)

/-- Switch-offs of clusters that waited for the master-frame boundary are carried out (R91). -/
def mfSwitches (s : State) : State :=
  s.pwr.offAtMf.foldl (fun s d => domReq d false s) { s with pwr := { s.pwr with offAtMf := [] } }

/-! ### Hibernate (R97 to R100, R564) -/

/-- What R97 refuses the command for; the command itself is not yet among those accepted. -/
def hibBusy (h : Hdr) (s : State) : Bool :=
  tblAny (fun _ c => isRunning c) s.voice.chans || (fromN 0 64).any (fun i => flag s (sscEn i)) || (fromN 0 16).any (fun p => flag s (tdmEn p)) ||
    s.tpz.jobs.any (fun j => j.eng.isSome) || s.agt.runs.any (fun r => r.since.isSome) || (fromN 0 8).any (fun p => heldItems s p != 0) ||
    (fromN 0 4).any (fun n => !(plcP s n).txq.isEmpty) || s.host.cmds.any (fun c => c.fin.isNone && !(c.queue == h.queue.val && c.seq == h.seq)) ||
    (fromN 0 4).any (fun q => (queue s q).fetched.any (fun f => !(q == h.queue.val && f.slotSeq == h.seq)))

/-- GO arms the wake logic with the enables and the wake time in force, and asks for entry at the next master-frame boundary (R100). -/
def hibGo (s : State) : State :=
  refresh { s with pwr := { s.pwr with hib := .armed, wakeLatch := false, armN := flag s hibWakeNEn, armT := flag s hibTimerEn,
                                       armAt := rd s wakeAtLo + rd s wakeAtHi * 2 ^ 32 } }

def specHibernate (h : Hdr) (wakeAt : BitVec 64) (flags : BitVec 8) : Spec where
  info := { opcode := 0x0106, idem := .oo, lcls := .c, timeout := some 10000, setup := false }
  par := firstRej [(decide (2 ^ 48 ≤ wakeAt.toNat), badParam 0), (decide (3 < flags.toNat), badParam 8)]
  st := fun s => if hibBusy h s then some (busy 10000) else none
  objs := [.device]
  eff := fun s =>
    let s := wr wakeAtLo wakeAt.toNat (wr wakeAtHi (wakeAt.toNat / 2 ^ 32) s)
    ok (hibGo (abortRuns (fun _ => true) true (wr hibWakeNEn (b2n (flags.getLsbD 0)) (wr hibTimerEn (b2n (flags.getLsbD 1)) s))))

def execHibernate (h : Hdr) (wakeAt : BitVec 64) (flags : BitVec 8) (s : State) : Out :=
  .next (scp h (.hibernate h wakeAt flags) (specHibernate h wakeAt flags) s)

/-- A write of PWR_HIB_CTL: the enables are stored, and GO arms entry. -/
def hibCtlWrite (v : BitVec 32) (s : State) : State :=
  let s := wr hibWakeNEn (v.toNat / 2) (wr hibTimerEn (v.toNat / 4) s)
  if v.getLsbD 0 ∧ s.pwr.hib = .awake ∧ booted s then hibGo s else s

def execHibernateGo (value : BitVec 32) (s : State) : Out := .next (if domOn s 1 then hibCtlWrite value s else s)

/-- A domain that is on goes off with no refusal check (R92); one that is OFF or marked FAULT keeps its state (R85). -/
def domOffNow (d : Nat) (s : State) : State := if rd s (domStat d) = 0 ∨ rd s (domStat d) = 3 then s else wr (domStat d) 0 (if domOn s d then domLost d s else s)

/-- The DDR hand-over: junction temperature recorded, self-refresh, retention, PD_MEM off; a controller that does not confirm leaves the
contents recorded as lost (R98, R107, R564). -/
def ddrHandover (confirmed : Bool) (s : State) : State :=
  if !domOn s 3 then s
  else
    let s := wr entryTj (toU 8 (s.onyx.temp + 64)) (wr ddrRet 1 (wr (domStat 3) 0 s))
    if confirmed then s else { s with boot := { s.boot with hdr := { s.boot.hdr with ddrstate := s.boot.hdr.ddrstate % 128 + 128 } } }

/-- PD_HOST goes off: the link is lost as at a host link reset, without the increment (R156), and items under way to host DMA are rejections of
their sending ports (R84). -/
def hostOff (s : State) : State :=
  if !domOn s 2 then s
  else
    let s := dropItems 2 s
    let s := linkReset false { s with host := { s.host with link := { s.host.link with up := false } } }
    let s := (fromN 0 4).foldl (fun s q => if mspiOwned s q then resetQueue q s else s) s
    wr (domStat 2) 0 s

/-- CLK_AO_CNT has reached the wake time that GO armed (R99, R100). -/
def wakeDue (s : State) : Bool := s.pwr.armT && decide (s.pwr.armAt ≤ s.time.ao.toNat)

/-- A wake event during entry is latched with DURING_ENTRY; a later write of the register does not undo it (R100). -/
def wakeLater (s : State) : State := wr wakeDuring 1 { s with pwr := { s.pwr with wakeLatch := true } }

/-- The wake logic accepts an event and drives CORE_EN high (Table 4.7). -/
def wakeUp (s : State) : State := wr coreEn 1 { s with pwr := { s.pwr with hib := .leaving, rampFrom := s.time.ao } }

/-- The provisioned configuration is in use: S10 of the start has been passed. -/
def configLive (s : State) : Bool := decide (11 ≤ s.boot.step)

/-- What the configuration shadow and the retention area hold at the last moment before PD_CTRL goes off: the claim table as at its last
change (R514), and of each assured flow the messages, SEQ and NEXT_SEQ, and of each recorder its committed segments (R201, R202, R204). Channels in service have lost frames from
now on (Table 8.2). -/
def keepShadow (s : State) : State :=
  let keep (h : Shadow) : Shadow :=
    let flow (n : Nat) (f : Flow) : Flow :=
      match tblFind n s.net.flows with
      | some g =>
        if configLive s then
          { f with out := g.out.map (fun m => { m with sent := false }), txSeq := g.txSeq, nextSeq := g.nextSeq, later := g.later }
        else f
      | none => f
    let gap (_ : Nat) (c : Chan) : Chan := if 2 ≤ c.st ∧ (configLive s ∨ c.gapAt.isNone) then { c with gapAt := some (now s) } else c
    let rec' (n : Nat) (r : Recorder) : Recorder :=
      match tblFind n s.voice.recs with
      | some g =>
        if configLive s then { r with closed := g.closed.filter (fun (x : ClosedSeg) => x.lref.isSome), bufLast := g.bufLast, index := g.index, last := g.last }
        else r
      | none => r
    { h with claims := if configLive s then s.claims.filter (fun c => c.cls != 6) else h.claims,
             net := { h.net with flows := tblMap flow h.net.flows },
             voice := { h.voice with chans := tblMap gap h.voice.chans, recs := tblMap rec' h.voice.recs } }
  { s with shadow := s.shadow.map keep }

/-- HIBERNATE_ENTRY: the rows of Table 4.6, from the first master-frame boundary; a wake event during entry begins the exit at once. -/
def execHibernateEntry (ddrConfirmed : Bool) (s : State) : Out :=
  .next (if s.pwr.hib ≠ .armed ∨ !onyxUp s then s
    else
      let s := keepShadow { s with voice := { s.voice with sched := { s.voice.sched with running := false } } }
      let s := [8, 9, 10, 11, 7, 6, 5, 4].foldl (fun s d => domOffNow d s) s
      let s := ddrHandover ddrConfirmed (hostOff s)
      let s := renewAnchor { s with onyx := { s.onyx with phase := .off, events := [] }, pwr := { s.pwr with queue := [], cur := none, hib := .asleep },
                                    time := { s.time with refLostAo := s.time.ao } }
      let s := seqUpd (wr coreEn 0 (wr (domStat 1) 0 (revokeWhere (fun l => l.state ≠ 0 && unitIn 1 l.owner.toNat) s)))
      let s := (fromN 0 10).foldl (fun s p => wr (clkLock p) 0 (wr (pllEn p) 0 s)) s
      if wakeDue s then wakeUp (wr wakeStatTimer 1 (wr wakeDuring 1 s))
      else if s.pwr.wakeLatch then wakeUp s
      else s)

/-- WAKE_N_LOW: two CK_AO samples low (R99, R100). -/
def execWakeNLow (s : State) : Out :=
  .next (if !s.pwr.armN ∨ !s.time.aoRun then s
    else if s.pwr.hib = .armed then wr wakeStatN 1 (wakeLater s)
    else if s.pwr.hib = .asleep then wakeUp (wr wakeStatN 1 s)
    else s)

/-- WAKE_TIMER_MATCH: CLK_AO_CNT reaches PWR_WAKE_AT (R99, R100). -/
def execWakeTimerMatch (s : State) : Out :=
  .next (if !wakeDue s then s
    else if s.pwr.hib = .armed then wr wakeStatTimer 1 (wakeLater s)
    else if s.pwr.hib = .asleep then wakeUp (wr wakeStatTimer 1 s)
    else s)

/-! ### Writes of registers without a row of their own (R9, R13, R141) -/

/-- A dword that Onyx firmware writes to a block register, by its access code; RTB and PWR registers that act on a write do so. -/
def blockWrite (block off : Nat) (v : BitVec 32) (s : State) : State :=
  if block = 7 ∧ off = 0x004 then
    (if v.getLsbD 31 then domReq (v.toNat % 16) (v.getLsbD 8) s else s)
  else if block = 7 ∧ off = 0x00C then hibCtlWrite v s
  else if block = 7 ∧ off = 0x01C then wr coreRamp (clamp 250 16000 (v.toNat % 16384)) s
  else if block = 8 ∧ off = 0x060 then (let s := regStore (rk 8 0x60) v s; wr audActive (rd s audSrc) s)
  else if block = 9 ∧ off = 0x010 then (let was := rd s rtbSrc; let s := regStore (rk 9 0x10) v s; srcWritten was (rd s rtbSrc) s)
  else if block = 9 ∧ off = 0x01C then addendHi v.toNat s
  else if block = 9 ∧ off = 0x020 then adjWrite (sx 32 v.toNat) s
  else if block = 9 ∧ off = 0x030 then (if v.getLsbD 0 then cmdStep s else s)
  else regStore (rk block off) v s

/-- REGISTER_WRITE: BAR0 by the host, in aligned dwords; configuration space by the host, which answers from S4 DONE (R110; block 11, log 107); the
block maps by Onyx firmware alone. -/
def execRegisterWrite (block : BitVec 8) (offset : BitVec 16) (size : BitVec 8) (value : BitVec 32) (s : State) : Out :=
  let b := block.toNat
  let o := offset.toNat
  .next (if b = 10 then
      if !pcieUp s then s
      else if size ≠ 4 ∨ o % 4 ≠ 0 then bump badAcc s
      else hbWrite false o value s
    else if b = 11 then
      (if hostLinkUp s && size == 4 && decide (o % 4 = 0) && (decide (5 ≤ s.boot.step) || minimal s || s.pwr.safe) then cfgWrite o value s else s)
    else if 1 ≤ b ∧ b ≤ 9 ∧ size = 4 ∧ o % 4 = 0 ∧ domOn s 1 then blockWrite b o value s
    else s)

end Sys2Proof.Machine
end

