-- ==== Sys2Proof/Machine/Voice.lean ====
section
/-! DEFINITION. The channel family and the kernel loading family of commands (R180, R181, R192), the urgent lane and the
job watchdog (R289, R251). -/

namespace Sys2Proof.Machine

/-- A channel-family command of classes CK and C. -/
def chInfo (opcode timeout : Nat) (setup : Bool) : OpInfo :=
  { opcode := opcode, idem := .ck, lcls := .c, timeout := some timeout, setup := setup }

/-- CHAN names no context. -/
def chanBad (ch : BitVec 16) : Bool := decide (8191 < ch.toNat)

/-- The channel as the accepted commands will make it, or as it is. -/
def planChan (s : State) (ch : Nat) : Option Chan :=
  match chan? (proj s) ch with
  | some c => some c
  | none => chan? s ch

/-- Thermal level 2 refuses what adds load, EMERG apart (R505). -/
def thermalRej (h : Hdr) (s : State) : Option Rej := if 2 ≤ s.onyx.thermal ∧ !h.emerg then some (busy 1000000) else none

/-! ### Channels -/

/-- CH_CREATE (R284, R285, R509). -/
def specChCreate (h : Hdr) (ch : BitVec 16) (p : ChParams) : Spec where
  info := chInfo 0x0201 100000 true
  par := firstRej [(chanBad ch, badParam 0), ((fieldFault p).isSome, badParam (createOff ((fieldFault p).getD 0)))]
  st := fun s => orRej (voicePre (.chCreate h ch p) s)
    (if isPassthru p && decide (480000 < frameCycles s (newChan p h.emerg 0)) then some (capacity 0) else none)
  objs := [.chan ch.toNat]
  eff := stage h (.chCreate h ch p) false

def execChCreate (h : Hdr) (ch : BitVec 16) (p : ChParams) (s : State) : Out :=
  .next (scp h (.chCreate h ch p) (specChCreate h ch p) s)

/-- IN or OUT has a KIND or unused bits that R286 does not allow. -/
def bindBad (b : BitVec 32) (isIn : Bool) : Bool :=
  let v := b.toNat
  let k := v / 0x10000000
  let r := v % 0x10000000
  if k = 0 then decide (r ≠ 0)
  else if k = 1 then decide (r / 0x100000 ≠ 0 ∨ r / 256 % 256 ≠ 0)
  else if k = 2 then !isIn || decide (r / 64 ≠ 0)
  else if k = 3 then !isIn || decide (r / 8192 ≠ 0)
  else true

/-- KIND 1 names an entry that the slot map in force does not have (R286). -/
def entryRej (s : State) (b : BitVec 32) (off : Nat) : Option Rej :=
  let v := b.toNat
  if v / 0x10000000 = 1 ∧ (tdmPort s (v / 65536 % 16)).n ≤ v % 256 then some (badParam off) else none

/-- A binding that another channel holds (R286, R513). -/
def bindRej (s : State) (ch : Nat) (l : List (Nat × Nat)) : Option Rej :=
  (l.findSome? (fun e => match claimOf s e.1 e.2 with
    | some c => if c.obj = ch then none else some c
    | none => none)).map (conflict s)

/-- CH_ACTIVATE (R181, R286, R303, R410, R509). -/
def specChActivate (h : Hdr) (ch : BitVec 16) (inB outB : BitVec 32) : Spec where
  info := chInfo 0x0202 100000 true
  par := firstRej [(chanBad ch, badParam 0), (bindBad inB true, badParam 2), (bindBad outB false, badParam 6)]
  st := fun s =>
    let v := proj s
    let n := ch.toNat
    let slotRej := if inB.toNat / 0x10000000 = 2 ∧ (flag s (sscNone (inB.toNat % 64)) ∨ rd s (sscChan (inB.toNat % 64)) ≠ n)
                   then some (badParam 2) else none
    orRej (voicePre (.chActivate h ch inB outB) s) (orRej (thermalRej h s) (orRej (entryRej s inB 2) (orRej slotRej (orRej (entryRej s outB 6)
      (orRej (bindRej s n (localBinds inB outB))
        (match planChan s n with
          | none => none
          | some c =>
            let room := chanRoom v (chanCost v c) (h.emerg || c.p.prio == 0)
            if room = 0 ∨ (placesOf v { c with inB := inB } allCores n).isEmpty then some (capacity room) else none))))))
  objs := [.chan ch.toNat]
  acc := fun c s =>
    let n := ch.toNat
    let v := projUpto c.lsn s
    match chan? v n with
    | none => s
    | some x => match choose (placesOf v { x with inB := inB } allCores n) s with
      | none => s
      | some (k, φ) =>
        let s := setCmd { c with early := [k, φ] } (tookFree s)
        (localBinds inB outB).foldl (fun s e => claim e.1 e.2 (0x10 + k) n s) s
  eff := stage h (.chActivate h ch inB outB) true

def execChActivate (h : Hdr) (ch : BitVec 16) (inB outB : BitVec 32) (s : State) : Out :=
  .next (scp h (.chActivate h ch inB outB) (specChActivate h ch inB outB) s)

/-- The offset at which a changed channel's fault is reported: the field's own, or that of the first selected field it
depends on. -/
def modifyFault (mask : Nat) (p : ChParams) : Option Nat :=
  let sel (k : Nat) : Bool := decide (mask / 2 ^ k % 2 = 1)
  (fieldFault p).map (fun k =>
    let near := if k = 5 then [4, 3, 1] else if k = 7 then [6] else [0]
    modifyOff mask (if sel k then k else (near.find? sel).getD k))

/-- CH_MODIFY (R181, R284): the selected fields are checked in order, each with the earlier ones of the command (R567); with the
channel's own values they are checked where its state is known. -/
def specChModify (h : Hdr) (ch mask : BitVec 16) (p : ChParams) : Spec where
  info := chInfo 0x0203 100000 false
  par :=
    let m := mask.toNat
    let sel (k : Nat) : Bool := decide (m / 2 ^ k % 2 = 1)
    let own := (fromN 0 8).find? (fun k => sel k && (fieldBad p k || selClash sel p k))
    firstRej [(chanBad ch, badParam 0), (decide (255 < m), badParam 2), (own.isSome, badParam (modifyOff m (own.getD 0)))]
  st := fun s =>
    let v := proj s
    let n := ch.toNat
    orRej (voicePre (.chModify h ch mask p) s)
      (match planChan s n with
        | none => none
        | some c =>
          let q := mergePar mask.toNat c.p p
          match modifyFault mask.toNat q with
          | some o => some (badParam o)
          | none =>
            let x := emergPrio h.emerg { c with p := q }
            let cost := chanCost v x
            let resv := if h.emerg || x.p.prio == 0 then 0 else s.onyx.emergReserve * cost
            if isRunning c then
              if (chanCost v c < cost ∧ voiceBudget v < voiceLoad v - chanCost v c + cost + resv) ∨
                  !fitsAt v c.core c.phase x.p.ptime.toNat (frameCycles v x) (isPassthru x.p) n then some (capacity 0) else none
            else if isPassthru q && decide (480000 < frameCycles v x) then some (capacity 0) else none)
  objs := [.chan ch.toNat]
  eff := fun s => if mask = 0 then (if voiceValid (.chModify h ch mask p) (planOf h s) then ok s else .done stBadState [] s)
                  else stage h (.chModify h ch mask p) false s

def execChModify (h : Hdr) (ch mask : BitVec 16) (p : ChParams) (s : State) : Out :=
  .next (scp h (.chModify h ch mask p) (specChModify h ch mask p) s)

/-- CH_DEACTIVATE (R284). -/
def specChDeactivate (h : Hdr) (ch : BitVec 16) : Spec where
  info := chInfo 0x0204 100000 false
  par := if chanBad ch then some (badParam 0) else none
  st := voicePre (.chDeactivate h ch)
  objs := [.chan ch.toNat]
  eff := stage h (.chDeactivate h ch) false

def execChDeactivate (h : Hdr) (ch : BitVec 16) (s : State) : Out :=
  .next (scp h (.chDeactivate h ch) (specChDeactivate h ch) s)

/-- CH_DELETE (R284). -/
def specChDelete (h : Hdr) (ch : BitVec 16) : Spec where
  info := chInfo 0x0205 10000 false
  par := if chanBad ch then some (badParam 0) else none
  st := voicePre (.chDelete h ch)
  objs := [.chan ch.toNat]
  eff := stage h (.chDelete h ch) false

def execChDelete (h : Hdr) (ch : BitVec 16) (s : State) : Out :=
  .next (scp h (.chDelete h ch) (specChDelete h ch) s)

/-! ### Statistics (R297, Table 11.5) -/

/-- The 128 bytes of CH_STATS. CORE and PHASE of a channel without a core are not stated and free (log 2). -/
def statsBytes (s : State) (c : Chan) : List Byte :=
  let w (off n : Nat) : List Byte := le n (tblGet c.stats off 0)
  let none' := c.st = 1
  w 0 4 ++ w 4 4 ++ (fromN 0 11).flatMap (fun k => w (8 + 4 * k) 4) ++ w 52 4 ++ w 56 4 ++ w 60 4 ++ w 64 4 ++ w 68 4 ++
    le 2 (c.jb.depth / 125000) ++ le 2 (c.jb.target / 125000) ++ w 76 2 ++ w 78 2 ++ w 80 4 ++ w 84 4 ++ w 88 4 ++ w 92 4 ++ w 96 4 ++
    w 100 4 ++ le 2 (toU 16 c.erle) ++ le 1 c.ec ++ le 1 c.st ++ le 1 (if none' then Config.freeNat s.free else c.core) ++
    le 1 (if none' then Config.freeNat (s.free + 1) else c.phase) ++ w 110 2 ++ w 112 4 ++ w 116 4 ++ w 120 4 ++ le 4 0

/-- CH_STATS (R190, R297). -/
def specChStats (h : Hdr) (ch : BitVec 16) (flags : BitVec 8) : Spec where
  info := { opcode := 0x0206, idem := if flags = 1 then .oo else .rx, lcls := if flags = 1 then .c else .n, timeout := some 10000, setup := false }
  par := firstRej [(chanBad ch, badParam 0), (decide (1 < flags.toNat), badParam 2)]
  st := voicePre (.chStats h ch flags)
  objs := [.chan ch.toNat]
  eff := fun s => match chan? s ch.toNat with
    | none => .done stBadState [] s
    | some c =>
      let b := statsBytes s c
      let s := tookFree (tookFree s)
      okRes b (if flags = 1 then setChan ch.toNat { c with stats := [] } s else s)

def execChStats (h : Hdr) (ch : BitVec 16) (flags : BitVec 8) (s : State) : Out :=
  .next (scp h (.chStats h ch flags) (specChStats h ch flags) s)

/-! ### Tones (R295) -/

/-- TONE_GEN. -/
def specToneGen (h : Hdr) (ch : BitVec 16) (dir toneset tone : BitVec 8) (dur : BitVec 16) : Spec where
  info := chInfo 0x0207 100000 false
  par := firstRej [(chanBad ch, badParam 0), (decide (2 < dir.toNat), badParam 2),
    (decide (15 < toneset.toNat ∧ toneset ≠ 0x80), badParam 3), (decide (15 < tone.toNat ∧ tone ≠ 0xFF), badParam 4)]
  st := fun s => orRej (voicePre (.toneGen h ch dir toneset tone dur) s)
    (match tblFind toneset.toNat s.voice.toneSets with
      | some d => if tone ≠ 0xFF ∧ leAt d 0 1 ≤ tone.toNat then some (badParam 4) else none
      | none => none)
  objs := [.chan ch.toNat]
  eff := stage h (.toneGen h ch dir toneset tone dur) false

def execToneGen (h : Hdr) (ch : BitVec 16) (dir toneset tone : BitVec 8) (dur : BitVec 16) (s : State) : Out :=
  .next (scp h (.toneGen h ch dir toneset tone dur) (specToneGen h ch dir toneset tone dur) s)

/-- The offset of the first field of these sizes, from `base`, that `len` bytes do not hold whole. -/
def missingAt (base : Nat) : List Nat → Nat → Nat
  | [], _ => base
  | n :: t, len => if len < base + n then base else missingAt (base + n) t len

/-- Sizes of the fields of a tone record. -/
def toneSizes : List Nat := [2, 2, 1, 1, 1, 1, 2, 2, 2, 2, 2, 2, 2, 2]

/-- The first field of the tone record at offset `o` of the definition that is out of range. -/
def toneFault (d : List Byte) (o : Nat) : Option Nat :=
  let f1 := leAt d o 2
  let f2 := leAt d (o + 2) 2
  let l1 := sx 8 (leAt d (o + 4) 1)
  let l2 := sx 8 (leAt d (o + 5) 1)
  if f1 < 50 ∨ 7900 < f1 then some o else if f2 ≠ 0 ∧ (f2 < 50 ∨ 7900 < f2) then some (o + 2)
  else if l1 < -60 ∨ 3 < l1 then some (o + 4) else if l2 < -60 ∨ 3 < l2 then some (o + 5)
  else if 15 < leAt d (o + 6) 1 then some (o + 6) else if leAt d (o + 7) 1 < 1 ∨ 4 < leAt d (o + 7) 1 then some (o + 7) else none

/-- TONESET_LOAD. -/
def specTonesetLoad (h : Hdr) (toneset : BitVec 8) (defn : List Byte) : Spec where
  info := chInfo 0x0208 100000 false
  par :=
    let n := leAt defn 0 1
    let sizes := [1, 3] ++ (List.replicate n toneSizes).flatten
    let bad := (fromN 0 n).findSome? (fun k => toneFault defn (4 + 24 * k))
    firstRej [(decide (15 < toneset.toNat), badParam 0), (!h.indirect, badParam 1),
      (decide (defn.length < 4 + 24 * n), badLength (missingAt 1 sizes (1 + defn.length))),
      (decide (4 + 24 * n < defn.length), badLength (5 + 24 * n)),
      (decide (n < 1 ∨ 16 < n), badParam 1), (decide (leAt defn 1 3 ≠ 0), badParam 2), (bad.isSome, badParam (1 + bad.getD 0))]
  st := voicePre (.tonesetLoad h toneset defn)
  objs := [.toneset toneset.toNat]
  eff := stage h (.tonesetLoad h toneset defn) false

def execTonesetLoad (h : Hdr) (toneset : BitVec 8) (defn : List Byte) (s : State) : Out :=
  .next (scp h (.tonesetLoad h toneset defn) (specTonesetLoad h toneset defn) s)

/-! ### Groups (R299) -/

def groupBad (g : BitVec 16) : Bool := decide (511 < g.toNat)

/-- GROUP_CREATE: CAPACITY with 512 groups (Table 19.3). -/
def specGroupCreate (h : Hdr) (g maxl : BitVec 16) (mix prio : BitVec 8) : Spec where
  info := chInfo 0x0209 100000 true
  par := firstRej [(groupBad g, badParam 0), (decide (maxl.toNat < 1 ∨ 1024 < maxl.toNat), badParam 2),
    (decide (1 < mix.toNat), badParam 4), (decide (7 < prio.toNat), badParam 5)]
  st := fun s => orRej (if 512 ≤ (proj s).voice.groups.length then some (capacity 0) else none) (voicePre (.groupCreate h g maxl mix prio) s)
  objs := [.group g.toNat]
  eff := stage h (.groupCreate h g maxl mix prio) true

def execGroupCreate (h : Hdr) (g maxl : BitVec 16) (mix prio : BitVec 8) (s : State) : Out :=
  .next (scp h (.groupCreate h g maxl mix prio) (specGroupCreate h g maxl mix prio) s)

/-- How many members `role` and `gain` leave room for: MAXL bounds the listeners, the budget the rest (R299, R303; log
23). -/
def joinRoom (v : State) (h : Hdr) (g ch : Nat) (role : BitVec 8) : Nat :=
  match tblFind g v.voice.groups, chan? v ch with
  | some x, some c =>
    let others := x.members.filter (fun m => m.chan != ch)
    let mine := sumOf memberCost (x.members.filter (fun m => m.chan == ch))
    let cost := memberCost { chan := ch, talk := role.getLsbD 0, listen := role.getLsbD 1, gain := 0 }
    let resv := if h.emerg || c.p.prio == 0 then 0 else v.onyx.emergReserve * chanCost v c
    let seats := if role.getLsbD 1 then x.maxl - (others.filter (fun m => m.listen)).length else 1024
    let cyc := if cost = 0 then 1024 else (voiceBudget v + mine - voiceLoad v - resv) / cost
    min seats cyc
  | _, _ => 1

/-- MEMBERS after a join or a leave, in acceptance order (R181). -/
def membersAfter (i : Instr) (c : Cmd) (g : Nat) (s : State) : Nat :=
  match tblFind g (applyVoice i c.emerg [] (projUpto c.lsn s)).voice.groups with
  | some v => v.members.length
  | none => 0

/-- GROUP_JOIN. -/
def specGroupJoin (h : Hdr) (g ch : BitVec 16) (role gain : BitVec 8) : Spec where
  info := chInfo 0x020A 100000 true
  par := firstRej [(groupBad g, badParam 0), (chanBad ch, badParam 2), (decide (3 < role.toNat), badParam 4),
    (decide (gain.toInt < -96 ∨ 24 < gain.toInt), badParam 5)]
  st := fun s =>
    let r := joinRoom (proj s) h g.toNat ch.toNat role
    orRej (voicePre (.groupJoin h g ch role gain) s) (orRej (thermalRej h s) (if r = 0 then some (capacity r) else none))
  objs := [.group g.toNat, .chan ch.toNat]
  acc := fun c s => setCmd { c with early := [membersAfter (.groupJoin h g ch role gain) c g.toNat s] } s
  eff := stage h (.groupJoin h g ch role gain) true

def execGroupJoin (h : Hdr) (g ch : BitVec 16) (role gain : BitVec 8) (s : State) : Out :=
  .next (scp h (.groupJoin h g ch role gain) (specGroupJoin h g ch role gain) s)

/-- GROUP_LEAVE. -/
def specGroupLeave (h : Hdr) (g ch : BitVec 16) : Spec where
  info := chInfo 0x020B 100000 false
  par := firstRej [(groupBad g, badParam 0), (chanBad ch, badParam 2)]
  st := voicePre (.groupLeave h g ch)
  objs := [.group g.toNat, .chan ch.toNat]
  acc := fun c s => setCmd { c with early := [membersAfter (.groupLeave h g ch) c g.toNat s] } s
  eff := stage h (.groupLeave h g ch) true

def execGroupLeave (h : Hdr) (g ch : BitVec 16) (s : State) : Out :=
  .next (scp h (.groupLeave h g ch) (specGroupLeave h g ch) s)

/-- GROUP_DELETE. -/
def specGroupDelete (h : Hdr) (g : BitVec 16) : Spec where
  info := chInfo 0x020C 100000 false
  par := if groupBad g then some (badParam 0) else none
  st := voicePre (.groupDelete h g)
  objs := [.group g.toNat]
  eff := stage h (.groupDelete h g) true

def execGroupDelete (h : Hdr) (g : BitVec 16) (s : State) : Out :=
  .next (scp h (.groupDelete h g) (specGroupDelete h g) s)

/-! ### Recorders (R301) -/

/-- A Topaz context nobody holds, lowest first; or the claim that stands in the way. -/
def freeCtx (s : State) : Option Nat := (fromN 0 64).find? (fun x => (claimOf s 4 x).isNone)

/-- The recorder numbers taken, by recorders and by accepted commands. -/
def recsTaken (s : State) : List Nat :=
  s.voice.recs.map (·.1) ++ (s.host.cmds.filter (fun c => unapplied c && c.opcode == 0x020D)).flatMap (·.early)

/-- REC_START. -/
def specRecStart (h : Hdr) (ch : BitVec 16) (q : BitVec 8) (segMs : BitVec 16) (ba : BitVec 64) (bl : BitVec 32) (nb : BitVec 16) :
    Spec where
  info := chInfo 0x020D 100000 false
  par := firstRej [(chanBad ch, badParam 0), (decide (3 < q.toNat), badParam 2), (decide (segMs.toNat < 1000 ∨ 60000 < segMs.toNat), badParam 3),
    (decide (bl.toNat < 4096 ∨ 16777216 < bl.toNat), badParam 13), (decide (nb.toNat < 2 ∨ 1024 < nb.toNat), badParam 17)]
  st := fun s =>
    let v := proj s
    let rest : Option Rej := match planChan s ch.toNat with
      | none => none
      | some c =>
        let resv := if h.emerg || c.p.prio == 0 then 0 else s.onyx.emergReserve * chanCost v c
        let room := min (256 - (recsTaken s).length) ((voiceBudget v - voiceLoad v - resv) / recCost)
        if 2 * segMs.toNat % (5 * c.p.ptime.toNat) ≠ 0 then some (badParam 3)
        else if room = 0 then some (capacity 0)
        else if s.voice.recCtx.isNone && (freeCtx s).isNone then
          (s.claims.find? (fun x => x.cls == 4 && x.holder == 1)).map (conflict s)
        else none
    orRej (voicePre (.recStart h ch q segMs ba bl nb) s) (orRej (thermalRej h s) rest)
  objs := [.chan ch.toNat]
  acc := fun c s =>
    let s := match s.voice.recCtx, freeCtx s with
      | none, some x => claim 4 x 0x00 0xFFFF { s with voice := { s.voice with recCtx := some x } }
      | _, _ => s
    match choose ((fromN 0 256).filter (fun r => !(recsTaken s).contains r)) s with
    | some r => setCmd { c with early := [r] } (tookFree s)
    | none => s
  eff := stage h (.recStart h ch q segMs ba bl nb) false

def execRecStart (h : Hdr) (ch : BitVec 16) (q : BitVec 8) (segMs : BitVec 16) (ba : BitVec 64) (bl : BitVec 32) (nb : BitVec 16)
    (s : State) : Out :=
  .next (scp h (.recStart h ch q segMs ba bl nb) (specRecStart h ch q segMs ba bl nb) s)

/-- REC_STOP: it ends once the last segment has its number. -/
def specRecStop (h : Hdr) (r : BitVec 16) : Spec where
  info := chInfo 0x020E 1000000 false
  par := if 255 < r.toNat then some (badParam 0) else none
  st := voicePre (.recStop h r)
  objs := [.recorder r.toNat]
  eff := stage h (.recStop h r) false

def execRecStop (h : Hdr) (r : BitVec 16) (s : State) : Out :=
  .next (scp h (.recStop h r) (specRecStop h r) s)

/-- EMERG_RULE (R300): it takes effect at once. -/
def specEmergRule (h : Hdr) (rule trigger : BitVec 8) (src : BitVec 32) (group : BitVec 16) (flags : BitVec 8) : Spec where
  info := chInfo 0x020F 100000 false
  par :=
    let v := src.toNat % 65536
    let top := if trigger.toNat ≤ 1 then 8191 else if trigger = 2 then 63 else 7
    firstRej [(decide (63 < rule.toNat), badParam 0), (decide (3 < trigger.toNat), badParam 1),
      (decide (src.toNat / 0x1000000 ≠ 0 ∨ top < v), badParam 2), (groupBad group, badParam 6), (decide (1 < flags.toNat), badParam 8)]
  st := fun _ => none
  objs := [.rule rule.toNat]
  eff := stage h (.emergRule h rule trigger src group flags) false

def execEmergRule (h : Hdr) (rule trigger : BitVec 8) (src : BitVec 32) (group : BitVec 16) (flags : BitVec 8) (s : State) : Out :=
  .next (scp h (.emergRule h rule trigger src group flags) (specEmergRule h rule trigger src group flags) s)

/-- ADMIT_CFG (R181). -/
def specAdmitCfg (reserve : BitVec 16) : Spec where
  info := chInfo 0x010E 10000 false
  par := if 512 < reserve.toNat then some (badParam 0) else none
  st := fun _ => none
  objs := [.device]
  eff := fun s => ok { s with onyx := { s.onyx with emergReserve := reserve.toNat } }

def execAdmitCfg (h : Hdr) (reserve : BitVec 16) (s : State) : Out :=
  .next (scp h (.admitCfg h reserve) (specAdmitCfg reserve) s)

/-! ### Customer kernels (R192, R227 to R230, R307, R308) -/

/-- Kernel commands are permitted in PROVISIONED, FIELD and RETURN (Table 5.10). -/
def kernelLcRej (s : State) : Option Rej := if 2 ≤ s.boot.lc.toNat then none else some (rej stLifecycle)

/-- Fields of Table 9.4. -/
def imgIcode (b : List Byte) : Nat := leAt b 0x08 4
def imgDdata (b : List Byte) : Nat := leAt b 0x0C 4
def imgDbss (b : List Byte) : Nat := leAt b 0x10 4
def imgCtx (b : List Byte) : Nat := leAt b 0x14 4

/-- A header field outside its range, or a reserved byte that is not zero (R230). -/
def imgHeaderBad (b : List Byte) : Bool :=
  decide (leAt b 0 4 ≠ 0x4B524E31 ∨ leAt b 4 2 ≠ 1 ∨ 1 < leAt b 6 2 ∨ imgIcode b < 1 ∨ 32768 < imgIcode b ∨ 65536 < imgDdata b ∨
    65536 < imgDbss b ∨ 16384 < imgCtx b ∨ imgIcode b ≤ leAt b 0x18 2 ∨ leAt b 0x1A 2 ≠ 0 ∨ leAt b 0x1C 4 < 1 ∨ 300000 < leAt b 0x1C 4 ∨
    256 ≤ leAt b 0x20 3 ∨ leAt b 0x23 1 ≠ 0 ∨ 64 ≤ leAt b 0x24 2 ∨ leAt b 0x28 24 ≠ 0)

/-- Window sizes in units of 1,024 words (R227). -/
def imgIUnits (b : List Byte) : Nat := (imgIcode b + 1023) / 1024
def imgDUnits (b : List Byte) : Nat := max 1 ((imgDdata b + imgDbss b + 2 * imgCtx b + 1023) / 1024)

/-- Window bases, in units, at which no other kernel's window lies. -/
def freeBases (lo hi size : Nat) (taken : List (Nat × Nat)) : List Nat :=
  if hi < lo + size then []
  else (fromN lo (hi - lo - size + 1)).filter (fun b => taken.all (fun t => decide (b + size ≤ t.1 ∨ t.1 + t.2 ≤ b)))

def iBases (s : State) (size : Nat) : List Nat :=
  freeBases 32 64 size (s.gar.kernels.map (fun e => (e.2.win.ibase / 1024, (e.2.win.isize + 1023) / 1024)))

def dBases (s : State) (size : Nat) : List Nat :=
  freeBases 64 128 size (s.gar.kernels.map (fun e => (e.2.win.dbase / 1024, (e.2.win.dsize + 1023) / 1024)))

/-- Words of 6 bytes. -/
def words6 : Nat → List Byte → List Word48
  | 0, _ => []
  | n + 1, b => BitVec.ofNat 48 (unLe (b.take 6)) :: words6 n (b.drop 6)

/-- The kernel key hash; in RETURN the customer fuse region reads as zero, as an unprogrammed one does (R132). -/
def kernelHash (s : State) : Option (BitVec 384) := if s.boot.lc = 15 then none else s.boot.fuses.kernelHash

/-- The signature verifies under the customer's key (R192). -/
def kernelSigOk (s : State) (b : List Byte) : Bool :=
  match kernelHash s with
  | none => false
  | some hash =>
    let key := Config.kernelKey hash
    decide (Config.sha384 key = hash) && Config.ecdsaVerify key (b.drop (b.length - 96)) (Config.sha384 (b.take (64 + 6 * imgIcode b)))

/-- The word at an address of a core's IMEM: of the kernel whose window it lies in, else the firmware's (R12, R227, R230; log 119). -/
def imemWord (s : State) (a : Nat) : Word48 :=
  match tblFirst (fun _ k => decide (k.win.ibase ≤ a ∧ a < k.win.ibase + k.win.isize)) s.gar.kernels with
  | some (_, k) => k.code.getD (a - k.win.ibase) 0
  | none => Config.firmwareWord a

/-- Place a kernel in the same windows on every core; DBSS words are zero (R227, R230). -/
def placeKernel (kid : Nat) (b : List Byte) (ib db : Nat) (s : State) : State :=
  let w : Window := { ibase := ib * 1024, isize := imgIUnits b * 1024, dbase := db * 1024, dsize := imgDUnits b * 1024, ctx := imgCtx b }
  let code := words6 (imgIcode b) (b.drop 64)
  let data := words6 (imgDdata b) (b.drop (64 + 6 * imgIcode b))
  let k : Kernel :=
    { win := w, govq := decide (leAt b 6 2 = 1), ddata := data, dbss := imgDbss b, ctx := imgCtx b, entry := leAt b 0x18 2,
      wcet := leAt b 0x1C 4, mode := BitVec.ofNat 24 (leAt b 0x20 3), stages := BitVec.ofNat 16 (leAt b 0x24 2),
      toolver := BitVec.ofNat 16 (leAt b 0x26 2), code := code, st := 0, faults := 0, cause := 0, core := 0 }
  let load : CoreSt → CoreSt := fun c =>
    { c with dmem := cellsPut 0 c.dmem (db * 1024) (data ++ List.replicate (imgDbss b) 0) }
  let s := allCores.foldl (fun s n => setCore n (load (core s n)) s) s
  { s with gar := { s.gar with kernels := tblSet kid k s.gar.kernels } }

/-- KRN_LOAD. -/
def specKrnLoad (h : Hdr) (kid : BitVec 8) (addr : BitVec 64) (len : BitVec 32) (b : List Byte) : Spec where
  info := chInfo 0x0901 1000000 false
  par := firstRej [(decide (15 < kid.toNat), badParam 0)]
  st := fun s =>
    let used := !(voicePre (.krnLoad h kid addr len (.data b)) s).isNone
    orRej (kernelLcRej s) (firstRej [
      ((kernelHash s).isNone, rej stLifecycle),
      (decide (len.toNat ≠ b.length ∨ len.toNat ≠ 64 + 6 * (imgIcode b + imgDdata b) + 96), badParam 9),
      (imgHeaderBad b, badParam 0xFFFF), (!kernelSigOk s b, rej stAuth), (used, rej stBadState),
      ((iBases s (imgIUnits b)).isEmpty || (dBases s (imgDUnits b)).isEmpty, capacity 0)])
  objs := [.kernel kid.toNat]
  eff := fun s =>
    match choose (iBases s (imgIUnits b)) s, choose (dBases s (imgDUnits b)) (tookFree s) with
    | some ib, some db =>
      if (tblFind kid.toNat s.gar.kernels).isSome then .done stBadState [] s
      else okRes (le 1 ib ++ le 1 (imgIUnits b) ++ le 1 db ++ le 1 (imgDUnits b)) (placeKernel kid.toNat b ib db (tookFree (tookFree s)))
    | _, _ => .done stBadState [] s

/-- KRN_LOAD with the image as the read of host memory returned it; a read error stops the queue, and the command is not
accepted (R167). -/
def execKrnLoad (h : Hdr) (kid : BitVec 8) (addr : BitVec 64) (len : BitVec 32) (image : Dma) (s : State) : Out :=
  .next (match image with
    | .data b => scp h (.krnLoad h kid addr len image) (specKrnLoad h kid addr len b) s
    | .error => if served s then stopQueue h.queue.val 2 s else s)

/-- KRN_BIND (R250, R307). -/
def specKrnBind (h : Hdr) (kid : BitVec 8) (ch : BitVec 16) (stg : BitVec 8) : Spec where
  info := chInfo 0x0902 100000 false
  par := firstRej [(decide (15 < kid.toNat), badParam 0), (chanBad ch, badParam 1), (decide (5 < stg.toNat), badParam 3)]
  st := fun s =>
    let v := proj s
    let rest : Option Rej := match tblFind kid.toNat s.gar.kernels, planChan s ch.toNat with
      | some k, some c =>
        let x := { c with binds := tblSet stg.toNat kid.toNat c.binds }
        let more := chanCost v x - chanCost v c
        let resv := if h.emerg || c.p.prio == 0 then 0 else s.onyx.emergReserve * chanCost v c
        if !k.stages.getLsbD stg.toNat then some (badParam 3)
        else if isRunning c then
          let sc := dspScale v (clusterOf c.core)
          if 300000 < k.wcet * sc ∨ voiceBudget v < voiceLoad v + more + resv ∨
              !fitsAt v c.core c.phase c.p.ptime.toNat (frameCycles v x) (isPassthru c.p) ch.toNat then
            some (capacity ((voiceBudget v - voiceLoad v - resv) / max 1 more)) else none
        else none
      | _, _ => none
    orRej (kernelLcRej s) (orRej (voicePre (.krnBind h kid ch stg) s) rest)
  objs := [.kernel kid.toNat, .chan ch.toNat]
  eff := stage h (.krnBind h kid ch stg) false

def execKrnBind (h : Hdr) (kid : BitVec 8) (ch : BitVec 16) (stg : BitVec 8) (s : State) : Out :=
  .next (scp h (.krnBind h kid ch stg) (specKrnBind h kid ch stg) s)

/-- KRN_UNBIND. -/
def specKrnUnbind (h : Hdr) (kid : BitVec 8) (ch : BitVec 16) : Spec where
  info := chInfo 0x0903 100000 false
  par := firstRej [(decide (15 < kid.toNat), badParam 0), (chanBad ch, badParam 1)]
  st := fun s => orRej (kernelLcRej s) (voicePre (.krnUnbind h kid ch) s)
  objs := [.kernel kid.toNat, .chan ch.toNat]
  eff := stage h (.krnUnbind h kid ch) false

def execKrnUnbind (h : Hdr) (kid : BitVec 8) (ch : BitVec 16) (s : State) : Out :=
  .next (scp h (.krnUnbind h kid ch) (specKrnUnbind h kid ch) s)

/-- KRN_UNLOAD. -/
def specKrnUnload (h : Hdr) (kid : BitVec 8) : Spec where
  info := chInfo 0x0904 100000 false
  par := if 15 < kid.toNat then some (badParam 0) else none
  st := fun s => orRej (kernelLcRej s) (voicePre (.krnUnload h kid) s)
  objs := [.kernel kid.toNat]
  eff := stage h (.krnUnload h kid) false

def execKrnUnload (h : Hdr) (kid : BitVec 8) (s : State) : Out :=
  .next (scp h (.krnUnload h kid) (specKrnUnload h kid) s)

/-- KRN_STATUS (R308). -/
def specKrnStatus (h : Hdr) (kid : BitVec 8) : Spec where
  info := { opcode := 0x0905, idem := .rx, lcls := .n, timeout := some 10000, setup := false }
  par := if 15 < kid.toNat then some (badParam 0) else none
  st := fun s => orRej (kernelLcRej s) (voicePre (.krnStatus h kid) s)
  objs := [.kernel kid.toNat]
  eff := fun s => match tblFind kid.toNat s.gar.kernels with
    | some k => okRes (le 1 k.st ++ le 2 k.faults ++ le 1 k.cause ++ le 1 k.core) s
    | none => .done stBadState [] s

def execKrnStatus (h : Hdr) (kid : BitVec 8) (s : State) : Out :=
  .next (scp h (.krnStatus h kid) (specKrnStatus h kid) s)

/-! ### Jobs (R251, R288, R289) -/

/-- A channel has network input: some flow delivers to it (R288, R321). -/
def hasNetIn (s : State) (ch : Nat) : Bool := tblAny (fun _ f => decide (f.chan = ch) && f.kind != 0xFF) s.net.flows

/-- The jobs of one voice frame, in their order (R288); a quarantined kernel's stage is passed through (R308). -/
def frameJobs (s : State) (ch : Nat) (c : Chan) (urgent : Bool) : List Job :=
  let mk (k : JobKind) : Job := { chan := ch, kind := k, seq := c.seq, urgent := urgent, entered := 0, aborted := false }
  let krn := c.binds.filter (fun e => match tblFind e.2 s.gar.kernels with | some k => k.st != 2 | none => false)
  (if hasNetIn s ch then [mk .rx] else []) ++ [mk .ecd] ++ krn.map (fun e => mk (.krn e.1 e.2)) ++ [mk .tx]

/-- The job TICK of a channel is the present TICK (R287). -/
def jobTick (s : State) (c : Chan) : Bool := decide ((s.voice.sched.tick + 16 - c.phase) % c.p.ptime.toNat = 0)

/-- A voice frame is begun: its jobs go to the channel's core. -/
def beginFrame (ch : Nat) (c : Chan) (js : List Job) (front : Bool) (loss : Nat) (s : State) : State :=
  let f : VFrame := { seq := c.seq, left := js.length, tick := s.voice.sched.tick, settle := false, loss := loss,
                      stamp := rtbNs s - BitVec.ofNat 64 (c.p.ptime.toNat * 2500000) }
  let s := setChan ch { c with frames := c.frames ++ [f], seq := c.seq + 1 } s
  let x := core s c.core
  jobNext c.core (setCore c.core { x with queue := if front then js ++ x.queue else x.queue ++ js } s)

/-- JOB_WATCHDOG_EXPIRY: 250 µs after job entry the job is stopped with cause WDOG; no handler runs (R251, R308). -/
def execJobWatchdogExpiry (n : Fin 48) (s : State) : Out :=
  let k := n.val
  let c := core s k
  .next (match c.job with
    | none => s
    | some j =>
      if now s < j.entered + 250 then s
      else match jobKernel c with
        | some kid => jobOver k 10 (quarantine k kid 0xC (spAbandon k s))
        | none => coreFault k 0xC s)

end Sys2Proof.Machine
end

