-- ==== Sys2Proof/Machine/Agate.lean ====
section
/-! DEFINITION. Agate: field runs, repair allocation, soft and fuse repair, corrected-error tracking (Chapter 17), and the commands that
take cores out of service and bring them back (R187, R188, R490 to R492). -/

namespace Sys2Proof.Machine

/-! ### Macros (R455) -/

def macroWords (m : Nat) : Nat :=
  if m ≤ 0x07 then 16384 else if m = 0x08 then 4096 else if m ≤ 0x2F then 16384 else if m ≤ 0x4F then 2048 else if m ≤ 0x13F then 16384
  else if m ≤ 0x1BF then 4096 else if m ≤ 0x1FF then 4608 else if m ≤ 0x20F then 4096 else 16384

def macroWidth (m : Nat) : Nat := if 0x1000 ≤ m ∧ m ≤ 0x12FF then 55 else 72

def macroRows (m : Nat) : Nat := macroWords m / 4

def macroCols (m : Nat) : Nat := 4 * macroWidth m

/-! ### The fuse store (R467, R468) -/

/-- An entry of the fuse store: kind 1 spare row 0, 2 spare row 1, 3 spare column. -/
def entryMake (mac kind addr : Nat) : BitVec 64 :=
  let b := mac % 65536 * 4294967296 + kind % 4 * 1073741824 + addr % 4096 * 65536
  BitVec.ofNat 64 (b * 65536 + (crc16 (be 6 b)).toNat)

def entryMac (w : BitVec 64) : Nat := w.toNat / 2 ^ 48
def entryKind (w : BitVec 64) : Nat := w.toNat / 2 ^ 46 % 4
def entryAddr (w : BitVec 64) : Nat := w.toNat / 2 ^ 32 % 4096

/-- CHECK, KIND and MACRO are such that the entry counts. -/
def entryOk (w : BitVec 64) : Bool :=
  decide ((crc16 (be 6 (w.toNat / 65536))).toNat = w.toNat % 65536 ∧ entryKind w ≠ 0) && (macroDomain (entryMac w)).isSome

/-- Two entries name one spare. -/
def sameSpare (a b : BitVec 64) : Bool := decide (entryMac a = entryMac b ∧ entryKind a = entryKind b)

/-- The entries that count, in index order: one whose spare an earlier one maps is ignored. -/
def fuseValid (l : List FuseEntry) : List (BitVec 64) :=
  l.foldl (fun acc e => if !e.bad && entryOk e.word && !acc.any (sameSpare e.word) then acc ++ [e.word] else acc) []

/-- The mappings in force: fused and soft. -/
def mappings (s : State) : List (BitVec 64) := fuseValid s.boot.fuses.repairs ++ s.agt.soft

/-- A spare of a macro is taken. -/
def spareUsed (s : State) (m kind : Nat) : Bool := (mappings s).any (fun w => decide (entryMac w = m ∧ entryKind w = kind))

/-! ### Repair allocation (R465) -/

/-- Insert a number into a rising list. -/
def insN (x : Nat) : List Nat → List Nat
  | [] => [x]
  | y :: t => if x < y then x :: y :: t else if x = y then y :: t else y :: insN x t

/-- The numbers of a list, rising and each once. -/
def sortN (l : List Nat) : List Nat := l.foldl (fun a x => insN x a) []

/-- Give spare rows to rows, in order, until either list ends. -/
def takeRows : List Nat → List Nat → List (Nat × Nat)
  | k :: ks, r :: rs => (k, r) :: takeRows ks rs
  | _, _ => []

/-- The spares one macro takes for its failing cells (row, column) and pending rows, each a kind and what it replaces; none when a
cell stays uncovered. `free` says which spares are not used. A failing cell beyond the last row or column is one of a spare
(log 24). -/
def allocMacro (free : Nat → Bool) (rows cols : Nat) (cells : List (Nat × Nat)) (pend : List Nat) : Option (List (Nat × Nat)) :=
  let spareBad (k : Nat) : Bool := cells.any (fun c => if k = 3 then decide (c.1 < rows ∧ cols ≤ c.2) else decide (c.1 = rows + k - 1))
  let rowsAv := [1, 2].filter (fun k => free k && !spareBad k)
  let colAv := free 3 && !spareBad 3
  let main := cells.filter (fun c => decide (c.1 < rows ∧ c.2 < cols))
  let rowsIn (l : List (Nat × Nat)) (c : Nat) : List Nat := sortN ((l.filter (fun (x : Nat × Nat) => x.2 == c)).map (·.1))
  let colsIn (l : List (Nat × Nat)) (r : Nat) : List Nat := sortN ((l.filter (fun (x : Nat × Nat) => x.1 == r)).map (·.2))
  let heavy := (sortN (main.map (·.2))).find? (fun c => decide (rowsAv.length < (rowsIn main c).length))
  let col1 := if colAv then heavy else none
  let rest1 := match col1 with | some c => main.filter (fun (x : Nat × Nat) => x.2 != c) | none => main
  let rows3 := (sortN (rest1.map (·.1) ++ pend)).filter (fun r => pend.contains r || decide (1 < (colsIn rest1 r).length))
  let got3 := takeRows rowsAv rows3
  let rest2 := rest1.filter (fun (x : Nat × Nat) => !got3.any (fun g => g.2 == x.1))
  let got4 := takeRows (rowsAv.drop got3.length) (sortN (rest2.map (·.1)))
  let rest3 := rest2.filter (fun (x : Nat × Nat) => !got4.any (fun g => g.2 == x.1))
  let col4 := match col1, sortN (rest3.map (·.2)) with | none, [c] => if colAv then some c else none | _, _ => none
  let rest4 := match col4 with | some c => rest3.filter (fun (x : Nat × Nat) => x.2 != c) | none => rest3
  let col := match col1 with | some c => [(3, c)] | none => match col4 with | some c => [(3, c)] | none => []
  if rest4.isEmpty then some (got3 ++ got4 ++ col) else none

/-- Pending rows of a macro that no spare row serves yet (R464). -/
def pendingRows (s : State) (m : Nat) : List Nat :=
  ((s.agt.rows.filter (fun r => r.pending && r.mac == m)).map (·.row)).filter (fun r =>
    !(mappings s).any (fun w => decide (entryMac w = m ∧ entryKind w ≠ 3 ∧ entryAddr w = r)))

/-- What a test of the macros that satisfy `p` found: the repair plan, the unrepairable macros, and the failing ones. `again` are the macros whose
retest failed (R459). -/
def repairPlan (s : State) (p : Nat → Bool) (cells : List FailCell) (again : List (BitVec 16) := []) : List (BitVec 64) × List Nat × List Nat :=
  let own := cells.filter (fun c => p c.mac.toNat)
  let failing := sortN (own.map (fun c => c.mac.toNat))
  let all := sortN (own.map (fun c => c.mac.toNat) ++ (s.agt.rows.filter (fun r => r.pending && p r.mac)).map (·.mac))
  let one (m : Nat) : Option (List (Nat × Nat)) :=
    if again.any (fun a => a.toNat == m) then none else allocMacro (fun k => !spareUsed s m k) (macroRows m) (macroCols m)
      ((own.filter (fun c => c.mac.toNat == m)).map (fun c => (c.row, c.col))) (pendingRows s m)
  let plan := all.flatMap (fun m => match one m with | some l => l.map (fun e => entryMake m e.1 e.2) | none => [])
  (plan.take 64, all.filter (fun m => (one m).isNone), failing)

/-! ### Results (R474) -/

/-- A result is made; the last 256 are kept. -/
def newResult (r : AgtResult) (s : State) : BitVec 16 × State :=
  let n := s.agt.next
  let t := tblSet n.toNat r (tblDel (n - 256).toNat s.agt.results)
  (n, { s with agt := { s.agt with results := t, next := n + 1 } })

/-- How many entries of a plan are in the fuse store. -/
def fusedOf (s : State) (plan : List (BitVec 64)) : Nat := (plan.filter (fun w => (fuseValid s.boot.fuses.repairs).contains w)).length

/-- Set what a test found in its result; the first failure is the first that the test found. -/
def foundIn (r : AgtResult) (outcome : Nat) (plan : List (BitVec 64)) (failing : List Nat) (cells : List FailCell) (s : State) : AgtResult :=
  let r := { r with outcome := outcome, plan := plan, nfail := failing.length, fused := fusedOf s plan, fuseused := s.boot.fuses.repairs.length }
  match cells with
  | [] => r
  | c :: _ => { r with fmacro := c.mac.toNat, falg := c.alg, felem := c.elem, fword := 4 * c.row + c.word, fbit := c.bit }

/-- Outcome code of a test. -/
def outcomeOf (plan : List (BitVec 64)) (unrep : List Nat) (logicFail : Bool) : Nat :=
  if logicFail then 5 else if !unrep.isEmpty then 3 else if !plan.isEmpty then 2 else 1

/-- Does some result made after the core's last fault let it return (R491)? -/
def coreFit (s : State) (n : Nat) : Bool :=
  tblAny (fun _ (r : AgtResult) => decide (r.target = 1 ∧ r.index = n ∧ tblGet s.agt.faultAt n 0 ≤ r.start.toNat) &&
    (r.outcome == 1 || (r.outcome == 2 && decide (r.mapped = r.plan.length)))) s.agt.results

/-! ### Targets (R461) -/

/-- The core is out of service, holds no channel and is no spare. -/
def coreOut (s : State) (n : Nat) : Bool :=
  decide ((core s n).st = 3 ∨ (core s n).st = 5) && (chansOn s n).isEmpty && !s.voice.sched.spares.contains n

/-- The domain that holds a target, which must be powered. -/
def targetDomain (t i : Nat) : Nat := if t = 0 then (macroDomain i).getD 0 else if t = 1 then 8 + clusterOf i else i

/-- A target that a run may test is out of service. -/
def targetOut (s : State) (t i : Nat) : Bool :=
  let d := targetDomain t i
  if t = 1 then coreOut s i
  else if d < 4 then false
  else if t = 0 ∧ 0x1000 ≤ i ∧ i ≤ 0x12FF then coreOut s ((i - 0x1000) / 16)
  else (domOffRej s d).isNone

/-- The objects of a target, so that commands that would return it wait (R175, R461). -/
def targetObjs (t i : Nat) : List Obj :=
  let d := targetDomain t i
  if t = 1 then [.core i]
  else if t = 0 ∧ 0x1000 ≤ i ∧ i ≤ 0x12FF then [.core ((i - 0x1000) / 16)]
  else if t = 0 ∧ 0x1C0 ≤ i ∧ i ≤ 0x1FF then [.ctx (i - 0x1C0)]
  else if d = 4 then (fromN 0 8).map .eth else if d = 5 then (fromN 0 4).map .plc
  else if d = 6 then (fromN 0 64).map .slot ++ (fromN 0 16).map .tdm
  else if d = 7 then (fromN 0 64).map .ctx
  else if 8 ≤ d then (fromN (12 * (d - 8)) 12).map .core else []

/-! ### Commands -/

def specAgtRun (h : Hdr) (target : BitVec 8) (index : BitVec 16) (alg : BitVec 8) (slice : BitVec 16) : Spec where
  info := { opcode := 0x0701, idem := .rx, lcls := .c, timeout := some 60000000, setup := false }
  par :=
    let t := target.toNat
    let i := index.toNat
    firstRej [(decide (2 < t), badParam 0),
      (if t = 0 then (macroDomain i).isNone else if t = 1 then decide (47 < i) else decide (11 < i), badParam 1),
      (decide (alg.toNat = 0 ∨ 31 < alg.toNat) || (alg.getLsbD 4 && t != 1), badParam 3),
      (decide (slice.toNat ≠ 0 ∧ (slice.toNat < 250 ∨ 16000 < slice.toNat)), badParam 4)]
  st := fun s =>
    let d := targetDomain target.toNat index.toNat
    firstRej [(target == 0 && (s.boot.lc == 3 || s.boot.lc == 7), rej stLifecycle), (decide (d < 4), rej stBadState),
      (!domOn s d, rej stOutOfService), (!targetOut s target.toNat index.toNat, rej stBadState)]
  objs := targetObjs target.toNat index.toNat
  eff := fun s =>
    if !targetOut s target.toNat index.toNat then .done stBadState [] s
    else
    let r : AgtRun := { result := none, cmd := some (h.queue.val, h.seq), target := target.toNat, index := index.toNat, alg := alg.toNat, slice := slice.toNat,
                        since := none, pauseEnd := none, notBefore := 0, cells := [], logicFail := false, prev := 5 }
    .wait .agate { s with agt := { s.agt with runs := s.agt.runs ++ [r] } }

def execAgtRun (h : Hdr) (target : BitVec 8) (index : BitVec 16) (alg : BitVec 8) (slice : BitVec 16) (s : State) : Out :=
  .next (scp h (.agtRun h target index alg slice) (specAgtRun h target index alg slice) s)

/-- The record of Table 17.7 and the plan. -/
def resultBytes (n : Nat) (r : AgtResult) : List Byte :=
  padTo 64 (le 2 n ++ le 1 r.target ++ le 1 r.alg ++ le 2 r.index ++ le 1 r.outcome ++ le 1 r.origin ++ le 8 r.start.toNat ++ le 4 r.active ++
    le 2 r.slices ++ le 2 r.nfail ++ le 2 r.fmacro ++ le 1 r.falg ++ le 1 r.felem ++ le 4 r.fword ++ le 1 r.fbit ++ le 1 r.plan.length ++ le 1 r.mapped ++
    le 1 r.fused ++ le 2 r.fuseused) ++ r.plan.flatMap (fun w => le 8 w.toNat)

/-- NOT_PROVISIONED for a result that is not kept. -/
def resultRej (s : State) (n : BitVec 16) : Option Rej := if (tblFind n.toNat s.agt.results).isNone then some (rej stNotProvisioned) else none

def specAgtResults (result : BitVec 16) : Spec where
  info := { opcode := 0x0702, idem := .rx, lcls := .n, timeout := some 10000, setup := false }
  par := none
  st := fun s => resultRej s result
  objs := [.result result.toNat]
  eff := fun s => match tblFind result.toNat s.agt.results with
    | some r => okRes (resultBytes result.toNat r) s
    | none => .done stBadState [] s

def execAgtResults (h : Hdr) (result : BitVec 16) (s : State) : Out := .next (scp h (.agtResults h result) (specAgtResults result) s)

/-- The plan may be soft-applied (R466). -/
def softRej (s : State) (n : Nat) : Option Rej :=
  match tblFind n s.agt.results with
  | some r => if r.outcome ≠ 2 ∨ r.mapped ≠ 0 ∨ !targetOut s r.target r.index then some (rej stBadState) else none
  | none => some (rej stNotProvisioned)

def specAgtRepairSoft (result : BitVec 16) : Spec where
  info := { opcode := 0x0703, idem := .ck, lcls := .c, timeout := some 100000, setup := false }
  par := none
  st := fun s => softRej s result.toNat
  objs := [.result result.toNat]
  eff := fun s => match tblFind result.toNat s.agt.results, softRej s result.toNat with
    | some r, none =>
      let k := r.plan.length
      let soft := s.agt.soft ++ r.plan
      okRes (le 1 k) (wr agtSoftmap soft.length
        { s with agt := { s.agt with soft := soft, results := tblSet result.toNat { r with mapped := k, fuseused := s.boot.fuses.repairs.length } s.agt.results } })
    | _, _ => .done stBadState [] s

def execAgtRepairSoft (h : Hdr) (result : BitVec 16) (s : State) : Out := .next (scp h (.agtRepairSoft h result) (specAgtRepairSoft result) s)

/-- The entries of a plan that are not in the fuse store. -/
def toFuse (s : State) (r : AgtResult) : List (BitVec 64) := r.plan.filter (fun w => !(fuseValid s.boot.fuses.repairs).contains w)

/-- A signature by a key slot: not revoked, the hash of the key as fused, and the ECDSA check (R125, R126). -/
def keySigned (s : State) (k : Nat) (pubkey sig msg : List Byte) : Bool :=
  !s.boot.fuses.revoked.getLsbD k && decide (Config.sha384 pubkey = tblGet s.boot.fuses.keyHash k 0) && Config.ecdsaVerify pubkey sig (Config.sha384 msg)

/-- The repair token of Table 17.5 is accepted (R470). -/
def repairTokenOk (s : State) (result : Nat) (words : List (BitVec 64)) (t : List Byte) : Bool :=
  let k := leAt t 6 1
  decide (leAt t 0 4 = 0x5250544B ∧ leAt t 4 2 = 1 ∧ (k = 1 ∨ k = 2) ∧ leAt t 8 8 = s.boot.fuses.uid.toNat ∧ leAt t 0x10 2 = result ∧
    leAt t 0x14 2 = s.boot.fuses.repairs.length ∧
    unBe ((t.drop 0x18).take 48) = (Config.sha384 (words.flatMap (fun w => le 8 w.toNat))).toNat) &&
    keySigned s k ((t.drop 0x48).take 97) ((t.drop 0xB0).take 96) (t.take 0xB0)

/-- One eFuse operation at a time (R471). -/
def fuseStart (o : FuseOp) (s : State) : State :=
  if s.boot.fuseOp.isSome then { s with boot := { s.boot with fuseWait := s.boot.fuseWait ++ [o] } } else { s with boot := { s.boot with fuseOp := some o } }

/-- The operation under way has ended, and the next begins: the command that waited for its turn has begun its irreversible step (R205). -/
def fuseNext (s : State) : State :=
  let s' := { s with boot := { s.boot with fuseOp := s.boot.fuseWait.head?, fuseWait := s.boot.fuseWait.drop 1 } }
  if s.boot.fuseWait.isEmpty then s'
  else (s.host.cmds.filter (fun c => c.wait == .fuse)).foldl (fun s c => match c.lref with | some i => ledgerPhase i 2 0 0 s | none => s) s'

/-- AGT_REPAIR_FUSE (R470): a token comes by INDIRECT only, and its length is checked after that (R169, R567). -/
def specAgtRepairFuse (h : Hdr) (result : BitVec 16) (token : Token) : Spec where
  info := { opcode := 0x0704, idem := .oo, lcls := .c, timeout := some 1000000, setup := false }
  par := firstRej [(!h.indirect && !token.isEmpty, badParam 2), (decide (token.length ≠ 0 ∧ token.length < 272), badLength 2), (decide (272 < token.length), badLength 274)]
  st := fun s =>
    let held := s.boot.lc == 3 || s.boot.lc == 7
    firstRej [(held && token.isEmpty, rej stLifecycle), (!held && !token.isEmpty, badParam 2)] |>.orElse fun _ =>
      match tblFind result.toNat s.agt.results with
      | none => some (rej stNotProvisioned)
      | some r =>
        let words := toFuse s r
        firstRej [(r.outcome != 2 || r.mapped == 0 || words.isEmpty, rej stBadState),
          (held && !repairTokenOk s result.toNat words token, rej stAuth),
          (decide (4096 < s.boot.fuses.repairs.length + words.length), rej stQueueFull)]
  objs := [.result result.toNat, .device]
  eff := fun s => match tblFind result.toNat s.agt.results with
    | some r =>
      let words := toFuse s r
      if words.isEmpty then .done stBadState [] s
      else .wait .fuse (fuseStart (.repair words 0 false) s)
    | none => .done stBadState [] s

def execAgtRepairFuse (h : Hdr) (result : BitVec 16) (token : Token) (s : State) : Out :=
  .next (scp h (.agtRepairFuse h result token) (specAgtRepairFuse h result token) s)

/-! ### eFuse operations (R471, R136) -/

/-- An entry is in the fuse store, good or not; AGT_FUSEUSED counts it, and the results of its plan show it. -/
def fuseWrite (w : BitVec 64) (good : Bool) (s : State) : State :=
  let reps := s.boot.fuses.repairs ++ [{ word := w, bad := !good }]
  let s := wr agtFuseused reps.length { s with boot := { s.boot with fuses := { s.boot.fuses with repairs := reps } } }
  let upd : AgtResult → AgtResult := fun r => if r.plan.contains w then { r with fused := fusedOf s r.plan, fuseused := reps.length } else r
  { s with agt := { s.agt with results := tblMap (fun _ (r : AgtResult) => upd r) s.agt.results } }

/-- A LIFECYCLE command whose FINAL entry has not been written: its fuses are blown after it (R179). -/
def lifecycleUnsaid (s : State) : Bool := s.host.cmds.any (fun c => c.opcode == 0x010A && c.lref.isSome && !c.finWritten)

/-- On the transition to RETURN the Work Ledger, the configuration digest, the configuration shadow and every SRTP key are cleared before the
fuses are blown (R132). -/
def returnClear (s : State) : State :=
  let flow (f : Flow) : Flow := { f with tx := none, rx := none, rxOld := none, out := [] }
  { s with ledger := { s.ledger with entries := [], tail := none, live := [], recKib := 0, sealed := [] }, shadow := none, boot := { s.boot with cfg := cfgReset },
           host := { s.host with cmds := s.host.cmds.map (fun c => { c with lref := none }), segs := [] },
           net := { s.net with flows := tblMap (fun _ f => flow f) s.net.flows } }

/-- An eFuse operation ends and is read back; a repair entry that fails is written once more (R471). -/
def efuseDone (readbackOk : Bool) (s : State) : State :=
  match s.boot.fuseOp with
  | none => s
  | some (.repair [] n _) => finishWait .fuse stOk (le 2 n) (fuseNext s)
  | some (.repair (w :: ws) n retry) =>
    let s := fuseWrite w readbackOk s
    let put (o : FuseOp) : State := { s with boot := { s.boot with fuseOp := some o } }
    if readbackOk then
      if ws.isEmpty then finishWait .fuse stOk (le 2 (n + 1)) (fuseNext s) else put (.repair ws (n + 1) false)
    else if retry ∨ 4096 ≤ s.boot.fuses.repairs.length then finishWait .fuse stFaulted (le 2 n) (fuseNext s)
    else put (.repair (w :: ws) n true)
  | some (.lifecycle lc) =>
    if lifecycleUnsaid s then s
    else
      let s := if lc = 15 then returnClear s else s
      fuseNext { s with boot := { s.boot with fuses := if readbackOk then { s.boot.fuses with lc3 := s.boot.fuses.lc3 ||| lcFuses lc } else s.boot.fuses } }
  | some o =>
    let fs := s.boot.fuses
    let fs := if !readbackOk then fs else match o with
      | .secmin v => { fs with secmin := v }
      | .revoke k => { fs with revoked := fs.revoked ||| (1#4 <<< k) }
      | .customer 0 v => { fs with boardOpts := some (v.truncate 32) }
      | .customer 1 v => { fs with kernelHash := some v }
      | .customer _ v => { fs with subsys := some (v.truncate 32) }
      | _ => fs
    finishWait .fuse (if readbackOk then stOk else stFaulted) [] (fuseNext { s with boot := { s.boot with fuses := fs } })

/-! ### Cores in and out of service (R490 to R492) -/

/-- CORE_SERVICE: action 2 is OO. -/
def coreInfo (oo : Bool) : OpInfo := { opcode := 0x0705, idem := if oo then .oo else .ck, lcls := .c, timeout := some 60000000, setup := false }

/-- Channels as they will stand once every move under way is made. -/
def settled (s : State) : State :=
  let mv (n : Nat) (c : Chan) : Chan :=
    match s.voice.sched.moves.find? (fun m => m.1 == n) with
    | some m => { c with core := m.2 }
    | none => match c.moveTo with | some k => { c with core := k } | none => c
  { s with voice := { s.voice with chans := tblMap mv s.voice.chans } }

/-- Where channels of a core go, in ascending channel number: each to a core of `to` with room at its own phase, at most `count`
of them; which of several is not stated and free (log 2). The channels that do not fit come second. -/
def planMoves (chans cores : List Nat) (count : Nat) (s : State) : List (Nat × Nat) × List Nat × Nat :=
  let go (a : List (Nat × Nat) × List Nat × State) (ch : Nat) : List (Nat × Nat) × List Nat × State :=
    let (mv, bad, t) := a
    if count ≤ mv.length then a
    else match chan? t ch with
      | none => a
      | some c =>
        match choose ((placesOf t c cores ch).filter (fun x => x.2 == c.phase)) t with
        | some (k, _) => (mv ++ [(ch, k)], bad, tookFree (setChan ch { c with core := k } t))
        | none => (mv, bad ++ [ch], t)
  let (mv, bad, t) := chans.foldl go ([], [], settled s)
  (mv, bad, t.free)

/-- The other cores of a core's cluster that Onyx may place work on. -/
def siblings (n : Nat) : List Nat := (fromN (12 * clusterOf n) 12).filter (· ≠ n)

/-- The channels that leave a core are placed in the schedule being built. -/
def stageMoves (mv : List (Nat × Nat)) (free : Nat) (s : State) : State :=
  { s with free := free, voice := { s.voice with sched := { s.voice.sched with moves := s.voice.sched.moves ++ mv } } }

def coreBad (c : BitVec 8) : Option Rej := if 47 < c.toNat then some (badParam 0) else none

def specCoreOutOfService (h : Hdr) (c : BitVec 8) : Spec where
  info := coreInfo false
  par := coreBad c
  st := fun s =>
    let n := c.toNat
    match (planMoves (chansOn s n) (siblings n) 8192 s).2.1 with
    | ch :: _ => some (conflict s { cls := 7, idx := ch, holder := 0x10 + n, obj := ch })
    | [] => none
  objs := [.core c.toNat]
  eff := fun s =>
    let n := c.toNat
    if 3 ≤ (core s n).st then okRes (le 1 (core s n).st) s
    else
      let chans := chansOn s n
      let (mv, bad, free) := planMoves chans (siblings n) 8192 s
      match bad, meCmd h s with
      | [], some me => .wait (.core n) (stageMoves mv free (setCmd { me with early := chans } s))
      | _, _ => .done stBadState [] s

def execCoreOutOfService (h : Hdr) (c : BitVec 8) (s : State) : Out := .next (scp h (.coreOutOfService h c) (specCoreOutOfService h c) s)

/-- A test of a core for its return (R491): ALG 0x1F. -/
def returnRun (q : Nat) (seq : BitVec 16) (n : Nat) (s : State) : State :=
  let r : AgtRun := { result := none, cmd := some (q, seq), target := 1, index := n, alg := 0x1F, slice := 0, since := none, pauseEnd := none,
                      notBefore := 0, cells := [], logicFail := false, prev := (core s n).st }
  { s with agt := { s.agt with runs := s.agt.runs ++ [r] } }

/-- Some run of a core stands or is in progress. -/
def runOn (s : State) (n : Nat) : Bool := s.agt.runs.any (fun r => decide (r.target = 1 ∧ r.index = n))

def specCoreReturn (h : Hdr) (c : BitVec 8) : Spec where
  info := coreInfo false
  par := coreBad c
  st := fun s => orRej (domRej s (8 + clusterOf c.toNat)) (if (core s c.toNat).st = 6 then some (rej stBadState) else none)
  objs := [.core c.toNat]
  eff := fun s =>
    let n := c.toNat
    let st := (core s n).st
    if st = 6 then .done stBadState [] s
    else if st ≤ 2 then okRes (le 1 st) s
    else if runOn s n then .wait .agate s
    else if coreFit s n then .wait (.core n) s
    else .wait .agate (returnRun h.queue.val h.seq n s)

def execCoreReturn (h : Hdr) (c : BitVec 8) (s : State) : Out := .next (scp h (.coreReturn h c) (specCoreReturn h c) s)

def specCoreRetire (c : BitVec 8) : Spec where
  info := coreInfo true
  par := coreBad c
  st := fun s => let st := (core s c.toNat).st; if st = 3 ∨ st = 5 ∨ st = 7 then none else some (rej stBadState)
  objs := [.core c.toNat]
  eff := fun s =>
    let n := c.toNat
    let st := (core s n).st
    if st = 3 ∨ st = 5 ∨ st = 7 then
      let s := setCore n { core s n with st := 6 } s
      okRes (le 1 6) { s with boot := { s.boot with cfg := { s.boot.cfg with retired := s.boot.cfg.retired ||| (1#64 <<< n) } } }
    else .done stBadState [] s

def execCoreRetire (h : Hdr) (c : BitVec 8) (s : State) : Out := .next (scp h (.coreRetire h c) (specCoreRetire c) s)

/-- REBALANCE may move channels between these cores as they stand. -/
def rebalanceOk (s : State) (f t : Nat) : Bool :=
  decide ((core s f).st = 0 ∧ ((core s t).st = 0 ∨ (core s t).st = 2)) && !s.voice.sched.spares.contains t

def specRebalance (h : Hdr) (fromC toC : BitVec 8) (count : BitVec 16) : Spec where
  info := { opcode := 0x0706, idem := .ck, lcls := .c, timeout := some 1000000, setup := false }
  par := firstRej [(decide (47 < fromC.toNat), badParam 0),
    (decide (47 < toC.toNat ∨ fromC = toC ∨ clusterOf fromC.toNat ≠ clusterOf toC.toNat), badParam 1)]
  st := fun s => if rebalanceOk s fromC.toNat toC.toNat then none else some (rej stBadState)
  objs := [.core fromC.toNat, .core toC.toNat]
  eff := fun s =>
    let f := fromC.toNat
    match rebalanceOk s f toC.toNat, meCmd h s with
    | true, some me =>
      let (mv, _, free) := planMoves (chansOn s f) [toC.toNat] (if count = 0 then 8192 else count.toNat) s
      .wait (.core f) (stageMoves mv free (setCmd { me with early := mv.map (·.1) } s))
    | _, _ => .done stBadState [] s

def execRebalance (h : Hdr) (fromC toC : BitVec 8) (count : BitVec 16) (s : State) : Out :=
  .next (scp h (.rebalance h fromC toC count) (specRebalance h fromC toC count) s)

/-- The windows of every loaded kernel on a core whose memories were lost (R227). -/
def loadKernels (n : Nat) (s : State) : State :=
  s.gar.kernels.foldl (fun s e =>
    let c := core s n
    setCore n { c with dmem := cellsPut 0 c.dmem e.2.win.dbase (e.2.ddata ++ List.replicate e.2.dbss 0) } s) s

/-- A core is in service again, with no channels. -/
def toStandby (n : Nat) (s : State) : State :=
  let s := undegrade 0x1F7 n (loadKernels n s)
  capredUpd (clusterOf n) (setCore n { core s n with st := 2, redo := [], migrate := false } s)

/-- A channel has still to leave a core. -/
def stillMoving (s : State) (ch : Nat) : Bool :=
  s.voice.sched.moves.any (fun m => m.1 == ch) || (match chan? s ch with | some c => c.moveTo.isSome | none => false)

/-- CORE_SERVICE and REBALANCE commands whose work is done end: at a schedule commit, or at the frame boundary of the last channel. -/
def coreDue (atCommit : Bool) (s : State) : State :=
  (s.host.cmds.filter (fun c => match c.wait with | .core _ => c.fin.isNone | _ => false)).foldl (fun s c =>
    let moved := !c.early.any (stillMoving s) && (atCommit || !c.early.isEmpty)
    match c.instr with
    | .coreReturn _ k =>
      let n := k.toNat
      if !atCommit then s
      else if clusterOn s (clusterOf n) then finish c stOk (le 1 2) (toStandby n s) else finish c stFaulted [] s
    | .coreOutOfService _ k =>
      let n := k.toNat
      if moved && (chansOn s n).isEmpty then
        let sc := s.voice.sched
        let sc := { sc with spares := sc.spares.filter (· ≠ n), next := sc.next.map (fun l => l.filter (· ≠ n)) }
        let s := { s with voice := { s.voice with sched := sc } }
        let s := if (core s n).st ≤ 2 then setCore n { core s n with st := 5 } s else s
        finish c stOk (le 1 (core s n).st) (capredUpd (clusterOf n) s)
      else s
    | .rebalance _ _ _ _ => if moved then finish c stOk (le 2 c.early.length) s else s
    | _ => s) s

/-! ### Field runs (R462, R463) -/

/-- The macros a run tests. -/
def runTests (r : AgtRun) (m : Nat) : Bool :=
  if r.target = 0 then m == r.index
  else if r.target = 1 then decide (0x1000 + 16 * r.index ≤ m ∧ m < 0x1000 + 16 * r.index + 12)
  else macroDomain m == some r.index

/-- CORE_RETURN commands that waited for a run of the core. -/
def returnDue (n : Nat) (s : State) : State :=
  (s.host.cmds.filter (fun c => c.fin.isNone && c.wait == .agate && !s.agt.runs.any (fun r => r.cmd == some (c.queue, c.seq)))).foldl (fun s c =>
    match c.instr with
    | .coreReturn _ k =>
      if k.toNat ≠ n ∨ runOn s n then s
      else if coreFit s n then setCmd { c with wait := .core n } s
      else returnRun c.queue c.seq n s
    | _ => s) s

/-- The command of a run ends with its result, or goes on to the next schedule commit (R491). -/
def runCmdEnd (r : AgtRun) (num : BitVec 16) (s : State) : State :=
  match r.cmd with
  | none => s
  | some (q, sq) => match cmdAt s q sq with
    | none => s
    | some c =>
      if c.fin.isSome then s
      else match c.instr with
        | .coreReturn _ k => if coreFit s k.toNat then setCmd { c with wait := .core k.toNat } s else finish c stFaulted [] s
        | _ => finish c stOk (le 2 num.toNat) s

/-- An unrepairable macro that keeps its domain out of service: any of PD_NET to PD_CMP, and the shared memory of a cluster (Table 17.6). -/
def memCounts (d m : Nat) : Bool := decide (d < 8 ∨ 0x1400 ≤ m)

/-- What a run on a domain leaves: with an unrepairable memory its units stay OUT_OF_SERVICE, a cluster goes off and stays off, and the state is
DEGRADED; otherwise they may serve again (R472). It lasts until a later run or the next start (log 124). -/
def domVerdict (d : Nat) (bad : Bool) (s : State) : State :=
  if !bad then undegrade 0x107 d s
  else
    let s := degrade 0x107 d s
    if 8 ≤ d then domReq d false s else s

/-- The run at the front ends: its outcome, its repair plan, its record, and what waits for it. -/
def runEnd (r : AgtRun) (num : BitVec 16) (s : State) : State :=
  let (plan, unrep, failing) := repairPlan s (runTests r) r.cells
  let out := outcomeOf plan unrep r.logicFail
  let s := unrep.foldl (fun s m => (pendingRows s m).foldl (fun s row => journal 0x106 0x68 8 m row [] s) s) s
  let s := match tblFind num.toNat s.agt.results with
    | some v =>
      let v := foundIn v out plan failing (r.cells.filter (fun c => runTests r c.mac.toNat)) s
      { s with agt := { s.agt with results := tblSet num.toNat v s.agt.results } }
    | none => s
  let s := if r.target = 2 then domVerdict r.index (unrep.any (memCounts r.index)) s else s
  let s := { s with agt := { s.agt with runs := s.agt.runs.drop 1 } }
  let s := wr agtBusy 0 (wr agtInslice 0 (wr agtInpause 0 (wr agtResultNo 0 s)))
  let s := bump agtRuns (if out = 1 then s else bump agtFails s)
  let s := unclaimIf (fun c => c.holder == 0x68 && c.obj == num.toNat) s
  let s := journal 0x107 0x68 8 num.toNat out [] s
  let s := if r.target ≠ 1 ∨ (core s r.index).st ≠ 4 then s
    else if r.alg = 0x1B ∧ r.cmd.isNone ∧ out = 1 then toStandby r.index s
    else setCore r.index { core s r.index with st := r.prev } s
  let s := runCmdEnd r num s
  if r.target = 1 then returnDue r.index s else s

/-- The run at the front begins: it takes its result, its claim and, for a core, a core reset (R104). -/
def runBegin (r : AgtRun) (s : State) : AgtRun × State :=
  let isRun := match r.cmd with
    | some (q, sq) => (match cmdAt s q sq with | some c => c.opcode == 0x0701 | none => false)
    | none => false
  let v : AgtResult := { target := r.target, alg := r.alg, index := r.index, outcome := 0, origin := if isRun then 0 else 3, start := s.time.usec, active := 0, slices := 0, nfail := 0, fmacro := 0, falg := 0, felem := 0, fword := 0, fbit := 0,
                         plan := [], mapped := 0, fused := 0, fuseused := s.boot.fuses.repairs.length }
  let (num, s) := newResult v s
  let prev := if r.cmd.isNone then r.prev else (core s r.index).st
  let s := if r.target = 1 then claim 8 r.index 0x68 num.toNat (setCore r.index { core (coreReset r.index s) r.index with st := 4 } (coreReset r.index s)) else s
  ({ r with result := some num, prev := prev }, s)

/-- AGATE_SLICE_START, at a master-frame boundary: the run in progress goes on, or the next one begins; thermal level 2 defers it (R505). -/
def execAgateSliceStart (s : State) : Out :=
  .next (match s.agt.runs with
    | [] => s
    | r :: t =>
      if r.since.isSome ∨ r.pauseEnd.isSome ∨ !reached s r.notBefore ∨ 2 ≤ s.onyx.thermal ∨ s.pwr.safe ∨ s.pwr.hib ≠ .awake ∨ (r.result.isNone ∧ !onyxUp s) then s
      else
        let (r, s) := if r.result.isSome then (r, s) else runBegin r s
        match r.result with
        | none => s
        | some n =>
          let res : Tbl AgtResult := match tblFind n.toNat s.agt.results with
            | some v => tblSet n.toNat { v with slices := satAdd 16 v.slices 1 } s.agt.results
            | none => s.agt.results
          wr agtBusy 1 (wr agtInslice 1 (wr agtResultNo n.toNat { s with agt := { s.agt with runs := { r with since := some (now s) } :: t, results := res } })))

/-- The slice budget of a run, µs. -/
def sliceUs (s : State) (r : AgtRun) : Nat := if r.slice = 0 then rd s agtSlice else r.slice

/-- The macros that a run tests, in index order (Table 17.1). -/
def runMacros (r : AgtRun) : List Nat :=
  ([(0x000, 9), (0x010, 48), (0x040, 16), (0x100, 96), (0x180, 144)] ++ (fromN 0 48).map (fun n => (0x1000 + 16 * n, 12)) ++ [(0x1400, 128)]).flatMap
    (fun (x : Nat × Nat) => (fromN x.1 x.2).filter (runTests r))

/-- Cut a list into batches of at most 16 collars (R456). -/
def batches : Nat → List Nat → List (List Nat)
  | 0, _ => []
  | k + 1, l => if l.isEmpty then [] else l.take 16 :: batches k (l.drop 16)

/-- The parts of the algorithms on one batch of `n` words, in ascending bit order (R457): operations or blocks, ns each, and whether a retention
pause follows. -/
def algParts (alg n : Nat) : List (Nat × Nat × Bool) :=
  let on (b : Nat) (l : List (Nat × Nat × Bool)) : List (Nat × Nat × Bool) := if alg.testBit b then l else []
  on 0 [(10 * n, 2, false)] ++ on 1 [(22 * n, 2, false)] ++ on 2 [(4 * n, 2, false)] ++ on 3 [(n, 2, true), (2 * n, 2, true), (n, 2, false)] ++
    on 4 [(64, 65536, false)]

/-- The parts of a run: batch after batch, each as long as its longest macro (R456). -/
def runParts (r : AgtRun) : List (Nat × Nat × Bool) :=
  let l := runMacros r
  (batches l.length l).flatMap (fun b => algParts r.alg (b.foldl (fun n m => max n (macroWords m)) 0))

/-- What one slice does. -/
structure SliceDone where
  phase : Nat
  units : Nat
  used : Nat
  pause : Bool
  fin : Bool
  deriving DecidableEq, Repr

/-- One slice with a budget in ns, from unit `u` of the first of the parts left, part `k`: an operation or block is issued only if it ends within the
budget, and a retention pause ends the slice (R462). -/
def sliceGo (budget : Nat) : List (Nat × Nat × Bool) → Nat → Nat → Nat → SliceDone
  | [], k, _, used => { phase := k, units := 0, used := used, pause := false, fin := true }
  | (cnt, ns, p) :: t, k, u, used =>
    let fit := min (cnt - u) ((budget - used) / ns)
    let used := used + fit * ns
    if fit < cnt - u then { phase := k, units := u + fit, used := used, pause := false, fin := false }
    else if p then { phase := k + 1, units := 0, used := used, pause := true, fin := false }
    else sliceGo budget t (k + 1) 0 used

/-- What the slice of a run does from where the run stands. -/
def sliceOf (s : State) (r : AgtRun) : SliceDone := sliceGo (1000 * sliceUs s r) ((runParts r).drop r.phase) r.phase r.units 0

/-- CLK_USEC at which a slice that began at `t0` has ended. -/
def sliceEnds (t0 : Nat) (d : SliceDone) : Nat := t0 + (d.used + 999) / 1000

/-- The run after its slice. -/
def sliceRun (s : State) (t0 : Nat) (fails : List FailCell) (logicFail : Bool) (r : AgtRun) : AgtRun :=
  let d := sliceOf s r
  let e := sliceEnds t0 d
  { r with since := none, notBefore := e + 8000, cells := r.cells ++ fails, logicFail := logicFail && d.fin && r.alg.testBit 4,
           pauseEnd := if d.pause then some (e + 1000 * rd s agtPause) else none, phase := d.phase, units := d.units, actNs := r.actNs + d.used }

/-- AGATE_SLICE_END: a retention pause begins (`pause`), the run has made its last operation (`done`), or the budget is used; which, the run and its
budget decide, and an event that is not the one due changes nothing (R462, log 27). -/
def execAgateSliceEnd (pause done : Bool) (fails : List FailCell) (logicFail : Bool) (s : State) : Out :=
  .next (match s.agt.runs with
    | [] => s
    | r :: t => match r.since, r.result with
      | some t0, some n =>
        let d := sliceOf s r
        if now s < sliceEnds t0 d ∨ pause ≠ d.pause ∨ done ≠ d.fin then s
        else
          let r := sliceRun s t0 fails logicFail r
          let res : Tbl AgtResult := match tblFind n.toNat s.agt.results with
            | some v => tblSet n.toNat { v with active := r.actNs / 1000 } s.agt.results
            | none => s.agt.results
          let s := wr agtInslice 0 (wr agtInpause (b2n d.pause) { s with agt := { s.agt with runs := r :: t, results := res } })
          if d.fin then runEnd r n s else s
      | _, _ => s)

/-- RETENTION_PAUSE_END: the next slice may start. -/
def execRetentionPauseEnd (s : State) : Out :=
  .next (match s.agt.runs with
    | r :: t => if due s r.pauseEnd then wr agtInpause 0 { s with agt := { s.agt with runs := { r with pauseEnd := none } :: t } } else s
    | [] => s)

/-! ### Corrected errors (R464) -/

/-- The tracker keeps only these rows; AGT_CETRK.N counts them. -/
def rowsKeep (p : CeRow → Bool) (s : State) : State :=
  let rows := s.agt.rows.filter p
  wr agtCetrkN rows.length { s with agt := { s.agt with rows := rows } }

/-- A row becomes pending. -/
def rowPending (m row : Nat) (s : State) : State := journal 0x106 0x68 8 m row [] (bump agtPending s)

/-- CORRECTED_ERROR_REPORT: the row is counted; at AGT_CETHR it is pending. -/
def execCorrectedErrorReport (mac row : BitVec 16) (s : State) : Out :=
  let m := mac.toNat
  let w := row.toNat
  .next (match macroDomain m with
    | none => s
    | some d =>
      if !domOn s d then s
      else
        let mine : CeRow → Bool := fun r => r.mac == m && r.row == w
        match s.agt.rows.find? mine with
        | none =>
          if s.agt.rows.length < 64 then
            let p := decide (rd s agtCethr ≤ 1)
            let s := wr agtCetrkN (s.agt.rows.length + 1) { s with agt := { s.agt with rows := s.agt.rows ++ [{ mac := m, row := w, count := 1, pending := p }] } }
            if p then rowPending m w s else s
          else wr agtCetrkOvf 1 s
        | some r =>
          let k := r.count + 1
          let p := r.pending || decide (rd s agtCethr ≤ k)
          let s' := { s with agt := { s.agt with rows := s.agt.rows.map (fun x => if mine x then { x with count := k, pending := p } else x) } }
          if p && !r.pending then rowPending m w s' else s')

end Sys2Proof.Machine
end

