-- ==== Sys2Proof/Machine/Reset.lean ====
section
/-! DEFINITION. The reset kinds: POR, cold reset, warm reset and domain reset, what each keeps, and the events that a waiting warm reset waits
for (R104 to R108, R133 to R136). -/

namespace Sys2Proof.Machine

/-! ### What is lost with PD_CTRL (Table 5.2) -/

/-- The registers that survive the loss of every switched domain: those of PD_AO, and those the retention area keeps (R141, R156). -/
def keepsReg (k : Nat) : Bool :=
  let b := k / 65536
  let o := k % 65536
  b == 6 || b == 7 ||
    (b == 10 && (o == 0x0C || o == 0x28 || o == 0x2C || (decide (0x100 ≤ o ∧ o < 0x200) && (o % 0x40 == 0x0C || o % 0x40 == 0x24))))

/-- HB_QOWN takes the value HOSTIF gives it, and it is in force (R165, Table 6.2). -/
def startOwner (s : State) : State :=
  let w : BitVec 4 := if s.boot.cfg.hostif = 1 then 0xF else 0
  wrW (rk 10 0x24) (w.zeroExtend 32) { s with host := { s.host with owner := w, ownP := w, ownM := w } }

/-- What PD_CTRL, and with it every other switched domain, loses: everything that lies neither in PD_AO nor in DDR. Accepted commands stand in
the Work Ledger; the others are discarded. -/
def ctrlLost (s : State) : State :=
  let s := (fromN 0 4).foldl (fun s q => resetQueue q s) s
  let h := s.host
  let o := s.onyx
  let s := { s with
    regs := tblFilter (fun k _ => keepsReg k) s.regs,
    time := { s.time with slew := 0, servo := servoReset, zc := [], latch := [], refTrip := false },
    pwr := { s.pwr with queue := [], cur := none, offAtMf := [], pllLost := [], pllOut := [] },
    host := { hostReset with queues := h.queues, cmds := h.cmds, segs := h.segs, segLast := h.segLast, segNum := h.segNum },
    claims := [], fab := State.reset.fab, gar := { State.reset.gar with ddr := s.gar.ddr }, voice := voiceReset, net := State.reset.net,
    plc := State.reset.plc, opal := [], tdm := [], tpz := { State.reset.tpz with ckpt := s.tpz.ckpt },
    onyx := { onyxReset with mismatches := o.mismatches, checkers := o.checkers, checking := o.checking, persistent := o.persistent,
                             persistentDone := o.persistentDone, temp := o.temp },
    boot := { s.boot with wdog := none, early := [], started := false, attempt := 1, mspiSeen := false, extOk := false, ext := [], image := [],
                          replaying := none } }
  seqUpd (startOwner s)

/-! ### Warm reset (R107) -/

/-- The order in which the switched domains go off (Table 4.6). -/
def offOrder : List Nat := [8, 9, 10, 11, 7, 6, 5, 4]

/-- FAULT_N after SAFE or minimal mode is left: low only where the start has not reached S3 DONE (R134). -/
def faultAfter (s : State) : Bool := s.pwr.faultN && !s.pwr.safe && !minimal s

/-- The switched domains above PD_MEM go off. Accepted commands that are at work there are kept, and what the switch-off would end is replayed
(Table 5.2, R107, R209). -/
def domsOff (s : State) : State :=
  let again : Cmd → Cmd := fun c => match c.wait with
    | .tpz _ => { c with started := none, wait := .idle, deadline := none, replayed := true }
    | _ => c
  let cmds := s.host.cmds.map again
  let s := offOrder.foldl (fun s d => domOffNow d s) { s with host := { s.host with cmds := [] } }
  { s with host := { s.host with cmds := cmds } }

/-- The steps of R107, with the DDR controller confirming self-refresh entry or not. The context of a continuing job stands in its retained
record (R186, R451). -/
def warmNow (cause : Nat) (ddr : Bool) (s : State) : State :=
  let fault := faultAfter s
  let s := { s with voice := { s.voice with sched := { s.voice.sched with running := false } }, boot := { s.boot with resetReq := none } }
  let s := keepShadow (sealerAct false (abortRuns (fun _ => true) false s))
  let s := ddrHandover ddr (hostOff (domsOff (renewAnchor s)))
  let s := ctrlLost (revokeWhere (fun l => l.state ≠ 0) s)
  let hd := { s.boot.hdr with lastReset := 2, warmCause := cause }
  let s := { s with boot := { s.boot with step := 1, warm := true, hdr := hd },
                    pwr := { s.pwr with hib := .awake, safe := false, safeStuck := false, shutdown := false, faultN := fault,
                                        cur := some { dom := 1, on := true, pgBy := now s + stageUs 1 + 32, pgSeen := false, failed := false } } }
  seqUpd (wr coreEn 1 (wr (domStat 1) 1 s))

/-- eFuse programming is in progress. A life-cycle change whose command has not been answered has not begun (R136, R179). -/
def fuseBusy (s : State) : Bool :=
  match s.boot.fuseOp with
  | none => false
  | some (.lifecycle _) => !lifecycleUnsaid s
  | some _ => true

/-- A FINAL entry of the boot ROM's DEV_RESET has not been written yet (R174). -/
def romReplies (s : State) : Bool :=
  minimal s && (fromN 0 4).any (fun q => (queue s q).held.any (fun c => c.opcode == 0x0102 && c.status == stOk))

/-- A warm reset: it waits for eFuse programming in progress; one requested while another waits is absorbed (R105, R136). Where nothing says
whether the DDR controller confirms self-refresh entry, that is free (log 2). -/
def resetDue (s : State) : State :=
  match s.boot.resetReq with
  | none => s
  | some (cause, d) =>
    if fuseBusy s || romReplies s then s
    else match d with
      | some b => warmNow cause b s
      | none => warmNow cause (freeBits 1 s == 1) (tookFree s)

def warmReset (cause : Nat) (ddr : Option Bool) (s : State) : State :=
  if s.boot.resetReq.isSome then s else resetDue { s with boot := { s.boot with resetReq := some (cause, ddr) } }

/-- What DEV_RESET does before the warm reset: in minimal mode the start is not counted as incomplete (R123). -/
def devResetPrep (s : State) : State :=
  if minimal s then
    let h := s.boot.hdr
    { s with boot := { s.boot with hdr := { h with incomplete := 0, mode := 0, lastDone := h.bootno } } }
  else s

/-- SAFE for thermal level 3 is not left while the junction is at 115 °C or above (R506). -/
def tooHot (s : State) : Bool := s.pwr.shutdown && decide (115 ≤ s.onyx.temp)

/-- The sources of Table 5.1 by WARMCAUSE: a command while Onyx serves commands, a boot retry while a step is under way, a fault response, and
the command that leaves SAFE or minimal mode. -/
def warmSource (c : Nat) (s : State) : Bool :=
  let held := s.pwr.safe || minimal s
  domOn s 1 && decide (3 ≤ s.boot.step) &&
    ((c == 1 && !held && booted s && onyxUp s) || (c == 2 && !held && s.boot.started) || (c == 3 && !held) ||
      (c == 4 && (minimal s || (s.pwr.safe && !s.pwr.safeStuck && s.onyx.phase != .off && !tooHot s))))

/-- WARM_RESET, by one of its sources (R104, R123, R135). -/
def execWarmReset (cause : BitVec 8) (ddrConfirmed : Bool) (s : State) : Out :=
  let c := cause.toNat
  .next (if warmSource c s then warmReset c (some ddrConfirmed) (if c = 4 then devResetPrep s else s) else s)

/-- EFUSE_PROGRAM_DONE: a warm reset that waited for it follows (R136). -/
def execEfuseProgramDone (readbackOk : Bool) (s : State) : Out := .next (resetDue (efuseDone readbackOk s))

/-- COMPLETION_WRITE (R148, R167). -/
def execCompletionWrite (q : Fin 4) (wrote : Bool) (s : State) : Out := .next (resetDue (completionWrite q.val wrote s))

/-! ### POR and cold reset (R104, R108) -/

/-- eFuse programming is aborted (R136): a repair entry fails its check, each life-cycle fuse may or may not have been blown, and another
field may or may not have its value (log 2). -/
def fuseAbort (s : State) : State :=
  let fs := s.boot.fuses
  let put (f : Fuses) : State := tookFree { s with boot := { s.boot with fuses := f } }
  let yes := freeBits 1 s == 1
  match s.boot.fuseOp with
  | none => s
  | some (.repair (w :: _) _ _) => put { fs with repairs := fs.repairs ++ [{ word := w, bad := true }] }
  | some (.repair [] _ _) => s
  | some (.lifecycle lc) => if lifecycleUnsaid s then s else put { fs with lc3 := fs.lc3 ||| (lcFuses lc &&& freeBits 12 s) }
  | some (.secmin v) => put (if yes then { fs with secmin := v } else fs)
  | some (.revoke k) => put (if yes then { fs with revoked := fs.revoked ||| (1#4 <<< k) } else fs)
  | some (.customer 0 v) => put (if yes then { fs with boardOpts := some (v.truncate 32) } else fs)
  | some (.customer 1 v) => put (if yes then { fs with kernelHash := some v } else fs)
  | some (.customer _ v) => put (if yes then { fs with subsys := some (v.truncate 32) } else fs)

/-- The whole device is reset; the eFuse array and the flash keep their contents, and the life cycle is read again at S1. -/
def deviceReset (s : State) : State :=
  let s := fuseAbort s
  { State.reset with pending := s.pending, free := s.free, hostMem := s.hostMem,
                     boot := { bootReset with fuses := s.boot.fuses, flash := s.boot.flash, verified := s.boot.verified, dir := s.boot.dir },
                     onyx := { onyxReset with temp := s.onyx.temp } }

/-- POR. -/
def execPor (s : State) : Out := .next (deviceReset s)

/-- COLD_RESET: RESET_N goes low. VDD_AO stays, so CK_AO runs on and CORE_EN stays high; the TAP is not reset. Pads that a test instruction
controls keep the device here (R534). The rows pending in Agate's tracker stand until the next test of their macro (R464, log 123). -/
def execColdReset (s : State) : Out :=
  .next (let r := deviceReset s
    { r with regs := [], time := { r.time with aoRun := s.time.aoRun, refRun := s.time.refRun }, tap := s.tap,
             agt := { r.agt with rows := s.agt.rows.filter (·.pending) },
             boot := { r.boot with hdr := { hdrReset with lastReset := 1 }, tapHold := s.tap.pads } })

/-! ### Domain reset (R106) -/

/-- DOMAIN_RESET: a switch-off and a switch-on; PD_CTRL and PD_MEM by a warm reset; PD_HOST only within another reset. -/
def execDomainReset (dom : Fin 12) (s : State) : Out :=
  let d := dom.val
  .next (if !domOn s 1 ∨ s.boot.resetReq.isSome then s
    else if d = 1 ∨ d = 3 then (if s.boot.step < 3 ∨ s.pwr.safe then s else warmReset 3 none s)
    else if d < 4 then s
    else domReq d true (domReq d false s))

end Sys2Proof.Machine
end

