-- ==== Sys2Proof/Machine/Boot.lean ====
section
/-! DEFINITION. The boot steps, their records, their watchdog and their policies (R109 to R123, R127, R456 to R460); the replay of S10 is in
Replay.lean. -/

namespace Sys2Proof.Machine

/-! ### Records and the watchdog (R111, R118 to R120) -/

/-- Timeout of one attempt, µs (Table 5.3); S0 has none. -/
def stepTimeout (n : Nat) : Nat :=
  if n = 1 then 1000 else if n = 2 then 500000 else if n = 3 then 5000 else if n = 4 then 200000 else if n = 5 then 4000000
  else if n = 6 then 3000000 else if n = 7 then 10000000 else if n = 8 then 2000000 else if n = 9 then 3000000
  else if n = 10 ∨ n = 11 then 30000000 else 100000

/-- Record kinds of Table 5.6. -/
def kStart : Nat := 1
def kDone : Nat := 2
def kFail : Nat := 3
def kSkip : Nat := 4
def kPolicy : Nat := 5
def kTimeout : Nat := 6

def bootRecMake (s : State) (step kind attempt cause detail : Nat) : BootRec :=
  { bootno := s.boot.hdr.bootno, step := step, kind := kind, attempt := attempt, cause := cause, detail := BitVec.ofNat 32 detail,
    timeMs := BitVec.ofNat 32 (now s / 1000) }

/-- A record goes into the next slot of the boot ledger: its two words, and the header's word with WRIDX, are written whole (R95, R119,
log 103). -/
def bootRecPut (r : BootRec) (s : State) : State :=
  let w := s.boot.hdr.wridx
  ueFix wBoot 1 (ueFix (wBoot + 8 + 2 * w) 2
    { s with boot := { s.boot with recs := tblSet w r s.boot.recs, hdr := { s.boot.hdr with wridx := if w = 251 then 0 else w + 1 } } })

/-- The ROM still holds its records: before the ledger is initialised in the cold form, and before the header's update at S1 in the
warm form (R118, R121). -/
def romHolds (s : State) : Bool := if s.boot.warm then decide (s.boot.step = 1) else decide (s.boot.step ≤ 2)

def bootRec (step kind attempt cause detail : Nat) (s : State) : State :=
  let r := bootRecMake s step kind attempt cause detail
  if romHolds s then { s with boot := { s.boot with early := s.boot.early ++ [r] } } else bootRecPut r s

/-- The records the ROM held go into the ledger, under the number of the current start. -/
def bootFlush (s : State) : State :=
  let s1 := { s with boot := { s.boot with early := [] } }
  s.boot.early.foldl (fun t r => bootRecPut { r with bootno := t.boot.hdr.bootno } t) s1

/-- The PLC ports that the boot options name for S9. -/
def bootPlc (s : State) : List Nat := (fromN 0 4).filter (fun n => s.boot.cfg.plcEn.getLsbD n)

/-- The domains that a step needs on (Table 5.3); PD_SSC and PD_CMP, which the table names nowhere, from S10 on (log 104). -/
def bootDoms (s : State) (n : Nat) : List Nat :=
  if n = 4 then [2] else if n = 6 then [3] else if n = 7 then [8, 9, 10, 11] else if n = 8 then [4]
  else if n = 9 then (if (bootPlc s).isEmpty then [] else [5]) else if n = 10 then [6, 7] else []

/-- A domain and its PLL are asked for: the request is made once the PLL is locked (R85). PD_HOST has the PLL of its own PHY, and PLL_MEM
follows PD_MEM (Table 4.8). -/
def bootAsk (d : Nat) (s : State) : State :=
  if domOn s d || s.pwr.queue.contains (d, true) || (match s.pwr.cur with | some c => c.dom == d && c.on | none => false) then s
  else if 4 ≤ d ∧ !pllReady s (domPll d) then wr (pllEn (domPll d)) 1 s
  else switchReq d true s

def bootAskAll (n : Nat) (s : State) : State := (bootDoms s n).foldl (fun s d => bootAsk d s) s

/-- The domains of a step have been switched: each is on, or for a domain without which the start goes on, marked FAULT (R88). -/
def bootPowered (s : State) (n : Nat) : Bool :=
  (bootDoms s n).all (fun d => domOn s d || (decide (4 ≤ d) && rd s (domStat d) == 3))

/-- An attempt at a step begins: its START record, the watchdog armed (R111), and the domains it needs asked for. -/
def stepStart (n attempt : Nat) (s : State) : State :=
  let s := bootRec n kStart attempt 0 0 { s with boot := { s.boot with step := n } }
  bootAskAll n { s with boot := { s.boot with attempt := attempt, started := true, wdog := some (now s + stepTimeout n) } }

/-- A step has ended, and the next begins. -/
def stepNext (n : Nat) (s : State) : State :=
  let s := { s with boot := { s.boot with started := false, wdog := none } }
  if n < 12 then stepStart (n + 1) 1 s else { s with boot := { s.boot with step := 13 } }

/-- DONE. -/
def stepDone (n : Nat) (s : State) : State := stepNext n (bootstepPut n (bootRec n kDone s.boot.attempt 0 0 s))

/-- The step ends in SAFE (R112). -/
def bootSafe (s : State) : State := enterSafe { s with boot := { s.boot with started := false, wdog := none } }

/-- A boot retry: a warm reset with cause 2 (R112). -/
def bootRetry (s : State) : State := warmReset 2 none { s with boot := { s.boot with started := false, wdog := none } }

/-- Step `n` is under way. -/
def atStep (n : Nat) (s : State) : Bool := decide (s.boot.step = n) && s.boot.started && s.boot.resetReq.isNone && !s.pwr.safe

/-! ### S0 (R109, R565, Table 4.7) -/

/-- RESET_N is held low: a cold reset whose S0 has not begun to count. -/
def resetLow (s : State) : Bool := decide (s.boot.step = 0 ∧ s.boot.hdr.lastReset = 1) && !s.boot.aoGood

/-- AO_POWER_GOOD: VDD_AO power-good has held 1 ms; CORE_EN goes high and the core ramp begins. A TAP instruction that controls the pads
prolongs the cold reset (R534). -/
def execAoPowerGood (s : State) : Out :=
  .next (if s.boot.step ≠ 0 ∨ s.boot.aoGood ∨ s.boot.tapHold then s
    else wr coreEn 1 { s with boot := { s.boot with aoGood := true }, pwr := { s.pwr with rampFrom := s.time.ao } })

/-- PD_CTRL's switch-on begins. -/
def ctrlOn (s : State) : State :=
  seqUpd (wr (domStat 1) 1
    { s with time := { s.time with refTrip := false }, pwr := { s.pwr with cur := some { dom := 1, on := true, pgBy := now s + stageUs 1 + 32, pgSeen := false, failed := false } } })

/-- Whole CK_AO periods of the core ramp at hibernate exit (R565). -/
def rampPeriods (s : State) : Nat := (rd s coreRamp * 32768 + 999999) / 1000000

/-- CORE_RAMP_END: at S0, and at hibernate exit after the ramp's periods of CK_AO, with CLK_USEC advanced by the time asleep (R70, R101). -/
def execCoreRampEnd (s : State) : Out :=
  .next (if s.boot.step = 0 ∧ s.boot.aoGood ∧ rd s (domStat 1) = 0 then ctrlOn s
    else if s.pwr.hib = .leaving ∧ rampPeriods s ≤ (s.time.ao - s.pwr.rampFrom).toNat then
      let s := ctrlLost (revokeWhere (fun l => l.state ≠ 0) s)
      let us := s.time.usec + BitVec.ofNat 64 (aoUsec (s.time.ao - s.time.refLostAo).toNat)
      let hd := { s.boot.hdr with lastReset := 3, warmCause := 0 }
      ctrlOn (wr hibExit 1 { s with time := { s.time with usec := us, refLostAo := s.time.ao }, pwr := { s.pwr with hib := .awake },
                                    boot := { s.boot with step := 1, warm := true, hdr := hd } })
    else s)

/-- PLL_CTRL and PLL_FAB are locked: S0 ends, and S1 begins (Table 21.3, Table 4.7). -/
def romBegin (s : State) : State :=
  if domOn s 1 ∧ pllReady s 0 ∧ pllReady s 1 ∧ s.boot.step ≤ 1 ∧ !s.boot.started ∧ !s.pwr.safe then
    let s := if s.boot.step = 0 then bootRec 0 kDone 1 0 0
        { s with boot := { s.boot with early := [{ bootRecMake s 0 kStart 1 0 0 with timeMs := 0 }] } } else s
    stepStart 1 1 s
  else s

/-! ### S1 (R121, R126, R129, R468) -/

/-- A listed code. -/
def lcValid (c : BitVec 4) : Bool := c == 0 || c == 1 || c == 3 || c == 7 || c == 15

/-- The header's update at S1 of a warm-form start; in BLANK INCOMPLETE does not change (R132), nor does MODE on its account: minimal mode there
is not that of the count, and the spec does not say what MODE reads (DESIGN CHOICE, log 105). EXCL_CORES is of the current start. -/
def hdrUpdate (s : State) : State :=
  let h := s.boot.hdr
  let inc := if h.lastDone ≠ h.bootno ∧ fuseLc s ≠ 0 then min (h.incomplete + 1) 255 else h.incomplete
  let h := { h with incomplete := inc, bootno := h.bootno + 1, mode := if 3 ≤ inc then 1 else h.mode, exclCores := 0 }
  { s with boot := { s.boot with hdr := h }, journal := { s.journal with startSeq := s.journal.nextSeq } }

/-- The warm form's header update, and the ROM's records. -/
def warmHeader (s : State) : State := if s.boot.warm then bootFlush (hdrUpdate s) else s

/-- Records of S1 after the header's update go where those of later steps go. -/
def recS1 (kind : Nat) (s : State) : State :=
  let r := bootRecMake s 1 kind 1 0 0
  if s.boot.warm then bootRecPut r s else { s with boot := { s.boot with early := s.boot.early ++ [r] } }

/-- FUSE_AND_LIFE_CYCLE_READ. -/
def execFuseAndLifeCycleRead (s : State) : Out :=
  .next (if !atStep 1 s then s
    else
      let s := warmHeader s
      let f := s.boot.fuses
      if !lcValid (fuseLc s) then bootSafe (recS1 kFail s)
      else
        let bad := (f.repairs.filter (fun e => e.bad || !entryOk e.word)).length
        let s := wr agtFuseused f.repairs.length (wr agtFusebad bad { s with boot := { s.boot with lc := fuseLc s } })
        stepNext 1 (bootstepPut 1 (recS1 kDone s)))

/-! ### S2 and S3 (R459, R460, R566) -/

/-- The result of one boot test. -/
def bootResult (target index alg outcome origin : Nat) (plan : List (BitVec 64)) (failing : List Nat) (cells : List FailCell) (s : State) : State :=
  let v : AgtResult := { target := target, alg := alg, index := index, outcome := 0, origin := origin, start := s.time.usec, active := 0, slices := 0,
                         nfail := 0, fmacro := 0, falg := 0, felem := 0, fword := 0, fbit := 0, plan := [], mapped := 0, fused := 0, fuseused := 0 }
  let v := foundIn v outcome plan failing cells s
  (newResult { v with mapped := if outcome = 2 then plan.length else 0 } s).2

/-- Beryl is cleared and its headers are initialised, at S2 of a cold form (R118, R566). -/
def berylInit (s : State) : State :=
  let s := { s with ledger := State.reset.ledger, journal := State.reset.journal, pvl := State.reset.pvl, shadow := none,
                    pwr := { s.pwr with ueWords := [] },
                    boot := { s.boot with hdr := { hdrReset with lastReset := s.boot.hdr.lastReset }, recs := [], cfg := cfgReset, training := false } }
  bootFlush s

/-- A record of S2: in the cold form the ledger exists by now. -/
def recS2 (kind cause detail : Nat) (s : State) : State := bootRecPut (bootRecMake s 2 kind 1 cause detail) s

/-- AGATE_TEST_OF_MEMORIES: what can be repaired is recorded for S3 (R112), whose load is the soft repair that the retest saw (log 123); anything
else is SAFE. The tracked rows of the memories tested here are done with (R464). -/
def execAgateTestOfMemories (v : Verdict) (found : MarchFound) (ueWords : List Nat) (shadowUe : Bool) (s : State) : Out :=
  .next (if !atStep 2 s then s
    else
      let cold := !s.boot.warm
      let mine (d m : Nat) : Bool := macroDomain m == some d
      let one (d : Nat) : List (BitVec 64) × List Nat × List Nat := repairPlan s (mine d) found.cells found.again
      let doms := if cold then [0, 1] else [1]
      let plan := doms.flatMap (fun d => (one d).1)
      let unrep := doms.flatMap (fun d => (one d).2.1)
      let s := doms.foldl (fun t d =>
        let (pl, un, fa) := one d
        bootResult 2 d 0x0B (outcomeOf pl un false) 1 pl fa (found.cells.filter (fun c => mine d c.mac.toNat)) t) s
      let s := if cold then berylInit s
        else ueWords.foldl (fun t w => if w < 131072 then recordUe w t else t) s
      let s := rowsKeep (fun r => r.pending && decide (0x1000 ≤ r.mac)) { s with agt := { s.agt with found := plan } }
      let s := plan.foldl (fun t w => recS2 kPolicy 2 (entryMac w) t) s
      match v, unrep with
      | .fail c d, _ => bootSafe (recS2 kFail c.toNat d.toNat s)
      | .pass, m :: _ => bootSafe (recS2 kFail 1 m s)
      | .pass, [] =>
        if !cold && shadowUe then bootSafe (recS2 kFail 1 8 s)
        else stepNext 2 (bootstepPut 2 (recS2 kDone 0 0 s)))

/-- SOFT_REPAIR_LOAD; FAULT_N is released at S3 DONE (R134). -/
def execSoftRepairLoad (v : Verdict) (s : State) : Out :=
  .next (if !atStep 3 s then s
    else match v with
      | .fail _ _ => bootRetry (bootRec 3 kFail 1 0 0 s)
      | .pass =>
        let soft := s.agt.soft ++ s.agt.found
        let s := wr agtSoftmap soft.length { s with agt := { s.agt with soft := soft, found := [] }, pwr := { s.pwr with faultN := false } }
        stepDone 3 s)

/-! ### S4 (R110, R122, R486, R563) -/

/-- LSPOLICY: zero in RETURN and where it is unprogrammed (R488). -/
def lspolicy (s : State) : Nat := if s.boot.lc = 15 then 0 else ((s.boot.fuses.boardOpts.getD 0).getLsbD 0).toNat

/-- LOCKSTEP_DEGRADED, answered as LSPOLICY says (R488). -/
def lockstepDegraded (cause : Nat) (s : State) : State :=
  let p := lspolicy s
  let s := journal 0x03 0 (if p = 0 then 3 else 8) cause p [] (notify 6 0x03 0 s)
  if p = 0 then enterSafe s
  else degrade 0x03 0 { s with onyx := { s.onyx with checking := false } }

/-- The live-entry map from the entries' STATE. -/
def mapRebuild (s : State) : State :=
  { s with ledger := { s.ledger with live := (s.ledger.entries.filter (fun e => e.2.state == 0xE1)).map (·.1), tail := none } }

/-- A PLL that the step under way waits for has locked: the domains it feeds are asked for (R85). -/
def bootPll (p : Nat) (s : State) : State :=
  if s.boot.started then ((bootDoms s s.boot.step).filter (fun d => decide (4 ≤ d) && domPll d == p)).foldl (fun s d => bootAsk d s) s else s

/-- The start stops at S4: the boot ROM serves diagnostics and DEV_RESET, and FAULT_N is low (R122, R134). The header's MODE stands as S1 left
it: in BLANK it stays as it was (log 105). -/
def enterMinimal (s : State) : State :=
  refresh (stateReg (wr hbMinimal 1) { s with pwr := { s.pwr with faultN := true }, boot := { s.boot with step := 4, started := false, wdog := none } })

/-- S5 begins: NEXTSLOT is read, and 0xFF written back (R127). -/
def imageBegin (s : State) : State :=
  let h := s.boot.hdr
  { s with boot := { s.boot with tryOnly := if h.nextslot = 0xFF then none else some h.nextslot, hdr := { h with nextslot := 0xFF } } }

/-- ONYX_ROM_START. -/
def execOnyxRomStart (v : Verdict) (comparatorOk : Bool) (s : State) : Out :=
  .next (if !atStep 4 s || !bootPowered s 4 then s
    else
      let s := mapRebuild s
      match v with
      | .fail _ _ => bootRetry (bootRec 4 kFail 1 0 0 s)
      | .pass =>
        let s := { s with onyx := { s.onyx with phase := .rom, checking := comparatorOk } }
        let s := if comparatorOk then s else lockstepDegraded 1 s
        if s.pwr.safe then { s with boot := { s.boot with started := false, wdog := none } }
        else
          let s := { s with boot := { s.boot with s4At := now s, mspiSeen := false } }
          if s.boot.lc = 0 ∨ s.boot.hdr.mode = 1 then enterMinimal (bootstepPut 4 (bootRec 4 kDone 1 0 0 s))
          else stepDone 4 (imageBegin s))

/-! ### S5 (R113, R124, R125, R127) -/

/-- An image in a flash slot as the ROM reads it: the header fields of Table 5.8 that R127 checks and the digests found
over the parts. -/
structure ImageRead where
  readOk : Bool
  magic : BitVec 32
  hdrver : BitVec 16
  keyidx : BitVec 8
  coreLen : BitVec 32
  imemLen : BitVec 32
  extLen : BitVec 32
  secver : BitVec 32
  release : BitVec 32
  pubkey : List Byte
  sigBytes : List Byte
  header : List Byte
  coreDigest : BitVec 384
  coreFound : BitVec 384
  extDigest : BitVec 384
  extFound : BitVec 384
  deriving DecidableEq, Repr

def slotBytes : Nat := 16777216

/-- Where a slot begins in flash (R124). -/
def slotBase (slot : Nat) : Nat := 0x100000 + slotBytes * slot

/-- The first `n` bytes of a slot from an offset, as they are in flash; erased bytes read 0xFF. -/
def flashGet (s : State) (slot off n : Nat) : List Byte := cellsGet 0xFF s.boot.flash (slotBase slot + off) n

/-- A part of a slot; what would lie beyond it is not read. -/
def slotPart (s : State) (slot o n : Nat) : List Byte := if slotBytes < o + n then [] else flashGet s slot o n

/-- A slot as the checks of R127 read it. -/
def slotImage (s : State) (slot : Nat) : ImageRead :=
  let b := flashGet s slot 0 512
  let w (o n : Nat) : Nat := leAt b o n
  let part (o n : Nat) : BitVec 384 := Config.sha384 (slotPart s slot o n)
  { readOk := true, magic := BitVec.ofNat 32 (w 0 4), hdrver := BitVec.ofNat 16 (w 4 2), keyidx := BitVec.ofNat 8 (w 6 1), coreLen := BitVec.ofNat 32 (w 8 4),
    imemLen := BitVec.ofNat 32 (w 12 4), extLen := BitVec.ofNat 32 (w 16 4), secver := BitVec.ofNat 32 (w 20 4), release := BitVec.ofNat 32 (w 24 4),
    pubkey := (b.drop 0x80).take 97, sigBytes := (b.drop 0x100).take 96, header := b.take 256,
    coreDigest := BitVec.ofNat 384 (unBe ((b.drop 0x20).take 48)), coreFound := part 512 (w 8 4),
    extDigest := BitVec.ofNat 384 (unBe ((b.drop 0x50).take 48)), extFound := part (512 + w 8 4) (w 16 4) }


/-- The slot of an attempt, and whether it is read at 50 MHz. -/
def attemptSlot (s : State) (k : Nat) : Nat × Bool :=
  match s.boot.tryOnly with
  | some n => (n, decide (k = 2))
  | none => (if k ≤ 2 then s.boot.hdr.actslot else 1 - s.boot.hdr.actslot, decide (k = 2 ∨ k = 4))

/-- Attempts of the order in force. -/
def attempts (s : State) : Nat := if s.boot.tryOnly.isSome then 2 else 4

/-- A key slot that the life-cycle state accepts (Table 5.10). -/
def keyAllowed (lc : BitVec 4) (k : Nat) : Bool :=
  if lc = 1 then decide (k ≤ 2) else if lc = 3 ∨ lc = 7 then decide (k = 1 ∨ k = 2) else if lc = 15 then decide (1 ≤ k ∧ k ≤ 3) else false

/-- The checks of R127 in order: the CAUSE of the first that does not hold; 0 when all hold. -/
def imageCause (s : State) (i : ImageRead) : Nat :=
  let f := s.boot.fuses
  let k := i.keyidx.toNat
  let c := i.coreLen.toNat
  if !i.readOk then 8
  else if i.magic ≠ 0x53503438 ∨ i.hdrver ≠ 1 then 1
  else if !keyAllowed s.boot.lc k ∨ f.revoked.getLsbD k then 2
  else if Config.sha384 i.pubkey ≠ tblGet f.keyHash k 0 then 3
  else if i.secver.toNat < f.secmin then 4
  else if 2097152 < i.imemLen.toNat ∨ c < i.imemLen.toNat ∨ 2097152 < c - i.imemLen.toNat ∨ 16777216 < 512 + c + i.extLen.toNat then 5
  else if !Config.ecdsaVerify i.pubkey i.sigBytes (Config.sha384 (i.header.take 256)) then 6
  else if i.coreFound ≠ i.coreDigest then 7
  else 0

/-- An attempt at S5 has failed: the next, or a boot retry. -/
def imageNext (s : State) : State := if s.boot.attempt < attempts s then stepStart 5 (s.boot.attempt + 1) s else bootRetry s

/-- The image of a slot is taken: its header is kept for S6, and the core part is in IMEM and DMEM (R124, R127). -/
def imageTake (slot : Nat) (i : ImageRead) (s : State) : State :=
  let core := slotPart s slot 512 i.coreLen.toNat
  let n := i.imemLen.toNat
  { s with boot := { s.boot with hdr := { s.boot.hdr with usedslot := slot }, release := i.release, secver := i.secver, tryOnly := none,
                                 image := flashGet s slot 0 512 },
           onyx := { s.onyx with phase := .replay, imem := core.take n, dmem := core.drop n } }

/-- IMAGE_READ_AND_SIGNATURE_CHECK: one attempt, on what the flash holds in the slot of the attempt, read without an error or not. The directory
decides nothing (R124). -/
def execImageReadAndSignatureCheck (readOk : Bool) (s : State) : Out :=
  .next (if !atStep 5 s then s
    else
      let k := s.boot.attempt
      let (slot, slow) := attemptSlot s k
      let img := { slotImage s slot with readOk := readOk }
      let c := imageCause s img
      if c ≠ 0 then imageNext (bootRec 5 kFail k c (slot + 256 * b2n slow) s)
      else
        let s := if s.boot.tryOnly.isNone ∧ 3 ≤ k then bootRec 5 kPolicy k 0 (slot + 256 * b2n slow) s else s
        stepDone 5 (wr hbVer img.release.toNat (imageTake slot img s)))

/-! ### S6 (R102, R114, R127) -/

/-- Retained training may be offered. -/
def trainOffered (s : State) : Bool :=
  let d := s.onyx.temp + 64 - (rd s entryTj : Int)
  s.boot.warm && s.boot.training && decide (d.natAbs ≤ 40) && !ueIn s wTrain (wRetain - wTrain)

/-- The speed at which training is made first. -/
def ddrSpeed (s : State) : Nat := if s.boot.hdr.ddrstate % 4 = 1 ∨ s.boot.cfg.ddrspeed = 1 then 1 else 0

/-- The method of an attempt: where retained training is not offered, the first is method 2. -/
def trainMethod (s : State) : Nat := s.boot.attempt + (if s.boot.training then 0 else 1)

/-- DETAIL of an S6 record with CAUSE 1 or 2. -/
def trainDetail (s : State) : Nat := let m := trainMethod s; m + 256 * (if m = 3 then 1 else ddrSpeed s)

/-- At the first attempt the retained training is kept in mind only where it may be offered. -/
def trainBegin (s : State) : State := if s.boot.attempt = 1 ∧ !trainOffered s then { s with boot := { s.boot with training := false } } else s

/-- A method has failed: the next, or a boot retry. -/
def trainNext (s : State) : State := if trainMethod s < 3 then stepStart 6 (s.boot.attempt + 1) s else bootRetry s

/-- PLL_MEM at its fallback setting (Table 3.2). -/
def pllMem (slow : Bool) (s : State) : State := if slow then wr (pllN 6) 64 (wr (pllFrac 6) 0 s) else s

/-- The extension part of the image in use, as it is in flash: its place and length are those of the header that S5 took. -/
def extPart (s : State) : List Byte := slotPart s s.boot.hdr.usedslot (512 + leAt s.boot.image 8 4) (leAt s.boot.image 16 4)

/-- Its digest is EXT_DIGEST. -/
def extMatches (s : State) : Bool := decide (Config.sha384 (extPart s) = BitVec.ofNat 384 (unBe ((s.boot.image.drop 0x50).take 48)))

/-- DDR_TRAINING: one method, and after a pass the extension part is read into DDR and checked; bytes that flash did not deliver as it holds them do not
match EXT_DIGEST. -/
def execDdrTraining (v : Verdict) (timeout extReadOk : Bool) (s : State) : Out :=
  .next (if !atStep 6 s || !bootPowered s 6 || !pllReady s 6 then s
    else
      let s := trainBegin s
      let k := s.boot.attempt
      let m := trainMethod s
      let sp := if m = 3 then 1 else ddrSpeed s
      let s := pllMem (sp == 1) s
      let bad := match v with | .pass => timeout | .fail _ _ => true
      if bad then trainNext (bootRec 6 kFail k (if timeout then 2 else 1) (trainDetail s) s)
      else
        let h := s.boot.hdr
        let h := if sp = 1 then { h with ddrstate := h.ddrstate / 4 * 4 + 1 } else h
        let s := wr ddrRet 0 { s with boot := { s.boot with hdr := h, training := true } }
        let s := if sp = 1 then degrade 0x1F6 0 s else s
        if extReadOk && extMatches s then stepDone 6 { s with boot := { s.boot with ext := extPart s, extOk := true } }
        else
          let u := s.boot.hdr.usedslot
          bootRetry (bootRec 6 kFail k 3 u { s with boot := { s.boot with hdr := { s.boot.hdr with nextslot := 1 - u } } }))

/-! ### S7 (R115) -/

/-- A test of S7: the macros that satisfy `p` are tested, what can be covered is soft-repaired at once, and the result is made. It answers whether they
serve (R459). -/
def bootTest (target index : Nat) (p : Nat → Bool) (cells : List FailCell) (again : List (BitVec 16)) (logicFail : Bool) (s : State) : Bool × State :=
  let (plan, unrep, failing) := repairPlan s p cells again
  let soft := s.agt.soft ++ plan
  let s := wr agtSoftmap soft.length { s with agt := { s.agt with soft := soft } }
  let s := bootResult target index 0x1B (outcomeOf plan unrep logicFail) 2 plan failing (cells.filter (fun c => p c.mac.toNat)) s
  (unrep.isEmpty && !logicFail, s)

/-- The macros of a core, and those of a cluster's shared memory (Table 17.1). -/
def coreMacro (n m : Nat) : Bool := decide (0x1000 + 16 * n ≤ m ∧ m < 0x1000 + 16 * n + 12)
def sharedMacro (g m : Nat) : Bool := decide (0x1400 + 32 * g ≤ m ∧ m < 0x1400 + 32 * g + 32)

/-- A core goes through its test of S7: one that fails is excluded. -/
def bootCore (mem : MarchFound) (logic : List Nat) (n : Nat) (s : State) : State :=
  let (good, s) := bootTest 1 n (coreMacro n) mem.cells mem.again (logic.contains n) s
  setCore n { core s n with st := if good then 2 else 7 } s

/-- These cores are in EXCL_CORES, and their absence makes the state DEGRADED (R115). -/
def bootExcl (l : List Nat) (s : State) : State :=
  l.foldl (fun s n =>
    degrade 0x1F7 n { s with boot := { s.boot with hdr := { s.boot.hdr with exclCores := s.boot.hdr.exclCores ||| (1#64 <<< n) } } }) s

/-- The state of one cluster after S7, and its record. One that is powered off goes off by the power controller (R85, R92); one whose power-good
is missing has been dealt with (R88). -/
def bootCluster (mem : MarchFound) (found : ClusterFound) (g : Nat) (s : State) : State :=
  let cores := fromN (12 * g) 12
  let retired (n : Nat) : Bool := s.boot.cfg.retired.getLsbD n
  let tested := cores.filter (fun n => !retired n)
  let s := tested.foldl (fun s n => bootCore mem found.logic n s) s
  let (good, s) := bootTest 2 (8 + g) (sharedMacro g) mem.cells mem.again false s
  let bad := tested.filter (fun n => (core s n).st == 7)
  let mask := bad.foldl (fun m n => m + 2 ^ (n - 12 * g)) 0
  let s := (cores.filter retired).foldl (fun s n => setCore n { core s n with st := 6 } s) s
  if !good ∨ found.loop.contains g ∨ bad.length = tested.length then
    let s := bootExcl cores (bootRec 7 kFail 1 2 (g * 2 ^ 24 + mask) s)
    domReq (8 + g) false (tested.foldl (fun s n => setCore n { core s n with st := 7 } s) s)
  else
    let s := if bad.isEmpty then s else bootRec 7 kFail 1 1 (g * 2 ^ 24 + mask) s
    bootExcl (bad ++ cores.filter retired) s

/-- GARNET_CLUSTER_TEST. A cluster that its missing power-good has left off has a record of its own, without failing cores (log 104); where no core
passes, every cluster has its record. The tracker's entries are done with (R464). -/
def execGarnetClusterTest (mem : MarchFound) (found : ClusterFound) (s : State) : Out :=
  .next (if !atStep 7 s || !bootPowered s 7 then s
    else
      let s := (fromN 0 4).foldl (fun s g =>
        if clusterOn s g then bootCluster mem found g s else bootRec 7 kFail 1 2 (g * 2 ^ 24) s) s
      let s := rowsKeep (fun _ => false) s
      if (fromN 0 48).any (fun n => (core s n).st == 2) then stepDone 7 s else bootRetry s)

/-! ### S8 and S9 (R109, R349) -/

/-- The ports the boot options name for S8; 0 means all. -/
def bootEth (s : State) : List Nat := (fromN 0 8).filter (fun p => s.boot.cfg.ethEn == 0 || s.boot.cfg.ethEn.getLsbD p)

/-- A port that S8 leaves out of service. -/
def ethLeft (p : Nat) (s : State) : State := degrade 0x50 p (wr (ethState p) 5 s)

/-- SERDES_BRING_UP. Without PD_NET no port comes up. -/
def execSerdesBringUp (failPorts : List Nat) (s : State) : Out :=
  .next (if !atStep 8 s || !bootPowered s 8 then s
    else
      stepDone 8 ((bootEth s).foldl (fun s p =>
        if failPorts.contains p || !domOn s 4 then ethLeft p (bootRec 8 kFail 1 1 p s) else wr (ethEn p) 1 s) s))

/-- PLC_FRONT_END_CALIBRATION: the delays are loaded; a port comes into service with its configuration at S10 or by command.
Without PD_PLC no port is calibrated. -/
def execPlcFrontEndCalibration (failPorts : List Nat) (rxdly txdly : BitVec 16) (s : State) : Out :=
  .next (if !atStep 9 s || !bootPowered s 9 then s
    else match bootPlc s with
      | [] => stepNext 9 (bootRec 9 kSkip 1 0 0 s)
      | l =>
        stepDone 9 (l.foldl (fun s n =>
          if failPorts.contains n || !domOn s 5 then degrade 0x51 n (bootRec 9 kFail 1 1 n s)
          else wr (plcRxdly n) rxdly.toNat (wr (plcTxdly n) txdly.toNat s)) s))

/-! ### S11 and S12 (R117, R121, R156) -/

/-- The rings are open under new host epochs, and S12 begins. -/
def hostOpen (s : State) : State :=
  wr hbEpochPcie (hostEpochNext (rd s hbEpochPcie)) (wr hbEpochMspi (hostEpochNext (rd s hbEpochMspi)) s)

/-- An enabled interface has a host. -/
def hostSeen (s : State) : Bool := (s.host.link.up && s.boot.cfg.hostif != 1) || (s.boot.mspiSeen && s.boot.cfg.hostif != 2)

/-- No host within the timeout: outcome NO_HOST, and the step passes. -/
def noHost (s : State) : State :=
  stepNext 11 (hostOpen (bootRec 11 kTimeout 1 1 0 { s with host := { s.host with absent := true } }))

/-- HOST_LINK. -/
def execHostLink (s : State) : Out :=
  .next (if !atStep 11 s then s
    else if hostSeen s then stepDone 11 (hostOpen s)
    else if due s s.boot.wdog then noHost s
    else s)

/-- S12 is reached: the start counts as complete, heartbeat periods and DEVBEAT begin, and commands that waited for it end (R121, R157, R179). -/
def readyNow (s : State) : State :=
  let h := s.boot.hdr
  let s := stepDone 12 { s with boot := { s.boot with hdr := { h with lastDone := h.bootno, incomplete := 0 } } }
  let hs : HostSt := { s.host with hbPrev := BitVec.ofNat 32 (rd s hbHeartbeat), hbPeriodEnd := now s + rd s hbPeriod * 1000, devbeatAt := now s + 100000 }
  let o := s.onyx
  let s := refresh { s with host := hs, onyx := { o with phase := .running, persistentDone := if o.persistent then some (now s) else none, persistent := false } }
  (s.host.cmds.filter (fun c => c.wait == .reset && c.fin.isNone)).foldl (fun s c => finish { c with replayed := true } stOk [] s) s

/-- READY. -/
def execBootReady (v : Verdict) (s : State) : Out :=
  .next (if !atStep 12 s || !onyxUp s then s
    else match v with
      | .pass => readyNow s
      | .fail _ _ => bootRetry (bootRec 12 kFail 1 0 0 s))

/-! ### The watchdog (R111, R112) -/

/-- BOOT_WATCHDOG_EXPIRY: a TIMEOUT record, and the step has failed. At S10 REPLAY_IDX stands as it is, and names the entry under replay
(R116). -/
def execBootWatchdogExpiry (s : State) : Out :=
  .next (if !s.boot.started ∨ !due s s.boot.wdog ∨ s.boot.resetReq.isSome ∨ s.pwr.safe then s
    else
      let n := s.boot.step
      let k := s.boot.attempt
      if n = 11 then noHost s
      else if n = 1 then bootSafe (recS1 kTimeout (warmHeader s))
      else if n = 2 then bootSafe (if s.boot.warm then recS2 kTimeout 0 0 s else bootRec 2 kTimeout 1 0 0 s)
      else if n = 5 then
        let (slot, slow) := attemptSlot s k
        imageNext (bootRec 5 kTimeout k 0 (slot + 256 * b2n slow) s)
      else if n = 6 then let s := trainBegin s; trainNext (bootRec 6 kTimeout k 2 (trainDetail s) s)
      else if n = 8 then stepNext 8 ((bootEth s).foldl (fun s p => ethLeft p s) (bootRec 8 kTimeout 1 0 0 s))
      else if n = 9 then stepNext 9 ((bootPlc s).foldl (fun s p => degrade 0x51 p s) (bootRec 9 kTimeout 1 0 0 s))
      else bootRetry (bootRec n kTimeout k 0 0 s))

end Sys2Proof.Machine
end

