-- ==== Sys2Proof/Machine/Flags.lean ====
section
/-! DEFINITION. The Garnet datapath: lane and accumulator arithmetic, the store path, and the flags each leaves (R241 to
R246). -/

namespace Sys2Proof.Machine

/-! ### Words and lanes (R5, R241) -/

def laneH (w : Word48) : Lane := w.extractLsb' 24 24

def laneL (w : Word48) : Lane := w.extractLsb' 0 24

def word (h l : Lane) : Word48 := h ++ l

/-- MODE fields (Table 9.7). -/
def modeSat (m : Word48) : Bool := m.getLsbD 0
def modeGtrap (m : Word48) : Bool := m.getLsbD 1
def modeFrac (m : Word48) : Bool := m.getLsbD 2
def modeSsh (m : Word48) : Int := (m.extractLsb' 3 5).toInt
def modeIe (m : Word48) : Bool := m.getLsbD 8
def modeImask (m : Word48) : BitVec 3 := m.extractLsb' 9 3
def modeUsr (m : Word48) : Bool := m.getLsbD 12

/-- A lane's result with the bits it leaves in STAT: zero, negative, SOV or GOV. -/
structure LaneRes (w : Nat) where
  v : BitVec w
  z : Bool
  n : Bool
  sov : Bool
  gov : Bool
  deriving DecidableEq, Repr

/-- A lane result with Z and N, and nothing else. -/
def laneOf {w : Nat} (v : BitVec w) : LaneRes w :=
  { v := v, z := decide (v = 0), n := v.msb, sov := false, gov := false }

/-- Clamp to the range of `w` bits in two's complement. -/
def satTo (w : Nat) (x : Int) : Int := if x < -(2 ^ (w - 1) : Nat) then -(2 ^ (w - 1) : Nat) else if (2 ^ (w - 1) : Nat) ≤ x then (2 ^ (w - 1) : Nat) - 1 else x

/-- Does `x` lie outside the range of `w` bits? -/
def outOf (w : Nat) (x : Int) : Bool := decide (satTo w x ≠ x)

/-- A register ALU result (R244): clamped under SAT, else wrapped. -/
def aluLane (sat : Bool) (x : Int) : LaneRes 24 :=
  if sat && outOf 24 x then { laneOf (BitVec.ofInt 24 (satTo 24 x)) with sov := true } else laneOf (BitVec.ofInt 24 x)

/-- An accumulator result (R242, R245): wrapped, GOV where the exact sum lies outside. -/
def accLane (x : Int) : LaneRes 56 := { laneOf (BitVec.ofInt 56 x) with gov := outOf 56 x }

/-- The product of two lanes (R242). -/
def product (frac : Bool) (x y : Lane) : Int := if frac then x.toInt * y.toInt * 2 else x.toInt * y.toInt

/-- The lanes of the two products under PAIR (Table 10.3): into lane H, into lane L. -/
def pairing (pair : BitVec 2) (x y : Word48) : (Lane × Lane) × (Lane × Lane) :=
  match pair.toNat with
  | 0 => ((laneH x, laneH y), (laneL x, laneL y))
  | 1 => ((laneH x, laneL y), (laneL x, laneH y))
  | 2 => ((laneH x, laneH y), (laneH x, laneL y))
  | _ => ((laneH x, laneH y), (laneL x, laneH y))

/-- One lane of MPY, MAC or MSU (OP 1, 2, 3). -/
def macLane (op : Nat) (acc : AccLane) (p : Int) : LaneRes 56 :=
  if op = 1 then accLane p else if op = 2 then accLane (acc.toInt + p) else accLane (acc.toInt - p)

/-- The shifted value of the store path (R243). -/
def storeShift (a : AccLane) (k : Int) : Int :=
  if 0 ≤ k then a.toInt * (2 ^ k.toNat : Nat) else a.toInt / (2 ^ (-k).toNat : Nat)

/-- The high form (R243). -/
def storeHigh (sat : Bool) (k : Int) (a : AccLane) : LaneRes 24 :=
  let r := storeShift a k / 16777216
  if sat && outOf 24 r then
    { laneOf (BitVec.ofInt 24 (if a.msb then -8388608 else 8388607)) with sov := true }
  else laneOf (BitVec.ofInt 24 r)

/-- The low form (R243). -/
def storeLow (k : Int) (a : AccLane) : LaneRes 24 := laneOf (BitVec.ofInt 24 (storeShift a k))

/-- Shift left by `k` when `k` is positive or zero, else arithmetically right: exact. -/
def shiftBy (x k : Int) : Int := if 0 ≤ k then x * (2 ^ k.toNat : Nat) else x / (2 ^ (-k).toNat : Nat)

/-- Bring a shift count into −`m` to `m`. -/
def clampI (m : Nat) (k : Int) : Int := max (-(m : Int)) (min (m : Int) k)

/-- Redundant sign bits: how many bits below the sign equal it, counted from the top (NRMA). -/
def redundant (a : AccLane) : Nat → Nat
  | 0 => 0
  | n + 1 => if a.getLsbD n = a.msb then 1 + redundant a n else 0

/-- STAT bits of a pair of lane results: Z and N in [3:0], GOV in [9:8], SOV in [11:10]. -/
def znBits {w : Nat} (h l : LaneRes w) : Nat := b2n h.z + 2 * b2n h.n + 4 * b2n l.z + 8 * b2n l.n
def govBits {w : Nat} (h l : LaneRes w) : Nat := b2n h.gov + 2 * b2n l.gov
def sovBits {w : Nat} (h l : LaneRes w) : Nat := b2n h.sov + 2 * b2n l.sov

/-- The test of Table 10.5 on STAT and on IPEND; none for a reserved code. -/
def condTest (cond : BitVec 4) (stat : Word48) (ipend : Bool) : Option Bool :=
  let zh := stat.getLsbD 0
  let nh := stat.getLsbD 1
  let zl := stat.getLsbD 2
  let nl := stat.getLsbD 3
  match cond.toNat with
  | 0 => some zh
  | 1 => some (!zh)
  | 2 => some nh
  | 3 => some (!nh)
  | 4 => some (!nh && !zh)
  | 5 => some (nh || zh)
  | 6 => some zl
  | 7 => some (!zl)
  | 8 => some nl
  | 9 => some (!nl)
  | 10 => some (!nl && !zl)
  | 11 => some (nl || zl)
  | 12 => some ipend
  | 13 => some (!ipend)
  | _ => none

end Sys2Proof.Machine
end

