-- ==== Sys2Proof/Machine/Operands.lean ====
section
/-! DEFINITION. Operands of Garnet instructions: registers at the distance their consumer sees them, the addressing modes,
the data space, and the parallel moves (R225, R229, R238, R255, R258 to R261). -/

namespace Sys2Proof.Machine

/-! ### What an instruction does -/

/-- Where execution goes. -/
inductive Ctl where
  | plain
  /-- A branch: where execution goes after its slot. -/
  | branch (after : BitVec 16)
  | startLoop (le : BitVec 16) (count : BitVec 24)
  | leave
  | rte
  | endJob
  deriving DecidableEq, Repr

/-- Everything an instruction that completes writes: registers by code, accumulator lanes, pointers modified by address
generation, DMEM words, core I/O locations, Z and N, GOV, SOV, and where execution goes. -/
structure GWrites where
  regs : List (Nat × Word48)
  acc : List (Nat × AccLane)
  post : List (Nat × Lane)
  mem : List (Nat × Word48)
  io : List (Nat × Word48)
  zn : Option Nat
  gov : Nat
  sov : Nat
  ctl : Ctl
  deriving DecidableEq, Repr

def noWrites : GWrites :=
  { regs := [], acc := [], post := [], mem := [], io := [], zn := none, gov := 0, sov := 0, ctl := .plain }

/-- How an instruction comes out: it completes, it raises an exception (Table 9.10), or it waits. -/
inductive GRes where
  | done (w : GWrites)
  | exc (code detail : Nat)
  | wait
  deriving DecidableEq, Repr

def excIllegal : GRes := .exc 1 0
def excPriv : GRes := .exc 2 0
def excIaddr : GRes := .exc 3 0
def excLoad : GRes := .exc 4 0
def excStore : GRes := .exc 4 1
def excLoop : GRes := .exc 8 0

/-- The writes of two parts of one instruction together. -/
def GWrites.and (a b : GWrites) : GWrites :=
  { regs := a.regs ++ b.regs, acc := a.acc ++ b.acc, post := a.post ++ b.post, mem := a.mem ++ b.mem, io := a.io ++ b.io,
    zn := a.zn.orElse (fun _ => b.zn), gov := a.gov ||| b.gov, sov := a.sov ||| b.sov,
    ctl := if a.ctl = .plain then b.ctl else a.ctl }

/-- One register written twice by one instruction (R259, rule 4). -/
def regTwice : List (Nat × Word48) → Bool
  | [] => false
  | (k, _) :: t => t.any (fun e => e.1 == k) || regTwice t

/-- Two parts of one instruction: the first exception stands, and writing one register twice is ILLEGAL. -/
def both (a b : GRes) : GRes :=
  match a, b with
  | .done x, .done y => if regTwice (x.regs ++ y.regs) then excIllegal else .done (x.and y)
  | .exc c d, .exc c' d' => if c' = 1 then .exc c' d' else .exc c d
  | .exc c d, _ => .exc c d
  | _, .exc c d => .exc c d
  | .wait, _ => .wait
  | _, .wait => .wait

/-! ### Registers as a consumer sees them (Tables 9.12 and 10.6; log 13) -/

/-- MODE in force: a write takes effect from the third instruction after it. -/
def modeNow (c : CoreSt) : Word48 := c.h2.get codeMODE

def userMode (c : CoreSt) : Bool := modeUsr (modeNow c)

/-- X or Y as an operand: distance 2. -/
def xy (c : CoreSt) (code : Nat) : Word48 := c.h1.get code

/-- An for an accumulation or as a source of an accumulator operation: distance 1. -/
def accNow (c : CoreSt) (k : Nat) : AccLane := c.cur.acc k

/-- An for a store, move or compare: distance 2. -/
def accOld (c : CoreSt) (k : Nat) : AccLane := c.h1.acc k

/-- Pn as address generation sees it. -/
def ptr (c : CoreSt) (n : Nat) : Lane := (tblGet c.hw (0x10 + n) 0).extractLsb' 0 24

/-- Nn, Mn and Bn for address generation: distance 3. -/
def offReg (c : CoreSt) (n : Nat) : Lane := (c.h2.get (0x18 + n)).extractLsb' 0 24
def modReg (c : CoreSt) (n : Nat) : Lane := (c.h2.get (0x20 + n)).extractLsb' 0 24
def baseReg (c : CoreSt) (n : Nat) : Lane := (c.h2.get (0x37 + n)).extractLsb' 0 24

/-- Width of a register (Table 9.3). -/
def regWidth (code : Nat) : Nat :=
  if code < 16 then 48 else if 0x28 ≤ code ∧ code ≤ 0x2D then 16 else if code = codeEPC then 16 else if code = codeLDEPTH then 2 else 24

/-- A loop register, of its width, as the loop hardware sees it. -/
def loopReg (c : CoreSt) (code : Nat) : Nat := (tblGet c.hw code 0).toNat % 2 ^ regWidth code

/-- Pending interrupts, STAT.IPEND: SPN, FRX, TMR (R272). -/
def spnPend (c : CoreSt) : Bool := tblAny (fun _ l => l.pend) c.lists

def ipend (c : CoreSt) : BitVec 3 :=
  BitVec.ofNat 3 (b2n (spnPend c) + 2 * b2n (!c.frx.isEmpty) + 4 * b2n c.tmr)

/-- A register as the source of a move or a store (R255): X and Y at distance 2, STAT at distance 2 with IPEND as it
stands, every other register as last written. -/
def regSrc (c : CoreSt) (code : Nat) : Word48 :=
  if code < 16 then xy c code
  else if code = codeSTAT then (c.h1.get codeSTAT &&& 0xFFF) ||| ((ipend c).zeroExtend 48 <<< 16)
  else c.cur.get code

/-- A value moved to a register of its width (R255). -/
def narrow (code : Nat) (v : Word48) : Word48 := BitVec.ofNat 48 (v.toNat % 2 ^ regWidth code)

/-- A move, or load, of a value to a register, with the check of R234. -/
def regDst (c : CoreSt) (code : Nat) (v : Word48) : GRes :=
  if code = 0x3F then excIllegal
  else
    let v := narrow code v
    if code = codeMODE ∧ userMode c ∧ (v ^^^ c.cur.get codeMODE) &&& 0x1F00 ≠ 0 then excPriv
    else .done { noWrites with regs := [(code, v)] }

/-! ### Addressing (R260, R261) -/

/-- Reverse the low `b` bits. -/
def revBits (b v : Nat) : Nat :=
  match b with
  | 0 => 0
  | n + 1 => v % 2 * 2 ^ n + revBits n (v / 2)

/-- A post-modify by `inc` under Mn and Bn (R261); none is ILLEGAL. -/
def stepPtr (p : Lane) (inc : Int) (m b : Lane) : Option Lane :=
  let mval := m.toNat % 4194304
  match m.toNat / 4194304 with
  | 0 => some (p + BitVec.ofInt 24 inc)
  | 1 =>
    if mval = 0 ∨ 131072 < mval then none
    else some (b + BitVec.ofInt 24 ((((p - b).toNat : Int) + inc) % (mval : Int)))
  | 2 =>
    let w := mval % 32
    if w = 0 ∨ 17 < w then none
    else
      let lo := revBits w (p.toNat % 2 ^ w) + revBits w (toU w inc)
      some (BitVec.ofNat 24 (p.toNat / 2 ^ w * 2 ^ w + revBits w (lo % 2 ^ w)))
  | _ => none

/-- Nn as a signed increment. -/
def incN (c : CoreSt) (n : Nat) : Int := (offReg c n).toInt

/-- The address of LD, ST, LDAW and STAW, with the pointer write it makes (R260). -/
def eaOf (c : CoreSt) (e : EA) : Option (Lane × List (Nat × Lane)) :=
  let n := e.pn.toNat
  let p := ptr c n
  match e.am.toNat with
  | 0 => some (p + e.disp, [])
  | 1 => if e.disp ≠ 0 then none else (stepPtr p 1 (modReg c n) (baseReg c n)).map (fun q => (p, [(n, q)]))
  | 2 => if e.disp ≠ 0 then none else (stepPtr p (incN c n) (modReg c n) (baseReg c n)).map (fun q => (p, [(n, q)]))
  | _ => if e.pn ≠ 0 then none else some (e.disp, [])

/-! ### The data space (R225, R229, Table 9.9) -/

/-- The DMEM word a load sees: stores of the last two instructions are not yet seen (R238). -/
def dmemRead (c : CoreSt) (a : Nat) : Word48 :=
  match (c.mlate.filter (fun l => l.code == a)).getLast? with
  | some l => l.val
  | none => tblGet c.dmem a 0

/-- May this core reach a DMEM address now? -/
def dmemOk (c : CoreSt) (a : Nat) : Bool :=
  decide (a < 0x20000) && (!userMode c || (match c.win with
    | some w => decide (w.dbase ≤ a ∧ a < w.dbase + w.dsize)
    | none => false))

/-- A core I/O location that Table 9.9 or 10.9 lists. -/
def ioListed (a : Nat) : Bool :=
  let o := a - 0xFF0000
  decide (0xFF0000 ≤ a) && (decide (o ≤ 3) || decide (8 ≤ o ∧ o ≤ 0xB) || (decide (0x40 ≤ o ∧ o < 0x80) && decide (o % 16 ≤ 3)))

/-- Clock divider of the cluster: the job limit in cycles (Table 9.13). -/
def jobLimit (s : State) (g : Nat) : Nat :=
  let p := rd s (pllP (2 + g))
  if p = 4 then 150000 else if p = 8 then 75000 else 300000

/-- SPN_STAT (Table 10.9). -/
def spnStat (l : SpList) : Nat :=
  b2n l.busy + 2 * b2n l.endB + 4 * b2n l.fault + 256 * l.done + 65536 * l.fidx + 1048576 * l.cause

/-- A load from a core I/O location: the value in lane L (R236); a WO location reads as zero (R9). -/
def ioLoad (s : State) (n : Nat) (a : Nat) : Word48 :=
  let c := core s n
  let o := a - 0xFF0000
  let v : Nat :=
    if o = 0 then n
    else if o = 1 then c.cycle.toNat
    else if o = 2 then jobLimit s (n / 12) - c.cycle.toNat
    else if o = 3 then c.tmrcmp.toNat
    else if o = 9 then b2n c.fsend.isSome
    else if o = 0xA then (match c.frx with | a :: _ => a.toNat | [] => 0xFFFFFF)
    else if 0x40 ≤ o ∧ o % 16 = 1 then (spList c ((o - 0x40) / 16)).start.toNat
    else if 0x40 ≤ o ∧ o % 16 = 2 then spnStat (spList c ((o - 0x40) / 16))
    else 0
  BitVec.ofNat 48 v

/-! ### Parallel moves (R258, R259) -/

/-- The post-modify of a parallel move. -/
def pmStep (c : CoreSt) (m : PMove) : Option Lane :=
  let n := m.pn.toNat
  stepPtr (ptr c n) (if m.inc = 0 then 1 else incN c n) (modReg c n) (baseReg c n)

/-- An accumulator as a store of both lanes in the high form. -/
def accHigh (c : CoreSt) (k : Nat) : LaneRes 24 × LaneRes 24 :=
  let m := modeNow c
  (storeHigh (modeSat m) (modeSsh m) (accOld c (2 * k)), storeHigh (modeSat m) (modeSsh m) (accOld c (2 * k + 1)))

/-- One parallel move. -/
def pmove (c : CoreSt) (m : PMove) : GRes :=
  let n := m.pn.toNat
  let a := (ptr c n).toNat
  match m.kind.toNat with
  | 0 => if m.r = 0 ∧ m.pn = 0 ∧ m.inc = 0 then .done noWrites else excIllegal
  | 1 => match pmStep c m with
    | none => excIllegal
    | some q => if dmemOk c a then .done { noWrites with regs := [(m.r.toNat, dmemRead c a)], post := [(n, q)] } else excLoad
  | 2 => match pmStep c m with
    | none => excIllegal
    | some q => if dmemOk c a then .done { noWrites with mem := [(a, xy c m.r.toNat)], post := [(n, q)] } else excStore
  | _ =>
    if 4 ≤ m.r.toNat then excIllegal
    else match pmStep c m with
      | none => excIllegal
      | some q =>
        let (h, l) := accHigh c m.r.toNat
        if dmemOk c a then .done { noWrites with mem := [(a, word h.v l.v)], post := [(n, q)], sov := sovBits h l } else excStore

/-- The two parallel moves of an instruction: two that name one pointer are ILLEGAL. -/
def pmoves (c : CoreSt) (m1 m2 : PMove) : GRes :=
  if m1.kind ≠ 0 ∧ m2.kind ≠ 0 ∧ m1.pn = m2.pn then excIllegal else both (pmove c m1) (pmove c m2)

/-- A main operation with its two parallel moves. -/
def withMoves (c : CoreSt) (m1 m2 : PMove) (r : GRes) : GRes := both r (pmoves c m1 m2)

/-- X or Y register `r` takes a pair of lanes, with their flags if the operation sets any. -/
def putXy (r : BitVec 4) (h l : LaneRes 24) (flags : Bool) : GRes :=
  .done { noWrites with regs := [(r.toNat, word h.v l.v)], zn := if flags then some (znBits h l) else none, sov := sovBits h l }

/-- Accumulator `d` takes a pair of lanes. -/
def putAcc (d : BitVec 2) (h l : LaneRes 56) (flags : Bool) : GRes :=
  .done { noWrites with acc := [(2 * d.toNat, h.v), (2 * d.toNat + 1, l.v)], zn := if flags then some (znBits h l) else none,
                        gov := govBits h l, sov := sovBits h l }

end Sys2Proof.Machine
end

