-- ==== Sys2Proof/Machine/Gcore.lean ====
section
/-! DEFINITION. Retirement of a Garnet instruction, hardware loops, exception and interrupt entry, and what each
exception leads to (R226, R229, R235 to R240, R246, R263 to R272, Table 9.10). -/

namespace Sys2Proof.Machine

/-! ### Writes -/

/-- A register write as the register takes it: W1C bits of STAT, read-only bits kept (Tables 9.6 to 9.8, R255). -/
def regPut (code : Nat) (v : Word48) (a : Arch) : Arch :=
  if code = codeSTAT then a.set code ((v &&& 0xF) ||| (a.get code &&& ~~~v &&& 0xF00))
  else if code = codeMODE then a.set code (v &&& 0x1FFF)
  else if code = codeESTAT then a.set code (v &&& 0xF)
  else if code = codeECAUSE then a.set code (v &&& 0xFF01FF)
  else a.set code (narrow code v)

/-- Registers whose consumers are address generation and the loop hardware, with the distance at which they see a write
(Table 9.12). -/
def lateDist (code : Nat) : Option Nat :=
  if 0x10 ≤ code ∧ code ≤ 0x17 then some 3 else if 0x28 ≤ code ∧ code ≤ 0x31 then some 4 else none

/-- A write by address generation or the loop hardware itself: seen by it at once; a write by an instruction that lands
later stands (R240; log 13). -/
def hwPut (code : Nat) (v : Word48) (c : CoreSt) : CoreSt :=
  let c := { c with hw := tblSet code v c.hw }
  if c.late.any (fun l => l.code == code) then c else { c with cur := c.cur.set code v }

/-- One instruction further: late writes that have come to their distance land. -/
def ageLate (c : CoreSt) : CoreSt :=
  let up := c.late.map (fun l => { l with age := l.age + 1 })
  let lands : Late → Bool := fun l => match lateDist l.code with | some d => decide (d ≤ l.age) | none => true
  { c with hw := (up.filter lands).foldl (fun h l => tblSet l.code l.val h) c.hw, late := up.filter (fun l => !lands l) }

/-- Every write completes, as at an entry or a return: all consumers see the registers as they are (R239). -/
def collapse (c : CoreSt) : CoreSt :=
  { c with h1 := c.cur, h2 := c.cur, h3 := c.cur, hw := c.cur.r, late := [], mlate := [], shadow := 0, slot := none }

/-- The registers, accumulators, pointers, flags and DMEM words an instruction writes. -/
def applyWrites (w : GWrites) (c : CoreSt) : CoreSt :=
  let old := c.cur
  let c := w.post.foldl (fun c e => hwPut (0x10 + e.1) (e.2.zeroExtend 48) c) c
  let a := w.regs.foldl (fun a e => regPut e.1 e.2 a) c.cur
  let a := w.acc.foldl (fun a e => a.setAcc e.1 e.2) a
  let st := (a.get codeSTAT).toNat
  let st := match w.zn with | some z => st / 16 * 16 + z | none => st
  let a := a.set codeSTAT (BitVec.ofNat 48 (st ||| (w.gov * 256) ||| (w.sov * 1024)))
  let late := w.regs.filterMap (fun e => if (lateDist e.1).isSome then some { age := 0, code := e.1, val := a.get e.1 } else none)
  let ml := (c.mlate.filter (fun l => l.age < 2)).map (fun l => { l with age := l.age + 1 })
  let nl : List Late := w.mem.map (fun e => { age := 1, code := e.1, val := tblGet c.dmem e.1 0 })
  let dm := w.mem.foldl (fun d e => cellPut 0 d e.1 e.2) c.dmem
  ageLate { c with cur := a, h1 := old, h2 := c.h1, h3 := c.h2, late := c.late ++ late, mlate := nl ++ ml, dmem := dm }

/-- The GWrites write MODE. -/
def writesMode (w : GWrites) : Bool := w.regs.any (fun e => e.1 == codeMODE)

/-! ### Hardware loops (R266 to R268) -/

/-- Is the instruction at `pc` the last one of the innermost loop? -/
def atLoopEnd (c : CoreSt) : Bool :=
  let d := loopReg c codeLDEPTH
  decide (0 < d ∧ d ≤ 3) && decide (loopReg c (0x2B + (d - 1)) = c.pc.toNat)

/-- The loop-back decision at the retirement of the instruction at LE: where execution goes. -/
def loopBack : Nat → CoreSt → CoreSt × BitVec 16
  | 0, c => (c, c.pc + 1)
  | n + 1, c =>
    let i := loopReg c codeLDEPTH - 1
    let lc := (loopReg c (0x2E + i) + 16777215) % 16777216
    let le := loopReg c (0x2B + i)
    let c := hwPut (0x2E + i) (BitVec.ofNat 48 lc) c
    if lc ≠ 0 then (c, BitVec.ofNat 16 (loopReg c (0x28 + i)))
    else
      let c := hwPut codeLDEPTH (BitVec.ofNat 48 i) c
      if 0 < i ∧ loopReg c (0x2B + (i - 1)) = le then loopBack n c else (c, BitVec.ofNat 16 (le + 1))

/-! ### Entry (R269, R270) -/

/-- Enter a handler: saved status, cause and return address, IE and USR cleared at once. `mode` is the MODE in force with
any pending write applied. -/
def enterHandler (c : CoreSt) (code detail : Nat) (async bds msh : Bool) (epc pc : BitVec 16) : CoreSt :=
  let m := c.cur.get codeMODE
  let est := b2n bds + 2 * b2n msh + 4 * b2n (modeIe m) + 8 * b2n (modeUsr m)
  let a := c.cur.set codeESTAT (BitVec.ofNat 48 est)
  let a := a.set codeECAUSE (BitVec.ofNat 48 (code + 256 * b2n async + 65536 * detail))
  let a := a.set codeEPC (epc.zeroExtend 48)
  let a := a.set codeMODE (m &&& ~~~(0x1100 : Word48))
  { collapse { c with cur := a } with pc := pc, inExc := true }

/-- ECAUSE of a code and its detail. -/
def ecauseOf (code detail : Nat) : BitVec 24 := BitVec.ofNat 24 (code + 65536 * detail)

/-- What Table 9.10 makes of an exception once its entry is made: a core fault, a quarantine, or nothing more. -/
def classResponse (n code detail : Nat) (user : Bool) (s : State) : State :=
  let c := core s n
  let cause := ecauseOf code detail
  if code = 5 ∨ code = 6 ∨ code = 0xD then coreFault n cause s
  else if code = 7 then
    match jobKernel c with
    | some kid => if user ∧ ((tblFind kid s.gar.kernels).map Kernel.govq = some true) then quarantine n kid cause s else s
    | none => s
  else
    match jobKernel c with
    | some kid => if user then quarantine n kid cause s else coreFault n cause s
    | none => coreFault n cause s

/-- A synchronous exception at the instruction at PC (R269), or a double exception (R235). -/
def raise (n code detail : Nat) (s : State) : State :=
  let c := core s n
  let m := c.cur.get codeMODE
  if c.inExc ∧ !modeIe m ∧ !modeUsr m then classResponse n 0xD code false s
  else
    let epc := match c.slot with | some (b, _) => b | none => c.pc
    let c' := enterHandler c code detail false c.slot.isSome (decide (0 < c.shadow)) epc 0x0010
    classResponse n code detail (modeUsr m) (setCore n { c' with cycle := BitVec.ofNat 24 (satAdd 24 c.cycle.toNat 1) } s)

/-- A GOV trap at the retirement of an instruction that completed: EPC is the instruction that would have come next
(R246). `msh` says that the instruction lay in a MODE shadow. -/
def govTrap (n detail : Nat) (msh : Bool) (s : State) : State :=
  let c := core s n
  let m := c.cur.get codeMODE
  if c.inExc ∧ !modeIe m ∧ !modeUsr m then classResponse n 0xD 7 false s
  else classResponse n 7 detail (modeUsr m) (setCore n (enterHandler c 7 detail false false msh c.pc 0x0010) s)

/-! ### Return (R271) -/

/-- RTE: MODE.IE and MODE.USR restored at once, execution at EPC. EPC and ESTAT are read at distance 4. -/
def rteCore (c : CoreSt) : CoreSt :=
  let est := c.h3.get codeESTAT
  let m' : Word48 := (c.cur.get codeMODE &&& ~~~(0x1100 : Word48)) ||| (if est.getLsbD 2 then 0x100 else 0) ||| (if est.getLsbD 3 then 0x1000 else 0)
  let epc : BitVec 16 := (c.h3.get codeEPC).extractLsb' 0 16
  let put (a : Arch) : Arch := a.set codeMODE m'
  let a := put c.cur
  { ageLate { c with cur := a, h1 := a, h2 := put c.h1, h3 := put c.h2 } with pc := epc, slot := none, shadow := 0, inExc := false }

/-! ### Core I/O stores (R236, R272, R276) -/

/-- The item at a DMEM address: three words of header, then the payload (R33). DESIGN CHOICE (log 99): R229, R236 and R283 name no check of
the place an item of FSEND stands at, so an item of a kernel that lies outside its DMEM window, or beyond DMEM, is sent with whatever DMEM
holds there, zero beyond it. -/
def itemAt (c : CoreSt) (n : Nat) (a : Nat) : Item :=
  let w (k : Nat) : Nat := (tblGet c.dmem (a + k) 0).toNat
  let v : BitVec 128 := BitVec.ofNat 128 ((w 0 * 281474976710656 + w 1) * 4294967296 + w 2 % 4294967296)
  let len : BitVec 16 := v.extractLsb' 59 16
  let bytes := (fromN 0 ((len.toNat + 5) / 6)).flatMap (fun k => le 6 (w (3 + k)))
  { wh := { wclass := v.extractLsb' 124 4, prio := v.extractLsb' 121 3, assured := v.getLsbD 120, dest := v.extractLsb' 112 8,
            src := BitVec.ofNat 8 (0x10 + n), chan := v.extractLsb' 91 13, seq := v.extractLsb' 75 16, len := len,
            lref := v.extractLsb' 45 14, rsvd := v.extractLsb' 43 2, settle := v.getLsbD 42, err := v.getLsbD 41,
            last := v.getLsbD 40, stamp := v.extractLsb' 0 40 },
    payload := bytes.take len.toNat }

/-- A user kernel may not send to this unit (R283). -/
def fsendBarred (d : BitVec 8) : Bool := decide (d.toNat ≤ 3 ∨ d = 0x68)

/-- What a store to a core I/O location would do: an exception, a wait, or nothing in the way. -/
def ioStoreRes (s : State) (n a : Nat) (v : Word48) : GRes :=
  let c := core s n
  let o := a - 0xFF0000
  if o = 8 then
    if c.fsend.isSome then .wait
    else if userMode c ∧ fsendBarred (itemAt c n (v.toNat % 16777216)).wh.dest then .exc 0xB 3
    else .done { noWrites with io := [(a, v)] }
  else if 0x40 ≤ o ∧ o % 16 = 0 ∧ (spList c ((o - 0x40) / 16)).busy then .exc 9 7
  else .done { noWrites with io := [(a, v)] }

/-- The effect of a store to a core I/O location (lane L is taken); `usr` is MODE.USR as it governs the store. -/
def ioStore (usr : Bool) (n a : Nat) (v : Word48) (s : State) : State :=
  let c := core s n
  let o := a - 0xFF0000
  let x : BitVec 24 := v.extractLsb' 0 24
  if o = 3 then setCore n { c with tmrcmp := x, tmr := false } s
  else if o = 8 then setCore n { c with fsend := some (itemAt c n x.toNat) } s
  else if o = 0xB then setCore n { c with frx := c.frx.drop 1 } s
  else if 0x40 ≤ o then
    let k := (o - 0x40) / 16
    let l := spList c k
    if o % 16 = 0 then
      let l' := { l with busy := true, addr := x, first := l.start.toNat, start := 0, usr := usr, valid := false, endB := false,
                         fault := false, done := 0, fidx := 0, cause := 0, pend := false, unrep := false }
      setCore n { c with lists := tblSet k l' c.lists, order := c.order ++ [k] } s
    else if o % 16 = 1 then setCore n { c with lists := tblSet k { l with start := v.extractLsb' 0 4 } c.lists } s
    else if o % 16 = 3 then
      setCore n { c with lists := tblSet k { l with endB := false, fault := false, done := 0, fidx := 0, cause := 0, pend := false,
                                                    unrep := false } c.lists } s
    else s
  else s

/-! ### Retirement -/

/-- May the instruction stand in a delay slot, and at a loop end (R264, R268)? -/
def slotOk (ctl : Ctl) : Bool := match ctl with | .plain => true | _ => false

/-- A fetch outside the kernel's IMEM window in user mode (R229). -/
def fetchOk (c : CoreSt) : Bool :=
  !userMode c || (match c.win with | some w => decide (w.ibase ≤ c.pc.toNat ∧ c.pc.toNat < w.ibase + w.isize) | none => false)

/-- One more cycle of the job, `k` of them (R236). -/
def addCycles (k : Nat) (c : CoreSt) : CoreSt := { c with cycle := BitVec.ofNat 24 (satAdd 24 c.cycle.toNat k) }

/-- The core after the writes `w` and one cycle on, before it goes anywhere. -/
def written (w : GWrites) (c : CoreSt) : CoreSt :=
  let d := addCycles 1 (applyWrites w c)
  { d with shadow := if writesMode w then 2 else d.shadow - 1 }

/-- The loop-back decision, and where it leads. -/
def loopStep (c : CoreSt) : CoreSt :=
  let r := loopBack 3 c
  { r.1 with pc := r.2 }

/-- Where an instruction that is no branch goes: from a delay slot to the branch's target, from a loop end to where the loop
says, else on. `old` is the core as the instruction found it. -/
def goOn (old c : CoreSt) : CoreSt :=
  match old.slot with
  | some (_, t) => { c with slot := none, pc := t }
  | none => if atLoopEnd old then loopStep c else { c with pc := old.pc + 1 }

/-- Where the instruction goes. -/
def goTo (ctl : Ctl) (old c : CoreSt) : CoreSt :=
  match ctl with
  | .branch t => { c with slot := some (old.pc, t), pc := old.pc + 1 }
  | .startLoop le cnt =>
    let d := loopReg old codeLDEPTH
    let c := hwPut (0x28 + d) ((old.pc + 1).zeroExtend 48) c
    let c := hwPut (0x2B + d) (le.zeroExtend 48) c
    let c := hwPut (0x2E + d) (cnt.zeroExtend 48) c
    { hwPut codeLDEPTH (BitVec.ofNat 48 (d + 1)) c with pc := old.pc + 1 }
  | .leave => { hwPut codeLDEPTH (BitVec.ofNat 48 (loopReg old codeLDEPTH - 1)) c with pc := old.pc + 1 }
  | .plain => goOn old c
  | .rte => goOn old c
  | .endJob => goOn old c

/-- The instruction at PC completes with these writes: registers, flags, memory, the loop-back decision, the next PC; and
a GOV trap where it calls for one. -/
def complete (n : Nat) (w : GWrites) (s : State) : State :=
  let c := core s n
  let t := w.io.foldl (fun s e => ioStore (userMode c) n e.1 e.2 s) (setCore n (goTo w.ctl c (written w c)) s)
  if modeGtrap (modeNow c) && decide (w.gov ≠ 0) then govTrap n w.gov (decide (0 < c.shadow)) t else t

/-- The exception an instruction raises for where it stands, before it does anything: a fetch outside the window, a place
in a delay slot, or at a loop end (R229, R264, R268). -/
def misplaced (c : CoreSt) (ctl : Ctl) : Option Nat :=
  if !fetchOk c then some 3
  else if c.slot.isSome && !slotOk ctl then some 1
  else if atLoopEnd c && (!slotOk ctl || c.slot.isSome) then some 8
  else none

/-- How an instruction of this kind comes out on the core as it stands. -/
def outcome (ctl : Ctl) (body : CoreSt → GRes) (c : CoreSt) : GRes :=
  match misplaced c ctl with
  | some code => .exc code 0
  | none => body c

/-- A Garnet instruction on core `n`: it acts while a job runs there. `ctl` is what kind of instruction it is; `body` says
how it comes out on the core as it stands. -/
def garnet (n : Nat) (ctl : Ctl) (body : CoreSt → GRes) (s : State) : State :=
  let c := core s n
  if c.job.isNone then s
  else match outcome ctl body c with
    | .exc code d => raise n code d s
    | .wait => setCore n (addCycles 1 c) s
    | .done w => complete n w s

/-! ### Interrupts (R272) -/

/-- The interrupt taken first: its code and detail. -/
def interruptCause (c : CoreSt) : Option (Nat × Nat) :=
  let e := (modeImask (c.cur.get codeMODE)).toNat
  let p := (ipend c).toNat
  if p % 2 = 1 ∧ e % 2 = 1 then
    some (0x10, ((fromN 0 4).find? (fun k => (spList c k).pend)).getD 0)
  else if p / 2 % 2 = 1 ∧ e / 2 % 2 = 1 then some (0x11, 0)
  else if p / 4 % 2 = 1 ∧ e / 4 % 2 = 1 then some (0x12, 0)
  else none

/-- INTERRUPT_ENTRY: at a boundary that is neither before a delay slot nor within a MODE shadow. -/
def execInterruptEntry (n : Fin 48) (s : State) : Out :=
  let c := core s n.val
  .next (if c.job.isSome && modeIe (c.cur.get codeMODE) && c.slot.isNone && c.shadow == 0 then
    match interruptCause c with
    | some (code, d) => setCore n.val (enterHandler c code d true false false c.pc 0x0020) s
    | none => s
  else s)

end Sys2Proof.Machine
end

