-- ==== Sys2Proof/Machine/GarnetSys.lean ====
section
/-! DEFINITION. Garnet system and branch instructions, loops, and the core I/O operations that are rows of their own
(Tables 10.4 to 10.6, R236, R257, R263 to R268, R271, R276, R279). -/

namespace Sys2Proof.Machine

/-! ### System (GRP 0) -/

/-- NOP. -/
def execNopG (c : Fin 48) (s : State) : Out := .next (garnet c.val .plain (fun _ => .done noWrites) s)

/-- The lists a wait waits for: none is BUSY, and a fault of CAUSE 1 to 4 not yet raised is raised (R279). -/
def spWait (ks : List Nat) (c : CoreSt) (k : GRes) : GRes :=
  if ks.any (fun n => (spList c n).busy) then .wait
  else match ks.find? (fun n => (spList c n).unrep) with
    | some n => .exc 9 (spList c n).cause
    | none => k

/-- A fault that a wait has raised is not raised again. -/
def spReported (n : Nat) (ks : List Nat) (s : State) : State :=
  let c := core s n
  match ks.find? (fun k => (spList c k).unrep) with
  | some k => setCore n { c with lists := tblSet k { spList c k with unrep := false } c.lists } s
  | none => s

/-- SPW and SPWA: wait for these lists. -/
def spwRow (n : Nat) (ks : List Nat) (s : State) : State :=
  let body : CoreSt → GRes := fun x => spWait ks x (.done noWrites)
  match (core s n).job, outcome .plain body (core s n) with
  | some _, .exc 9 _ => spReported n ks (garnet n .plain body s)
  | _, _ => garnet n .plain body s

/-- SPW. -/
def execSpw (c : Fin 48) (k : BitVec 2) (s : State) : Out := .next (spwRow c.val [k.toNat] s)

/-- SPWA. -/
def execSpwa (c : Fin 48) (s : State) : Out := .next (spwRow c.val [0, 1, 2, 3] s)

/-- SETTLE on an output voice frame whose job consumed something that carried it, and the PRIO its channel has just changed to (R30, R36). -/
def markOut (settle : Bool) (prio : Option (BitVec 8)) (i : Item) : Item :=
  if i.wh.wclass = 0 then
    { i with wh := { i.wh with settle := i.wh.settle || settle, prio := match prio with | some p => p.setWidth 3 | none => i.wh.prio } }
  else i

/-- The held items of core `n` whose jobs satisfy `p` are released, in FSEND order (R289, R305). -/
def releaseHeld (n : Nat) (p : Job → Bool) (settle : Bool) (prio : Option (BitVec 8)) (s : State) : State :=
  let c := core s n
  let out := (c.held.filter (fun e => p e.1)).map (fun e => (markOut settle prio e.2, kernelOf e.1))
  if out.isEmpty then s
  else setCore n { c with held := c.held.filter (fun e => !p e.1) }
    { s with fab := { s.fab with wait := s.fab.wait ++ out.map (·.1), kern := s.fab.kern ++ out } }

/-- Did the voice frame `seq` of a channel consume something that carried SETTLE (R30)? -/
def frameSettle (s : State) (ch : Nat) (seq : BitVec 16) : Bool :=
  match chan? s ch with | some c => c.frames.any (fun f => f.seq == seq && f.settle) | none => false

/-- The checkpoint of a frame is recorded (R305). -/
def setCkpt (ch : Nat) (seq : BitVec 16) (s : State) : State := modChan ch (fun c => { c with ckpt := some (seq, seq.getLsbD 0) }) s

/-- END: after the wait of SPWA the job ends (R248, R268); in the urgent lane its outputs leave at once (R289, R305). -/
def execEndJob (c : Fin 48) (s : State) : Out :=
  let n := c.val
  let body : CoreSt → GRes := fun x => spWait [0, 1, 2, 3] x (.done noWrites)
  .next (match (core s n).job, outcome .endJob body (core s n) with
    | some j, .done _ => jobOver n 0 (if j.urgent && !j.aborted then releaseHeld n (heldOf j.chan j.seq) (frameSettle s j.chan j.seq) none (setCkpt j.chan j.seq s) else s)
    | some _, .exc 9 _ => spReported n [0, 1, 2, 3] (garnet n .endJob body s)
    | _, _ => garnet n .endJob body s)

/-- BREAK. -/
def execBrk (c : Fin 48) (imm : BitVec 8) (s : State) : Out :=
  .next (garnet c.val .plain (fun _ => .exc 0xA imm.toNat) s)

/-- LEAVE (R267). -/
def execLeave (c : Fin 48) (s : State) : Out :=
  .next (garnet c.val .leave (fun x => if loopReg x codeLDEPTH = 0 then excLoop else .done { noWrites with ctl := .leave }) s)

/-- RTE (R271): two cycles, and no instruction completes between it and EPC; PRIV in user mode. -/
def execRte (c : Fin 48) (s : State) : Out :=
  let n := c.val
  let body : CoreSt → GRes := fun x => if userMode x then excPriv else .done noWrites
  .next (match (core s n).job, outcome .rte body (core s n) with
    | some _, .done _ => setCore n (addCycles 2 (rteCore (core s n))) s
    | _, _ => garnet n .rte body s)

/-! ### Branches (GRP 8) -/

/-- Where execution goes after the slot of a branch: the target, or the address after the slot. -/
def after (x : CoreSt) (taken : Bool) (t : BitVec 16) : Ctl := .branch (if taken then t else x.pc + 2)

/-- BRA. -/
def execBra (c : Fin 48) (target : BitVec 16) (s : State) : Out :=
  .next (garnet c.val (.branch 0) (fun x => .done { noWrites with ctl := after x true target }) s)

/-- Bcc: the flags at distance 4, IPEND as it stands (Table 10.5). -/
def execBcc (c : Fin 48) (cond : BitVec 4) (target : BitVec 16) (s : State) : Out :=
  .next (garnet c.val (.branch 0) (fun x =>
    match condTest cond (x.h3.get codeSTAT) (decide (ipend x ≠ 0)) with
    | some t => .done { noWrites with ctl := after x t target }
    | none => excIllegal) s)

/-- BRL: Pn takes the address after the slot. -/
def execBrl (c : Fin 48) (pn : BitVec 3) (target : BitVec 16) (s : State) : Out :=
  .next (garnet c.val (.branch 0) (fun x =>
    .done { noWrites with regs := [(0x10 + pn.toNat, (x.pc + 2).zeroExtend 48)], ctl := after x true target }) s)

/-- JMP: to Pn[15:0], read at distance 4; IADDR where Pn[23:16] is not zero (R263). -/
def execJmp (c : Fin 48) (pn : BitVec 3) (s : State) : Out :=
  .next (garnet c.val (.branch 0) (fun x =>
    let p := (x.h3.get (0x10 + pn.toNat)).toNat
    if p / 65536 ≠ 0 then excIaddr else .done { noWrites with ctl := after x true (BitVec.ofNat 16 p) }) s)

/-! ### Loops (GRP 9) -/

/-- DO and DOI (R266). -/
def doRes (x : CoreSt) (count : BitVec 24) (le : BitVec 16) : GRes :=
  if count = 0 ∨ 3 ≤ loopReg x codeLDEPTH ∨ le.toNat < x.pc.toNat + 1 then excLoop
  else .done { noWrites with ctl := .startLoop le count }

def execDoLoop (c : Fin 48) (reg : BitVec 6) (le : BitVec 16) (s : State) : Out :=
  .next (garnet c.val (.startLoop 0 0) (fun x =>
    if reg = 0x3F then excIllegal else doRes x ((x.h3.get reg.toNat).extractLsb' 0 24) le) s)

def execDoiLoop (c : Fin 48) (count : BitVec 24) (le : BitVec 16) (s : State) : Out :=
  .next (garnet c.val (.startLoop 0 0) (fun x => doRes x count le) s)

/-! ### Core I/O as operations of their own (R236, R272, R276) -/

/-- A store of a value to a core I/O location by the job that runs: the instruction at PC. -/
def ioRow (n a : Nat) (v : BitVec 24) (s : State) : State :=
  garnet n .plain (fun _ => ioStoreRes s n a (v.zeroExtend 48)) s

def execFsend (c : Fin 48) (addr : BitVec 24) (s : State) : Out := .next (ioRow c.val 0xFF0008 addr s)

def execFrxpop (c : Fin 48) (s : State) : Out := .next (ioRow c.val 0xFF000B 0 s)

def execTmrcmpWrite (c : Fin 48) (value : BitVec 24) (s : State) : Out := .next (ioRow c.val 0xFF0003 value s)

def execSpnGo (c : Fin 48) (list : Fin 4) (addr : BitVec 24) (s : State) : Out :=
  .next (ioRow c.val (0xFF0040 + 16 * list.val) addr s)

def execSpnAck (c : Fin 48) (list : Fin 4) (s : State) : Out := .next (ioRow c.val (0xFF0043 + 16 * list.val) 0 s)

/-- TMR_COMPARE: CYCLE reaches TMRCMP, which is not 0. -/
def execTmrCompare (c : Fin 48) (s : State) : Out :=
  let k := core s c.val
  .next (if k.job.isSome && k.tmrcmp != 0 && k.cycle == k.tmrcmp then setCore c.val { k with tmr := true } s else s)

/-- FSEND_TAKEN: the port takes the item, which waits there for the frame's commit (R305). -/
def execFsendTaken (c : Fin 48) (s : State) : Out :=
  let k := core s c.val
  .next (match k.fsend, k.job with
    | some i, some j => setCore c.val { k with fsend := none, held := k.held ++ [(j, i)] } s
    | _, _ => s)

end Sys2Proof.Machine
end

