-- ==== Sys2Proof/Machine/Jitter.lean ====
section
/-! DEFINITION. The jitter buffer of a channel: what a received frame does to it, and the pull at the start of an RX job (R200, R296,
R297). -/

namespace Sys2Proof.Machine

/-! ### Statistics (Table 11.5) -/

def putStat (off v : Nat) (c : Chan) : Chan := { c with stats := tblSet off v c.stats }

def getStat (off : Nat) (c : Chan) : Nat := tblGet c.stats off 0

/-- JB_DEPTH_MIN and JB_DEPTH_MAX follow the depth. -/
def depthStat (c : Chan) : Chan :=
  let d := c.jb.depth / 125000
  let lo := match tblFind 76 c.stats with | some m => min m d | none => d
  putStat 76 lo (putStat 78 (max d (getStat 78 c)) c)

/-! ### Time -/

/-- PTIME, ns. -/
def ptimeNs (c : Chan) : Nat := c.p.ptime.toNat * 2500000

/-- A duration, ns, rounded up to whole TICKs. -/
def nsUp (n : Nat) : Nat := (n + 2499999) / 2500000 * 2500000

/-- A timestamp on the RTB line: `base` is the time of the timestamp `ts0`. -/
def rtpTime (clock : Nat) (ts0 : BitVec 32) (base : Nat) (ts : BitVec 32) : Nat :=
  ((base : Int) + ((ts - ts0).toInt * 1000000000) / (clock : Int)).toNat

/-! ### Placing (R296) -/

/-- Insertion into ascending order. -/
def insInt (x : Int) : List Int → List Int
  | [] => [x]
  | y :: t => if x ≤ y then x :: y :: t else y :: insInt x t

/-- The target of the adaptive mode from the last relative delays. -/
def jbTarget (p : ChParams) (delays : List Int) : Nat :=
  let srt := delays.foldl (fun a x => insInt x a) []
  let n := srt.length
  let p97 := srt.getD ((97 * n + 99) / 100 - 1) 0
  let spread := (p97 - srt.headD 0).toNat
  clamp (tickUp p.jbMin.toNat) (tickUp p.jbMax.toNat) (nsUp spread + 2500000)

/-- The buffer's mode; the answer-tone bypass fixes it (R294). -/
def jbModeOf (c : Chan) : Nat := if c.bypass then 0 else c.p.jbMode.toNat

/-- JITTER, the estimator of RFC 3550, kept in ns beside the reported µs. -/
def jitterStat (d : Int) (c : Chan) : Chan :=
  match c.jb.delays.getLast? with
  | none => c
  | some o =>
    let j := getStat 200 c
    let j' := ((j : Int) + (((d - o).natAbs : Int) - (j : Int)) / 16).toNat
    putStat 200 j' (putStat 68 (j' / 1000) c)

/-- A frame received for a channel: SEQ, timestamp, SSRC, marker, stamp, SETTLE, ERR, and whether it carries speech; `t` is RTB. -/
def jbPlace (c : Chan) (t : Nat) (seq : BitVec 16) (ts ssrc : BitVec 32) (clock : Nat) (marker : Bool) (stamp : BitVec 64)
    (settle err active : Bool) : Chan :=
  let j := c.jb
  let fresh := marker || (match j.map with | some (_, _, x) => x != ssrc | none => true)
  let (ts0, base) := match fresh, j.map with
    | false, some (a, b, _) => (a, b)
    | _, _ => (ts, stamp.toNat)
  let mapped := rtpTime clock ts0 base ts
  let d : Int := (stamp.toNat : Int) - (mapped : Int)
  let c := jitterStat d c
  let delays := lastN 128 (j.delays ++ [d])
  let m := jbModeOf c
  let target := if m = 1 then jbTarget c.p delays else if m = 2 then 0 else if c.bypass then j.depth else tickUp c.p.jbMin.toNat
  let c := { c with jb := { j with map := some (ts, mapped, ssrc), start := if fresh then mapped else j.start, delays := delays, target := target } }
  let room := (c.p.jbMax.toNat * 2 + 5 * c.p.ptime.toNat - 1) / (5 * c.p.ptime.toNat) + 2
  if j.frames.any (fun f => f.seq == seq) then chanBump 56 c
  else if room ≤ j.frames.length ∨ (m ≠ 2 ∧ t + c.p.jbMax.toNat * 1000000 < mapped + j.depth) then chanBump 64 c
  else
    let f : JbFrame := { seq := seq, mapped := mapped, arrived := t, stamp := stamp, settle := settle, err := err, active := active }
    let over' := j.frames.any (fun x => later16 x.seq seq) && decide (t < mapped + j.depth)
    let newest := match j.newest with | some n => if later16 seq n then some seq else some n | none => some seq
    let c := { c with jb := { c.jb with frames := j.frames ++ [f], newest := newest } }
    depthStat (chanBump 4 (if over' then chanBump 60 c else c))

/-! ### The pull at the start of an RX job -/

/-- A frame is missing: the reason known for a frame lost on its way, PLC_LOSS where a powerline leg brings the channel's frames, or NET_LATE; it
is concealed (R200, R298, R375). -/
def jbMissing (c : Chan) : Chan :=
  match c.lostIn with
  | [] => chanBump 88 (chanLoss (if c.leg then 6 else 1) c)
  | r :: t =>
    let lo := t.foldl min r
    chanBump 88 (chanLoss lo { c with lostIn := c.lostIn.erase lo })

/-- The held frame whose play-out comes first. -/
def jbFirst (l : List JbFrame) : Option JbFrame :=
  l.foldl (fun a f => match a with | none => some f | some g => if f.mapped < g.mapped then some f else a) none

/-- Shrinking: one frame, an inactive one before another, goes when the depth has stood above the target by more than PTIME for 500 ms. -/
def jbShrink (t : Nat) (c : Chan) : Chan :=
  let j := c.jb
  let p := ptimeNs c
  if j.depth ≤ j.target + p then { c with jb := { j with deepSince := none } }
  else match j.deepSince with
    | none => { c with jb := { j with deepSince := some t } }
    | some s0 =>
      match (j.frames.find? (fun f => !f.active)).orElse (fun _ => jbFirst j.frames) with
      | some f =>
        if s0 + 500000000 ≤ t ∧ j.shrunkAt + 200000000 ≤ t then
          depthStat (chanBump 84 { c with jb := { j with frames := j.frames.erase f, depth := j.depth - p, shrunkAt := t } })
        else c
      | none => c

/-- What the RX job of the frame whose gather starts at RTB `t` takes: the frame due, or a concealment. -/
def jbPull (t : Nat) (c : Chan) : Chan × Option JbFrame :=
  let m := jbModeOf c
  if c.jb.map.isNone then (c, none)
  else if m = 2 then
    match c.jb.frames with
    | f :: r => ({ c with jb := { c.jb with frames := r } }, some f)
    | [] => (jbMissing c, none)
  else
    let p := ptimeNs c
    let c := if m = 1 then jbShrink t c else c
    let late := c.jb.frames.filter (fun f => decide (f.mapped + c.jb.depth + p ≤ t))
    let c : Chan := { c with stats := tblSet 52 (satAdd 32 (getStat 52 c) late.length) c.stats,
                             jb := { c.jb with frames := c.jb.frames.filter (fun f => !late.contains f) } }
    let j : Jb := c.jb
    let first := jbFirst j.frames
    let quiet : Bool := match first with | some f => !f.active | none => false
    if m = 1 ∧ j.depth < j.target ∧ (quiet ∨ j.grewAt + 100000000 ≤ t) then
      (depthStat (chanBump 80 (chanBump 88 { c with jb := { j with depth := j.depth + p, grewAt := t } })), none)
    else match first with
      | some f =>
        if f.mapped + j.depth ≤ t then ({ c with jb := { j with frames := j.frames.erase f } }, some f)
        else if t < j.start + j.depth then (c, none)
        else (jbMissing c, none)
      | none => if t < j.start + j.depth then (c, none) else (jbMissing c, none)

/-- The pull of channel `ch`, if it has network input: the channel after it, and whether what it consumed carried SETTLE. -/
def rxPull (ch : Nat) (c : Chan) (s : State) : Chan × Bool :=
  if !hasNetIn s ch then (c, false)
  else
    let (c, f) := jbPull (rtbNs s).toNat c
    (c, match f with | some x => x.settle | none => false)

end Sys2Proof.Machine
end

