-- ==== Sys2Proof/Machine/Dispatcher.lean ====
section
/-! DEFINITION. The frame dispatcher: the TICK, the master frame, the schedule (R20, R71, R250, R287 to R291, R300, R305, R306, R493). -/

namespace Sys2Proof.Machine

/-- The dispatcher's logic is alive: PD_CTRL is on and the start has ended. -/
def dispAlive (s : State) : Bool := domOn s 1 && booted s && decide (s.pwr.hib = .awake)

def setSched (v : SchedSt) (s : State) : State := { s with voice := { s.voice with sched := v } }

/-! ### Jobs (R287 to R289) -/

/-- A channel whose IN or OUT is a slot or a TDM entry misses its frames while PD_SSC is off by a fault, or without CK_AUD (Table 18.2). -/
def sscLoss (s : State) (c : Chan) : Nat :=
  let uses (b : BitVec 32) : Bool := b.toNat / 0x10000000 == 1 || b.toNat / 0x10000000 == 2
  if (uses c.inB || uses c.outB) && (clockOut s 6 || s.onyx.degraded.contains (0x40, 6)) then 8 else 0

/-- The jobs of the present job TICK of a channel go to its core, after the pull of its RX job. -/
def startFrame (ch : Nat) (c : Chan) (urgent : Bool) (s : State) : State :=
  let (c, settle) := rxPull ch c s
  let s := beginFrame ch { c with settleIn := false } (frameJobs s ch c urgent) urgent (sscLoss s c) s
  modFrame ch c.seq (fun f => { f with settle := settle || c.settleIn }) s

/-- The channel's jobs are still to be issued in this TICK. -/
def dueNow (s : State) (c : Chan) : Bool :=
  (c.st == 2 || c.st == 3) && jobTick s c && !(c.frames.any (fun f => f.tick == s.voice.sched.tick)) && decide ((core s c.core).st ≤ 1)

/-- URGENT_LANE_ISSUE: the jobs of a PASSTHRU channel go ahead of every job not yet begun (R289). -/
def execUrgentLaneIssue (n : Fin 48) (chan : BitVec 13) (s : State) : Out :=
  .next (match chan? s chan.toNat with
    | some c =>
      if s.voice.sched.running && c.core == n.val && isPassthru c.p && dueNow s c then startFrame chan.toNat c true s else s
    | none => s)

/-- A STALLED channel, or one that SAFE has stopped, misses a frame in its job TICK: it is counted, and a packet consumer has its no-data
frame (R200). -/
def missFrame (ch : Nat) (c : Chan) (s : State) : State :=
  if !jobTick s c then s
  else if c.st = 4 then
    noData ch c c.seq (rtbNs s).toNat (setChan ch (chanLoss (if c.stall = 0 then 7 else c.stall) { c with seq := c.seq + 1 }) s)
  else if s.pwr.safe ∧ isRunning c then modChan ch (fun c => chanLoss 11 { c with seq := c.seq + 1 }) (loseFrames 11 ch s)
  else s

/-- The mix of a group runs on a core that the spec does not name (free, log 2). -/
def issueMix (g : Nat) (v : Group) (s : State) : State :=
  if v.members.isEmpty then s
  else match choose (allCores.filter (fun n => decide ((core s n).st = 0 ∨ (core s n).st = 2) && clusterOn s (clusterOf n))) s with
    | none => s
    | some n =>
      let j : Job := { chan := g, kind := .mix, seq := BitVec.ofNat 16 s.voice.sched.tick, urgent := false, entered := 0, aborted := false }
      let s := tookFree s
      let x := core s n
      jobNext n (setCore n { x with queue := x.queue ++ [j] } s)

/-- The jobs of the TICK that begins: PRIO 0 first, then the rest in channel order; PASSTHRU channels come by the urgent lane. -/
def issueAll (s : State) : State :=
  let go (p : Chan → Bool) (s : State) : State := s.voice.chans.foldl (fun s e => match chan? s e.1 with
    | some c => if p c && !isPassthru c.p && dueNow s c then startFrame e.1 c false s else s
    | none => s) s
  let s := go (fun c => c.p.prio != 0) (go (fun c => c.p.prio == 0) s)
  s.voice.groups.foldl (fun s e => issueMix e.1 e.2 s) s

/-! ### What the audio decides (R293, R294)

The spec gives the outcome of echo cancelling and tone detection as a function of the audio, which the model does not hold: the outcome is
free within Table 11.3 and Table 11.4 (log 2). -/

/-- The states that may follow a state of the echo canceller (Table 11.3). -/
def ecNext (ec : Nat) : List Nat := if ec = 0 then [0] else if ec = 4 then [4, 1] else [1, 2, 3, 4]

def ecRun (ch : Nat) (s : State) : State :=
  match chan? s ch with
  | none => s
  | some c =>
    if c.ec = 0 then s
    else
      let e := (choose (ecNext c.ec) s).getD c.ec
      let s := tookFree s
      let v := (freeBits 16 s).toInt
      tookFree (setChan ch { c with ec := e, erle := v } s)

/-- A tone code that detection may give for a channel. -/
def toneCodeOk (s : State) (k : Nat) : Bool :=
  if k < 0x80 then (match tblFind (k / 16) s.voice.toneSets with
    | some d => decide (k % 16 < leAt d 0 1 ∧ leAt d (4 + 24 * (k % 16) + 6) 1 % 2 = 1)
    | none => false)
  else decide (k < 0x90 ∨ (0xF0 ≤ k ∧ k ≤ 0xF3))

/-- A tone is detected on a channel (R294, R300). -/
def toneDetected (ch k : Nat) (s : State) : State :=
  let byp : Chan → Chan := fun c =>
    if c.p.flags.getLsbD 5 && (k == 0xF0 || k == 0xF1) then { c with bypass := true, ec := 0 } else c
  ruleEvent 1 ch k (notify 10 ch k (modChan ch (fun c => byp (chanBump 112 c)) s))

def toneRun (ch : Nat) (s : State) : State :=
  match chan? s ch with
  | none => s
  | some c =>
    if !(c.p.flags.getLsbD 2 || c.p.flags.getLsbD 3) then s
    else
      let k := (freeBits 9 s).toNat
      let s := tookFree s
      if k < 256 ∧ toneCodeOk s k then toneDetected ch k s else s

/-! ### Frame commit (R287, R298, R305) -/

/-- One frame whose jobs have ended: committed, or lost for the reason found. `prio` is the PRIO that its channel has just changed to. -/
def commitFrame (ch : Nat) (f : VFrame) (prio : Option (BitVec 8)) (s : State) : State :=
  match chan? s ch with
  | none => s
  | some c =>
    let c := { c with frames := c.frames.filter (fun x => x.seq != f.seq), st := if c.st = 3 then 2 else c.st }
    if f.loss ≠ 0 then
      let x := core s c.core
      let s := setCore c.core { x with held := x.held.filter (fun e => !heldOf ch f.seq e.1) } s
      noData ch c f.seq f.stamp.toNat (setChan ch (chanLoss f.loss c) s)
    else
      -- after a warm reset, the frames from its start to this one are missing (R200)
      let gap := match c.gapAt with | some t => (now s - t - 1) / (c.p.ptime.toNat * 2500) | none => 0
      let c := { c with stats := tblSet 40 (satAdd 32 (getStat 40 c) gap) c.stats, gapAt := none }
      let c := chanBump 0 c
      let c := if f.tick + 1 < s.voice.sched.tick then chanBump 120 c else c
      let sett := f.settle || (core s c.core).held.any (fun e => heldOf ch f.seq e.1 && e.2.wh.settle)
      let c := if sett then chanBump 116 c else c
      toneRun ch (ecRun ch (releaseHeld c.core (heldOf ch f.seq) sett prio (setCkpt ch f.seq (setChan ch c s))))

/-- A tone that has run its time ends (R295). -/
def toneEnd (s : State) (c : Chan) : Chan :=
  match c.tone with
  | some t => (match t.until' with | some u => if u ≤ (rtbNs s).toNat then { c with tone := none } else c | none => c)
  | none => c

/-- A channel moves to another core at its frame boundary (R188, R492, R493). -/
def moveChan (ch : Nat) (s : State) : State :=
  match chan? s ch with
  | some c =>
    match c.moveTo with
    | some k =>
      if !c.frames.isEmpty then s
      else
        let s := setChan ch { c with core := k, moveTo := none } s
        let hold : Claim → Claim := fun x =>
          if x.obj = ch ∧ 0x10 ≤ x.holder ∧ x.holder ≤ 0x3F ∧ (x.cls = 1 ∨ x.cls = 7 ∨ x.cls = 9) then { x with holder := 0x10 + k } else x
        coreBusy k (coreBusy c.core { s with claims := s.claims.map hold })
    | none => s
  | none => s

/-- A command waits for this frame boundary of the channel. -/
def waitsHere (ch : Nat) (c : Cmd) : Bool := c.wait == .frame ch && c.fin.isNone

/-- The command would change the PRIO of the channel. -/
def changesPrio (ch : Nat) (s : State) (c : Cmd) : Bool :=
  match chan? s ch, chan? (applyVoice c.instr c.emerg c.early s) ch with
  | some a, some b => a.p.prio != b.p.prio
  | _, _ => false

/-- Before the frame is committed: the DEST of the channel's flows, and a change of its PRIO, where nothing sent before is still under way
(R36, R300). -/
def boundaryFirst (ch : Nat) (s : State) : State :=
  if !flowDrained s ch then s
  else
    let s := boundaryFlows ch s
    let s := ((s.host.cmds.filter (waitsHere ch)).takeWhile (changesPrio ch s)).foldl (fun s c => takeEffect c s) s
    let mine := s.voice.sched.joins.filter (fun j => j.2.1 == ch && j.2.2 == 2)
    let s := setSched { s.voice.sched with joins := s.voice.sched.joins.filter (fun j => !mine.contains j) } s
    mine.foldl (fun s j => joinGroup j.1 ch 3 0 true s) s

/-- After the frame is committed: what else waits for the channel's frame boundary takes effect, in order of acceptance up to a change of
PRIO that still waits (R181, R295). -/
def frameBoundary (ch : Nat) (s : State) : State :=
  let s := ((s.host.cmds.filter (waitsHere ch)).takeWhile (fun c => !changesPrio ch s c)).foldl (fun s c => takeEffect c s) s
  moveChan ch (modChan ch (toneEnd s) s)

/-- The end of a TICK for one channel: at its frame boundary what waits takes effect, and its finished frames are committed. A frame leaves
under the PRIO then in force (R36). -/
def chanTick (ch : Nat) (s : State) : State :=
  match chan? s ch with
  | none => s
  | some c =>
    if c.st ≠ 2 ∧ c.st ≠ 3 then s
    else
      let done := c.frames.filter (fun f => f.left == 0)
      let jobEnd : Bool := decide ((s.voice.sched.tick + 15 - c.phase) % c.p.ptime.toNat = 0)
      let boundary := !done.isEmpty || (jobEnd && c.frames.all (fun f => f.left == 0))
      let s := if boundary then boundaryFirst ch s else s
      let prio : Option (BitVec 8) := match chan? s ch with | some x => if x.p.prio = c.p.prio then none else some x.p.prio | none => none
      let s := done.foldl (fun s f => commitFrame ch f prio s) s
      if boundary then frameBoundary ch s else s

/-! ### Migration (R22, R306) -/

/-- The channel goes on at the spare: every frame not committed is run again from its first job. -/
def toSpare (sp ch : Nat) (s : State) : State :=
  match chan? s ch with
  | none => s
  | some c =>
    let redo := c.frames.filter (fun f => f.loss == 0)
    let js (f : VFrame) : List Job := frameJobs s ch { c with seq := f.seq } (isPassthru c.p)
    let n := (frameJobs s ch c false).length
    let c := { c with st := 3, core := sp, moveTo := none, frames := c.frames.map (fun f => { f with left := if f.loss = 0 then n else 0 }) }
    let s := setChan ch (putStat 110 (satAdd 16 (getStat 110 c) 1) c) s
    let x := core s sp
    setCore sp { x with queue := x.queue ++ redo.flatMap js } s

/-- A core faulted since the last TICK gives its channels to the first free spare of its cluster; without one they are STALLED. -/
def migrate (n : Nat) (s : State) : State :=
  let chans := chansOn s n
  let mixes := (core s n).redo.filter (fun j => j.kind == .mix)
  let s0 := setCore n { core s n with migrate := false, redo := [] } s
  if chans.isEmpty ∧ mixes.isEmpty then s0
  else match freeSpare s (clusterOf n) with
    | some sp =>
      let s := chans.foldl (fun s ch => toSpare sp ch s) s0
      let x := core s sp
      let s := jobNext sp (setCore sp { x with queue := x.queue ++ mixes, st := 0 } s)
      let hold : Claim → Claim := fun c =>
        if chans.contains c.obj ∧ c.holder = 0x10 + n ∧ (c.cls = 1 ∨ c.cls = 7 ∨ c.cls = 9) then { c with holder := 0x10 + sp } else c
      capredUpd (clusterOf n) { s with claims := s.claims.map hold }
    | none =>
      let s := chans.foldl (fun s ch => modChan ch (fun c => { c with st := 4, stall := 7, moveTo := none }) (loseFrames 7 ch s)) s0
      if chans.isEmpty then s else degrade 0x12 n (journal 0x12 (0x10 + n) 8 n chans.length [] s)

def migrateAll (s : State) : State :=
  s.gar.cores.foldl (fun s e => if (core s e.1).migrate then migrate e.1 s else s) s

/-! ### The TICK (R71, R219, R287) -/

/-- RTB_TICKOFS of a boundary: modulo 2.5 ms, folded. -/
def tickOfs (b : BitVec 64) : Int := let m := b.toNat % 2500000; if 1250000 < m then (m : Int) - 2500000 else m

/-- The TICK that runs lasts this long: with REALIGN, up to 2.5 µs less or more. -/
def tickLen (s : State) : Nat :=
  if flag s rtbRealign then (2500000 - max (-2500) (min 2500 (tickOfs s.time.tickRtb))).toNat else 2500000

/-- The boundary's own instant; a boundary much too late begins the grid anew. -/
def tickAt (s : State) : BitVec 64 :=
  let b := s.time.tickRtb + BitVec.ofNat 64 (tickLen s)
  if 2500000 < (rtbNs s - b).toNat then rtbNs s else b

/-- The dispatcher renews the leases of the cores that work, and of their Spinel lists. -/
def coresRenew (s : State) : State :=
  (fromN 0 64).foldl (fun s l =>
    let v := lease s l
    let o := v.owner.toNat
    if (v.state = 1 ∨ v.state = 2) ∧ 0x10 ≤ o ∧ o ≤ 0x3F ∧ (core s (o - 0x10)).st ≤ 2 then
      setLease l { v with state := 1, deadline := BitVec.ofNat 44 (now s + v.duration.toNat) } s
    else s) s

/-- TICK_BOUNDARY: commits, migrations, moves and changes at frame boundaries; then the jobs, and Opal's and the TDM ports' blocks, of the
TICK that begins. -/
def execTickBoundary (s : State) : Out :=
  .next (if !dispAlive s ∨ (rtbNs s - s.time.tickRtb).toNat < tickLen s then s
    else
      let b := tickAt s
      let s := setSched { s.voice.sched with tick := s.voice.sched.tick + 1 } { s with time := { s.time with tickRtb := b } }
      let s := wr rtbTickofs (toU 32 (tickOfs b)) s
      let s := topazRenew (jasperRenew (coresRenew s))
      let s := s.voice.chans.foldl (fun s e => chanTick e.1 s) s
      let s := coreDue false (migrateAll s)
      let s := s.voice.chans.foldl (fun s e => match chan? s e.1 with | some c => missFrame e.1 c s | none => s) s
      let s := if s.voice.sched.running && !s.pwr.safe then issueAll s else s
      if s.pwr.safe then s else tdmTick (opalTick s))

/-! ### The schedule (R250, R290, R493) -/

/-- Cores that an accepted command or a move counts on. -/
def promised (s : State) : List Nat :=
  s.voice.sched.moves.map (·.2) ++ s.voice.chans.filterMap (fun e => e.2.moveTo) ++
    (s.host.cmds.filter (fun c => unapplied c && c.opcode == 0x0202)).flatMap (fun c => c.early.take 1)

/-- The spare of a cluster in the schedule being built, and the moves that would free a core to be one (R306, R489). Which core, where
several may be, is free (log 2). -/
def pickSpare (g : Nat) (s : State) : List Nat × State :=
  let mine := s.voice.sched.spares.filter (fun n => decide (clusterOf n = g ∧ (core s n).st = 1) && (chansOn s n).isEmpty)
  if !mine.isEmpty then (mine.take 1, s)
  else
    let ok : Nat → Bool := fun n => (core s n).st == 2 && (chansOn s n).isEmpty && !(promised s).contains n
    match choose ((fromN (12 * g) 12).filter ok) s with
    | some n => ([n], tookFree s)
    | none =>
      let moving := s.voice.sched.moves.any (fun m => clusterOf m.2 == g) || tblAny (fun _ c => match c.moveTo with | some k => clusterOf k == g | none => false) s.voice.chans
      if moving then ([], s)
      else
        let can : Nat → Bool := fun n => (core s n).st == 0 && !(promised s).contains n && (planMoves (chansOn s n) (siblings n) 8192 s).2.1.isEmpty
        match choose ((fromN (12 * g) 12).filter can) s with
        | some n =>
          let (mv, _, fr) := planMoves (chansOn s n) (siblings n) 8192 (tookFree s)
          ([], stageMoves mv fr s)
        | none => ([], s)

/-- The spare list of every powered cluster. -/
def pickSpares (s : State) : List Nat × State :=
  (fromN 0 4).foldl (fun r g =>
    if clusterOn r.2 g && !r.2.voice.sched.noRoom.contains g then
      let (l, s) := pickSpare g r.2
      (r.1 ++ l, s)
    else r) ([], s)

/-- Onyx may commit a schedule: none waits for its boundary, and Onyx runs. -/
def mayCommit (s : State) : Bool := dispAlive s && onyxUp s && !minimal s && !s.pwr.safe && s.voice.sched.next.isNone

/-- SCHEDULE_COMMIT: every accepted command that waits for it is placed, in acceptance order; cores return to service; moves go to their
channels' frame boundaries. It takes effect at the next master-frame boundary. -/
def execScheduleCommit (s : State) : Out :=
  .next (if !mayCommit s then s
    else
      let (sp, s) := pickSpares (coreDue true s)
      let sc := s.voice.sched
      let placed := (s.host.cmds.filter (fun c => unapplied c && c.wait == .commit)).map (fun c => (c.queue, c.seq))
      let s := sc.moves.foldl (fun s m => modChan m.1 (fun c => { c with moveTo := some m.2 }) s) s
      let joins := sc.joins.map (fun j => if j.2.2 = 0 then (j.1, j.2.1, 1) else j)
      let s := setSched { s.voice.sched with next := some sp, placed := placed, moves := [], joins := joins } s
      let l := lease s 0
      if l.state = 0 then leaseGrant 0 0 1 0 25000 s
      else setLease 0 { l with state := 1, deadline := BitVec.ofNat 44 (now s + l.duration.toNat) } s)

/-- A placed command: its channel's frame boundary comes, or it takes effect now (R181). -/
def placeCmd (q : Nat) (seq : BitVec 16) (s : State) : State :=
  match cmdAt s q seq with
  | some c =>
    if c.fin.isSome ∨ c.wait ≠ .commit then s
    else match boundaryChan c.instr s with
      | some ch => if hasFrames s ch then setCmd { c with wait := .frame ch } s else takeEffect c s
      | none => takeEffect c s
  | none => s

/-- STALLED channels take any core with room (R493). -/
def reassign (s : State) : State :=
  let s := s.voice.chans.foldl (fun s e => match chan? s e.1 with
    | some c =>
      if c.st ≠ 4 then s
      else match choose (placesOf s c allCores e.1) s with
        | some (n, φ) => coreBusy n (setChan e.1 { c with st := 2, core := n, phase := φ, stall := 0 } (tookFree s))
        | none => s
    | none => s) s
  if tblAny (fun _ c => c.st == 4) s.voice.chans then s
  else (s.onyx.degraded.filter (fun d => d.1 == 0x12)).foldl (fun s d => undegrade d.1 d.2 s) s

/-- The spares of the schedule in force are SPARE, and those no longer listed STANDBY (R490). -/
def spareStates (sp : List Nat) (s : State) : State :=
  allCores.foldl (fun s n =>
    let x := core s n
    if x.st = 2 ∧ sp.contains n ∧ (chansOn s n).isEmpty then setCore n { x with st := 1 } s
    else if x.st = 1 ∧ !sp.contains n then coreBusy n (setCore n { x with st := 2 } s)
    else s) s

/-- An Onyx restart is complete with the first schedule after replay (R21, R479, Table 18.6). -/
def restartDone (s : State) : State :=
  if s.onyx.phase = .replay ∧ booted s then
    let d := now s - s.onyx.faultAt
    notify 6 d 0 (journal 0x10C 0 8 d s.onyx.image [] (refresh { s with onyx := { s.onyx with phase := .running } }))
  else s

/-! ### Clock rates (R54, R252, R505) -/

/-- Every job placed on cluster `g` still meets R250 with its clock slowed by `sc`. -/
def rateFits (s : State) (g sc : Nat) : Bool :=
  let v := proj s
  (fromN (12 * g) 12).all (fun n => (fromN 0 16).all (fun j => decide (tickCycles v n j 8192 * sc ≤ 2700000)) &&
    (onCore v n).all (fun e => e.2.binds.all (fun b => match tblFind b.2 s.gar.kernels with | some k => decide (k.wcet * sc ≤ 300000) | none => true)))

/-- Thermal level 2 lowers each cluster's clock as far as R252 permits; below it the clock is nominal. -/
def clockRates (s : State) : State :=
  (fromN 0 4).foldl (fun s g =>
    if !clusterOn s g then s
    else wr (pllP (2 + g)) (if s.onyx.thermal < 2 then 2 else if rateFits s g 4 then 8 else if rateFits s g 2 then 4 else 2) s) s

/-! ### The master frame (R20, R290) -/

/-- The schedule committed takes effect. -/
def applySchedule (sp : List Nat) (s : State) : State :=
  let sc := s.voice.sched
  let s := setSched { sc with next := none, placed := [], spares := sp, frozen := 0, committed := true, running := true } s
  let s := sc.placed.foldl (fun s e => placeCmd e.1 e.2 s) s
  let now' := s.voice.sched.joins.filter (fun j => j.2.2 == 1 && !hasFrames s j.2.1)
  let rest := (s.voice.sched.joins.filter (fun j => !now'.contains j)).map (fun j => if j.2.2 = 1 then (j.1, j.2.1, 2) else j)
  let s := now'.foldl (fun s j => joinGroup j.1 j.2.1 3 0 true s) (setSched { s.voice.sched with joins := rest } s)
  let s := spareStates sp (reassign s)
  restartDone ((fromN 0 4).foldl (fun s g => capredUpd g s) s)

/-- MASTER_FRAME_BOUNDARY: every fourth TICK boundary. -/
def execMasterFrameBoundary (s : State) : Out :=
  .next (if !dispAlive s ∨ s.voice.sched.tick / 4 < s.voice.sched.mf then s
    else
      let s := setSched { s.voice.sched with mf := s.voice.sched.tick / 4 + 1 } s
      if s.pwr.safe then s
      else
        let s := match s.voice.sched.next with
          | some sp => applySchedule sp s
          | none => if s.voice.sched.running then setSched { s.voice.sched with frozen := s.voice.sched.frozen + 1 } s else s
        if onyxUp s then clockRates (mfSwitches s) else s)

end Sys2Proof.Machine
end

