-- ==== Sys2Proof/Machine/Deliver.lean ====
section
/-! DEFINITION. Delivery of items: the destination port's checks, and what each unit takes (R26, R33, R39, R42, R43, R296, R301, R397, R423). -/

namespace Sys2Proof.Machine

/-! ### Recorder copies (R301, R302) -/

/-- A frame record. -/
def frameRecord (dir : Nat) (seq : BitVec 16) (err settle : Bool) (payload : List Byte) : List Byte :=
  let n := payload.length
  le 2 seq.toNat ++ le 2 n ++ le 1 (b2n err + 2 * b2n (n == 0) + 4 * b2n settle) ++ le 1 dir ++ [0, 0] ++ padTo ((n + 3) / 4 * 4) payload

/-- A record for a recorder's open segment; past a full one it waits for the next, or is not recorded. -/
def recTake (b : List Byte) (s : State) (r : Recorder) : Recorder :=
  if r.stopping then r
  else if r.spill.isEmpty && decide (64 + r.bytes + b.length ≤ r.buflen) then
    { r with body := r.body ++ b, bytes := r.bytes + b.length, nframes := r.nframes + 1 }
  else if r.closed.length < 4 ∧ admitted 1 1 s then { r with spill := r.spill ++ [b] }
  else { r with drops := r.drops + 1 }

/-- Every recorder of a channel copies a frame. -/
def recFrame (ch dir : Nat) (seq : BitVec 16) (err settle : Bool) (payload : List Byte) (s : State) : State :=
  s.voice.recs.foldl (fun s e => if e.2.chan = ch then setRec e.1 (recTake (frameRecord dir seq err settle payload) s e.2) s else s) s

/-! ### To a core -/

/-- Length of an RTP header: contributing sources and an extension. -/
def rtpLen (b : List Byte) : Nat :=
  let b0 := (b.getD 0 0).toNat
  let n := 12 + 4 * (b0 % 16)
  if b0 / 16 % 2 = 1 then n + 4 + 4 * unBe ((b.drop (n + 2)).take 2) else n

/-- A frame for the jitter buffer of a channel. Whether it carries speech is the codec's to say and free (log 2). -/
def toJitter (ch : Nat) (seq : BitVec 16) (ts ssrc : BitVec 32) (clock : Nat) (marker : Bool) (w : WH) (payload : List Byte) (s : State) : State :=
  match chan? s ch with
  | none => s
  | some c =>
    if c.st < 2 then s
    else
      let active := freeBits 1 s == 1
      let c := jbPlace c (rtbNs s).toNat seq ts ssrc clock marker (fullStamp s w.stamp) w.settle w.err active
      recFrame ch 0 seq w.err w.settle payload (tookFree (setChan ch c s))

/-- The timestamp of a frame that carries none: its SEQ, in frames, run on from the last one mapped. -/
def seqTs (c : Chan) (seq : BitVec 16) : BitVec 32 :=
  match c.jb.map with
  | some (t, _, _) => t + (seq - t.extractLsb' 0 16).signExtend 32
  | none => seq.zeroExtend 32

/-- A packet of a channel: by its RTP header, or by the SEQ of its tag where its flow carries no RTP. -/
def packetFrame (i : Item) (fl : Option Nat) (s : State) : State :=
  let ch := i.wh.chan.toNat
  let f? := match fl.bind (flow? s) with
    | some f => some f
    | none => (tblFirst (fun _ f => f.chan == ch && fVoice f) s.net.flows).map (·.2)
  match f?, chan? s ch with
  | some f, some c =>
    let b := i.payload
    if fRtp f then
      toJitter ch (BitVec.ofNat 16 (unBe ((b.drop 2).take 2))) (BitVec.ofNat 32 (unBe ((b.drop 4).take 4))) (BitVec.ofNat 32 (unBe ((b.drop 8).take 4)))
        (rtpClock c.p.codec.toNat) ((b.getD 1 0).getLsbD 7) i.wh (b.drop (rtpLen b)) s
    else toJitter ch i.wh.seq (seqTs c i.wh.seq) 0 (400 / max 1 c.p.ptime.toNat) false i.wh b s
  | _, _ => s

/-- The sub-frames of a powerline bundle, in SEQ order (R397). -/
def bundleFrames (i : Item) (s : State) : State :=
  let ch := i.wh.chan.toNat
  (fromN 0 (i.payload.getD 0 0).toNat).foldl (fun s k =>
    match chan? s ch with
    | some c =>
      let seq := i.wh.seq + BitVec.ofNat 16 k
      toJitter ch seq (seqTs c seq) 0 (400 / max 1 c.p.ptime.toNat) false i.wh ((i.payload.drop (2 + 14 * k)).take 14) s
    | none => s) s

/-- The port of a core writes an item into DMEM, outside the kernel windows, at an address that the spec does not name (free, log 2). -/
def coreItem (n : Nat) (i : Item) (s : State) : State :=
  let w := itemWords i (Config.freeNat s.free)
  let s := tookFree s
  let a := (freeBits 24 s).toNat % (65536 - w.length)
  let s := tookFree s
  let c := core s n
  setCore n { c with dmem := cellsPut 0 c.dmem a w, frx := c.frx ++ [BitVec.ofNat 24 a] } s

/-- A core that takes no items: it has failed, or its cluster is off (R84, Edges of Chapter 2). -/
def coreGone (s : State) (n : Nat) : Bool := decide ((core s n).st = 3) || !clusterOn s (clusterOf n)

/-- An item for a core: one that is gone takes nothing, and the core its channel now runs on takes its place. A sample block or a voice
frame that carries SETTLE marks the next frame of its channel (R30). -/
def toCore (n : Nat) (i : Item) (fl : Option Nat) (s : State) : State :=
  let n := if coreGone s n then (match chan? s i.wh.chan.toNat with | some c => if c.st = 2 ∨ c.st = 3 then c.core else n | none => n) else n
  let s := if coreGone s n then s else coreItem n i s
  let s := if i.wh.settle ∧ (i.wh.wclass = 0 ∨ i.wh.wclass = 2) then modChan i.wh.chan.toNat (fun c => { c with settleIn := true }) s else s
  if i.wh.wclass = 1 then packetFrame i fl s else if i.wh.wclass = 6 then bundleFrames i s else s

/-! ### To the other units -/

/-- 24-bit samples, little-endian. -/
def samples24 : Nat → List Byte → List Int
  | 0, _ => []
  | n + 1, b => sx 24 (unLe (b.take 3)) :: samples24 n (b.drop 3)

/-- The loopback input of Opal: the slot is the item's CHAN (R409). -/
def loopItem (i : Item) (s : State) : State :=
  let k := i.wh.chan.toNat
  if 64 ≤ k then s
  else
    let o := slot s k
    let t0 := (fullStamp s i.wh.stamp).toNat
    let x := (samples24 (i.payload.length / 3) i.payload).zipIdx.map (fun e => (e.1, t0 + e.2 * 62500 / 3))
    if flag s (sscEn k) ∧ rd s (sscSrc k) = 28 then setSlot k { o with loop := o.loop ++ x } s else s

/-- The work of a rejected item whose ledger entry is live is issued again (R45): an assured message goes out again on its flow. -/
def reissue (lref : Nat) (s : State) : State :=
  if !s.ledger.live.contains lref then s
  else match flowOfRef s lref with
    | some fl => pump fl (unsend fl lref s)
    | none => s

/-- What Onyx does with an item: a threshold event of Opal (R300, R419), the event of a rejection (R44, R45), and an assured message that
the packet engine emitted, whose STAMP and FLAGS are kept for its acceptance (R35, R49). Other events have had their effect. -/
def onyxItem (i : Item) (fl : Option Nat) (s : State) : State :=
  let b (k n : Nat) : Nat := leAt i.payload k n
  if i.wh.wclass = 7 then
    if i.wh.src = 0x58 then ruleFire 2 (b 0 1) 0 (notify 8 (b 0 1) (b 1 1) s)
    else if b 0 1 = 1 ∧ b 1 2 / 256 = 1 then reissue (b 3 4) s
    else s
  else if i.wh.wclass = 4 ∧ i.wh.src = 0x48 then
    match fl with
    | some n => modFlow n (fun f => { f with offers := lastN 16 (f.offers ++
        [{ seq := i.wh.seq, stamp := i.wh.stamp, settle := i.wh.settle, err := i.wh.err, last := i.wh.last }]) }) s
    | none => s
  else s

/-- A voice frame of a channel for its network side: the recorder's copy, then the flow's path, the powerline where the flow has fallen
over (R301, R398, R401). -/
def voiceOut (i : Item) (s : State) : State :=
  let ch := i.wh.chan.toNat
  let s := recFrame ch 1 i.wh.seq i.wh.err i.wh.settle i.payload s
  match (flowOfChan s ch).bind (fun n => (flow? s n).map (fun f => (n, f))) with
  | some (n, f) => (match f.fallen with
    | some p => plcVoice p n ch f (now s) i.wh.seq i.wh.settle i.wh.err s
    | none => packetItem i s)
  | none => packetItem i s

/-- An item for a PLC port: an assured message, or a unit of voice or data (R35, R398, R399). -/
def plcItem (p : Nat) (i : Item) (s : State) : State :=
  let ch := i.wh.chan.toNat
  if i.wh.wclass = 4 then
    match flowOfRef s i.wh.lref.toNat with
    | some fl => (match flow? s fl with | some f => plcMsg p fl f i.wh.seq i.wh.settle i.wh.err i.payload s | none => s)
    | none => s
  else match (flowOfChan s ch).bind (fun n => (flow? s n).map (fun f => (n, f))) with
    | some (n, f) =>
      if fVoice f then plcVoice p n ch f (now s) i.wh.seq i.wh.settle i.wh.err s
      else plcPut p { ft := 6, flow := some n, voice := none, at' := now s, final := none, prio := i.wh.prio.toNat, assured := false,
                      lchan := f.linkchan, seq := i.wh.seq, segidx := 0, last := i.wh.last, body := i.payload, settle := i.wh.settle, err := i.wh.err, tries := 0,
                      wait := drawWait s p } (tookFree s)
    | none => s

/-- What the unit does with an item that its port has passed. -/
def unitTakes (i : Item) (fl : Option Nat) (s : State) : State :=
  let d := i.wh.dest.toNat
  if d = 0x00 then onyxItem i fl s
  else if 0x10 ≤ d ∧ d ≤ 0x3F then toCore (d - 0x10) i fl s
  else if 0x40 ≤ d ∧ d ≤ 0x47 then portItem (d - 0x40) i s
  else if d = 0x48 then (if i.wh.wclass = 0 then voiceOut i s else packetItem i s)
  else if 0x50 ≤ d ∧ d ≤ 0x53 then plcItem (d - 0x50) i s
  else if d = 0x58 then loopItem i s
  else if d = 0x59 then (if i.wh.wclass = 0 then tdmFrame i s else s)
  else s

/-- The source whose turn it is at a destination port on a lane: of those with an item under way, the next after the one last served, in
the order of their numbers (R39; log 95). -/
def turnOf (s : State) (p lane : Nat) : Option Nat :=
  let has : Nat → Bool := fun u => s.fab.flight.any (fun i => portKey i.wh.dest.toNat == p && i.wh.prio.toNat == lane && i.wh.src.toNat == u)
  let l := (fromN 0 256).filter has
  match tblFind (p * 8 + lane) s.fab.served with
  | some k => (l.find? (fun u => decide (k < u))).orElse (fun _ => l.head?)
  | none => l.head?

/-- The destination port serves this source on this lane now: no lower-numbered lane has an item for it, and it is the source's turn (R37,
R39). -/
def portServes (s : State) (dest src lane : Nat) : Bool :=
  let p := portKey dest
  !(s.fab.flight.any (fun i => portKey i.wh.dest.toNat == p && decide (i.wh.prio.toNat < lane))) && turnOf s p lane == some src

/-- The item leaves the fabric: its source has had its turn, and its sender's record goes with it unless it is rejected. -/
def takeItem (i : Item) (s : State) : State :=
  { s with fab := { s.fab with flight := removeFirst i s.fab.flight,
                               served := tblSet (portKey i.wh.dest.toNat * 8 + i.wh.prio.toNat) i.wh.src.toNat s.fab.served } }

/-- ITEM_DELIVERED: the oldest item under way from this source to this destination on this lane, when its port serves it (R37, R39). Onyx
takes none while it restarts (R42). A destination whose domain has gone takes none. -/
def execItemDelivered (dest src : BitVec 8) (lane : BitVec 3) (s : State) : Out :=
  let mine : Item → Bool := fun i => i.wh.dest == dest && i.wh.src == src && i.wh.prio == lane
  .next (if (dest = 0 ∧ !onyxUp s) ∨ !portServes s dest.toNat src.toNat lane.toNat then s
    else match s.fab.flight.find? mine with
      | none => s
      | some i =>
        let rx := s.net.rx.find? (fun r => r.item == i)
        let s1 := takeItem i s
        match destCause s i with
        | some c => reject dest.toNat c i s1
        | none =>
          let s2 := unitTakes i (rx.bind (·.flow)) (forgetSender i s1)
          match rx with
          | some r =>
            let s2 := if (s2.net.rx.contains r) then { s2 with net := { s2.net with rx := removeFirst r s2.net.rx } } else s2
            pauseTxUpd r.port s2
          | none => s2)

end Sys2Proof.Machine
end

