-- ==== Sys2Proof/Machine/Device.lean ====
section
/-! DEFINITION. The device commands that reset the part, write flash or fuses, or commit the configuration (R123, R126 to R132, R178, R179,
R561). -/

namespace Sys2Proof.Machine

/-- A device command of ledger class C. -/
def devInfo (op tmo : Nat) (oo : Bool) : OpInfo := { opcode := op, idem := if oo then .oo else .ck, lcls := .c, timeout := some tmo, setup := false }

/-! ### DEV_RESET and TIME_SET with a warm reset -/

/-- WARMCAUSE of a reset by command: 4 out of SAFE or minimal mode (Table 5.5). -/
def resetCause (s : State) : Nat := if s.pwr.safe ∨ minimal s then 4 else 1

/-- In minimal mode the boot ROM answers before the reset, without a ledger entry (R174); otherwise FINAL follows S12 (R179). -/
def specDevReset (kind : BitVec 8) : Spec where
  info := devInfo 0x0102 1000000 true
  par := if kind = 1 then none else some (badParam 0)
  st := fun s =>
    if s.pwr.safe ∧ s.pwr.safeStuck then some (rej stBadState)
    else if s.pwr.safe ∧ tooHot s then some (busy 10000000) else none
  objs := [.device]
  eff := fun s =>
    let c := resetCause s
    if minimal s then ok { devResetPrep s with boot := { (devResetPrep s).boot with resetReq := some (c, none) } }
    else .wait .reset { s with boot := { s.boot with resetReq := if s.boot.resetReq.isSome then s.boot.resetReq else some (c, none) } }

/-- The reset a command has asked for follows its acceptance. -/
def execDevReset (h : Hdr) (kind : BitVec 8) (s : State) : Out := .next (resetDue (scp h (.devReset h kind) (specDevReset kind) s))

def specTimeSetWithWarmReset (timeNs : BitVec 64) : Spec where
  info := devInfo 0x0103 100000 false
  par := none
  st := fun _ => none
  objs := [.device]
  eff := fun s =>
    .wait .reset { s with time := { s.time with seed := some timeNs },
                          boot := { s.boot with resetReq := if s.boot.resetReq.isSome then s.boot.resetReq else some (1, none) } }

def execTimeSetWithWarmReset (h : Hdr) (timeNs : BitVec 64) (s : State) : Out :=
  .next (resetDue (scp h (.timeSetWithWarmReset h timeNs) (specTimeSetWithWarmReset timeNs) s))

/-! ### Image slots (R124, R127, R179) -/

/-- A slot that has changed has not passed a verify; the command writes the directory too, whose contents the spec does not give (R124, log 106). -/
def unverify (slot : Nat) (s : State) : State :=
  { s with boot := { s.boot with verified := tblSet slot false s.boot.verified, dir := true } }

def imgInfo : OpInfo := devInfo 0x0107 30000000 false

def slotBad (slot : BitVec 8) : Bool × Rej := (decide (1 < slot.toNat), badParam 1)

/-- OP 0 and OP 1 on the slot in use. -/
def slotUsed (s : State) (slot : BitVec 8) : Option Rej := if slot.toNat = s.boot.hdr.usedslot then some (rej stBadState) else none

def specImageSlotErase (slot : BitVec 8) (offset : BitVec 32) : Spec where
  info := imgInfo
  par := firstRej [slotBad slot, (decide (offset.toNat % 65536 ≠ 0 ∨ slotBytes ≤ offset.toNat), badParam 2)]
  st := fun s => slotUsed s slot
  objs := [.device]
  eff := fun s =>
    let a := slotBase slot.toNat + offset.toNat
    ok (unverify slot.toNat { s with boot := { s.boot with flash := tblDelRange a (a + 65536) s.boot.flash } })

def execImageSlotErase (h : Hdr) (slot : BitVec 8) (offset len : BitVec 32) (s : State) : Out :=
  .next (scp h (.imageSlotErase h slot offset len) (specImageSlotErase slot offset) s)

def specImageSlotWrite (h : Hdr) (slot : BitVec 8) (offset len : BitVec 32) (data : List Byte) : Spec where
  info := imgInfo
  par :=
    let n := len.toNat
    firstRej [slotBad slot, (decide (slotBytes ≤ offset.toNat), badParam 2),
      (decide (n < 1 ∨ 4070 < n ∨ slotBytes < offset.toNat + n), badParam 6), (!h.indirect, badParam 10),
      (decide (data.length < n), badLength 10), (decide (n < data.length), badLength (10 + n))]
  st := fun s => slotUsed s slot
  objs := [.device]
  eff := fun s =>
    ok (unverify slot.toNat { s with boot := { s.boot with flash := cellsPut 0xFF s.boot.flash (slotBase slot.toNat + offset.toNat) data } })

def execImageSlotWrite (h : Hdr) (slot : BitVec 8) (offset len : BitVec 32) (data : List Byte) (s : State) : Out :=
  .next (scp h (.imageSlotWrite h slot offset len data) (specImageSlotWrite h slot offset len data) s)

/-- OP 2 and OP 3 need OFFSET and LEN zero. -/
def specImageSlotVerify (slot : BitVec 8) (offset len : BitVec 32) : Spec where
  info := imgInfo
  par := firstRej [slotBad slot, (decide (offset ≠ 0), badParam 2), (decide (len ≠ 0), badParam 6)]
  st := fun _ => none
  objs := [.device]
  eff := fun s =>
    let i := slotImage s slot.toNat
    let c := imageCause s i
    let c := if c = 0 ∧ i.extFound ≠ i.extDigest then 3 else c
    okRes (le 1 c ++ le 4 i.release.toNat ++ le 4 i.secver.toNat)
      { s with boot := { s.boot with verified := tblSet slot.toNat (c == 0) s.boot.verified } }

def execImageSlotVerify (h : Hdr) (slot : BitVec 8) (offset len : BitVec 32) (s : State) : Out :=
  .next (scp h (.imageSlotVerify h slot offset len) (specImageSlotVerify slot offset len) s)

def specImageSlotSetActslot (slot : BitVec 8) (offset len : BitVec 32) : Spec where
  info := imgInfo
  par := firstRej [slotBad slot, (decide (offset ≠ 0), badParam 2), (decide (len ≠ 0), badParam 6)]
  st := fun s => if tblGet s.boot.verified slot.toNat false then none else some (rej stBadState)
  objs := [.device]
  eff := fun s =>
    if tblGet s.boot.verified slot.toNat false then ok { s with boot := { s.boot with hdr := { s.boot.hdr with actslot := slot.toNat } } }
    else .done stBadState [] s

def execImageSlotSetActslot (h : Hdr) (slot : BitVec 8) (offset len : BitVec 32) (s : State) : Out :=
  .next (scp h (.imageSlotSetActslot h slot offset len) (specImageSlotSetActslot slot offset len) s)

/-! ### Fuses (R126, R129 to R132, R179) -/

def specSecminRaise (value : BitVec 8) : Spec where
  info := devInfo 0x0108 1000000 true
  par := if value.toNat < 1 ∨ 64 < value.toNat then some (badParam 0) else none
  st := fun s => firstRej [(decide (value.toNat ≤ s.boot.fuses.secmin), badParam 0), (decide (s.boot.secver.toNat < value.toNat), rej stBadState)]
  objs := [.device]
  eff := fun s =>
    if value.toNat ≤ s.boot.fuses.secmin ∨ s.boot.secver.toNat < value.toNat then .done stBadState [] s else .wait .fuse (fuseStart (.secmin value.toNat) s)

def execSecminRaise (h : Hdr) (value : BitVec 8) (s : State) : Out := .next (scp h (.secminRaise h value) (specSecminRaise value) s)

/-- A revocation is refused while the other release key is revoked (R126). -/
def revokeOk (s : State) (k : Nat) : Bool := !s.boot.fuses.revoked.getLsbD (3 - k)

def specKeyRevoke (slot : BitVec 8) : Spec where
  info := devInfo 0x0109 1000000 true
  par := if slot = 1 ∨ slot = 2 then none else some (badParam 0)
  st := fun s => if revokeOk s slot.toNat then none else some (rej stBadState)
  objs := [.device]
  eff := fun s => if revokeOk s slot.toNat then .wait .fuse (fuseStart (.revoke slot.toNat) s) else .done stBadState [] s

def execKeyRevoke (h : Hdr) (slot : BitVec 8) (s : State) : Out := .next (scp h (.keyRevoke h slot) (specKeyRevoke slot) s)

/-- UID_LO is that of the part. -/
def uidOk (s : State) (uidLo : BitVec 32) : Bool := s.boot.fuses.uid.extractLsb' 0 32 == uidLo

def lcInfo : OpInfo := devInfo 0x010A 1000000 true

/-- The code from which a LIFECYCLE without a token leads to `target`: PROVISIONED from FACTORY, FIELD from PROVISIONED (R130). -/
def lcFrom (target : BitVec 8) : Option (BitVec 4) := if target = 3 then some 1 else if target = 7 then some 3 else none

/-- LIFECYCLE without a token. A code of R129 to which no transition leads is LIFECYCLE_DENIED (log 80). The fuses are blown once FINAL OK has
been written. -/
def specLifecycleToField (target : BitVec 8) (uidLo : BitVec 32) : Spec where
  info := lcInfo
  par := if [0, 1, 3, 7].contains target.toNat then none else some (badParam 0)
  st := fun s => firstRej [(lcFrom target != some s.boot.lc, rej stLifecycle), (!uidOk s uidLo, rej stAuth)]
  objs := [.device]
  eff := fun s => ok (fuseStart (.lifecycle (target.truncate 4)) s)

def execLifecycleToField (h : Hdr) (m : LcMove) (s : State) : Out :=
  .next (scp h (.lifecycleToField h m) (specLifecycleToField m.target m.uidLo) s)

/-- The return token of Table 5.12 is accepted (R561). -/
def returnTokenOk (s : State) (t : List Byte) : Bool :=
  decide (leAt t 0 4 = 0x5254524E ∧ leAt t 4 2 = 1 ∧ leAt t 6 1 = 3 ∧ leAt t 7 1 = 0 ∧ leAt t 8 8 = s.boot.fuses.uid.toNat ∧
    leAt t 0x10 1 = s.boot.lc.toNat ∧ leAt t 0x11 7 = 0 ∧ leAt t 0x79 7 = 0) &&
    decide (Config.sha384 ((t.drop 0x18).take 97) = tblGet s.boot.fuses.keyHash 3 0) &&
    Config.ecdsaVerify ((t.drop 0x18).take 97) ((t.drop 0x80).take 96) (Config.sha384 (t.take 0x80))

def specLifecycleToReturn (h : Hdr) (uidLo : BitVec 32) (token : Token) : Spec where
  info := lcInfo
  par := firstRej [(token.isEmpty, badLength 5), (!h.indirect, badParam 5), (decide (token.length < 224), badLength 5),
    (decide (224 < token.length), badLength 229)]
  st := fun s => firstRej [(s.boot.lc != 3 && s.boot.lc != 7, rej stLifecycle), (!uidOk s uidLo, rej stAuth), (!returnTokenOk s token, rej stAuth)]
  objs := [.device]
  eff := fun s => ok (fuseStart (.lifecycle 15) s)

def execLifecycleToReturn (h : Hdr) (uidLo : BitVec 32) (token : Token) (s : State) : Out :=
  .next (scp h (.lifecycleToReturn h uidLo token) (specLifecycleToReturn h uidLo token) s)

/-- Bytes of a customer field. -/
def customerLen (field : Nat) : Nat := if field = 1 then 48 else 4

def customerSet (s : State) (field : Nat) : Bool :=
  let f := s.boot.fuses
  if field = 0 then f.boardOpts.isSome else if field = 1 then f.kernelHash.isSome else f.subsys.isSome

def specFuseProg (h : Hdr) (field : BitVec 8) (data : List Byte) : Spec where
  info := devInfo 0x010B 1000000 true
  par :=
    let n := customerLen field.toNat
    firstRej [(decide (2 < field.toNat), badParam 0), (!h.indirect, badParam 1), (decide (data.length < n), badLength 1),
      (decide (n < data.length), badLength (1 + n))]
  st := fun s => firstRej [(s.boot.lc != 3, rej stLifecycle), (customerSet s field.toNat, rej stBadState)]
  objs := [.device]
  eff := fun s =>
    if customerSet s field.toNat then .done stBadState [] s
    else .wait .fuse (fuseStart (.customer field.toNat (BitVec.ofNat 384 (if field = 1 then unBe data else unLe data))) s)

def execFuseProg (h : Hdr) (field : BitVec 8) (data : List Byte) (s : State) : Out :=
  .next (scp h (.fuseProg h field data) (specFuseProg h field data) s)

/-! ### Boot options and the configuration (R114, R128) -/

def specBootOptions (ethEn plcEn hostif ddrspeed : BitVec 8) : Spec where
  info := devInfo 0x010C 10000 false
  par := firstRej [(decide (15 < plcEn.toNat), badParam 1), (decide (2 < hostif.toNat), badParam 2), (decide (1 < ddrspeed.toNat), badParam 3)]
  st := fun _ => none
  objs := [.device]
  eff := fun s =>
    let h := s.boot.hdr
    let h := if ddrspeed = 0 then { h with ddrstate := h.ddrstate / 4 * 4 } else h
    let c := { s.boot.cfg with ethEn := ethEn, plcEn := plcEn.truncate 4, hostif := hostif.toNat, ddrspeed := ddrspeed.toNat }
    ok { s with boot := { s.boot with cfg := c, hdr := h } }

def execBootOptions (h : Hdr) (ethEn plcEn hostif ddrspeed : BitVec 8) (s : State) : Out :=
  .next (scp h (.bootOptions h ethEn plcEn hostif ddrspeed) (specBootOptions ethEn plcEn hostif ddrspeed) s)

/-- What of a register is configuration: the settings, not the counts and states; nor what a start sets itself (PLLs, RTB's rate and offset,
the delays that calibration loads). -/
def cfgWord (k : Nat) (v : Word32) : Option Word32 :=
  let b := k / 65536
  let o := k % 65536
  match regRow b o with
  | none => none
  | some r =>
    let w := if b = 3 ∨ b = 4 then v &&& ~~~(BitVec.ofNat 32 r.rc)
             else if b = 1 then v &&& BitVec.ofNat 32 r.rw
             else if b = 2 ∧ o % 0x100 ≠ 0x1C then v &&& BitVec.ofNat 32 r.rw
             else if b = 8 ∧ (o < 0x10 ∨ 0x60 ≤ o) then v &&& BitVec.ofNat 32 r.rw
             else if b = 9 ∧ o ≠ 0x18 ∧ o ≠ 0x1C ∧ o ≠ 0x20 ∧ o ≠ 0x28 ∧ o ≠ 0x2C then v &&& BitVec.ofNat 32 r.rw
             else 0
    if w = 0 ∧ r.reset = 0 then none else some w

/-- The configuration words of the register file. -/
def cfgRegs : Tbl Word32 → Tbl Word32
  | [] => []
  | (k, v) :: t => match cfgWord k v with | some w => (k, w) :: cfgRegs t | none => cfgRegs t

/-- A channel context as configuration: what it is doing is not part of it. -/
def cfgChan (c : Chan) : Chan :=
  { c with st := if 2 ≤ c.st then 2 else c.st, frames := [], ckpt := none, jb := jbStart c.p, ec := if 2 ≤ c.st ∧ c.p.echoTail ≠ 0 then 1 else 0, erle := 0,
           bypass := false, tone := none, stats := [], gov := 0, sov := 0, moveTo := none, leg := false, stall := 0, gapAt := none, lostIn := [] }

def cfgRec (r : Recorder) : Recorder := { r with nframes := 0, bytes := 0, drops := 0, body := [], spill := [], closed := [] }

def cfgFlow (f : Flow) : Flow :=
  { f with stats := [], ssrc := none, later := 0, out := [], credit := 16, misses := 0, fallen := none, falling := none, noPath := false, rtcpPort := none,
           rxOld := none }

def cfgPlc (v : PlcPort) : PlcPort := { plcInit with conf := v.conf, fixed := v.fixed, smgen := v.smgen, map := v.map, tones := v.tones }

def cfgSlot (o : OSlot) : OSlot :=
  { slotInit with conf := o.conf, loaded := o.loaded, b0 := o.b0, b1 := o.b1, tau := o.tau, thr := tblMap (fun _ (t : OThr) => { t with hold := none }) o.thr }

/-- The provisioned configuration at this moment (R128). -/
def shadowOf (s : State) : Shadow :=
  let v := s.voice
  { regs := cfgRegs s.regs, kernels := s.gar.kernels,
    voice := { v with chans := tblMap (fun _ (c : Chan) => cfgChan c) v.chans, recs := tblMap (fun _ (r : Recorder) => cfgRec r) v.recs,
                      sched := schedReset, recCtx := none },
    net := { flows := tblMap (fun _ (f : Flow) => cfgFlow f) s.net.flows, ports := [],
             pairs := tblMap (fun _ (p : PrpPair) => { p with seen := [], srcs := [] }) s.net.pairs, ptp := s.net.ptp, rx := [] },
    plc := { ports := tblMap (fun _ (p : PlcPort) => cfgPlc p) s.plc.ports, fall := tblMap (fun _ (f : FallCfg) => { f with active := false }) s.plc.fall },
    opal := tblMap (fun _ (o : OSlot) => cfgSlot o) s.opal, tdm := tblMap (fun _ (t : TdmPort) => { portInit with n := t.n }) s.tdm,
    claims := s.claims.filter (fun c => c.cls != 6), notifyMask := s.host.notifyMask, emergReserve := s.onyx.emergReserve }

/-- The shadow's length and digest, whose encoding is internal to the firmware, are free (log 2); GEN is written last. All of
it is written in whole words of Beryl (R95). -/
def configCommit (s : State) : State :=
  let len := Config.freeNat s.free % 172033
  let dg : BitVec 384 := freeBits 384 (tookFree s)
  let s1 := tookFree (tookFree s)
  let s1 := ueFix wDigest 8 (ueFix wRetain ((len + 7) / 8) s1)
  { s1 with shadow := some (shadowOf s), boot := { s1.boot with cfg := { s1.boot.cfg with gen := s1.boot.cfg.gen + 1, shadowLen := len, shadowDigest := dg } } }

def specConfigCommit : Spec where
  info := devInfo 0x010D 500000 false
  par := none
  st := fun _ => none
  objs := [.device]
  eff := fun s => let s := configCommit s; okRes (le 4 s.boot.cfg.gen.toNat) s

def execConfigCommit (h : Hdr) (s : State) : Out := .next (scp h (.configCommit h) specConfigCommit s)

end Sys2Proof.Machine
end

