-- ==== Sys2Proof/Machine/Diag.lean ====
section
/-! DEFINITION. The diagnostics and logs family (R189 to R191, R501, R502), and DEV_INFO (R178). -/

namespace Sys2Proof.Machine

/-- A diagnostics command; `clear` makes it OO and of ledger class C (R190). -/
def diagInfo (op tmo : Nat) (clear : Bool) : OpInfo :=
  { opcode := op, idem := if clear then .oo else .rx, lcls := if clear then .c else .n, timeout := some tmo, setup := false }

/-! ### DEV_INFO -/

def specDevInfo : Spec where
  info := { opcode := 0x0101, idem := .rx, lcls := .n, timeout := some 10000, setup := false }
  par := none
  st := fun _ => none
  objs := [.device]
  eff := fun s =>
    let h := s.boot.hdr
    okRes (le 4 s.boot.release.toNat ++ le 1 0x21 ++ le 1 s.boot.lc.toNat ++ le 1 h.mode ++ le 1 h.actslot ++ le 1 h.usedslot ++ le 1 (h.ddrstate % 4) ++
      le 1 (rd s hbState) ++ le 1 ((fromN 0 48).filter (fun n => decide ((core s n).st ≤ 2))).length ++ le 8 h.exclCores.toNat ++ le 8 s.boot.fuses.uid.toNat ++
      le 1 s.boot.fuses.secmin ++ le 1 s.boot.fuses.revoked.toNat ++ le 2 0) s

def execDevInfo (h : Hdr) (s : State) : Out := .next (scp h (.devInfo h) specDevInfo s)

/-! ### REG_READ -/

/-- Reads of `n` registers from `off`, in address order: a low half latches what its upper half then shows (R64); with `clear` the RC
fields clear as they are read. -/
def readRegs (block off : Nat) (clear : Bool) : Nat → State → List Byte × State
  | 0, s => ([], s)
  | n + 1, s =>
    let s := if block = 9 ∧ off = 0 then latchRtb s else if block = 8 then latchClk off s else s
    let v := le 4 (regView s (rk block off)).toNat
    let (b, s) := readRegs block (off + 4) clear n (if clear then clearingRead block off s else s)
    (v ++ b, s)

def specRegRead (block flags : BitVec 8) (offset count : BitVec 16) : Spec where
  info := diagInfo 0x0801 10000 (flags == 1)
  par := firstRej [(decide (block.toNat < 1 ∨ 9 < block.toNat), badParam 0), (decide (1 < flags.toNat), badParam 1), (decide (offset.toNat % 4 ≠ 0), badParam 2),
    (decide (count.toNat < 1 ∨ 256 < count.toNat), badParam 4), (decide (blockExtent block.toNat < offset.toNat + 4 * count.toNat), badParam 2)]
  st := fun _ => none
  objs := []
  eff := fun s =>
    let (b, t) := readRegs block.toNat offset.toNat (flags == 1) count.toNat s
    okRes b (if flags = 1 then t else s)

def execRegRead (h : Hdr) (block flags : BitVec 8) (offset count : BitVec 16) (s : State) : Out :=
  .next (scp h (.regRead h block flags offset count) (specRegRead block flags offset count) s)

/-! ### COUNTERS (log 25: how a group is laid out and what INDEX counts) -/

/-- INDEX names something of the group. -/
def counterIndexBad (g i : Nat) : Bool :=
  if g = 0 then (unitDomain i).isNone else if g = 1 then decide (7 < i) else if g = 2 then decide (8191 < i) else if g = 3 then decide (3 < i)
  else if g = 4 then decide (47 < i ∧ (i < 0x2000 ∨ 0x3FFF < i)) else decide (63 < i)

def counterBytes (s : State) (g i : Nat) : List Byte :=
  if g = 0 then (fromN 1 5).flatMap (fun k => le 4 (tblGet (rejPort s (portKey i)).counts k 0))
  else if g = 1 then netStatsBytes s i 0
  else if g = 2 then netStatsBytes s 0xFF i
  else if g = 3 then (fromN 0 22).flatMap (fun k => le 4 (rd s (plcCnt i k)))
  else if g = 4 ∧ i < 48 then le 4 (core s i).ecc ++ le 4 (core s i).spUe ++ le 4 (core s i).faults
  else if g = 4 then match chan? s (i - 0x2000) with | some c => le 4 c.gov ++ le 4 c.sov | none => le 8 0
  else
    let l := lease s i
    le 8 (l.deadline.toNat + l.duration.toNat * 2 ^ 44) ++ le 2 l.rindex.toNat ++ le 1 l.rclass.toNat ++ le 1 (l.state * 64) ++ le 3 l.epoch.toNat ++
      le 1 l.owner.toNat ++ le 4 l.stale.toNat

def counterClear (g i : Nat) (s : State) : State :=
  if g = 0 then setRej (portKey i) { rejPort s (portKey i) with counts := [] } s
  else if g = 1 then (fromN 0 11).foldl (fun s k => regClear (rk 1 (0x140 + 0x80 * i + 4 * k)) s) s
  else if g = 2 then modFlow i (fun f => { f with stats := [] }) s
  else if g = 3 then (fromN 0 22).foldl (fun s k => wr (plcCnt i k) 0 s) s
  else if g = 4 ∧ i < 48 then setCore i { core s i with ecc := 0, spUe := 0, faults := 0 } s
  else if g = 4 then modChan (i - 0x2000) (fun c => { c with gov := 0, sov := 0 }) s
  else setLease i { lease s i with stale := 0 } s

def specCounters (group : BitVec 8) (index : BitVec 16) (flags : BitVec 8) : Spec where
  info := diagInfo 0x0802 10000 (flags == 1)
  par := firstRej [(decide (5 < group.toNat), badParam 0), (counterIndexBad group.toNat index.toNat, badParam 1), (decide (1 < flags.toNat), badParam 3)]
  st := fun _ => none
  objs := []
  eff := fun s => okRes (counterBytes s group.toNat index.toNat) (if flags = 1 then counterClear group.toNat index.toNat s else s)

def execCounters (h : Hdr) (group : BitVec 8) (index : BitVec 16) (flags : BitVec 8) (s : State) : Out :=
  .next (scp h (.counters h group index flags) (specCounters group index flags) s)

/-! ### The logs -/

/-- A record and its CHECK. -/
def withCheck (b : List Byte) : List Byte := b ++ le 4 (crc32c b).toNat

/-- Table 18.5. -/
def jrecBytes (r : JRec) : List Byte :=
  withCheck (le 4 r.seq.toNat ++ le 2 r.code.toNat ++ le 1 r.unit.toNat ++ le 1 r.resp.toNat ++ le 8 r.rtb.toNat ++ le 8 r.usec.toNat ++ le 4 r.bootno.toNat ++
    le 4 r.d0.toNat ++ le 4 r.d1.toNat ++ padTo 24 r.evidence)

/-- Table 18.7. -/
def vrecBytes (r : VRec) : List Byte :=
  withCheck (le 4 r.index.toNat ++ le 1 r.iface.toNat ++ le 1 r.port.toNat ++ le 2 r.vcode.toNat ++ le 1 r.action.toNat ++ le 1 (b2n r.summary) ++ le 2 r.flow.toNat ++
    le 4 r.count.toNat ++ le 8 r.rtb.toNat ++ padTo 8 r.partner ++ padTo 28 r.evidence)

/-- The records of a ring, oldest first: those from the next slot on were written before those below it. -/
def ringOrder {α : Type} (next : Nat) (t : Tbl α) : List α :=
  (t.filter (fun e => decide (next ≤ e.1))).map (·.2) ++ (t.filter (fun e => decide (e.1 < next))).map (·.2)

/-- The journal, oldest first, each record with its number. A record that cannot be read is as empty (R95, R500). -/
def journalList (s : State) : List (Nat × List Byte) :=
  (ringOrder s.journal.wridx (tblFilter (fun k _ => !ueIn s (wJournal + 8 * k) 8) s.journal.recs)).map (fun (r : JRec) => (r.seq.toNat, jrecBytes r))

def pvlList (s : State) : List (Nat × List Byte) :=
  (ringOrder (s.pvl.next.toNat % 4096) s.pvl.recs).map (fun (r : VRec) => (r.index.toNat, vrecBytes r))

/-- OLDEST, NEXT, and up to MAX records from FROM (R501). -/
def logBytes (l : List (Nat × List Byte)) (next fromNo max : Nat) : List Byte :=
  le 4 (match l with | e :: _ => e.1 | [] => next) ++ le 4 next ++ ((l.filter (fun e => decide (fromNo ≤ e.1))).take max).flatMap (·.2)

def specJournalRead (fromSeq : BitVec 32) (max : BitVec 16) : Spec where
  info := diagInfo 0x0803 100000 false
  par := none
  st := fun _ => none
  objs := []
  eff := fun s => okRes (logBytes (journalList s) s.journal.nextSeq.toNat fromSeq.toNat max.toNat) (ueReads wJournal 8192 s)

def execJournalRead (h : Hdr) (fromSeq : BitVec 32) (max : BitVec 16) (s : State) : Out :=
  .next (scp h (.journalRead h fromSeq max) (specJournalRead fromSeq max) s)

def specPvlRead (fromIdx : BitVec 32) (max : BitVec 16) : Spec where
  info := diagInfo 0x0804 100000 false
  par := none
  st := fun _ => none
  objs := []
  eff := fun s => okRes (logBytes (pvlList s) s.pvl.next.toNat fromIdx.toNat max.toNat) s

def execPvlRead (h : Hdr) (fromIdx : BitVec 32) (max : BitVec 16) (s : State) : Out :=
  .next (scp h (.pvlRead h fromIdx max) (specPvlRead fromIdx max) s)

/-- Table 5.6. -/
def bootRecBytes (r : BootRec) : List Byte :=
  le 4 r.bootno.toNat ++ le 1 r.step ++ le 1 r.kind ++ le 1 r.attempt ++ le 1 r.cause ++ le 4 r.detail.toNat ++ le 4 r.timeMs.toNat

/-- Table 5.5. -/
def bootHdrBytes (h : BootHdr) : List Byte :=
  padTo 64 (le 4 0x424C4447 ++ le 2 1 ++ le 2 h.wridx ++ le 4 h.bootno.toNat ++ le 4 h.lastDone.toNat ++ le 1 h.incomplete ++ le 1 h.lastReset ++ le 1 h.warmCause ++
    le 1 h.actslot ++ le 1 h.usedslot ++ le 1 h.mode ++ le 1 h.ddrstate ++ le 1 h.nextslot ++ le 4 h.replayIdx.toNat ++ le 8 h.exclCores.toNat)

/-- The 4 KiB of the boot ledger; the words that cannot be read come as free values (R95, log 103). -/
def bootLedgerBytes (s : State) : List Byte :=
  let b := bootHdrBytes s.boot.hdr ++ (fromN 0 252).flatMap (fun k => match tblFind k s.boot.recs with
    | some r => bootRecBytes r
    | none => List.replicate 16 0)
  if !ueIn s wBoot 512 then b
  else (fromN 0 512).flatMap (fun w => ((if ueIn s (wBoot + w) 1 then freeBytes 4096 s else b).drop (8 * w)).take 8)

def specBootledgerRead : Spec where
  info := diagInfo 0x0805 10000 false
  par := none
  st := fun _ => none
  objs := []
  eff := fun s => okRes (bootLedgerBytes s) (if ueIn s wBoot 512 then tookFree (ueReads wBoot 512 s) else s)

def execBootledgerRead (h : Hdr) (s : State) : Out := .next (scp h (.bootledgerRead h) specBootledgerRead s)

def specNotifyCfg (mask : BitVec 32) : Spec where
  info := { opcode := 0x0806, idem := .ck, lcls := .c, timeout := some 10000, setup := false }
  par := none
  st := fun _ => none
  objs := []
  eff := fun s => ok { s with host := { s.host with notifyMask := mask } }

def execNotifyCfg (h : Hdr) (mask : BitVec 32) (s : State) : Out := .next (scp h (.notifyCfg h mask) (specNotifyCfg mask) s)

/-- The one chain entry of a log export, inline in its descriptor (R436, R437). -/
def exportChain (addr : BitVec 64) (len : BitVec 32) : List Byte := le 8 addr.toNat ++ le 4 len.toNat ++ le 4 0

/-- LOG_EXPORT: a deflate job of the log's records from FROM, which Onyx lays out in DDR, on a context of the device's own, with verification
(R448, R452). EFFORT and FLAGS[0] are not stated and free (log 114). -/
def specLogExport (h : Hdr) (log : BitVec 8) (fromSeq : BitVec 32) (addr : BitVec 64) (len : BitVec 32) (wrap : BitVec 8) : Spec where
  info := { opcode := 0x0807, idem := .rx, lcls := .w, timeout := some 10000000, setup := false }
  par := firstRej [(decide (1 < log.toNat), badParam 0), (decide (2 < wrap.toNat), badParam 17)]
  st := fun s => orRej (tpzDom s) (if (anyCtx s).isNone ∨ 64 ≤ (s.tpz.jobs.filter (fun j => j.eng.isNone)).length ∨ (leasePool s).isNone
    then some (rej stQueueFull) else none)
  objs := []
  acc := fun c s => match anyCtx s with
    | some x => setCmd { c with early := [x] } (claim 4 x 0x00 0xFFFE s)
    | none => s
  eff := fun s => match meCmd h s with
    | none => .done stBadState [] s
    | some c =>
      match c.early with
      | [] => .done stBadState [] s
      | x :: _ =>
        let recs := ((if log = 0 then journalList s else pvlList s).filter (fun e => decide (fromSeq.toNat ≤ e.1))).flatMap (·.2)
        let prio := if h.emerg then 0 else 6
        let j : TpzJob := { wh := jobWh prio x 1 c.lref s, ctx := x, op := 0, wrap := wrap.toNat, effort := Config.freeNat s.free % 9,
                            flags := 6 + Config.freeNat (s.free + 1) % 2, src := freeBits 64 (tookFree (tookFree s)), srclen := recs.length, chain := 0,
                            nchain := 1, inline := exportChain addr len, data := some recs, prio := prio, lsn := c.lsn, cmd := (c.queue, c.seq),
                            forLog := true, lease := none, eng := none, ents := none, saved := ctxIdle }
        .wait (.tpz x) (submitJob j (tookFree (tookFree (tookFree s))))

def execLogExport (h : Hdr) (log : BitVec 8) (fromSeq : BitVec 32) (addr : BitVec 64) (len : BitVec 32) (wrap : BitVec 8) (s : State) : Out :=
  .next (scp h (.logExport h log fromSeq addr len wrap) (specLogExport h log fromSeq addr len wrap) s)

def specEcho (data : List Byte) : Spec where
  info := diagInfo 0x0808 10000 false
  par := if 40 < data.length then some (badLength 40) else none
  st := fun _ => none
  objs := []
  eff := fun s => okRes data s

def execEcho (h : Hdr) (data : List Byte) (s : State) : Out := .next (scp h (.echo h data) (specEcho data) s)

end Sys2Proof.Machine
end

