-- ==== Sys2Proof/Machine/Accept.lean ====
section
/-! DEFINITION. Acceptance of fetched commands: the entry of Table 6.3 read as a command, the checks of R146 in the
order of R567, and the execution of commands that stand accepted (R175). -/

namespace Sys2Proof.Machine

/-! ### Parameters (R169, Tables 7.7 to 7.16) -/

/-- The sizes of the fixed fields of an opcode; none for an opcode of no table (R168). -/
def fixedSizes (op : Nat) : Option (List Nat) :=
  match op with
  | 0x0000 | 0x0101 | 0x010D | 0x0805 | 0x0808 => some []
  | 0x0102 | 0x0108 | 0x0109 | 0x010B | 0x0208 | 0x0405 | 0x0601 | 0x0605 | 0x0904 | 0x0905 | 0x0403 => some [1]
  | 0x0103 | 0x0106 => some [8, 1]
  | 0x0104 => some [1, 1, 2, 4, 4, 2, 2]
  | 0x0105 | 0x0302 | 0x0402 | 0x0408 | 0x0409 | 0x0504 | 0x0506 | 0x0507 | 0x0508 | 0x0705 => some [1, 1]
  | 0x0107 => some [1, 1, 4, 4]
  | 0x010A => some [1, 4]
  | 0x010C | 0x0308 | 0x0505 => some [1, 1, 1, 1]
  | 0x010E | 0x0204 | 0x0205 | 0x020C | 0x020E | 0x0305 | 0x0702 | 0x0703 | 0x0704 => some [2]
  | 0x0201 => some [2, 1, 1, 1, 1, 2, 2, 1, 2]
  | 0x0202 => some [2, 4, 4]
  | 0x0203 | 0x020B | 0x0309 => some [2, 2]
  | 0x0206 | 0x0304 => some [2, 1]
  | 0x0207 => some [2, 1, 1, 1, 2]
  | 0x0209 | 0x020A => some [2, 2, 1, 1]
  | 0x020D => some [2, 1, 2, 8, 4, 2]
  | 0x020F => some [1, 1, 4, 2, 1]
  | 0x0301 => some [1, 1, 2, 1, 2, 2, 2, 2]
  | 0x0303 => some [2, 1, 1, 2, 2, 2, 1, 1, 1]
  | 0x0306 => some [2, 1, 1, 1, 4, 1, 1]
  | 0x0307 => some [1, 1, 1, 2]
  | 0x030A | 0x0802 => some [1, 2, 1]
  | 0x0401 => some [1, 1, 1, 2, 2, 1, 2, 2, 1, 1, 2, 1]
  | 0x0404 => some [1, 2, 2]
  | 0x0406 => some [1, 2, 1]
  | 0x0407 => some [1, 1, 1]
  | 0x0501 => some [1, 1, 1, 2, 1, 1, 4, 2]
  | 0x0502 => some [1, 2, 2, 1]
  | 0x0503 => some [1, 1, 3, 3, 1]
  | 0x0602 => some [1, 1, 1, 1, 1, 8, 4, 8, 2]
  | 0x0603 | 0x0604 => some [1, 8]
  | 0x0701 => some [1, 2, 1, 2]
  | 0x0706 => some [1, 1, 2]
  | 0x0801 => some [1, 1, 2, 2]
  | 0x0803 | 0x0804 => some [4, 2]
  | 0x0806 => some [4]
  | 0x0807 => some [1, 4, 8, 4, 1]
  | 0x0901 => some [1, 8, 4]
  | 0x0902 => some [1, 2, 1]
  | 0x0903 => some [1, 2]
  | _ => none

/-- A parameter of `n` bytes at `o`, as a bit vector. -/
def par1 (p : List Byte) (o : Nat) : BitVec 8 := BitVec.ofNat 8 (leAt p o 1)
def par2 (p : List Byte) (o : Nat) : BitVec 16 := BitVec.ofNat 16 (leAt p o 2)
def par3 (p : List Byte) (o : Nat) : BitVec 24 := BitVec.ofNat 24 (leAt p o 3)
def par4 (p : List Byte) (o : Nat) : BitVec 32 := BitVec.ofNat 32 (leAt p o 4)
def par8 (p : List Byte) (o : Nat) : BitVec 64 := BitVec.ofNat 64 (leAt p o 8)

/-- How many entries of `w` bytes the variable part is read as: those wholly present, and one more where bytes remain
beyond the `want` that the fixed fields give, so that the length is seen to be wrong. -/
def groups (w want len : Nat) : Nat := if len % w ≠ 0 ∧ want ≤ len / w then len / w + 1 else len / w

/-- The fields of CH_MODIFY as CH_CREATE has them; a field that MASK leaves out is zero here and is not used. -/
def modifyPar (mask : Nat) (p : List Byte) : ChParams :=
  let at' (k : Nat) : Nat := if mask / 2 ^ k % 2 = 1 then leAt p (modifyOff mask k) (fieldSize k) else 0
  { codec := BitVec.ofNat 8 (at' 0), ptime := BitVec.ofNat 8 (at' 1), echoTail := BitVec.ofNat 8 (at' 2), jbMode := BitVec.ofNat 8 (at' 3),
    jbMin := BitVec.ofNat 16 (at' 4), jbMax := BitVec.ofNat 16 (at' 5), prio := BitVec.ofNat 8 (at' 6), flags := BitVec.ofNat 16 (at' 7) }

/-- A command read from its parameters: the row, and the offset of an ACTION, OP or the like outside its range. -/
structure Read where
  instr : Instr
  bad : Option Nat := none

/-- Device family (Table 7.7). -/
def readDevice (op : Nat) (h : Hdr) (p : List Byte) : Option Read :=
  match op with
  | 0x0101 => some { instr := .devInfo h }
  | 0x0102 => some { instr := .devReset h (par1 p 0) }
  | 0x0103 => some { instr := if par1 p 8 = 1 then .timeSetWithWarmReset h (par8 p 0) else .timeSet h (par8 p 0) (par1 p 8) }
  | 0x0104 => some { instr := .rtbCfg h (par1 p 0) (par1 p 1) (par2 p 2) (par4 p 4) (par4 p 8) (par2 p 12) (par2 p 14) }
  | 0x0105 => some { instr := .domainPower h (par1 p 0) (par1 p 1) }
  | 0x0106 => some { instr := .hibernate h (par8 p 0) (par1 p 8) }
  | 0x0107 =>
    let o := leAt p 0 1
    some { instr := if o = 0 then .imageSlotErase h (par1 p 1) (par4 p 2) (par4 p 6)
                    else if o = 1 then .imageSlotWrite h (par1 p 1) (par4 p 2) (par4 p 6) (p.drop 10)
                    else if o = 2 then .imageSlotVerify h (par1 p 1) (par4 p 2) (par4 p 6)
                    else .imageSlotSetActslot h (par1 p 1) (par4 p 2) (par4 p 6),
           bad := if 3 < o then some 0 else none }
  | 0x0108 => some { instr := .secminRaise h (par1 p 0) }
  | 0x0109 => some { instr := .keyRevoke h (par1 p 0) }
  | 0x010A =>
    let t := leAt p 0 1
    some { instr := if t = 15 then .lifecycleToReturn h (par4 p 1) (p.drop 5) else .lifecycleToField h ⟨par1 p 0, par4 p 1⟩ }
  | 0x010B => some { instr := .fuseProg h (par1 p 0) (p.drop 1) }
  | 0x010C => some { instr := .bootOptions h (par1 p 0) (par1 p 1) (par1 p 2) (par1 p 3) }
  | 0x010D => some { instr := .configCommit h }
  | 0x010E => some { instr := .admitCfg h (par2 p 0) }
  | _ => none

/-- Channel family (Table 7.8). -/
def readChannel (op : Nat) (h : Hdr) (p : List Byte) : Option Read :=
  match op with
  | 0x0201 => some { instr := .chCreate h (par2 p 0)
                      { codec := par1 p 2, ptime := par1 p 3, echoTail := par1 p 4, jbMode := par1 p 5, jbMin := par2 p 6,
                        jbMax := par2 p 8, prio := par1 p 10, flags := par2 p 11 } }
  | 0x0202 => some { instr := .chActivate h (par2 p 0) (par4 p 2) (par4 p 6) }
  | 0x0203 => some { instr := .chModify h (par2 p 0) (par2 p 2) (modifyPar (leAt p 2 2) p) }
  | 0x0204 => some { instr := .chDeactivate h (par2 p 0) }
  | 0x0205 => some { instr := .chDelete h (par2 p 0) }
  | 0x0206 => some { instr := .chStats h (par2 p 0) (par1 p 2) }
  | 0x0207 => some { instr := .toneGen h (par2 p 0) (par1 p 2) (par1 p 3) (par1 p 4) (par2 p 5) }
  | 0x0208 => some { instr := .tonesetLoad h (par1 p 0) (p.drop 1) }
  | 0x0209 => some { instr := .groupCreate h (par2 p 0) (par2 p 2) (par1 p 4) (par1 p 5) }
  | 0x020A => some { instr := .groupJoin h (par2 p 0) (par2 p 2) (par1 p 4) (par1 p 5) }
  | 0x020B => some { instr := .groupLeave h (par2 p 0) (par2 p 2) }
  | 0x020C => some { instr := .groupDelete h (par2 p 0) }
  | 0x020D => some { instr := .recStart h (par2 p 0) (par1 p 2) (par2 p 3) (par8 p 5) (par4 p 13) (par2 p 17) }
  | 0x020E => some { instr := .recStop h (par2 p 0) }
  | 0x020F => some { instr := .emergRule h (par1 p 0) (par1 p 1) (par4 p 2) (par2 p 6) (par1 p 8) }
  | _ => none

/-- Network family (Table 7.9). -/
def readNet (op : Nat) (h : Hdr) (p : List Byte) : Option Read :=
  match op with
  | 0x0301 => some { instr := .portCfg h (par1 p 0) (par1 p 1) (par2 p 2) (par1 p 4) (par2 p 5) (par2 p 7) (par2 p 9) (par2 p 11) }
  | 0x0302 =>
    let a := leAt p 1 1
    some { instr := if a = 0 then .portDisable h (par1 p 0) else if a = 1 then .portEnable h (par1 p 0)
                    else if a = 2 then .portOutOfService h (par1 p 0) else .portReturn h (par1 p 0),
           bad := if 3 < a then some 1 else none }
  | 0x0303 => some { instr := .flowAdd h (par2 p 0) (par1 p 2) (par1 p 3) (par2 p 4) (par2 p 6) (par2 p 8) (par1 p 10) (par1 p 11)
                      (par1 p 12) (p.drop 13) }
  | 0x0304 => some { instr := .flowTx h (par2 p 0) (par1 p 2) (p.drop 3) }
  | 0x0305 => some { instr := .flowDel h (par2 p 0) }
  | 0x0306 => some { instr := .srtpKey h (par2 p 0) (par1 p 2) (par1 p 3) (par1 p 4) (par4 p 5) (par1 p 9) (par1 p 10) (p.drop 11) }
  | 0x0307 => some { instr := .prpPair h (par1 p 0) (par1 p 1) (par1 p 2) (par2 p 3) }
  | 0x0308 => some { instr := .ptpCfg h (par1 p 0) (par1 p 1) (par1 p 2) (par1 p 3) }
  | 0x0309 => some { instr := .assuredSend h (par2 p 0) (par2 p 2) (p.drop 4) }
  | 0x030A => some { instr := .netStats h (par1 p 0) (par2 p 1) (par1 p 3) }
  | _ => none

/-- Powerline family (Table 7.10). -/
def readPlc (op : Nat) (h : Hdr) (p : List Byte) : Option Read :=
  match op with
  | 0x0401 => some { instr := .plcPortCfg h (par1 p 0) (par1 p 1) (par1 p 2) (par2 p 3) (par2 p 5) (par1 p 7) (par2 p 8) (par2 p 10)
                      (par1 p 12) (par1 p 13) (par2 p 14) (par1 p 16) }
  | 0x0402 =>
    some { instr := if leAt p 1 1 = 0 then .plcPortOutOfService h (par1 p 0) else .plcPortInService h (par1 p 0),
           bad := if 1 < leAt p 1 1 then some 1 else none }
  | 0x0403 => some { instr := .plcSlotmap h (par1 p 0) (p.drop 1) }
  | 0x0404 => some { instr := .plcJoin h (par1 p 0) (par2 p 1) (par2 p 3) }
  | 0x0405 => some { instr := .plcLeave h (par1 p 0) }
  | 0x0406 =>
    some { instr := .plcRoute h (par1 p 0) (par2 p 1) (par1 p 3)
                      ((fromN 0 (groups 2 (leAt p 3 1) (p.length - 4))).map (fun k => par2 p (4 + 2 * k))) }
  | 0x0407 => some { instr := .falloverCfg h (par1 p 0) (par1 p 1) (par1 p 2) }
  | 0x0408 =>
    some { instr := if leAt p 1 1 = 0 then .falloverToPowerline h (par1 p 0) else .falloverBackToEthernet h (par1 p 0),
           bad := if 1 < leAt p 1 1 then some 1 else none }
  | 0x0409 => some { instr := .plcStats h (par1 p 0) (par1 p 1) }
  | _ => none

/-- Signal chain and TDM family (Table 7.11). -/
def readOpal (op : Nat) (h : Hdr) (p : List Byte) : Option Read :=
  match op with
  | 0x0501 => some { instr := .sscSlotCfg h (par1 p 0) (par1 p 1) (par1 p 2) (par2 p 3) (par1 p 5) (par1 p 6) (par4 p 7) (par2 p 11) }
  | 0x0502 =>
    some { instr := .sscCoef h (par1 p 0) (par2 p 1) (par2 p 3) (par1 p 5)
                      ((fromN 0 (groups 3 (leAt p 1 2) (p.length - 6))).map (fun k => par3 p (6 + 3 * k))) }
  | 0x0503 => some { instr := .sscThresh h (par1 p 0) (par1 p 1) (par3 p 2) (par3 p 5) (par1 p 8) }
  | 0x0504 =>
    some { instr := if leAt p 1 1 = 0 then .sscSlotDisable h (par1 p 0) else .sscSlotEnable h (par1 p 0),
           bad := if 1 < leAt p 1 1 then some 1 else none }
  | 0x0505 => some { instr := .tdmPortCfg h (par1 p 0) (par1 p 1) (par1 p 2) (par1 p 3) }
  | 0x0506 =>
    some { instr := .tdmSlotmap h (par1 p 0) (par1 p 1)
                      ((fromN 0 (groups 4 (leAt p 1 1) (p.length - 2))).map (fun k => par4 p (2 + 4 * k))) }
  | 0x0507 =>
    some { instr := if leAt p 1 1 = 0 then .tdmPortDisable h (par1 p 0) else .tdmPortEnable h (par1 p 0),
           bad := if 1 < leAt p 1 1 then some 1 else none }
  | 0x0508 => some { instr := .sscStatus h (par1 p 0) (par1 p 1) }
  | _ => none

/-- Compression family (Table 7.12). TPZ_CTX_RESTORE reads host memory and is accepted by its own row. -/
def readTopaz (op : Nat) (h : Hdr) (p : List Byte) : Option Read :=
  match op with
  | 0x0601 => some { instr := .tpzCtxAlloc h (par1 p 0) }
  | 0x0602 =>
    let f (mk : Hdr → BitVec 8 → BitVec 8 → BitVec 8 → BitVec 8 → BitVec 64 → BitVec 32 → BitVec 64 → BitVec 16 → Instr) : Instr :=
      mk h (par1 p 0) (par1 p 2) (par1 p 3) (par1 p 4) (par8 p 5) (par4 p 13) (par8 p 17) (par2 p 25)
    some { instr := if leAt p 1 1 = 1 then f .tpzJobInflate else f .tpzJobDeflate, bad := if 1 < leAt p 1 1 then some 1 else none }
  | 0x0603 => some { instr := .tpzCtxSave h (par1 p 0) (par8 p 1) }
  | 0x0605 => some { instr := .tpzCtxFree h (par1 p 0) }
  | _ => none

/-- Test and repair family (Table 7.13). -/
def readTest (op : Nat) (h : Hdr) (p : List Byte) : Option Read :=
  match op with
  | 0x0701 => some { instr := .agtRun h (par1 p 0) (par2 p 1) (par1 p 3) (par2 p 4) }
  | 0x0702 => some { instr := .agtResults h (par2 p 0) }
  | 0x0703 => some { instr := .agtRepairSoft h (par2 p 0) }
  | 0x0704 => some { instr := .agtRepairFuse h (par2 p 0) (p.drop 2) }
  | 0x0705 =>
    let a := leAt p 1 1
    some { instr := if a = 0 then .coreOutOfService h (par1 p 0) else if a = 1 then .coreReturn h (par1 p 0) else .coreRetire h (par1 p 0),
           bad := if 2 < a then some 1 else none }
  | 0x0706 => some { instr := .rebalance h (par1 p 0) (par1 p 1) (par2 p 2) }
  | _ => none

/-- Diagnostics and logs, and kernel loading (Tables 7.14, 7.16). KRN_LOAD reads host memory and is accepted by its own
row. -/
def readDiag (op : Nat) (h : Hdr) (p : List Byte) : Option Read :=
  match op with
  | 0x0801 => some { instr := .regRead h (par1 p 0) (par1 p 1) (par2 p 2) (par2 p 4) }
  | 0x0802 => some { instr := .counters h (par1 p 0) (par2 p 1) (par1 p 3) }
  | 0x0803 => some { instr := .journalRead h (par4 p 0) (par2 p 4) }
  | 0x0804 => some { instr := .pvlRead h (par4 p 0) (par2 p 4) }
  | 0x0805 => some { instr := .bootledgerRead h }
  | 0x0806 => some { instr := .notifyCfg h (par4 p 0) }
  | 0x0807 => some { instr := .logExport h (par1 p 0) (par4 p 1) (par8 p 5) (par4 p 13) (par1 p 17) }
  | 0x0808 => some { instr := .echo h p }
  | 0x0902 => some { instr := .krnBind h (par1 p 0) (par2 p 1) (par1 p 3) }
  | 0x0903 => some { instr := .krnUnbind h (par1 p 0) (par2 p 1) }
  | 0x0904 => some { instr := .krnUnload h (par1 p 0) }
  | 0x0905 => some { instr := .krnStatus h (par1 p 0) }
  | _ => none

/-- The command that an opcode and its parameters spell. -/
def readCmd (op : Nat) (h : Hdr) (p : List Byte) : Option Read :=
  match op / 256 with
  | 0 => if op = 0 then some { instr := .nopCommand h } else none
  | 1 => readDevice op h p
  | 2 => readChannel op h p
  | 3 => readNet op h p
  | 4 => readPlc op h p
  | 5 => readOpal op h p
  | 6 => readTopaz op h p
  | 7 => readTest op h p
  | _ => readDiag op h p

/-- What a command that stands accepted says and does; none for a row that is not a host command. -/
def specOf (i : Instr) : Option Spec :=
  match i with
  | .timeSet _ timeNs flags => some (specTimeSet timeNs flags)
  | .rtbCfg _ src port srcto holdover stepthr lockthr slewmax => some (specRtbCfg src port srcto holdover stepthr lockthr slewmax)
  | .nopCommand _ => some specNop
  | .domainPower _ dom on => some (specDomainPower dom on)
  | .hibernate h wakeAt flags => some (specHibernate h wakeAt flags)
  | .devReset _ kind => some (specDevReset kind)
  | .timeSetWithWarmReset _ timeNs => some (specTimeSetWithWarmReset timeNs)
  | .imageSlotErase _ slot offset _ => some (specImageSlotErase slot offset)
  | .imageSlotWrite h slot offset len data => some (specImageSlotWrite h slot offset len data)
  | .imageSlotVerify _ slot offset len => some (specImageSlotVerify slot offset len)
  | .imageSlotSetActslot _ slot offset len => some (specImageSlotSetActslot slot offset len)
  | .secminRaise _ value => some (specSecminRaise value)
  | .keyRevoke _ slot => some (specKeyRevoke slot)
  | .lifecycleToField _ m => some (specLifecycleToField m.target m.uidLo)
  | .lifecycleToReturn h uidLo token => some (specLifecycleToReturn h uidLo token)
  | .fuseProg h field data => some (specFuseProg h field data)
  | .bootOptions _ ethEn plcEn hostif ddrspeed => some (specBootOptions ethEn plcEn hostif ddrspeed)
  | .configCommit _ => some specConfigCommit
  | .chCreate h ch p => some (specChCreate h ch p)
  | .chActivate h ch inB outB => some (specChActivate h ch inB outB)
  | .chModify h ch mask p => some (specChModify h ch mask p)
  | .chDeactivate h ch => some (specChDeactivate h ch)
  | .chDelete h ch => some (specChDelete h ch)
  | .chStats h ch flags => some (specChStats h ch flags)
  | .toneGen h ch dir toneset tone dur => some (specToneGen h ch dir toneset tone dur)
  | .tonesetLoad h toneset defn => some (specTonesetLoad h toneset defn)
  | .groupCreate h g maxl mix prio => some (specGroupCreate h g maxl mix prio)
  | .groupJoin h g ch role gain => some (specGroupJoin h g ch role gain)
  | .groupLeave h g ch => some (specGroupLeave h g ch)
  | .groupDelete h g => some (specGroupDelete h g)
  | .recStart h ch q segMs ba bl nb => some (specRecStart h ch q segMs ba bl nb)
  | .recStop h r => some (specRecStop h r)
  | .emergRule h rule trigger src group flags => some (specEmergRule h rule trigger src group flags)
  | .admitCfg _ reserve => some (specAdmitCfg reserve)
  | .krnLoad h kid addr len (.data b) => some (specKrnLoad h kid addr len b)
  | .krnBind h kid ch stg => some (specKrnBind h kid ch stg)
  | .krnUnbind h kid ch => some (specKrnUnbind h kid ch)
  | .krnUnload h kid => some (specKrnUnload h kid)
  | .krnStatus h kid => some (specKrnStatus h kid)
  | .portEnable _ port => some (specPortEnable port)
  | .portDisable _ port => some (specPortDisable port)
  | .portOutOfService _ port => some (specPortOutOfService port)
  | .portReturn _ port => some (specPortReturn port)
  | .flowTx h flow tlen template => some (specFlowTx h flow tlen template)
  | .flowDel _ flow => some (specFlowDel flow)
  | .srtpKey h flow dir suite kdr roc keylen saltlen key => some (specSrtpKey h flow dir suite kdr roc keylen saltlen key)
  | .prpPair _ pair portA portB window => some (specPrpPair pair portA portB window)
  | .ptpCfg _ port flags domain logsync => some (specPtpCfg port flags domain logsync)
  | .assuredSend h flow len payload => some (specAssuredSend h flow len payload)
  | .netStats _ port flow flags => some (specNetStats port flow flags)
  | .plcPortOutOfService _ port => some (specPlcPortOutOfService port)
  | .plcPortInService _ port => some (specPlcPortInService port)
  | .plcSlotmap h port map => some (specPlcSlotmap h port map)
  | .plcJoin h port netid node => some (specPlcJoin h port netid node)
  | .plcLeave _ port => some (specPlcLeave port)
  | .plcRoute _ port dest nrelay relays => some (specPlcRoute port dest nrelay relays)
  | .falloverCfg _ ethport plcport flags => some (specFalloverCfg ethport plcport flags)
  | .falloverToPowerline _ ethport => some (specFalloverToPowerline ethport)
  | .falloverBackToEthernet _ ethport => some (specFalloverBackToEthernet ethport)
  | .plcStats _ port flags => some (specPlcStats port flags)
  | .sscCoef h slot' taps fade flags coefs => some (specSscCoef h slot' taps fade flags coefs)
  | .sscThresh _ slot' idx level hyst flags => some (specSscThresh slot' idx level hyst flags)
  | .sscSlotEnable _ slot' => some (specSscSlotEnable slot')
  | .sscSlotDisable _ slot' => some (specSscSlotDisable slot')
  | .sscStatus _ kind index => some (specSscStatus kind index)
  | .tdmPortCfg _ port rate flags slots => some (specTdmPortCfg port rate flags slots)
  | .tdmSlotmap h port n entries => some (specTdmSlotmap h port n entries)
  | .tdmPortEnable _ port => some (specTdmPortEnable port)
  | .tdmPortDisable _ port => some (specTdmPortDisable port)
  | .tpzCtxAlloc h ctx => some (specTpzCtxAlloc h ctx)
  | .tpzCtxFree h ctx => some (specTpzCtxFree h ctx)
  | .tpzCtxSave h ctx addr => some (specTpzCtxSave h ctx addr)
  | .tpzCtxRestore h ctx _ image => some (specTpzCtxRestore h ctx image)
  | .tpzJobDeflate h ctx wrap effort flags src srclen chain nchain => some (specTpzJob h 0 ctx wrap effort flags src srclen chain nchain)
  | .tpzJobInflate h ctx wrap effort flags src srclen chain nchain => some (specTpzJob h 1 ctx wrap effort flags src srclen chain nchain)
  | .agtRun h target index alg slice => some (specAgtRun h target index alg slice)
  | .agtResults _ result => some (specAgtResults result)
  | .agtRepairSoft _ result => some (specAgtRepairSoft result)
  | .agtRepairFuse h result token => some (specAgtRepairFuse h result token)
  | .coreOutOfService h c => some (specCoreOutOfService h c)
  | .coreReturn h c => some (specCoreReturn h c)
  | .coreRetire _ c => some (specCoreRetire c)
  | .rebalance h fromC toC count => some (specRebalance h fromC toC count)
  | .devInfo _ => some specDevInfo
  | .regRead _ block flags offset count => some (specRegRead block flags offset count)
  | .counters _ group index flags => some (specCounters group index flags)
  | .journalRead _ fromSeq max => some (specJournalRead fromSeq max)
  | .pvlRead _ fromIdx max => some (specPvlRead fromIdx max)
  | .bootledgerRead _ => some specBootledgerRead
  | .notifyCfg _ mask => some (specNotifyCfg mask)
  | .logExport h log fromSeq addr len wrap => some (specLogExport h log fromSeq addr len wrap)
  | .echo _ data => some (specEcho data)
  | .portCfg _ port mode maxframe flags hold settle age pauseWd => some (specPortCfg port mode maxframe flags hold settle age pauseWd)
  | .flowAdd h flow kind portIn vlan chan linkchan prio egress flags mtch => some (specFlowAdd h flow kind portIn vlan chan linkchan prio egress flags mtch)
  | .sscSlotCfg _ slot' src preset ratio median phase shift chan => some (specSscSlotCfg slot' src preset ratio median phase shift chan)
  | .plcPortCfg _ port linkmode role netid node bandplan cstart cend zcmode k phase txlevel => some (specPlcPortCfg port linkmode role netid node bandplan cstart cend zcmode k phase txlevel)
  | _ => none

/-! ### Checks 1 to 4 of R146 -/

/-- Opcodes whose variable part its own row measures. -/
def measured (op imageOp lcTarget : Nat) : Bool :=
  [0x010B, 0x0208, 0x0303, 0x0304, 0x0306, 0x0309, 0x0403, 0x0406, 0x0502, 0x0506, 0x0704, 0x0808].contains op ||
    (op == 0x0107 && imageOp == 1) || (op == 0x010A && lcTarget == 15)

/-- The offset of the first field that is not wholly present. -/
def firstMissing : List Nat → Nat → Nat → Nat
  | [], o, _ => o
  | k :: t, o, len => if len < o + k then o else firstMissing t (o + k) len

/-- The sizes of the variable part of CH_MODIFY. -/
def varSizes (op : Nat) (p : List Byte) : List Nat :=
  if op = 0x0203 then (fromN 0 8).flatMap (fun k => if leAt p 2 2 / 2 ^ k % 2 = 1 then [fieldSize k] else []) else []

/-- Is the refusal BAD_PARAM for a field before offset `o`? -/
def badBefore (o : Nat) : Option Rej → Bool
  | some r => decide (r.status = stBadParam ∧ leAt r.detail 0 2 < o)
  | none => false

/-- A refusal found at offset `o` put in its place among those of the row. -/
def mergeRej (o : Nat) (r par : Option Rej) : Option Rej :=
  match r with
  | none => par
  | some r => if badBefore o par then par else some r

/-- Checks on the parameters in the order of R567, from step 3 on: `par` is what the row itself checks. -/
def parCheck (op : Nat) (p : List Byte) (rd : Read) (par : Option Rej) : Option Rej :=
  let fixed := (fixedSizes op).getD []
  let all := fixed ++ varSizes op p
  let total := all.sum
  let long : Option Rej :=
    if measured op (leAt p 0 1) (leAt p 0 1) then none
    else if p.length < total then some (badLength (firstMissing all 0 p.length))
    else if total < p.length then some (badLength total) else none
  let par := mergeRej fixed.sum long par
  match rd.bad with
  | some o => mergeRej o (some (badParam o)) par
  | none => par

/-- The CHECK that an entry should carry (Table 6.3). -/
def entryCheck (f : Fetched) : BitVec 32 :=
  let e := f.entry
  let ind := (e.getD 4 0).getLsbD 2
  crc32c (e.take 8 ++ [0, 0, 0, 0] ++ e.drop 12 ++ (if ind then f.params else []))

/-- Reserved bits and bytes of an entry are zero (R146, check 4). -/
def entryReserved (f : Fetched) (plen : Nat) : Bool :=
  let e := f.entry
  let ind := (e.getD 4 0).getLsbD 2
  decide ((e.getD 4 0).toNat < 8) && (if ind then (e.drop 32).all (· == 0) else (e.drop (24 + plen)).all (· == 0))

/-- The header of a fetched entry; a RESULT_ADDR of 0 gives no room. -/
def entryHdr (q : Fin 4) (f : Fetched) (seq : BitVec 16) : Hdr :=
  let e := f.entry
  let fl := e.getD 4 0
  { queue := q, seq := seq, emerg := fl.getLsbD 0, noack := fl.getLsbD 1, indirect := fl.getLsbD 2,
    resultLen := if leAt e 16 8 = 0 then 0 else par4 e 12, check := par4 e 8 }

/-- Refuse an entry under the expected sequence, with the opcode it carries. -/
def refuseEntry (h : Hdr) (op : Nat) (r : Rej) (s : State) : State :=
  refuse (newCmd h (.nopCommand h) { specNop.info with opcode := op } [] h.seq) r s

/-- Check one fetched entry, and accept or refuse its command (R146, R161). A command whose row itself reads host memory
(KRN_LOAD, TPZ_CTX_RESTORE) is left for that row, once the checks that need no image have passed. -/
def acceptEntry (q : Fin 4) (f : Fetched) (s : State) : State :=
  let exp := (queue s q.val).exp
  let e := f.entry
  let op := leAt e 2 2
  let plen := leAt e 6 2
  let h := entryHdr q f exp
  let no (r : Rej) : State := refuseEntry h op r s
  match cmdAt s q.val exp with
  | some c =>
    if !c.suspended then s
    else
      let good := decide (entryCheck f = h.check)
      let i : Instr := if good && op == 0 && plen == 0 then .nopCommand h else c.instr
      resubmit (if good then h else { h with check := ~~~c.check }) i c s
  | none =>
    if entryCheck f ≠ h.check then no (rej stBadCheck)
    else if par2 e 0 ≠ exp ∨ e.getD 5 0 ≠ 1 then no (rej stBadSequence)
    else match fixedSizes op with
      | none => no (rej stBadOpcode)
      | some fixed =>
        if 4080 < plen ∨ (!h.indirect ∧ 40 < plen) then no (badLength 0xFFFF)
        else if plen < fixed.sum then no (badLength (firstMissing fixed 0 plen))
        else
          let p := padTo plen (if h.indirect then f.params else e.drop 24)
          let res : Option Rej := if entryReserved f plen then none else some (badParam 0xFFFF)
          match readCmd op h p with
          | none =>
            match (parCheck op p { instr := .nopCommand h } none).orElse fun _ => res with
            | some r => no r
            | none => s
          | some rd =>
            match specOf rd.instr with
            | none => s
            | some sp =>
              let par := (parCheck op p rd sp.par).orElse fun _ => res
              scpAccept h rd.instr { sp with par := par } s

/-- The queue of the next fetched entry: queue 0 where it has one; among queues 1 to 3 the order in which their items reach Onyx is not stated
(R145), so any of them may be next. -/
def fetchedNext (s : State) : Option (Fin 4) :=
  let has (q : Fin 4) : Bool := !(queue s q.val).fetched.isEmpty
  if has 0 then some 0 else choose (([1, 2, 3] : List (Fin 4)).filter has) s

/-- COMMAND_ACCEPT: the next fetched entry. -/
def execCommandAccept (s : State) : Out :=
  .next (if !served s then s
    else match fetchedNext s with
      | none => s
      | some q => match (queue s q.val).fetched with
        | f :: _ => acceptEntry q f (if q = 0 then s else tookFree s)
        | [] => s)

/-! ### Commands that stand accepted -/

/-- A pair put in its place in a list that rises by the first component. -/
def insRise {α : Type} (x : Nat × α) : List (Nat × α) → List (Nat × α)
  | [] => [x]
  | y :: t => if x.1 ≤ y.1 then x :: y :: t else y :: insRise x t

/-- A list in rising order of the first component. -/
def sortRise {α : Type} (l : List (Nat × α)) : List (Nat × α) := l.foldr insRise []

/-- The un-retired commands that have been accepted and not begun, in the order of their acceptance. -/
def standing (s : State) : List Cmd := s.host.cmds.filter (fun c => c.started.isNone && c.fin.isNone)

/-- Execute every accepted command that nothing blocks, in acceptance order (R175). -/
def runStanding (s : State) : State :=
  if !served s then s
  else ((standing s).filter (fun c => mayRun c s)).foldl (fun s c => match specOf c.instr with | some sp => tryRun c.queue c.seq sp s | none => s) s

end Sys2Proof.Machine
end

