-- ==== Sys2Proof/Machine/Expire.lean ====
section
/-! DEFINITION. Timeouts of commands (R177, R194): what a command began is undone, and it ends with TIMEOUT. -/

namespace Sys2Proof.Machine

/-- A domain switch that a command asked for is taken back: still waiting, it is dropped; begun, the domain is switched
the other way. -/
def undoSwitch (d : Nat) (on : Bool) (s : State) : State :=
  let waiting := s.pwr.queue.contains (d, on)
  let begun := match s.pwr.cur with | some c => c.dom == d && c.on == on | none => false
  let s := { s with pwr := { s.pwr with queue := s.pwr.queue.filter (fun x => !(x == (d, on))), offAtMf := s.pwr.offAtMf.filter (fun x => on || x != d) } }
  let s := if on ∨ d < 8 then s
    else { s with voice := { s.voice with sched := { s.voice.sched with noRoom := s.voice.sched.noRoom.filter (fun g => g != d - 8) } } }
  if waiting then s else if begun then domReq d (!on) s else if on ∧ !domOn s d then wr (pllEn (domPll d)) 0 s else s

/-- Network management of one MSG that has not gone out is taken off a port's queue. -/
def dropMgmt (n : Nat) (msg : Byte) (s : State) : State :=
  modPlc n (fun v => { v with txq := v.txq.filter (fun u => !(u.ft == 5 && u.body.take 1 == [msg])) }) s

/-- PLC_JOIN is given up: the network, the node's address, its hops, the state and the parent are those from before it, and a JOIN_REQ
that waits does not go out. -/
def undoJoin (n : Nat) (e : List Nat) (s : State) : State :=
  let opt (k : Nat) : Option Nat := if e.getD k 0xFFFF = 0xFFFF then none else some (e.getD k 0xFFFF)
  let s := wr (plcNode n) (e.getD 7 0) (wr (plcHops n) (e.getD 8 0) (wr (plcNetid n) (e.getD 0 0) (wr (plcState n) (e.getD 3 1) (dropMgmt n 0x01 s))))
  modPlc n (fun v => { v with seek := e.getD 1 0, want := e.getD 2 0, parent := opt 4, coord := opt 5, cw := 4,
                              join := if e.getD 6 1 = 1 then .no else .listen 3 }) s

/-- A change of an enabled slot is given up: one that waits is dropped; a fade in progress goes back to the bank it came
from. -/
def undoFade (i : Nat) (e : List Nat) (s : State) : State :=
  let o := slot s i
  match o.pend with
  | some _ => setSlot i { o with pend := none } s
  | none =>
    if o.fadeN = 0 then s
    else
      let b := 1 - rd s (sscBank i)
      let s := setSlot i { o with fadeN := 0, fadeK := 0, gdNext := none, tau := if e.getD 2 0 = 0 then none else some (sx 32 (e.getD 2 0 - 1)) } s
      let t := (bankOf s i b).length
      let s := wr (sscBank i) b (wr (sscFade i) 0 (wr (sscHb i) (e.getD 0 0) (wr (sscFadeMs i) (e.getD 1 0) (wr (sscT i) t s))))
      opalUpd (wr (sscNsettle i) (nSettle t (rd s (sscD i)) (rd s (sscMedian i))) (wr (sscGdelay i) (slotGd s i) s))

/-- The moves that a command on cores has asked for are not made; a channel whose move is in the schedule in force has
made it. -/
def undoMoves (chs : List Nat) (s : State) : State :=
  let sc := s.voice.sched
  let s := { s with voice := { s.voice with sched := { sc with moves := sc.moves.filter (fun m => !(chs.contains m.1)) } } }
  chs.foldl (fun s ch => modChan ch (fun c => { c with moveTo := none }) s) s

/-- What a command had begun when its timeout expired is undone (R177, Table 7.4). -/
def undo (c : Cmd) (s : State) : State :=
  match c.wait with
  | .commit => (match c.instr with | .chActivate _ ch _ _ => unbindLocal ch.toNat s | _ => s)
  | .frame _ => (match c.instr with | .chActivate _ ch _ _ => unbindLocal ch.toNat s | _ => s)
  | .domain d => (match c.instr with | .domainPower _ _ on => undoSwitch d (on == 1) s | _ => s)
  | .link p =>
    (match c.instr with
     | .portReturn _ _ => if ethSt s p = 5 then wr (ethForceDown p) 1 s else s
     | _ => if ethSt s p = 0 then wr (ethEn p) 0 s else s)
  | .plcCal n => plcOut n (modPlc n (fun v => { v with calibrating := false }) s)
  | .plcJoin n => undoJoin n c.early s
  | .plcLeave n => dropMgmt n 0x04 s
  | .plcMap n => modPlc n (fun v => { v with next := none, mapCasts := 0 }) s
  | .fade i => undoFade i c.early s
  | .tdm p => wr (tdmEn p) 0 (wr (tdmState p) 0 (wr (tdmCand p) 0 (setTdm p { tdmPort s p with settleAt := none } s)))
  | .tpz ctx => abandonJob ctx s
  | .fuse => { s with boot := { s.boot with fuseWait := s.boot.fuseWait.dropLast } }
  | .agate => abortRuns (fun r => r.cmd == some (c.queue, c.seq)) false s
  | .core _ => undoMoves c.early s
  | .recorder n => (match tblFind n s.voice.recs with | some r => setRec n { r with stopping := false } s | none => s)
  | _ => s

/-- The timeout of a command is expiring: it is executing, Onyx runs, and an OO command has not begun its irreversible step: its eFuse operation
waits for the one under way (R177, R205). -/
def expires (c : Cmd) (s : State) : Bool :=
  c.started.isSome && c.fin.isNone && due s c.deadline && (decide (c.idem ≠ .oo) || (c.wait == .fuse && !s.boot.fuseWait.isEmpty)) && onyxUp s

/-- COMMAND_TIMEOUT (R177). A recorder's context goes where REC_START leaves no recorder. -/
def execCommandTimeout (q : Fin 4) (seq : BitVec 16) (s : State) : Out :=
  .next (match cmdAt s q.val seq with
    | some c => if expires c s then recTidy (finish c stTimeout [] (undo c s)) else s
    | none => s)

end Sys2Proof.Machine
end

