-- ==== Sys2Proof/Machine/Tail.lean ====
section
/-! DEFINITION. The ledger's tail as rows of their own: an entry opened, filled and committed step by step (R206), for the command that Onyx has
checked, and what becomes of a command whose entry the Sealer completes (R197, R222). -/

namespace Sys2Proof.Machine

/-- The command whose entry Onyx opens: that of the next fetched entry, once its checks have passed, if it is of this KIND and these FLAGS. -/
def toAccept (kind : Nat) (noack emerg : Bool) (s : State) : Option Cmd :=
  if !served s then none
  else match fetchedNext s with
    | none => none
    | some q => match (queue s q.val).fetched with
      | [] => none
      | f :: _ =>
        let t := acceptEntry q f s
        (t.host.cmds.find? (fun c => c.lref.isSome && (cmdAt s c.queue c.seq).isNone)).filter (fun c =>
          match c.lref with
          | some i => decide ((entry t i).kind.toNat = kind) && c.noack == noack && c.emerg == emerg
          | none => false)

/-- LEDGER_OPEN: of a FREE entry, one at a time, when the tier admits it (R196, R206, R213). -/
def execLedgerOpen (index : BitVec 14) (kind : BitVec 8) (noack emerg : Bool) (tag : BitVec 24) (s : State) : Out :=
  let i := index.toNat
  let k := kind.toNat
  .next (ledgerWrite tag (fun s =>
    if s.ledger.tail.isNone ∧ (entry s i).state = 0 ∧ 1 ≤ k ∧ k ≤ 4 ∧ admitted (kindTier k emerg) 1 s then
      let t := ledgerOpen i k noack emerg s
      let c := (toAccept k noack emerg s).map (fun (c : Cmd) => { c with lref := some i, lsn := s.ledger.nextLsn.toNat, early := [] })
      { t with ledger := { t.ledger with tail := t.ledger.tail.map (fun (x : LTail) => { x with cmd := c }) } }
    else s) s)

/-- The words W2 to W5 of an open entry that has none yet: those of its command; of an entry opened for no command that Onyx holds the row does
not say what the work is (log 2). -/
def fillOpen (s : State) : State :=
  match s.ledger.tail with
  | some t =>
    if t.mask = 15 then s
    else match t.cmd with
      | some c =>
        ledgerFill (idemCode c.idem) (c.queue + c.seq.toNat * 0x100 + c.opcode * 0x1000000) (recKib c.opcode) (objCode c.objs) c.check s
      | none =>
        let k := (entry s t.index).kind.toNat
        let idem := if 3 ≤ k then 0xFF else Config.freeNat s.free % 3
        let s1 := tookFree s
        let o := (freeBits 56 s1).toNat
        let s2 := tookFree s1
        ledgerFill idem o 1 0xFFFF (freeBits 32 s2) (tookFree s2)
  | none => s

/-- A command whose entry is LIVE takes its place among the accepted ones, with what its acceptance settles. -/
def enlist (c : Cmd) (s : State) : State :=
  let s := if (queue s c.queue).exp = c.seq then takeSeq c.queue s else s
  updQ c.queue (match specOf c.instr with | some sp => sp.acc c (addCmd c s) | none => addCmd c s)

/-- LEDGER_COMMIT (R206, steps 2 to 4): its command is accepted, and its ACCEPTED entry held (R149). -/
def execLedgerCommit (tag : BitVec 24) (s : State) : Out :=
  .next (ledgerWrite tag (fun s =>
    let s := fillOpen s
    let c := s.ledger.tail.bind (·.cmd)
    let s := ledgerCommit s
    match c with
    | some c =>
      let s := enlist c s
      if c.noack then s else pushCpl c.queue (acceptedCpl c stAccepted 0) s
    | none => s) s)

end Sys2Proof.Machine
end

