-- ==== Sys2Proof/Machine/Replay.lean ====
section
/-! DEFINITION. S10: the configuration restored from its shadow and the Work Ledger replayed; the replay of an Onyx restart
(R116, R128, R209 to R212, R222, R480, R514). -/

namespace Sys2Proof.Machine

/-! ### The configuration (R128, R514) -/

/-- A register's configuration bits from the shadow; the other bits as they are. -/
def putCfgWord (k : Nat) (w : Word32) (s : State) : State :=
  let m := (cfgWord k 0xFFFFFFFF).getD 0
  wrW k ((rdW s k &&& ~~~m) ||| w) s

/-- The register file's part of the shadow: a port that S8 left out keeps what S8 gave it, and PLC ports come into service one by
one below. -/
def restoreRegs (sh : Shadow) (s : State) : State :=
  let left := (fromN 0 8).filter (fun p => ethSt s p == 5)
  let s := sh.regs.foldl (fun s e => putCfgWord e.1 e.2 s) s
  let s := left.foldl (fun s p => wr (ethEn p) 0 s) s
  let s := ((fromN 0 8).filter (fun p => !flag s (ethEn p) && ethSt s p != 5)).foldl (fun s p => wr (ethState p) 0 (wr (ethLink p) 0 s)) s
  (fromN 0 4).foldl (fun s n => wr (plcEn n) 0 (wr (plcState n) 0 s)) s

/-- A running channel whose core is not in service is STALLED (R493). -/
def restoreChans (s : State) : State :=
  let s := s.voice.chans.foldl (fun s e =>
    if e.2.st = 2 ∧ 3 ≤ (core s e.2.core).st then setChan e.1 { e.2 with st := 4, stall := 9 } s else s) s
  allCores.foldl (fun s n => coreBusy n s) s

/-- Every context is FREE but those that accepted work needs, and hold what the checkpoints put back; that of the recorders is theirs again
(R452, Edges of Chapter 16). -/
def restoreCtxs (s : State) : State :=
  let s := unclaimIf (fun c => c.cls == 4 && !(c.obj == 0xFFFF && c.holder == 0) && !ctxNeeded s c.idx) s
  ckRestore (s.claims.foldl (fun s c =>
    if c.cls = 4 ∧ c.holder = 0x00 ∧ c.obj = 0xFFFF then { s with voice := { s.voice with recCtx := some c.idx } } else s) s)

/-- Restore the provisioned configuration from the shadow. -/
def restoreConfig (sh : Shadow) (s : State) : State :=
  let plcOn := (fromN 0 4).filter (fun n => match tblFind (plcEn n).key sh.regs with | some w => decide (w.toNat / 2 ^ (plcEn n).lo % 2 = 1) | none => false)
  let tdmOn := (fromN 0 16).filter (fun p => match tblFind (tdmEn p).key sh.regs with | some w => decide (w.toNat / 2 ^ (tdmEn p).lo % 2 = 1) | none => false)
  let s := restoreRegs sh s
  let s := { s with gar := { s.gar with kernels := sh.kernels }, voice := { sh.voice with sched := s.voice.sched },
                    net := { sh.net with ports := s.net.ports, rx := s.net.rx }, plc := sh.plc, opal := sh.opal, tdm := sh.tdm, claims := sh.claims,
                    host := { s.host with notifyMask := sh.notifyMask }, onyx := { s.onyx with emergReserve := sh.emergReserve } }
  let s := (allCores.filter (fun n => decide ((core s n).st ≤ 2))).foldl (fun s n => loadKernels n s) s
  let s := restoreCtxs (restoreChans s)
  let s := opalUpd (s.opal.foldl (fun s e => if flag s (sscEn e.1) then restartSettle e.1 s else s) s)
  let s := tdmOn.foldl (fun s p =>
    let v := { tdmPort s p with settleAt := some (now s + 2000) }
    wr (tdmEn p) 1 (wr (tdmCand p) 0 (wr (tdmState p) (if intFs s p && !inBand s p then 2 else 0) (setTdm p v s)))) s
  (plcOn.filter (fun n => s.boot.cfg.plcEn.getLsbD n && !s.onyx.degraded.contains (0x51, n))).foldl (fun s n =>
    plcInService n (BitVec.ofNat 16 (rd s (plcRxdly n))) (BitVec.ofNat 16 (rd s (plcTxdly n))) s) s

/-! ### Replay of one entry (R209, R210, Table 8.6) -/

/-- An object that was provisioned and is not there. -/
def objAbsent (s : State) (o : Obj) : Bool :=
  match o with
  | .chan n => (chan? s n).isNone
  | .group n => (tblFind n s.voice.groups).isNone
  | .flow n => (flow? s n).isNone
  | .slot n => !(slot s n).conf
  | .tdm n => !tdmConf s n
  | .plc n => !(plcP s n).conf
  | .kernel n => (tblFind n s.gar.kernels).isNone
  | .recorder n => (tblFind n s.voice.recs).isNone
  | _ => false

/-- A command that makes its object needs no configuration of it. -/
def makesObject (i : Instr) : Bool :=
  match i with
  | .chCreate _ _ _ => true
  | .groupCreate _ _ _ _ _ => true
  | .flowAdd _ _ _ _ _ _ _ _ _ _ _ => true
  | .sscSlotCfg _ _ _ _ _ _ _ _ _ => true
  | .tdmPortCfg _ _ _ _ _ => true
  | .plcPortCfg _ _ _ _ _ _ _ _ _ _ _ _ _ => true
  | .krnLoad _ _ _ _ _ => true
  | _ => false

/-- The work of a command is held by a unit that an Onyx restart does not reset, or by the dispatcher (R210). -/
def heldOutside (c : Cmd) : Bool :=
  match c.wait with
  | .idle => false
  | .commit => false
  | .core _ => false
  | _ => true

/-- An entry is poisoned by replay: what its command is told is REPLAYED (R209, R211). -/
def replayPoison (i cause : Nat) (s : State) : State :=
  poison i cause (match s.host.cmds.find? (fun c => c.lref == some i) with | some c => setCmd { c with replayed := true } s | none => s)

/-- The ACCEPTED entry of a replayed command, if it has not been written; what is held already is REPLAYED too (R209). -/
def reAccept (c : Cmd) (s : State) : State :=
  let mark : Cpl → Cpl := fun (x : Cpl) => if x.seq == c.seq && decide (x.typ ≤ 2) then { x with replayed := true } else x
  let v := queue s c.queue
  let s := setQueue c.queue { v with held := v.held.map mark } s
  match c.lref with
  | some i =>
    let sent := (entry s i).flags.getLsbD 1
    let here := v.held.any (fun x => x.seq == c.seq && x.typ == 1)
    if sent || c.noack || c.suspended || here || c.fin.isSome then s else pushCpl c.queue (acceptedCpl { c with replayed := true } stAccepted 0) s
  | none => s

/-- Execute a replayed command again. -/
def reExecute (c : Cmd) (s : State) : State :=
  let early := match c.wait with | .core _ => [] | _ => c.early
  let s := match c.wait with | .core _ => undoMoves c.early s | _ => s
  let c := { c with started := none, wait := .idle, deadline := none, replayed := true, early := early }
  let s := setCmd c s
  match specOf c.instr with
  | some sp => tryRun c.queue c.seq sp s
  | none => s

/-- The effect of an OO command that had begun its irreversible step, and has not ended, is present: its eFuse operation
stands. -/
def effectStands (c : Cmd) (s : State) : Bool :=
  match c.wait with
  | .fuse => s.boot.fuseOp.isSome || !s.boot.fuseWait.isEmpty
  | _ => false

/-- How far a once-only command has come: of AGT_REPAIR_FUSE the entries of its plan that stand in the fuse store (R209). -/
def progress (c : Cmd) (s : State) : List Byte :=
  match c.instr with
  | .agtRepairFuse _ r _ =>
    let plan := match tblFind r.toNat s.agt.results with | some v => v.plan | none => []
    le 2 (plan.filter (fun w => s.boot.fuses.repairs.any (fun x => x.word == w && !x.bad))).length
  | _ => []

/-- A command accepted before, which this replay has executed again, names one of the same objects: what is not there may be so by its effect (R175). -/
def earlierOn (c : Cmd) (s : State) : Bool :=
  s.host.cmds.any (fun d => decide (d.lsn < c.lsn) && d.objs.any (fun o => c.objs.contains o) &&
    (d.fin.isNone || (match d.lref with | some i => (entry s i).flags.getLsbD 4 | none => false)))

/-- The work needs configuration that the shadow has not brought back (Table 8.7, cause 5). -/
def configGone (c : Cmd) (s : State) : Bool := !makesObject c.instr && c.objs.any (objAbsent s) && !earlierOn c s

/-- Replay a KIND 1 or KIND 2 entry by its PHASE and IDEM. -/
def replayCmd (atS10 : Bool) (i : Nat) (c : Cmd) (s : State) : State :=
  let ph := (entry s i).phase.toNat
  let s := reAccept c s
  let c := { c with replayed := true }
  let s := setCmd c s
  if 3 ≤ ph then s
  else if c.wait = .reset then s
  else if !atS10 && heldOutside c then s
  else match c.wait with
    | .assured fl _ =>
      (match flow? s fl with
       | some f => if f.out.any (fun m => m.lref == i) then pump fl s else replayPoison i 5 s
       | none => replayPoison i 5 s)
    | _ =>
      if atS10 && configGone c s then replayPoison i 5 s
      else if ph = 2 then (if effectStands c s then s else finish c stFaulted (progress c s) (journal 0x102 0x02 8 i 0 (entryEvidence (entry s i)) s))
      else reExecute c s

/-- Replay a KIND 3 entry: its message is still to be delivered on its flow, and its acknowledgement is sent again (R210). The
address of a node that sent over the powerline, which the entry does not hold, is free (log 2). -/
def replayMsg (i : Nat) (s : State) : State :=
  let o := (entry s i).origin.toNat
  let fl := o / 256 % 65536
  let ing := o % 256
  match flow? s fl with
  | none => replayPoison i 5 s
  | some f =>
    if !f.out.any (fun m => m.lref == i) then replayPoison i 4 s
    else
      let s := if 0x50 ≤ ing then
          plcPut (ing - 0x50) { ctlUnit 4 (Config.freeNat s.free % 4096) (le 2 (f.nextSeq - 1).toNat ++ [BitVec.ofNat 8 (creditOf f), 0]) s with
                                lchan := f.linkchan } (flowBump fl 48 (tookFree s))
        else sendAck fl (ing - 0x40) (f.nextSeq - 1) s
      pump fl s

/-- Replay a KIND 4 entry: its SEGMENT entry is written again (R210); one whose record names no segment is poisoned. -/
def replaySeg (i : Nat) (s : State) : State :=
  if !s.host.segs.any (fun g => g.lref == i) then replayPoison i 4 s
  else { s with host := { s.host with segs := s.host.segs.map (fun (g : Seg) => if g.lref = i then { g with written := false } else g) } }

/-- A command of which no record is left: what its entry says of it. -/
def recordless (i : Nat) (s : State) : Option Cmd :=
  let o := (entry s i).origin.toNat
  let seq := BitVec.ofNat 16 (o / 256)
  if h : o % 256 < 4 then
    if (cmdAt s (o % 256) seq).isSome then none
    else
      let hd : Hdr := { queue := ⟨o % 256, h⟩, seq := seq, emerg := false, noack := false, indirect := false, resultLen := 0, check := (entry s i).check }
      some { newCmd hd (.nopCommand hd) { specNop.info with opcode := o / 0x1000000 % 65536 } [] seq with lref := some i, lsn := (entry s i).lsn.toNat }
  else none

/-- A KIND 1 or KIND 2 entry of which no command stands: the Sealer has completed it, and its record brings the command; or no record is left, and
it ends POISONED, or is released where its ORIGIN names no queue (R197, R211). -/
def replaySealed (atS10 : Bool) (i : Nat) (s : State) : State :=
  match s.ledger.sealed.find? (fun c => c.lref == some i) with
  | some c => replayCmd atS10 i c (enlist c { s with ledger := { s.ledger with sealed := s.ledger.sealed.filter (fun d => d.lref != some i) } })
  | none => match recordless i s with
    | some c => replayPoison i 4 (enlist c s)
    | none => ledgerRelease i (replayPoison i 4 s)

/-- Replay one LIVE entry; `bad` names those whose retained record fails its check. -/
def replayOne (atS10 ddrLost : Bool) (bad : List Nat) (i : Nat) (s : State) : State :=
  let e := entry s i
  let k := e.kind.toNat
  if e.state ≠ 0xE1 ∨ e.phase = 5 then s
  else if entryUe s i then replayPoison i 2 s
  else if !bchkOk e ∨ (e.phase = 2 ∧ e.idem ≠ 2) then replayPoison i 3 s
  else if ddrLost ∨ bad.contains i then (if k ≤ 2 ∧ !s.host.cmds.any (fun c => c.lref == some i) then (match recordless i s with
    | some c => replayPoison i 4 (enlist c s)
    | none => ledgerRelease i (replayPoison i 4 s)) else replayPoison i 4 s)
  else if k = 3 then replayMsg i s
  else if k = 4 then replaySeg i s
  else match s.host.cmds.find? (fun c => c.lref == some i) with
    | some c => replayCmd atS10 i c s
    | none => replaySealed atS10 i s

/-- The STATE codes of Table 8.3. -/
def stateListed (e : LEntry) : Bool := e.state == 0 || e.state == 0x1E || e.state == 0xE1 || e.state == 0x78

/-- Entries whose STATE is no listed code are poisoned as CORRUPT, and freed where their check fails too (R209); VOID entries,
which the journal names, are freed (R208). -/
def sweep (s : State) : State :=
  s.ledger.entries.foldl (fun s x =>
    let i := x.1
    let e := x.2
    if e.state = 0x78 then ledgerRelease i s
    else if stateListed e then s
    else if bchkOk e then replayPoison i 3 s
    else ledgerRelease i (journal 0x102 0x02 7 i 3 (entryEvidence e) s)) s

/-- The LIVE entries in LSN order. -/
def liveOrder (s : State) : List Nat :=
  (sortRise ((s.ledger.entries.filter (fun e => e.2.state == 0xE1)).map (fun e => (e.2.lsn.toNat, e.1)))).map (·.2)

/-- An Onyx restart replays every LIVE entry in LSN order. -/
def replayAll (bad : List Nat) (s : State) : State :=
  let s := sweep s
  segNextUpd ((liveOrder s).foldl (fun s i => replayOne false false bad i s) s)

/-- The indexes of uncorrectable words that wait in the scrubber's registers and are not in the journal of this start are
taken up (R95). -/
def takeUes (s : State) : State :=
  ((fromN 0 (rd s scrubUeN)).map (fun k => rd s (scrubUe k))).foldl (fun s w =>
    if tblAny (fun _ (r : JRec) => r.code == 0x105 && decide (r.d0.toNat = w) && decide (s.journal.startSeq.toNat ≤ r.seq.toNat)) s.journal.recs then s
    else onyxUe w s) s

/-! ### S10 -/

/-- The shadow that S10 restores: its digest matches, and no word of the digest or of the retention area is uncorrectable (R95, R128). -/
def shadowAt (shadowOk : Bool) (s : State) : Option Shadow :=
  if shadowOk && s.boot.warm && !ueIn s wDigest (wTrain - wDigest) && !ueIn s wRetain (131072 - wRetain) then s.shadow else none

/-- REPLAY_IDX names the entry under replay; 0xFFFF_FFFF after the last (R116). The header's word is written whole. -/
def replayIdxPut (l : List Nat) (s : State) : State :=
  ueFix (wBoot + 3) 1 { s with boot := { s.boot with hdr := { s.boot.hdr with replayIdx := match l with | i :: _ => BitVec.ofNat 32 i | [] => 0xFFFFFFFF } } }

/-- S10 begins: the configuration, what the scrubber has found, the entry under which the last start ended, lease 0, and the sweep. -/
def replayBegin (shadowOk : Bool) (s : State) : State :=
  let s := match shadowAt shadowOk s with
    | some h => restoreConfig h s
    | none => { s with shadow := none }
  let s := takeUes s
  let r := s.boot.hdr.replayIdx
  let s := if r = 0xFFFFFFFF then s
    else
      let s := bootRec 10 kPolicy 1 1 r.toNat s
      if (entry s r.toNat).state = 0xE1 ∧ (entry s r.toNat).phase ≠ 5 then replayPoison r.toNat 1 s else s
  let s := sweep (leaseGrant 0 0 1 0 25000 s)
  { s with boot := { s.boot with replaying := some (liveOrder s) } }

/-- One entry of S10: REPLAY_IDX first, then its replay. -/
def replayStep (ddrLost : Bool) (bad : List Nat) (i : Nat) (s : State) : State := replayOne true ddrLost bad i (replayIdxPut [i] s)

/-- LEDGER_REPLAY: S10 goes on with its next entries in LSN order. The first time the configuration is restored before them: with the
shadow whose digest matches (R128). After the last entry the step ends; else the next one is under replay. -/
def execLedgerReplay (r : ReplayRun) (s : State) : Out :=
  .next (if !atStep 10 s || !onyxUp s || !bootPowered s 10 then s
    else
      let s := if s.boot.replaying.isNone then replayBegin r.shadowOk s else s
      let l := s.boot.replaying.getD []
      let s := (l.take r.count).foldl (fun s i => replayStep (decide (128 ≤ s.boot.hdr.ddrstate)) r.bad i s) s
      let rest := l.drop r.count
      let s := replayIdxPut rest { s with boot := { s.boot with replaying := some rest } }
      if rest.isEmpty then
        let s := segNextUpd s
        stepDone 10 { s with boot := { s.boot with replaying := none, hdr := { s.boot.hdr with ddrstate := s.boot.hdr.ddrstate % 128 } } }
      else s)

/-! ### An Onyx restart (R480 to R483) -/

/-- What waited in the Onyx boundary queue is recorded, or fires its rules, in order (R42, R300). -/
def flushEvents (s : State) : State :=
  let l := s.onyx.events
  l.foldl (fun s d => match d with
    | .rule t x k => ruleFire t x k s
    | .ack fl q c p => acked fl q c p s
    | .mgmt n fr b => mgmtDo n fr b s
    | d => post d s) { s with onyx := { s.onyx with events := [] } }

/-- Onyx empties the rejection buffers that filled while it restarted (R44). -/
def drainAll (s : State) : State :=
  s.fab.rej.foldl (fun s e => if e.2.buf = [] ∧ !e.2.overflow then s else drainRej e.1 s) s

/-- Time during the restart does not count towards a timeout (R177). -/
def shiftDeadlines (us : Nat) (s : State) : State :=
  { s with host := { s.host with cmds := s.host.cmds.map (fun (c : Cmd) => { c with deadline := c.deadline.map (· + us) }) } }

/-- A heartbeat that changed while Onyx restarted ends HOST_ABSENT (R157). -/
def lateHeartbeat (s : State) : State :=
  if s.host.absent ∧ rd s hbHeartbeat ≠ s.host.hbPrev.toNat then refresh { s with host := { s.host with absent := false, hbMisses := 0 } } else s

/-- ONYX_RESUME: the state is rebuilt, lease 0 granted, leases left EXPIRED revoked, and the ledger replayed. A
LOCKSTEP_DEGRADED of the restart is recorded now. An entry whose retained record fails its check is not carried out (R209). -/
def execOnyxResume (s : State) : Out :=
  .next (if s.onyx.phase ≠ .rebuild then s
    else
      let s := { s with onyx := { s.onyx with phase := .replay } }
      let s := leaseGrant 0 0 1 0 25000 (revokeWhere (fun l => l.state == 2) (drainAll (flushEvents s)))
      let s := match s.onyx.lateDegraded with
        | some c => lockstepDegraded c { s with onyx := { s.onyx with lateDegraded := none } }
        | none => s
      let s := lateHeartbeat (shiftDeadlines (now s - s.onyx.faultAt) (takeUes s))
      refresh (tpzDrain (if booted s ∨ s.boot.step = 11 ∨ s.boot.step = 12 then replayAll s.onyx.badRecs s else s)))

end Sys2Proof.Machine
end

