-- ==== Sys2Proof/Machine/Faults.lean ====
section
/-! DEFINITION. Faults and their answers: Onyx lockstep and restarts, PLLs, thermal levels, the violation log's windows, an
Ethernet port's failure, and the limit of the frozen schedule (Chapter 18). -/

namespace Sys2Proof.Machine

/-! ### Onyx restarts (R478 to R482, R484 to R488) -/

/-- Firmware has been loaded: the part of a start from S5 on, or service. -/
def loaded (s : State) : Bool := decide (6 ≤ s.boot.step) && s.onyx.phase != .off && !minimal s

/-- An Onyx restart begins, or begins again (R482): the cores are in reset, the Sealer acts, and the record waits in the Onyx
boundary queue. -/
def restartOnyx (code d0 d1 : Nat) (s : State) : State :=
  let again := booted s && s.onyx.phase != .running
  let s := { s with onyx := { s.onyx with phase := .rom, faultAt := if again then s.onyx.faultAt else now s } }
  refresh (wr faultCode code (journal code 0 1 d0 d1 [] (sealerAct false s)))

/-- The times of a list that lie in the last 60 s, and now. -/
def window60 (l : List Nat) (s : State) : List Nat := l.filter (fun t => decide (now s < t + 60000000)) ++ [now s]

/-- ONYX_MISMATCH: a restart, or a warm reset at the third within 60 s, or SAFE within 60 s of the start which that one brought
about (R484, R487). -/
def execOnyxMismatch (group : BitVec 32) (s : State) : Out :=
  .next (if !loaded s ∨ !s.onyx.checking ∨ s.onyx.masked ∨ s.pwr.safe then s
    else
      let l := window60 s.onyx.mismatches s
      let s := { s with onyx := { s.onyx with mismatches := l } }
      let soon := match s.onyx.persistentDone with | some t => decide (now s ≤ t + 60000000) | none => false
      if soon then enterSafe (journalNow 0x01 0 3 group.toNat l.length [] s)
      else if 3 ≤ l.length then
        warmReset 3 none (journalNow 0x06 0 2 0 0 [] { s with onyx := { s.onyx with persistent := true } })
      else restartOnyx 0x01 group.toNat l.length s)

/-- LOCKSTEP_DEGRADED, recorded now or, while Onyx restarts, when it resumes (R486, R488). -/
def raiseDegraded (cause : Nat) (s : State) : State :=
  if onyxUp s then lockstepDegraded cause s else { s with onyx := { s.onyx with lateDegraded := some (s.onyx.lateDegraded.getD cause) } }

/-- CHECKER_FAULT: mismatches are masked until the pair is in step again, and Onyx restarts (R485, R486). -/
def execCheckerFault (stage : BitVec 1) (s : State) : Out :=
  .next (if !loaded s ∨ !s.onyx.checking ∨ s.pwr.safe then s
    else
      let l := window60 s.onyx.checkers s
      let s := { s with onyx := { s.onyx with checkers := l, masked := true } }
      let s := restartOnyx 0x02 stage.toNat l.length s
      if 3 ≤ l.length then raiseDegraded 2 s else s)

/-- COMPARATOR_SELF_TEST, every 10 ms (R486). -/
def execComparatorSelfTest (ok' : Bool) (s : State) : Out :=
  .next (if !loaded s ∨ !s.onyx.checking ∨ s.pwr.safe ∨ ok' then s else raiseDegraded 1 s)

def execOnyxWdog (s : State) : Out := .next (if !loaded s ∨ s.pwr.safe then s else restartOnyx 0x04 0 0 s)

def execOnyxUe (mac : BitVec 16) (word : BitVec 32) (s : State) : Out :=
  .next (if !loaded s ∨ s.pwr.safe then s else restartOnyx 0x05 mac.toNat word.toNat s)

/-- CORE_DIGEST is the SHA-384 of the IMEM as it stands and the copy of the DMEM initial data (R479). -/
def retainedMatches (s : State) : Bool :=
  decide (Config.sha384 (s.onyx.imem ++ s.onyx.dmem) = BitVec.ofNat 384 (unBe ((s.boot.image.drop 0x20).take 48)))

/-- The core part is loaded again from USEDSLOT, read without an error and under the checks of R127. -/
def flashAgain (readOk : Bool) (s : State) : Bool := decide (imageCause s { slotImage s s.boot.hdr.usedslot with readOk := readOk } = 0)

/-- State rebuild begins. -/
def rebuildFrom (image : Nat) (bad : List Nat) (s : State) : State :=
  { s with onyx := { s.onyx with phase := .rebuild, masked := false, image := image, badRecs := bad } }

/-- ONYX_RESTART_IMAGE_CHECK: the retained image when neither IMEM nor the copy has an uncorrectable error, then USEDSLOT at the full rate, then at
50 MHz; when none passes, a warm reset (R479). -/
def execOnyxRestartImageCheck (kept : RetainedRead) (flash1Ok flash2Ok : Bool) (s : State) : Out :=
  .next (if !loaded s ∨ s.onyx.phase ≠ .rom then s
    else if kept.image && retainedMatches s then rebuildFrom 1 kept.bad s
    else if flashAgain flash1Ok s || flashAgain flash2Ok s then
      let u := s.boot.hdr.usedslot
      rebuildFrom 2 kept.bad (wr hbVer (slotImage s u).release.toNat (imageTake u (slotImage s u) s))
    else warmReset 3 none s)

/-! ### The limit of the frozen schedule (R20) -/

/-- FROZEN_SCHEDULE_LIMIT. -/
def execFrozenScheduleLimit (s : State) : Out :=
  .next (if s.voice.sched.running ∧ 64 ≤ s.voice.sched.frozen then
    enterSafe (wr faultCode 0x07 (journal 0x07 0 3 s.voice.sched.frozen 0 [] s))
  else s)

/-! ### PLLs (R53, R477) -/

/-- Of the claims that Opal and TDM lost with CK_AUD, those still free are theirs again. -/
def audClaims (s : State) : State :=
  { s.pwr.pllClaims.foldl (fun s c => claim c.cls c.idx c.holder c.obj s) s with pwr := { s.pwr with pllClaims := [] } }

/-- Nobody has taken what this slot, or this port (from 64 on), held. -/
def audHeld (s : State) (x : Nat) : Bool :=
  (s.pwr.pllClaims.filter (fun c => c.obj == x % 64 && c.holder == (if x < 64 then 0x58 else 0x59))).all (fun c => (claimOf s c.cls c.idx).isNone)

/-- Slots and ports that CK_AUD drove start again, those that hold their resources. -/
def audBack (l : List Nat) (s : State) : State :=
  let l := l.filter (audHeld s)
  let s := audClaims s
  let s := (l.filter (· < 64)).foldl (fun s i => restartSettle i (wr (sscEn i) 1 (setSlot i { slot s i with block := [] } s))) s
  let s := ((l.filter (64 ≤ ·)).map (· - 64)).foldl (fun s p =>
    let v := { tdmPort s p with prevFs := none, miss := 0, cands := [], ambig := 0, hist := [], err := false, settleAt := some (now s + 2000) }
    wr (tdmEn p) 1 (wr (tdmState p) (if intFs s p && !inBand s p then 2 else 0) (setTdm p v s))) s
  opalUpd s

/-- Opal slots and TDM ports without CK_AUD are out of service, and their claims are released (R495); which, so that they come back. -/
def audGone (s : State) : List Nat × State :=
  let sl := (fromN 0 64).filter (fun i => flag s (sscEn i))
  let pt := (fromN 0 16).filter (fun p => flag s (tdmEn p))
  let s := sl.foldl (fun s i => wr (sscRemain i) 0 (wr (sscEn i) 0 (setSlot i { slot s i with block := [], loop := [] } s))) s
  let s := pt.foldl (fun s p =>
    finishWait (.tdm p) stFaulted [] (wr (tdmEn p) 0 (wr (tdmState p) 0 (wr (tdmCand p) 0 (setTdm p { tdmPort s p with settleAt := none, tx := [] } s))))) s
  let mine (c : Claim) : Bool := (c.holder == 0x58 || c.holder == 0x59) && c.cls != 6
  let s := { s with pwr := { s.pwr with pllClaims := s.claims.filter mine } }
  (sl ++ pt.map (· + 64), opalUpd (unclaimIf mine s))

/-- A PLC port that its clock took out of service comes back with the delays of its last calibration, when its claims are free. -/
def plcAgain (n : Nat) (s : State) : State :=
  if (plcP s n).conf ∧ (claimOf s 1 (60 + n)).isNone ∧ (leasePool s).isSome then
    let s := claim 11 (0x8000 + n) (0x50 + n) n (claim 1 (60 + n) (0x50 + n) n s)
    plcInService n (BitVec.ofNat 16 (rd s (plcRxdly n))) (BitVec.ofNat 16 (rd s (plcTxdly n))) s
  else s

/-- What a PLL that locks again brings back. -/
def pllBack (p : Nat) (s : State) : State :=
  let l := tblGet s.pwr.pllOut p []
  let s := { s with pwr := { s.pwr with pllOut := tblDel p s.pwr.pllOut } }
  let s := if p = 7 ∧ domOn s 6 then audBack l s else if p = 8 ∧ domOn s 5 then l.foldl (fun s n => plcAgain n s) s else s
  undegrade 0x31 p s

/-- The domain that a command asked for, and that waited for its PLL. -/
def pllWaits (p : Nat) (s : State) : State :=
  (s.host.cmds.filter (fun c => c.fin.isNone)).foldl (fun s c => match c.wait, c.instr with
    | .domain d, .domainPower _ _ on =>
      if domPll d = p ∧ on = 1 ∧ (rd s (domStat d) = 0 ∨ rd s (domStat d) = 3) ∧ !s.pwr.queue.contains (d, true) then domReq d true s else s
    | _, _ => s) s

/-- PLL_LOCK. A cluster PLL that has lost lock has one attempt of its own row. -/
def execPllLock (pll : Fin 10) (s : State) : Out :=
  let p := pll.val
  .next (if !domOn s 1 ∨ !flag s (pllEn p) ∨ flag s (clkLock p) ∨ (tblFind p s.pwr.pllLost).isSome then s
    else romBegin (bootPll p (pllWaits p (pllBack p (wr (clkLock p) 1 s)))))

/-- PLL_UNLOCK: the answer of Table 18.2, by index. -/
def execPllUnlock (pll : Fin 10) (s : State) : Out :=
  let p := pll.val
  .next (if !flag s (clkLock p) ∨ !domOn s 1 then s
    else
      let s := wr (clkLock p) 0 s
      let out (l : List Nat) (s : State) : State := { s with pwr := { s.pwr with pllOut := tblSet p l s.pwr.pllOut } }
      let jr (resp : Nat) (s : State) : State := journal 0x31 0 resp p 0 [] s
      if p ≤ 1 then enterSafe (jr 3 s)
      else if p ≤ 5 then
        if clusterOn s (p - 2) then
          let s := { s with pwr := { s.pwr with pllLost := tblSet p (now s) s.pwr.pllLost } }
          degrade 0x31 p (domReq (6 + p) false (jr 4 s))
        else jr 8 s
      else if p = 6 then warmReset 3 none (jr 2 s)
      else if p = 7 then
        if rd s audActive = 0 ∧ domOn s 6 then let (l, s) := audGone (jr 4 s); degrade 0x31 p (out l s)
        else jr 8 s
      else if p = 8 then
        if domOn s 5 then
          let l := (fromN 0 4).filter (fun n => flag s (plcEn n))
          degrade 0x31 p (out l (l.foldl (fun s n => plcOut n s) (jr 4 s)))
        else jr 8 s
      else if domOn s 4 then degrade 0x31 p ((fromN 0 8).foldl (fun s k => linkLoss k s) (jr 4 s))
      else jr 8 s)

/-- PLL_RELOCK_ATTEMPT: on lock the cluster is switched on again, and its cores are tested as they come back. -/
def execPllRelockAttempt (pll : Fin 10) (locks : Bool) (s : State) : Out :=
  let p := pll.val
  .next (match tblFind p s.pwr.pllLost with
    | none => s
    | some t =>
      if p < 2 ∨ 5 < p ∨ !domOn s 1 ∨ !reached s (t + 1000000) then s
      else
        let s := { s with pwr := { s.pwr with pllLost := tblDel p s.pwr.pllLost } }
        if locks then undegrade 0x31 p (domReq (6 + p) true (wr (clkLock p) 1 s)) else wr (pllEn p) 0 s)

/-! ### Thermal levels (R505, R506) -/

def thermalAt (l : Nat) : Int := if l = 1 then 115 else if l = 2 then 120 else 130

/-- The record and the notification of an entry or exit. -/
def thermalNote (l resp : Nat) (s : State) : State :=
  let t := (s.onyx.temp + 64).toNat
  notify 14 t 0 (journal 0x70 0 resp l t [] s)

/-- Level 3: SAFE, with every cluster and PD_CMP switched off. -/
def thermalStop (s : State) : State :=
  let s := enterSafe { s with pwr := { s.pwr with shutdown := true } }
  ([8, 9, 10, 11, 7].filter (fun d => rd s (domStat d) == 2)).foldl (fun s d => domReq d false s) s

/-- Enter the levels reached. -/
def thermalUp : Nat → State → State
  | 0, s => s
  | n + 1, s =>
    let l := s.onyx.thermal + 1
    if l ≤ 3 ∧ thermalAt l ≤ s.onyx.temp then
      let s := thermalNote l (if l = 3 then 3 else 8) { s with onyx := { s.onyx with thermal := l } }
      thermalUp n (if l = 3 then thermalStop s else s)
    else s

/-- Leave the levels that are 5 °C away. -/
def thermalDown : Nat → State → State
  | 0, s => s
  | n + 1, s =>
    let l := s.onyx.thermal
    if 1 ≤ l ∧ s.onyx.temp ≤ thermalAt l - 5 then
      thermalDown n (thermalNote l 8 { s with onyx := { s.onyx with thermal := l - 1 } })
    else s

/-- THERMAL_SAMPLE, every 1 ms. -/
def execThermalSample (temp : Int) (s : State) : Out :=
  .next (if !domOn s 1 then s else thermalDown 3 (thermalUp 3 { s with onyx := { s.onyx with temp := temp } }))

/-! ### The Protocol Violation Log's windows (R504) -/

/-- VIOLATION_RATE_WINDOW_END: summaries of what exceeded its limit, then the next window, with the device-wide summary first. One due while
Onyx restarts is written when it has resumed (Edges of Chapter 18). -/
def execViolationRateWindowEnd (s : State) : Out :=
  .next (if !onyxUp s ∨ !reached s (s.pvl.since + 60000000) then s
    else
      let mk (w : VWin) (n : Nat) (at' : BitVec 64) : VRec :=
        { index := 0, iface := w.iface, port := w.port, vcode := w.vcode, action := w.action, summary := true, flow := 0xFFFF,
          count := BitVec.ofNat 32 n, rtb := at', partner := padTo 8 [], evidence := padTo 28 [] }
      let s := (s.pvl.win.filter (fun w => 0 < w.n)).foldl (fun s w =>
        if 512 ≤ s.pvl.written then
          { s with pvl := { s.pvl with excess := satAdd 32 s.pvl.excess 1, exFirst := if s.pvl.excess = 0 then w.first else s.pvl.exFirst } }
        else pvlWrite (mk w w.n w.first) s) s
      let p := s.pvl
      let all : VWin := { iface := 0, port := 0, vcode := 0xFFFF, action := 5, n := p.excess, first := p.exFirst, w := 0 }
      let s := { s with pvl := { p with win := [], written := 0, excess := 0, exFirst := 0, since := p.since + 60000000 } }
      if 0 < p.excess then pvlWrite (mk all p.excess p.exFirst) s else s)

/-! ### Ethernet (R477, R337 to R341) -/

/-- ETH_PORT_FAILURE: the port goes OUT_OF_SERVICE by way of a link loss. -/
def execEthPortFailure (port : Fin 8) (s : State) : Out :=
  let p := port.val
  .next (if !domOn s 4 ∨ ethSt s p = 0 ∨ ethSt s p = 5 then s
    else
      let s := linkLoss p (wr (ethForceDown p) 1 s)
      let s := if ethSt s p = 3 then portOut p s else s
      degrade 0x50 p (journal 0x50 (0x40 + p) 4 p 0 [] s))

end Sys2Proof.Machine
end

