-- ==== Sys2Proof/Machine/GarnetAcc.lean ====
section
/-! DEFINITION. Garnet accumulator ALU instructions (GRP 2; Table 10.4, R242, R243). -/

namespace Sys2Proof.Machine

/-- A lane of an accumulator as a signed number, for an accumulator operation. -/
def accI (c : CoreSt) (r : BitVec 2) (lane : Nat) : Int := (accNow c (2 * r.toNat + lane)).toInt

/-- A lane of an accumulator as a signed number, for a store, move or compare. -/
def accOldI (c : CoreSt) (r : BitVec 2) (lane : Nat) : Int := (accOld c (2 * r.toNat + lane)).toInt

/-- A lane of X or Y scaled to the accumulator: × 2^24. -/
def xyScaled (c : CoreSt) (r : BitVec 4) (lane : Nat) : Int :=
  (if lane = 0 then laneH (xy c r.toNat) else laneL (xy c r.toNat)).toInt * 16777216

/-- An accumulator operation that writes `ad` in each lane. -/
def accOp (ad : BitVec 2) (flags : Bool) (pm1 pm2 : PMove) (f : CoreSt → Nat → LaneRes 56) (c : CoreSt) : GRes :=
  withMoves c pm1 pm2 (putAcc ad (f c 0) (f c 1) flags)

/-- A comparison: flags alone, of the wrapped value (log 14). -/
def accCmp (pm1 pm2 : PMove) (f : CoreSt → Nat → Int) (c : CoreSt) : GRes :=
  withMoves c pm1 pm2 (.done { noWrites with zn := some (znBits (accLane (f c 0)) (accLane (f c 1))) })

/-- An accumulator moved to X or Y in each lane. -/
def accToXy (r : BitVec 4) (pm1 pm2 : PMove) (f : CoreSt → Nat → LaneRes 24) (c : CoreSt) : GRes :=
  withMoves c pm1 pm2 (putXy r (f c 0) (f c 1) false)

/-- Clamped to −2^47 … 2^47 − 1, with SOV (SATA). -/
def sataLane (x : Int) : LaneRes 56 := { laneOf (BitVec.ofInt 56 (satTo 48 x)) with sov := outOf 48 x }

/-- CLRA. -/
def execClra (c : Fin 48) (ad : BitVec 2) (pm1 pm2 : PMove) (s : State) : Out :=
  .next (garnet c.val .plain (accOp ad false pm1 pm2 (fun _ _ => accLane 0)) s)

/-- MOVA: a move of As. -/
def execMova (c : Fin 48) (ad as' : BitVec 2) (pm1 pm2 : PMove) (s : State) : Out :=
  .next (garnet c.val .plain (accOp ad false pm1 pm2 (fun x l => accLane (accOldI x as' l))) s)

/-- ADDA. -/
def execAdda (c : Fin 48) (ad as' : BitVec 2) (pm1 pm2 : PMove) (s : State) : Out :=
  .next (garnet c.val .plain (accOp ad true pm1 pm2 (fun x l => accLane (accI x ad l + accI x as' l))) s)

/-- SUBA. -/
def execSuba (c : Fin 48) (ad as' : BitVec 2) (pm1 pm2 : PMove) (s : State) : Out :=
  .next (garnet c.val .plain (accOp ad true pm1 pm2 (fun x l => accLane (accI x ad l - accI x as' l))) s)

/-- NEGA. -/
def execNega (c : Fin 48) (ad as' : BitVec 2) (pm1 pm2 : PMove) (s : State) : Out :=
  .next (garnet c.val .plain (accOp ad true pm1 pm2 (fun x l => accLane (-accI x as' l))) s)

/-- ABSA: of the most negative value the exact result wraps, as NEGA (R242). -/
def execAbsa (c : Fin 48) (ad as' : BitVec 2) (pm1 pm2 : PMove) (s : State) : Out :=
  .next (garnet c.val .plain (accOp ad true pm1 pm2 (fun x l => accLane (accI x as' l).natAbs)) s)

/-- CMPA. -/
def execCmpa (c : Fin 48) (ad as' : BitVec 2) (pm1 pm2 : PMove) (s : State) : Out :=
  .next (garnet c.val .plain (accCmp pm1 pm2 (fun x l => accOldI x ad l - accOldI x as' l)) s)

/-- TSTA. -/
def execTsta (c : Fin 48) (as' : BitVec 2) (pm1 pm2 : PMove) (s : State) : Out :=
  .next (garnet c.val .plain (accCmp pm1 pm2 (fun x l => accOldI x as' l)) s)

/-- MAXA. -/
def execMaxa (c : Fin 48) (ad as' : BitVec 2) (pm1 pm2 : PMove) (s : State) : Out :=
  .next (garnet c.val .plain (accOp ad true pm1 pm2 (fun x l => accLane (max (accI x ad l) (accI x as' l)))) s)

/-- MINA. -/
def execMina (c : Fin 48) (ad as' : BitVec 2) (pm1 pm2 : PMove) (s : State) : Out :=
  .next (garnet c.val .plain (accOp ad true pm1 pm2 (fun x l => accLane (min (accI x ad l) (accI x as' l)))) s)

/-- ASLA: a count above 55 is no encoding. -/
def execAsla (c : Fin 48) (ad as' : BitVec 2) (k : BitVec 6) (pm1 pm2 : PMove) (s : State) : Out :=
  .next (garnet c.val .plain (fun x => if 55 < k.toNat then excIllegal else
    accOp ad false pm1 pm2 (fun x l => accLane (shiftBy (accI x as' l) k.toNat)) x) s)

/-- ASRA: a count above 55 is no encoding. -/
def execAsra (c : Fin 48) (ad as' : BitVec 2) (k : BitVec 6) (pm1 pm2 : PMove) (s : State) : Out :=
  .next (garnet c.val .plain (fun x => if 55 < k.toNat then excIllegal else
    accOp ad false pm1 pm2 (fun x l => accLane (shiftBy (accI x as' l) (-(k.toNat : Int)))) x) s)

/-- ASHA: each lane by the signed lane of R, clamped to ±56. -/
def execAsha (c : Fin 48) (ad as' : BitVec 2) (r : BitVec 4) (pm1 pm2 : PMove) (s : State) : Out :=
  .next (garnet c.val .plain (accOp ad false pm1 pm2 (fun x l =>
    accLane (shiftBy (accI x as' l) (clampI 56 (if l = 0 then laneH (xy x r.toNat) else laneL (xy x r.toNat)).toInt)))) s)

/-- LDAH. -/
def execLdah (c : Fin 48) (ad : BitVec 2) (r : BitVec 4) (pm1 pm2 : PMove) (s : State) : Out :=
  .next (garnet c.val .plain (accOp ad false pm1 pm2 (fun x l => accLane (xyScaled x r l))) s)

/-- ADDAR. -/
def execAddar (c : Fin 48) (ad : BitVec 2) (r : BitVec 4) (pm1 pm2 : PMove) (s : State) : Out :=
  .next (garnet c.val .plain (accOp ad true pm1 pm2 (fun x l => accLane (accI x ad l + xyScaled x r l))) s)

/-- SUBAR. -/
def execSubar (c : Fin 48) (ad : BitVec 2) (r : BitVec 4) (pm1 pm2 : PMove) (s : State) : Out :=
  .next (garnet c.val .plain (accOp ad true pm1 pm2 (fun x l => accLane (accI x ad l - xyScaled x r l))) s)

/-- STAH: the high form of As. -/
def execStah (c : Fin 48) (r : BitVec 4) (as' : BitVec 2) (pm1 pm2 : PMove) (s : State) : Out :=
  .next (garnet c.val .plain (accToXy r pm1 pm2 (fun x l =>
    storeHigh (modeSat (modeNow x)) (modeSsh (modeNow x)) (accOld x (2 * as'.toNat + l)))) s)

/-- STAL: the low form of As. -/
def execStal (c : Fin 48) (r : BitVec 4) (as' : BitVec 2) (pm1 pm2 : PMove) (s : State) : Out :=
  .next (garnet c.val .plain (accToXy r pm1 pm2 (fun x l => storeLow (modeSsh (modeNow x)) (accOld x (2 * as'.toNat + l)))) s)

/-- SATA. -/
def execSata (c : Fin 48) (ad as' : BitVec 2) (pm1 pm2 : PMove) (s : State) : Out :=
  .next (garnet c.val .plain (accOp ad false pm1 pm2 (fun x l => sataLane (accI x as' l))) s)

/-- NRMA: redundant sign bits. -/
def execNrma (c : Fin 48) (r : BitVec 4) (as' : BitVec 2) (pm1 pm2 : PMove) (s : State) : Out :=
  .next (garnet c.val .plain (accToXy r pm1 pm2 (fun x l => laneOf (BitVec.ofNat 24 (redundant (accOld x (2 * as'.toNat + l)) 55)))) s)

end Sys2Proof.Machine
end

