-- ==== Sys2Proof/Machine/GarnetAlu.lean ====
section
/-! DEFINITION. Garnet register ALU instructions (GRP 3; Table 10.4, R244). -/

namespace Sys2Proof.Machine

/-- SAT as it governs the instruction. -/
def satOn (c : CoreSt) : Bool := modeSat (modeNow c)

/-- A lane of X or Y as a signed number. -/
def xyI (c : CoreSt) (r : BitVec 4) (lane : Nat) : Int := (if lane = 0 then laneH (xy c r.toNat) else laneL (xy c r.toNat)).toInt

/-- A lane of X or Y as bits. -/
def xyL (c : CoreSt) (r : BitVec 4) (lane : Nat) : Lane := if lane = 0 then laneH (xy c r.toNat) else laneL (xy c r.toNat)

/-- A register operation that writes `rd` in each lane, with Z and N. -/
def aluOp (rd : BitVec 4) (pm1 pm2 : PMove) (f : CoreSt → Nat → LaneRes 24) (c : CoreSt) : GRes :=
  withMoves c pm1 pm2 (putXy rd (f c 0) (f c 1) true)

/-- The same without flags. -/
def aluMove (rd : BitVec 4) (pm1 pm2 : PMove) (f : CoreSt → Nat → Lane) (c : CoreSt) : GRes :=
  withMoves c pm1 pm2 (putXy rd (laneOf (f c 0)) (laneOf (f c 1)) false)

/-- Flags of a result that is not kept; SOV under R244. -/
def cmpFlags (h l : LaneRes 24) : GRes := .done { noWrites with zn := some (znBits h l), sov := sovBits h l }

/-- ADD. -/
def execAddR (c : Fin 48) (rd rs1 rs2 : BitVec 4) (pm1 pm2 : PMove) (s : State) : Out :=
  .next (garnet c.val .plain (aluOp rd pm1 pm2 (fun x l => aluLane (satOn x) (xyI x rs1 l + xyI x rs2 l))) s)

/-- SUB. -/
def execSubR (c : Fin 48) (rd rs1 rs2 : BitVec 4) (pm1 pm2 : PMove) (s : State) : Out :=
  .next (garnet c.val .plain (aluOp rd pm1 pm2 (fun x l => aluLane (satOn x) (xyI x rs1 l - xyI x rs2 l))) s)

/-- NEG. -/
def execNegR (c : Fin 48) (rd rs1 : BitVec 4) (pm1 pm2 : PMove) (s : State) : Out :=
  .next (garnet c.val .plain (aluOp rd pm1 pm2 (fun x l => aluLane (satOn x) (-xyI x rs1 l))) s)

/-- ABS. -/
def execAbsR (c : Fin 48) (rd rs1 : BitVec 4) (pm1 pm2 : PMove) (s : State) : Out :=
  .next (garnet c.val .plain (aluOp rd pm1 pm2 (fun x l => aluLane (satOn x) (xyI x rs1 l).natAbs)) s)

/-- CMP. -/
def execCmpR (c : Fin 48) (rs1 rs2 : BitVec 4) (pm1 pm2 : PMove) (s : State) : Out :=
  .next (garnet c.val .plain (fun x => withMoves x pm1 pm2
    (cmpFlags (aluLane (satOn x) (xyI x rs1 0 - xyI x rs2 0)) (aluLane (satOn x) (xyI x rs1 1 - xyI x rs2 1)))) s)

/-- MAX. -/
def execMaxR (c : Fin 48) (rd rs1 rs2 : BitVec 4) (pm1 pm2 : PMove) (s : State) : Out :=
  .next (garnet c.val .plain (aluOp rd pm1 pm2 (fun x l => aluLane false (max (xyI x rs1 l) (xyI x rs2 l)))) s)

/-- MIN. -/
def execMinR (c : Fin 48) (rd rs1 rs2 : BitVec 4) (pm1 pm2 : PMove) (s : State) : Out :=
  .next (garnet c.val .plain (aluOp rd pm1 pm2 (fun x l => aluLane false (min (xyI x rs1 l) (xyI x rs2 l)))) s)

/-- AND. -/
def execAndR (c : Fin 48) (rd rs1 rs2 : BitVec 4) (pm1 pm2 : PMove) (s : State) : Out :=
  .next (garnet c.val .plain (aluOp rd pm1 pm2 (fun x l => laneOf (xyL x rs1 l &&& xyL x rs2 l))) s)

/-- OR. -/
def execOrR (c : Fin 48) (rd rs1 rs2 : BitVec 4) (pm1 pm2 : PMove) (s : State) : Out :=
  .next (garnet c.val .plain (aluOp rd pm1 pm2 (fun x l => laneOf (xyL x rs1 l ||| xyL x rs2 l))) s)

/-- XOR. -/
def execXorR (c : Fin 48) (rd rs1 rs2 : BitVec 4) (pm1 pm2 : PMove) (s : State) : Out :=
  .next (garnet c.val .plain (aluOp rd pm1 pm2 (fun x l => laneOf (xyL x rs1 l ^^^ xyL x rs2 l))) s)

/-- NOT. -/
def execNotR (c : Fin 48) (rd rs1 : BitVec 4) (pm1 pm2 : PMove) (s : State) : Out :=
  .next (garnet c.val .plain (aluOp rd pm1 pm2 (fun x l => laneOf (~~~(xyL x rs1 l)))) s)

/-- ASL: obeys SAT; a count above 23 is no encoding. -/
def execAsl (c : Fin 48) (rd rs1 : BitVec 4) (k : BitVec 6) (pm1 pm2 : PMove) (s : State) : Out :=
  .next (garnet c.val .plain (fun x => if 23 < k.toNat then excIllegal else
    aluOp rd pm1 pm2 (fun x l => aluLane (satOn x) (shiftBy (xyI x rs1 l) k.toNat)) x) s)

/-- ASR. -/
def execAsr (c : Fin 48) (rd rs1 : BitVec 4) (k : BitVec 6) (pm1 pm2 : PMove) (s : State) : Out :=
  .next (garnet c.val .plain (fun x => if 23 < k.toNat then excIllegal else
    aluOp rd pm1 pm2 (fun x l => aluLane false (shiftBy (xyI x rs1 l) (-(k.toNat : Int)))) x) s)

/-- LSR. -/
def execLsr (c : Fin 48) (rd rs1 : BitVec 4) (k : BitVec 6) (pm1 pm2 : PMove) (s : State) : Out :=
  .next (garnet c.val .plain (fun x => if 23 < k.toNat then excIllegal else aluOp rd pm1 pm2 (fun x l => laneOf (xyL x rs1 l >>> k.toNat)) x) s)

/-- ASHV: by the signed lane of RS2, clamped to ±24; SAT as ASL (log 14). -/
def execAshv (c : Fin 48) (rd rs1 rs2 : BitVec 4) (pm1 pm2 : PMove) (s : State) : Out :=
  .next (garnet c.val .plain (aluOp rd pm1 pm2 (fun x l => aluLane (satOn x) (shiftBy (xyI x rs1 l) (clampI 24 (xyI x rs2 l))))) s)

/-- SWAP. -/
def execSwap (c : Fin 48) (rd rs1 : BitVec 4) (pm1 pm2 : PMove) (s : State) : Out :=
  .next (garnet c.val .plain (aluMove rd pm1 pm2 (fun x l => xyL x rs1 (1 - l))) s)

/-- PACK. -/
def execPack (c : Fin 48) (rd rs1 rs2 : BitVec 4) (pm1 pm2 : PMove) (s : State) : Out :=
  .next (garnet c.val .plain (aluMove rd pm1 pm2 (fun x l => if l = 0 then xyL x rs1 1 else xyL x rs2 1)) s)

/-- CLRX. -/
def execClrx (c : Fin 48) (rd : BitVec 4) (pm1 pm2 : PMove) (s : State) : Out :=
  .next (garnet c.val .plain (aluMove rd pm1 pm2 (fun _ _ => 0)) s)

/-- ADDSUB. -/
def execAddsub (c : Fin 48) (rd rs1 rs2 : BitVec 4) (pm1 pm2 : PMove) (s : State) : Out :=
  .next (garnet c.val .plain (aluOp rd pm1 pm2 (fun x l =>
    aluLane (satOn x) (if l = 0 then xyI x rs1 0 + xyI x rs2 0 else xyI x rs1 1 - xyI x rs2 1))) s)

end Sys2Proof.Machine
end

