-- ==== Sys2Proof/Machine/GarnetMac.lean ====
section
/-! DEFINITION. Garnet MAC and filter-tap instructions and the moves-only form (GRP 1 and 4; R256, R257, R262). -/

namespace Sys2Proof.Machine

/-- One MAC unit at work: OP 1 MPY, 2 MAC, 3 MSU on both lanes (R242, R256). -/
def macUnit (c : CoreSt) (op : Nat) (acc : BitVec 2) (x y : Word48) (pair : BitVec 2) : GRes :=
  let fr := modeFrac (modeNow c)
  let (hp, lp) := pairing pair x y
  let a := acc.toNat
  let h := macLane op (accNow c (2 * a)) (product fr hp.1 hp.2)
  let l := macLane op (accNow c (2 * a + 1)) (product fr lp.1 lp.2)
  putAcc acc h l false

/-- A MAC field (R256): with OP 0 its other bits are zero. -/
def macField (c : CoreSt) (f : MacF) : GRes :=
  if f.op = 0 then (if f.acc = 0 ∧ f.xs = 0 ∧ f.ys = 0 ∧ f.pair = 0 then .done noWrites else excIllegal)
  else macUnit c f.op.toNat f.acc (xy c f.xs.toNat) (xy c (8 + f.ys.toNat)) f.pair

/-- The DM format: the two units, which may not name one accumulator (R240), and two parallel moves. -/
def macRes (op : BitVec 2) (m : MacU) (pos : MacPos) (pm1 pm2 : PMove) (c : CoreSt) : GRes :=
  let f : MacF := { op := op, acc := m.acc, xs := m.xs, ys := m.ys, pair := m.pair }
  match pos with
  | .inU1 => withMoves c pm1 pm2 (macField c f)
  | .inU0 u1 =>
    if u1.op ≠ 0 ∧ u1.acc = m.acc then excIllegal else withMoves c pm1 pm2 (both (macField c f) (macField c u1))

/-- MPY. -/
def execMpy (c : Fin 48) (m : MacU) (pos : MacPos) (pm1 pm2 : PMove) (s : State) : Out :=
  .next (garnet c.val .plain (macRes 1 m pos pm1 pm2) s)

/-- MAC. -/
def execMacD (c : Fin 48) (m : MacU) (pos : MacPos) (pm1 pm2 : PMove) (s : State) : Out :=
  .next (garnet c.val .plain (macRes 2 m pos pm1 pm2) s)

/-- MSU. -/
def execMsu (c : Fin 48) (m : MacU) (pos : MacPos) (pm1 pm2 : PMove) (s : State) : Out :=
  .next (garnet c.val .plain (macRes 3 m pos pm1 pm2) s)

/-- MOVP. -/
def execMovp (c : Fin 48) (pm1 pm2 : PMove) (s : State) : Out :=
  .next (garnet c.val .plain (fun x => pmoves x pm1 pm2) s)

/-- A filter tap with OP as MAC, MSU or MPY (R262). -/
def ftapRes (op : Nat) (acc pair : BitVec 2) (pdat pcof : BitVec 3) (c : CoreSt) : GRes :=
  let d := pdat.toNat
  let k := pcof.toNat
  if pdat = pcof then excIllegal
  else
    let pd := ptr c d
    let pc := ptr c k
    match stepPtr pd 1 (modReg c d) (baseReg c d), stepPtr pd (-1) (modReg c d) (baseReg c d), stepPtr pc 1 (modReg c k) (baseReg c k) with
    | some wa, some pd', some pc' =>
      if !dmemOk c pd.toNat || !dmemOk c pc.toNat then excLoad
      else if !dmemOk c wa.toNat then excStore
      else
        let x := dmemRead c pd.toNat
        let y := dmemRead c pc.toNat
        both (macUnit c op acc x y pair) (.done { noWrites with mem := [(wa.toNat, x)], post := [(d, pd'), (k, pc')] })
    | _, _, _ => excIllegal

/-- FTAP. -/
def execFtap (c : Fin 48) (acc pair : BitVec 2) (pdat pcof : BitVec 3) (s : State) : Out :=
  .next (garnet c.val .plain (ftapRes 2 acc pair pdat pcof) s)

/-- FTAPS. -/
def execFtaps (c : Fin 48) (acc pair : BitVec 2) (pdat pcof : BitVec 3) (s : State) : Out :=
  .next (garnet c.val .plain (ftapRes 3 acc pair pdat pcof) s)

/-- FTAPZ. -/
def execFtapz (c : Fin 48) (acc pair : BitVec 2) (pdat pcof : BitVec 3) (s : State) : Out :=
  .next (garnet c.val .plain (ftapRes 1 acc pair pdat pcof) s)

end Sys2Proof.Machine
end

