-- ==== Sys2Proof/Machine/GarnetMem.lean ====
section
/-! DEFINITION. Garnet loads, stores, immediates and moves (GRP 5, 6, 7; R255, R257, R260). -/

namespace Sys2Proof.Machine

/-- A load from the data space: DMEM (an uncorrectable error raises DMEM_UE) or core I/O (R225, R226, R236). -/
def loadWord (s : State) (n : Nat) (c : CoreSt) (a : Nat) (ue : Bool) : GRes ⊕ Word48 :=
  if a < 0x20000 then
    if !dmemOk c a then .inl excLoad else if ue then .inl (.exc 6 0) else .inr (dmemRead c a)
  else if ioListed a then .inr (ioLoad s n a)
  else .inl excLoad

/-- A store to the data space. -/
def storeWord (s : State) (n : Nat) (c : CoreSt) (a : Nat) (v : Word48) : GRes :=
  if a < 0x20000 then (if dmemOk c a then .done { noWrites with mem := [(a, v)] } else excStore)
  else if ioListed a then ioStoreRes s n a v
  else excStore

/-- A pointer write that goes with an access. -/
def posted (l : List (Nat × Lane)) : GRes := .done { noWrites with post := l }

/-- LD: a load into the pointer that its own post-modify writes would write one register twice, and is ILLEGAL under
R259 where it stands; here the load lands later and stands (R240). -/
def execLd (c : Fin 48) (reg : BitVec 6) (ea : EA) (ue : Bool) (s : State) : Out :=
  .next (garnet c.val .plain (fun x =>
    match eaOf x ea with
    | none => excIllegal
    | some (a, p) =>
      if reg = 0x3F then excIllegal
      else match loadWord s c.val x a.toNat ue with
        | .inl e => e
        | .inr v => both (regDst x reg.toNat v) (posted p)) s)

/-- ST. -/
def execSt (c : Fin 48) (reg : BitVec 6) (ea : EA) (s : State) : Out :=
  .next (garnet c.val .plain (fun x =>
    match eaOf x ea with
    | none => excIllegal
    | some (a, p) =>
      if reg = 0x3F then excIllegal else both (storeWord s c.val x a.toNat (regSrc x reg.toNat)) (posted p)) s)

/-- The accumulator lanes that word `w` of the three-word form gives (Table 9.3): word 2 gives the low 8 bits of both. -/
def ldawRes (c : CoreSt) (n w : BitVec 2) (v : Word48) : GRes :=
  let h := accNow c (2 * n.toNat)
  let l := accNow c (2 * n.toNat + 1)
  match w.toNat with
  | 0 => .done { noWrites with acc := [(2 * n.toNat, v ++ h.extractLsb' 0 8)] }
  | 1 => .done { noWrites with acc := [(2 * n.toNat + 1, v ++ l.extractLsb' 0 8)] }
  | 2 => .done { noWrites with acc := [(2 * n.toNat, h.extractLsb' 8 48 ++ v.extractLsb' 40 8), (2 * n.toNat + 1, l.extractLsb' 8 48 ++ v.extractLsb' 32 8)] }
  | _ => excIllegal

/-- The word of the three-word form. -/
def stawWord (c : CoreSt) (n w : BitVec 2) : Word48 :=
  let h := accOld c (2 * n.toNat)
  let l := accOld c (2 * n.toNat + 1)
  if w = 0 then h.extractLsb' 8 48 else if w = 1 then l.extractLsb' 8 48
  else (h.extractLsb' 0 8 ++ l.extractLsb' 0 8).zeroExtend 48 <<< 32

/-- LDAW. -/
def execLdaw (c : Fin 48) (n w : BitVec 2) (ea : EA) (ue : Bool) (s : State) : Out :=
  .next (garnet c.val .plain (fun x =>
    match eaOf x ea with
    | none => excIllegal
    | some (a, p) =>
      if w = 3 then excIllegal
      else match loadWord s c.val x a.toNat ue with
        | .inl e => e
        | .inr v => both (ldawRes x n w v) (posted p)) s)

/-- STAW. -/
def execStaw (c : Fin 48) (n w : BitVec 2) (ea : EA) (s : State) : Out :=
  .next (garnet c.val .plain (fun x =>
    match eaOf x ea with
    | none => excIllegal
    | some (a, p) =>
      if w = 3 then excIllegal else both (storeWord s c.val x a.toNat (stawWord x n w)) (posted p)) s)

/-- LDI: LANE 0 lane L or the whole of a narrow register, 1 lane H, 2 both lanes. -/
def execLdi (c : Fin 48) (reg : BitVec 6) (lane : BitVec 2) (imm : BitVec 24) (s : State) : Out :=
  .next (garnet c.val .plain (fun x =>
    let r := reg.toNat
    let old := x.cur.get r
    if lane = 3 ∨ (lane ≠ 0 ∧ 16 ≤ r) then excIllegal
    else if 16 ≤ r then regDst x r (imm.zeroExtend 48)
    else if lane = 0 then regDst x r (word (laneH old) imm)
    else if lane = 1 then regDst x r (word imm (laneL old))
    else regDst x r (word imm imm)) s)

/-- ADDI: Pn or Nn only, linear. -/
def execAddi (c : Fin 48) (reg : BitVec 6) (imm : BitVec 24) (s : State) : Out :=
  .next (garnet c.val .plain (fun x =>
    let r := reg.toNat
    if 0x10 ≤ r ∧ r ≤ 0x1F then regDst x r (((x.cur.get r).extractLsb' 0 24 + imm).zeroExtend 48) else excIllegal) s)

/-- CMPI: X or Y only. -/
def execCmpi (c : Fin 48) (reg : BitVec 6) (imm : BitVec 24) (s : State) : Out :=
  .next (garnet c.val .plain (fun x =>
    let r := reg.toNat
    let sat := modeSat (modeNow x)
    if 16 ≤ r then excIllegal
    else
      let h := aluLane sat ((laneH (xy x r)).toInt - imm.toInt)
      let l := aluLane sat ((laneL (xy x r)).toInt - imm.toInt)
      .done { noWrites with zn := some (znBits h l), sov := sovBits h l }) s)

/-- MOVE (R255): a narrow source fills lane L, zero-extended. -/
def execMoveR (c : Fin 48) (rd rs : BitVec 6) (s : State) : Out :=
  .next (garnet c.val .plain (fun x =>
    if rs = 0x3F then excIllegal else regDst x rd.toNat (regSrc x rs.toNat)) s)

end Sys2Proof.Machine
end

