-- ==== Sys2Proof/Machine/Idle.lean ====
section
/-! DEFINITION. What a step does on an empty queue: a microsecond goes by (log 11). Nothing that happens at a tick whatever
is commanded has a row of its own: the clocks advance, Onyx fills the words of an entry it has opened, and it goes on with
commands that stand accepted and that nothing blocks any more. -/

namespace Sys2Proof.Machine

/-- A microsecond: mismatches are masked for two cycles only (R485). -/
def idleTick (s : State) : State :=
  let s := { s with onyx := { s.onyx with masked := false } }
  runStanding (fillOpen (tickUs s))

end Sys2Proof.Machine
end

