-- ==== Sys2Proof/Machine/Spinel.lean ====
section
/-! DEFINITION. The Spinel engines: validation, transfer and faults of lists (R274 to R281). -/

namespace Sys2Proof.Machine

/-- A header word (Table 10.8): scatter, N, LV, LIDX, IRQ, LEPOCH; none where it is a bad descriptor. -/
def spHeader (w : Word48) : Option (Bool × Nat × Bool × Nat × Bool × BitVec 24) :=
  let dir := (w.extractLsb' 46 2).toNat
  if 2 ≤ dir ∨ w.extractLsb' 24 10 ≠ 0 then none
  else some (dir == 1, (w.extractLsb' 42 4).toNat + 1, w.getLsbD 41, (w.extractLsb' 35 6).toNat, w.getLsbD 34, w.extractLsb' 0 24)

/-- The two words of an element; none where they are a bad descriptor. -/
def spElem (w0 w1 : Word48) : Option SpElem :=
  if 2 ≤ (w0.extractLsb' 46 2).toNat ∨ w0.extractLsb' 40 6 ≠ 0 ∨ 2 ≤ (w1.extractLsb' 20 4).toNat ∨ w1.extractLsb' 16 4 ≠ 0 then none
  else some { rspace := (w0.extractLsb' 46 2).toNat, raddr := (w0.extractLsb' 0 40).toNat, laddr := (w1.extractLsb' 24 24).toNat,
              form := (w1.extractLsb' 20 4).toNat, len := (w1.extractLsb' 0 16).toNat + 1 }

/-- Table 10.10 for one element: 2 WINDOW, 3 RANGE. -/
def spCheck (c : CoreSt) (usr : Bool) (chan : Nat) (e : SpElem) : Option Nat :=
  let rlen := e.len * formSize e.form
  let inWin := match c.win with
    | some w => decide (w.dbase ≤ e.laddr ∧ e.laddr + e.len ≤ w.dbase + w.dsize)
    | none => false
  let ctx := Config.kernelCtx chan ((jobKernel c).getD 0)
  let remOk := match c.win with
    | some w => decide (e.rspace = 0 ∧ ctx ≤ e.raddr ∧ e.raddr + rlen ≤ ctx + 6 * w.ctx)
    | none => false
  if 0x20000 < e.laddr + e.len then some 2
  else if usr && (!inWin || !remOk) then some 2
  else if (e.rspace = 0 ∧ min Config.ddrBytes 17179869184 < e.raddr + rlen) ∨ (e.rspace = 1 ∧ 4194304 < e.raddr + rlen) then some 3
  else none

/-- The first element from `k` on, `m` of them, that fails: its index and cause; or all of them. -/
def spElems (c : CoreSt) (usr : Bool) (chan base : Nat) : Nat → Nat → (Nat × Nat) ⊕ List SpElem
  | _, 0 => .inr []
  | k, m + 1 =>
    match spElem (tblGet c.dmem (base + 1 + 2 * k) 0) (tblGet c.dmem (base + 2 + 2 * k) 0) with
    | none => .inl (k, 1)
    | some e => match spCheck c usr chan e with
      | some cause => .inl (k, cause)
      | none => match spElems c usr chan base (k + 1) m with
        | .inl x => .inl x
        | .inr l => .inr (e :: l)

/-- A list ends: END, the results, and SPN pending where IRQ is set; a fault of CAUSE 1 to 4 waits to be raised (R279). -/
def spEnd (n k : Nat) (fault : Bool) (done fidx cause : Nat) (s : State) : State :=
  let c := core s n
  let l := spList c k
  let l' := { l with busy := false, valid := false, endB := true, fault := fault, done := done, fidx := fidx, cause := cause,
                     pend := l.irqOn, unrep := fault && decide (cause ≤ 4) }
  setCore n { c with lists := tblSet k l' c.lists, order := c.order.filter (· ≠ k) } s

/-- SPINEL_LIST_START: the first outstanding list is read whole and validated (R275, R277). -/
def execSpinelListStart (c : Fin 48) (s : State) : Out :=
  let n := c.val
  let x := core s n
  .next (match x.order with
    | [] => s
    | k :: _ =>
      let l := spList x k
      let ch := (x.job.map Job.chan).getD 0
      if l.valid then s
      else if 0x20000 ≤ l.addr.toNat then spEnd n k true l.first 0 2 s
      else match spHeader (tblGet x.dmem l.addr.toNat 0) with
        | none => spEnd n k true l.first 0 1 s
        | some (sc, cnt, lv, li, irq, ep) =>
          let l1 := { l with scatter := sc, lv := lv, lidx := li, irqOn := irq, lepoch := ep }
          let s := setCore n { x with lists := tblSet k l1 x.lists } s
          if cnt ≤ l.first then spEnd n k true l.first 0 1 s
          else match spElems x l.usr ch l.addr.toNat l.first (cnt - l.first) with
            | .inl (f, cause) => spEnd n k true l.first f cause s
            | .inr es =>
              let pad := List.replicate l.first { rspace := 0, raddr := 0, laddr := 0, form := 0, len := 0 }
              setCore n { core s n with lists := tblSet k { l1 with valid := true, elems := pad ++ es, done := l.first } x.lists } s)

/-- The list under transfer and its present element. -/
def spNow (c : CoreSt) : Option (Nat × SpList × SpElem) :=
  match c.order with
  | [] => none
  | k :: _ =>
    let l := spList c k
    if l.valid then (l.elems[l.done]?).map (fun e => (k, l, e)) else none

/-- The transfer of the present element fails: its destination range is unspecified, and the list ends there (R278). -/
def spFail (n cause : Nat) (s : State) : State :=
  match spNow (core s n) with
  | none => s
  | some (k, l, e) => spEnd n k true l.done l.done cause (spMove n l.scatter true e s)

/-- A UE is counted in COUNTERS group 4 (R279). -/
def spUeCount (n : Nat) (s : State) : State := let c := core s n; setCore n { c with spUe := satAdd 32 c.spUe 1 } s

/-- SPINEL_ELEMENT_DONE: the element's words have moved (R274); with LV the gate has checked every access (R280). -/
def execSpinelElementDone (c : Fin 48) (s : State) : Out :=
  let n := c.val
  .next (match spNow (core s n) with
    | none => s
    | some (k, l, e) =>
      if l.lv && !gateOk s l.lidx (0x10 + n) l.lepoch then spFail n 4 (leaseDenied l.lidx s)
      else
        let s := spMove n l.scatter false e s
        if l.done + 1 = l.elems.length then spEnd n k false l.elems.length 0 0 s
        else
          let x := core s n
          setCore n { x with lists := tblSet k { l with done := l.done + 1 } x.lists } s)

/-- SPINEL_TRANSFER_FAULT: a lease rejection, or an uncorrectable error on a read (R278, R279). -/
def execSpinelTransferFault (c : Fin 48) (lease : Bool) (s : State) : Out :=
  let n := c.val
  .next (match spNow (core s n) with
    | none => s
    | some (_, l, _) =>
      if lease then spFail n 4 (if l.lv then leaseDenied l.lidx s else s) else spUeCount n (spFail n 5 s))

end Sys2Proof.Machine
end

