-- ==== Sys2Proof/Machine/Tap.lean ====
section
/-! DEFINITION. The test access port: its instruction register, and the hold a pad-controlling instruction has on a cold
reset (R533, R534). -/

namespace Sys2Proof.Machine

/-- EXTEST, HIGHZ, CLAMP, EXTEST_PULSE and EXTEST_TRAIN (Table 20.18). -/
def padControlling (ir : BitVec 8) : Bool := ir == 0 || ir == 3 || ir == 4 || ir == 5 || ir == 6

/-- The public instructions of Table 20.18. -/
def publicInstruction (ir : BitVec 8) : Bool := padControlling ir || ir == 1 || ir == 2 || ir == 0xFF

/-- The instruction that acts: SAMPLE/PRELOAD for a pad-controlling one that does not hold the balls (R534), BYPASS for a private one
outside FACTORY and RETURN (Table 5.10). -/
def tapActs (s : State) : BitVec 8 :=
  if padControlling s.tap.ir && !s.tap.pads then 0x02
  else if !publicInstruction s.tap.ir && s.boot.lc != 1 && s.boot.lc != 15 then 0xFF
  else s.tap.ir

/-- An instruction is in the instruction register; the balls are held where `pads` says so. A cold reset lasts while they are (R534).
FAULT_N is low and CORE_EN is high throughout. -/
def tapUpdate (ir : BitVec 8) (pads : Bool) (s : State) : State :=
  let s := { s with tap := { ir := ir, pads := pads }, boot := { s.boot with tapHold := pads } }
  if pads then wr coreEn 1 { s with pwr := { s.pwr with faultN := true } } else s

/-- TAP_INSTRUCTION_UPDATE: a pad-controlling instruction takes the balls only while RESET_N is low. What a private instruction does in
FACTORY and RETURN is left out (log 26). -/
def execTapInstructionUpdate (ir : BitVec 8) (s : State) : Out :=
  .next (tapUpdate ir (padControlling ir && resetLow s) s)

/-- TEST_LOGIC_RESET: IDCODE is selected and the balls are released. -/
def execTestLogicReset (s : State) : Out := .next (tapUpdate 0x01 false s)

end Sys2Proof.Machine
end

