-- ==== Sys2Proof/Machine/Dispatch.lean ====
section
/-! DEFINITION. The dispatch: one arm for each command of the block. -/

namespace Sys2Proof.Machine

def exec (i : Instr) (s : State) : Host.Outcome State Fault Refusal :=
  match i with
  | .nopCommand h => Sys2Proof.Machine.execNopCommand h s
  | .devInfo h => Sys2Proof.Machine.execDevInfo h s
  | .devReset h kind => Sys2Proof.Machine.execDevReset h kind s
  | .timeSet h timeNs flags => Sys2Proof.Machine.execTimeSet h timeNs flags s
  | .timeSetWithWarmReset h timeNs => Sys2Proof.Machine.execTimeSetWithWarmReset h timeNs s
  | .rtbCfg h src port srcto holdover stepthr lockthr slewmax => Sys2Proof.Machine.execRtbCfg h src port srcto holdover stepthr lockthr slewmax s
  | .domainPower h dom on => Sys2Proof.Machine.execDomainPower h dom on s
  | .hibernate h wakeAt flags => Sys2Proof.Machine.execHibernate h wakeAt flags s
  | .imageSlotErase h slot offset len => Sys2Proof.Machine.execImageSlotErase h slot offset len s
  | .imageSlotWrite h slot offset len data => Sys2Proof.Machine.execImageSlotWrite h slot offset len data s
  | .imageSlotVerify h slot offset len => Sys2Proof.Machine.execImageSlotVerify h slot offset len s
  | .imageSlotSetActslot h slot offset len => Sys2Proof.Machine.execImageSlotSetActslot h slot offset len s
  | .secminRaise h value => Sys2Proof.Machine.execSecminRaise h value s
  | .keyRevoke h slot => Sys2Proof.Machine.execKeyRevoke h slot s
  | .lifecycleToField h m => Sys2Proof.Machine.execLifecycleToField h m s
  | .lifecycleToReturn h uidLo token => Sys2Proof.Machine.execLifecycleToReturn h uidLo token s
  | .fuseProg h field data => Sys2Proof.Machine.execFuseProg h field data s
  | .bootOptions h ethEn plcEn hostif ddrspeed => Sys2Proof.Machine.execBootOptions h ethEn plcEn hostif ddrspeed s
  | .configCommit h => Sys2Proof.Machine.execConfigCommit h s
  | .admitCfg h reserve => Sys2Proof.Machine.execAdmitCfg h reserve s
  | .chCreate h chan p => Sys2Proof.Machine.execChCreate h chan p s
  | .chActivate h chan inB outB => Sys2Proof.Machine.execChActivate h chan inB outB s
  | .chModify h chan mask p => Sys2Proof.Machine.execChModify h chan mask p s
  | .chDeactivate h chan => Sys2Proof.Machine.execChDeactivate h chan s
  | .chDelete h chan => Sys2Proof.Machine.execChDelete h chan s
  | .chStats h chan flags => Sys2Proof.Machine.execChStats h chan flags s
  | .toneGen h chan dir toneset tone dur => Sys2Proof.Machine.execToneGen h chan dir toneset tone dur s
  | .tonesetLoad h toneset defn => Sys2Proof.Machine.execTonesetLoad h toneset defn s
  | .groupCreate h group maxl mix prio => Sys2Proof.Machine.execGroupCreate h group maxl mix prio s
  | .groupJoin h group chan role gain => Sys2Proof.Machine.execGroupJoin h group chan role gain s
  | .groupLeave h group chan => Sys2Proof.Machine.execGroupLeave h group chan s
  | .groupDelete h group => Sys2Proof.Machine.execGroupDelete h group s
  | .recStart h chan queue segMs bufaddr buflen nbuf => Sys2Proof.Machine.execRecStart h chan queue segMs bufaddr buflen nbuf s
  | .recStop h rec => Sys2Proof.Machine.execRecStop h rec s
  | .emergRule h rule trigger src group flags => Sys2Proof.Machine.execEmergRule h rule trigger src group flags s
  | .portCfg h port mode maxframe flags hold settle age pauseWd => Sys2Proof.Machine.execPortCfg h port mode maxframe flags hold settle age pauseWd s
  | .portEnable h port => Sys2Proof.Machine.execPortEnable h port s
  | .portDisable h port => Sys2Proof.Machine.execPortDisable h port s
  | .portOutOfService h port => Sys2Proof.Machine.execPortOutOfService h port s
  | .portReturn h port => Sys2Proof.Machine.execPortReturn h port s
  | .flowAdd h flow kind portIn vlan chan linkchan prio egress flags mtch => Sys2Proof.Machine.execFlowAdd h flow kind portIn vlan chan linkchan prio egress flags mtch s
  | .flowTx h flow tlen template => Sys2Proof.Machine.execFlowTx h flow tlen template s
  | .flowDel h flow => Sys2Proof.Machine.execFlowDel h flow s
  | .srtpKey h flow dir suite kdr roc keylen saltlen key => Sys2Proof.Machine.execSrtpKey h flow dir suite kdr roc keylen saltlen key s
  | .prpPair h pair portA portB window => Sys2Proof.Machine.execPrpPair h pair portA portB window s
  | .ptpCfg h port flags domain logsync => Sys2Proof.Machine.execPtpCfg h port flags domain logsync s
  | .assuredSend h flow len payload => Sys2Proof.Machine.execAssuredSend h flow len payload s
  | .netStats h port flow flags => Sys2Proof.Machine.execNetStats h port flow flags s
  | .plcPortCfg h port linkmode role netid node bandplan cstart cend zcmode k phase txlevel => Sys2Proof.Machine.execPlcPortCfg h port linkmode role netid node bandplan cstart cend zcmode k phase txlevel s
  | .plcPortOutOfService h port => Sys2Proof.Machine.execPlcPortOutOfService h port s
  | .plcPortInService h port => Sys2Proof.Machine.execPlcPortInService h port s
  | .plcSlotmap h port map => Sys2Proof.Machine.execPlcSlotmap h port map s
  | .plcJoin h port netid node => Sys2Proof.Machine.execPlcJoin h port netid node s
  | .plcLeave h port => Sys2Proof.Machine.execPlcLeave h port s
  | .plcRoute h port dest nrelay relays => Sys2Proof.Machine.execPlcRoute h port dest nrelay relays s
  | .falloverCfg h ethport plcport flags => Sys2Proof.Machine.execFalloverCfg h ethport plcport flags s
  | .falloverToPowerline h ethport => Sys2Proof.Machine.execFalloverToPowerline h ethport s
  | .falloverBackToEthernet h ethport => Sys2Proof.Machine.execFalloverBackToEthernet h ethport s
  | .plcStats h port flags => Sys2Proof.Machine.execPlcStats h port flags s
  | .sscSlotCfg h slot src preset ratio median phase shift chan => Sys2Proof.Machine.execSscSlotCfg h slot src preset ratio median phase shift chan s
  | .sscCoef h slot taps fade flags coefs => Sys2Proof.Machine.execSscCoef h slot taps fade flags coefs s
  | .sscThresh h slot idx level hyst flags => Sys2Proof.Machine.execSscThresh h slot idx level hyst flags s
  | .sscSlotEnable h slot => Sys2Proof.Machine.execSscSlotEnable h slot s
  | .sscSlotDisable h slot => Sys2Proof.Machine.execSscSlotDisable h slot s
  | .tdmPortCfg h port rate flags slots => Sys2Proof.Machine.execTdmPortCfg h port rate flags slots s
  | .tdmSlotmap h port n entries => Sys2Proof.Machine.execTdmSlotmap h port n entries s
  | .tdmPortEnable h port => Sys2Proof.Machine.execTdmPortEnable h port s
  | .tdmPortDisable h port => Sys2Proof.Machine.execTdmPortDisable h port s
  | .sscStatus h kind index => Sys2Proof.Machine.execSscStatus h kind index s
  | .tpzCtxAlloc h ctx => Sys2Proof.Machine.execTpzCtxAlloc h ctx s
  | .tpzJobDeflate h ctx wrap effort flags src srclen chain nchain => Sys2Proof.Machine.execTpzJobDeflate h ctx wrap effort flags src srclen chain nchain s
  | .tpzJobInflate h ctx wrap effort flags src srclen chain nchain => Sys2Proof.Machine.execTpzJobInflate h ctx wrap effort flags src srclen chain nchain s
  | .tpzCtxSave h ctx addr => Sys2Proof.Machine.execTpzCtxSave h ctx addr s
  | .tpzCtxRestore h ctx addr image => Sys2Proof.Machine.execTpzCtxRestore h ctx addr image s
  | .tpzCtxFree h ctx => Sys2Proof.Machine.execTpzCtxFree h ctx s
  | .agtRun h target index alg slice => Sys2Proof.Machine.execAgtRun h target index alg slice s
  | .agtResults h result => Sys2Proof.Machine.execAgtResults h result s
  | .agtRepairSoft h result => Sys2Proof.Machine.execAgtRepairSoft h result s
  | .agtRepairFuse h result token => Sys2Proof.Machine.execAgtRepairFuse h result token s
  | .coreOutOfService h core => Sys2Proof.Machine.execCoreOutOfService h core s
  | .coreReturn h core => Sys2Proof.Machine.execCoreReturn h core s
  | .coreRetire h core => Sys2Proof.Machine.execCoreRetire h core s
  | .rebalance h fromC toC count => Sys2Proof.Machine.execRebalance h fromC toC count s
  | .regRead h block flags offset count => Sys2Proof.Machine.execRegRead h block flags offset count s
  | .counters h group index flags => Sys2Proof.Machine.execCounters h group index flags s
  | .journalRead h fromSeq max => Sys2Proof.Machine.execJournalRead h fromSeq max s
  | .pvlRead h fromIdx max => Sys2Proof.Machine.execPvlRead h fromIdx max s
  | .bootledgerRead h => Sys2Proof.Machine.execBootledgerRead h s
  | .notifyCfg h mask => Sys2Proof.Machine.execNotifyCfg h mask s
  | .logExport h log fromSeq addr len wrap => Sys2Proof.Machine.execLogExport h log fromSeq addr len wrap s
  | .echo h data => Sys2Proof.Machine.execEcho h data s
  | .krnLoad h kid addr len image => Sys2Proof.Machine.execKrnLoad h kid addr len image s
  | .krnBind h kid chan stage => Sys2Proof.Machine.execKrnBind h kid chan stage s
  | .krnUnbind h kid chan => Sys2Proof.Machine.execKrnUnbind h kid chan s
  | .krnUnload h kid => Sys2Proof.Machine.execKrnUnload h kid s
  | .krnStatus h kid => Sys2Proof.Machine.execKrnStatus h kid s
  | .commandAccept => Sys2Proof.Machine.execCommandAccept s
  | .hbSqdb q value => Sys2Proof.Machine.execHbSqdb q value s
  | .hbCqhead q value => Sys2Proof.Machine.execHbCqhead q value s
  | .hbHeartbeat value => Sys2Proof.Machine.execHbHeartbeat value s
  | .hbSegack value => Sys2Proof.Machine.execHbSegack value s
  | .hbCqcfgEnable q value => Sys2Proof.Machine.execHbCqcfgEnable q value s
  | .hbCtrlRun value => Sys2Proof.Machine.execHbCtrlRun value s
  | .registerWrite block offset size value => Sys2Proof.Machine.execRegisterWrite block offset size value s
  | .rcRegisterRead block offset => Sys2Proof.Machine.execRcRegisterRead block offset s
  | .rtbNowLoRead => Sys2Proof.Machine.execRtbNowLoRead s
  | .latchingLoRead offset => Sys2Proof.Machine.execLatchingLoRead offset s
  | .pwrScrubUecntRead => Sys2Proof.Machine.execPwrScrubUecntRead s
  | .submissionFetch q entry params => Sys2Proof.Machine.execSubmissionFetch q entry params s
  | .completionWrite q ok => Sys2Proof.Machine.execCompletionWrite q ok s
  | .cqIrqDelayExpiry q => Sys2Proof.Machine.execCqIrqDelayExpiry q s
  | .hostLinkReset kind => Sys2Proof.Machine.execHostLinkReset kind s
  | .pcieLinkUp => Sys2Proof.Machine.execPcieLinkUp s
  | .heartbeatPeriodEnd => Sys2Proof.Machine.execHeartbeatPeriodEnd s
  | .devbeatIncrement => Sys2Proof.Machine.execDevbeatIncrement s
  | .mspiRegRead offset => Sys2Proof.Machine.execMspiRegRead offset s
  | .mspiRegWrite offset value => Sys2Proof.Machine.execMspiRegWrite offset value s
  | .submit q entry params => Sys2Proof.Machine.execSubmit q entry params s
  | .fetchCq q => Sys2Proof.Machine.execFetchCq q s
  | .resync => Sys2Proof.Machine.execResync s
  | .mspiBadRequest crcOk => Sys2Proof.Machine.execMspiBadRequest crcOk s
  | .por => Sys2Proof.Machine.execPor s
  | .coldReset => Sys2Proof.Machine.execColdReset s
  | .warmReset cause ddrConfirmed => Sys2Proof.Machine.execWarmReset cause ddrConfirmed s
  | .domainReset dom => Sys2Proof.Machine.execDomainReset dom s
  | .aoPowerGood => Sys2Proof.Machine.execAoPowerGood s
  | .coreRampEnd => Sys2Proof.Machine.execCoreRampEnd s
  | .fuseAndLifeCycleRead => Sys2Proof.Machine.execFuseAndLifeCycleRead s
  | .agateTestOfMemories v found ueWords shadowUe => Sys2Proof.Machine.execAgateTestOfMemories v found ueWords shadowUe s
  | .softRepairLoad v => Sys2Proof.Machine.execSoftRepairLoad v s
  | .onyxRomStart v comparatorOk => Sys2Proof.Machine.execOnyxRomStart v comparatorOk s
  | .imageReadAndSignatureCheck readOk => Sys2Proof.Machine.execImageReadAndSignatureCheck readOk s
  | .ddrTraining v timeout extReadOk => Sys2Proof.Machine.execDdrTraining v timeout extReadOk s
  | .garnetClusterTest mem found => Sys2Proof.Machine.execGarnetClusterTest mem found s
  | .serdesBringUp failPorts => Sys2Proof.Machine.execSerdesBringUp failPorts s
  | .plcFrontEndCalibration failPorts rxdly txdly => Sys2Proof.Machine.execPlcFrontEndCalibration failPorts rxdly txdly s
  | .ledgerReplay r => Sys2Proof.Machine.execLedgerReplay r s
  | .hostLink => Sys2Proof.Machine.execHostLink s
  | .bootReady v => Sys2Proof.Machine.execBootReady v s
  | .bootWatchdogExpiry => Sys2Proof.Machine.execBootWatchdogExpiry s
  | .domainSwitchOn dom => Sys2Proof.Machine.execDomainSwitchOn dom s
  | .domainSwitchOff dom => Sys2Proof.Machine.execDomainSwitchOff dom s
  | .domainPowerGood => Sys2Proof.Machine.execDomainPowerGood s
  | .domainPowerGoodTimeout => Sys2Proof.Machine.execDomainPowerGoodTimeout s
  | .domainSwitchComplete => Sys2Proof.Machine.execDomainSwitchComplete s
  | .pllLock pll => Sys2Proof.Machine.execPllLock pll s
  | .pllUnlock pll => Sys2Proof.Machine.execPllUnlock pll s
  | .pllRelockAttempt pll locks => Sys2Proof.Machine.execPllRelockAttempt pll locks s
  | .ckRefLoss => Sys2Proof.Machine.execCkRefLoss s
  | .ckRefReturn => Sys2Proof.Machine.execCkRefReturn s
  | .audFallback => Sys2Proof.Machine.execAudFallback s
  | .hibernateGo value => Sys2Proof.Machine.execHibernateGo value s
  | .hibernateEntry ddrConfirmed => Sys2Proof.Machine.execHibernateEntry ddrConfirmed s
  | .wakeNLow => Sys2Proof.Machine.execWakeNLow s
  | .wakeTimerMatch => Sys2Proof.Machine.execWakeTimerMatch s
  | .scrubAdvance corrected uncorrectable => Sys2Proof.Machine.execScrubAdvance corrected uncorrectable s
  | .disciplineUpdate offset => Sys2Proof.Machine.execDisciplineUpdate offset s
  | .ppsEdge edge => Sys2Proof.Machine.execPpsEdge edge s
  | .rtbSourceTimeout => Sys2Proof.Machine.execRtbSourceTimeout s
  | .rtbHoldoverExpiry => Sys2Proof.Machine.execRtbHoldoverExpiry s
  | .rtbCmdStep => Sys2Proof.Machine.execRtbCmdStep s
  | .rtbAdjWrite value => Sys2Proof.Machine.execRtbAdjWrite value s
  | .slewComplete => Sys2Proof.Machine.execSlewComplete s
  | .rtbAddendWrite hi => Sys2Proof.Machine.execRtbAddendWrite hi s
  | .anchorRenewal => Sys2Proof.Machine.execAnchorRenewal s
  | .zeroCrossing zc edge => Sys2Proof.Machine.execZeroCrossing zc edge s
  | .syntheticCrossing zc => Sys2Proof.Machine.execSyntheticCrossing zc s
  | .tickBoundary => Sys2Proof.Machine.execTickBoundary s
  | .masterFrameBoundary => Sys2Proof.Machine.execMasterFrameBoundary s
  | .scheduleCommit => Sys2Proof.Machine.execScheduleCommit s
  | .frozenScheduleLimit => Sys2Proof.Machine.execFrozenScheduleLimit s
  | .urgentLaneIssue core chan => Sys2Proof.Machine.execUrgentLaneIssue core chan s
  | .jobWatchdogExpiry core => Sys2Proof.Machine.execJobWatchdogExpiry core s
  | .nopG c => Sys2Proof.Machine.execNopG c s
  | .endJob c => Sys2Proof.Machine.execEndJob c s
  | .rte c => Sys2Proof.Machine.execRte c s
  | .brk c imm => Sys2Proof.Machine.execBrk c imm s
  | .spw c n => Sys2Proof.Machine.execSpw c n s
  | .spwa c => Sys2Proof.Machine.execSpwa c s
  | .leave c => Sys2Proof.Machine.execLeave c s
  | .mpy c m pos pm1 pm2 => Sys2Proof.Machine.execMpy c m pos pm1 pm2 s
  | .macD c m pos pm1 pm2 => Sys2Proof.Machine.execMacD c m pos pm1 pm2 s
  | .msu c m pos pm1 pm2 => Sys2Proof.Machine.execMsu c m pos pm1 pm2 s
  | .movp c pm1 pm2 => Sys2Proof.Machine.execMovp c pm1 pm2 s
  | .clra c ad pm1 pm2 => Sys2Proof.Machine.execClra c ad pm1 pm2 s
  | .mova c ad as' pm1 pm2 => Sys2Proof.Machine.execMova c ad as' pm1 pm2 s
  | .adda c ad as' pm1 pm2 => Sys2Proof.Machine.execAdda c ad as' pm1 pm2 s
  | .suba c ad as' pm1 pm2 => Sys2Proof.Machine.execSuba c ad as' pm1 pm2 s
  | .nega c ad as' pm1 pm2 => Sys2Proof.Machine.execNega c ad as' pm1 pm2 s
  | .absa c ad as' pm1 pm2 => Sys2Proof.Machine.execAbsa c ad as' pm1 pm2 s
  | .cmpa c ad as' pm1 pm2 => Sys2Proof.Machine.execCmpa c ad as' pm1 pm2 s
  | .tsta c as' pm1 pm2 => Sys2Proof.Machine.execTsta c as' pm1 pm2 s
  | .maxa c ad as' pm1 pm2 => Sys2Proof.Machine.execMaxa c ad as' pm1 pm2 s
  | .mina c ad as' pm1 pm2 => Sys2Proof.Machine.execMina c ad as' pm1 pm2 s
  | .asla c ad as' k pm1 pm2 => Sys2Proof.Machine.execAsla c ad as' k pm1 pm2 s
  | .asra c ad as' k pm1 pm2 => Sys2Proof.Machine.execAsra c ad as' k pm1 pm2 s
  | .asha c ad as' r pm1 pm2 => Sys2Proof.Machine.execAsha c ad as' r pm1 pm2 s
  | .ldah c ad r pm1 pm2 => Sys2Proof.Machine.execLdah c ad r pm1 pm2 s
  | .addar c ad r pm1 pm2 => Sys2Proof.Machine.execAddar c ad r pm1 pm2 s
  | .subar c ad r pm1 pm2 => Sys2Proof.Machine.execSubar c ad r pm1 pm2 s
  | .stah c r as' pm1 pm2 => Sys2Proof.Machine.execStah c r as' pm1 pm2 s
  | .stal c r as' pm1 pm2 => Sys2Proof.Machine.execStal c r as' pm1 pm2 s
  | .sata c ad as' pm1 pm2 => Sys2Proof.Machine.execSata c ad as' pm1 pm2 s
  | .nrma c r as' pm1 pm2 => Sys2Proof.Machine.execNrma c r as' pm1 pm2 s
  | .addR c rd rs1 rs2 pm1 pm2 => Sys2Proof.Machine.execAddR c rd rs1 rs2 pm1 pm2 s
  | .subR c rd rs1 rs2 pm1 pm2 => Sys2Proof.Machine.execSubR c rd rs1 rs2 pm1 pm2 s
  | .negR c rd rs1 pm1 pm2 => Sys2Proof.Machine.execNegR c rd rs1 pm1 pm2 s
  | .absR c rd rs1 pm1 pm2 => Sys2Proof.Machine.execAbsR c rd rs1 pm1 pm2 s
  | .cmpR c rs1 rs2 pm1 pm2 => Sys2Proof.Machine.execCmpR c rs1 rs2 pm1 pm2 s
  | .maxR c rd rs1 rs2 pm1 pm2 => Sys2Proof.Machine.execMaxR c rd rs1 rs2 pm1 pm2 s
  | .minR c rd rs1 rs2 pm1 pm2 => Sys2Proof.Machine.execMinR c rd rs1 rs2 pm1 pm2 s
  | .andR c rd rs1 rs2 pm1 pm2 => Sys2Proof.Machine.execAndR c rd rs1 rs2 pm1 pm2 s
  | .orR c rd rs1 rs2 pm1 pm2 => Sys2Proof.Machine.execOrR c rd rs1 rs2 pm1 pm2 s
  | .xorR c rd rs1 rs2 pm1 pm2 => Sys2Proof.Machine.execXorR c rd rs1 rs2 pm1 pm2 s
  | .notR c rd rs1 pm1 pm2 => Sys2Proof.Machine.execNotR c rd rs1 pm1 pm2 s
  | .asl c rd rs1 k pm1 pm2 => Sys2Proof.Machine.execAsl c rd rs1 k pm1 pm2 s
  | .asr c rd rs1 k pm1 pm2 => Sys2Proof.Machine.execAsr c rd rs1 k pm1 pm2 s
  | .lsr c rd rs1 k pm1 pm2 => Sys2Proof.Machine.execLsr c rd rs1 k pm1 pm2 s
  | .ashv c rd rs1 rs2 pm1 pm2 => Sys2Proof.Machine.execAshv c rd rs1 rs2 pm1 pm2 s
  | .swap c rd rs1 pm1 pm2 => Sys2Proof.Machine.execSwap c rd rs1 pm1 pm2 s
  | .pack c rd rs1 rs2 pm1 pm2 => Sys2Proof.Machine.execPack c rd rs1 rs2 pm1 pm2 s
  | .clrx c rd pm1 pm2 => Sys2Proof.Machine.execClrx c rd pm1 pm2 s
  | .addsub c rd rs1 rs2 pm1 pm2 => Sys2Proof.Machine.execAddsub c rd rs1 rs2 pm1 pm2 s
  | .ftap c acc pair pdat pcof => Sys2Proof.Machine.execFtap c acc pair pdat pcof s
  | .ftaps c acc pair pdat pcof => Sys2Proof.Machine.execFtaps c acc pair pdat pcof s
  | .ftapz c acc pair pdat pcof => Sys2Proof.Machine.execFtapz c acc pair pdat pcof s
  | .ld c reg ea ue => Sys2Proof.Machine.execLd c reg ea ue s
  | .st c reg ea => Sys2Proof.Machine.execSt c reg ea s
  | .ldaw c n w ea ue => Sys2Proof.Machine.execLdaw c n w ea ue s
  | .staw c n w ea => Sys2Proof.Machine.execStaw c n w ea s
  | .ldi c reg lane imm => Sys2Proof.Machine.execLdi c reg lane imm s
  | .addi c reg imm => Sys2Proof.Machine.execAddi c reg imm s
  | .cmpi c reg imm => Sys2Proof.Machine.execCmpi c reg imm s
  | .moveR c rd rs => Sys2Proof.Machine.execMoveR c rd rs s
  | .bra c target => Sys2Proof.Machine.execBra c target s
  | .bcc c cond target => Sys2Proof.Machine.execBcc c cond target s
  | .brl c pn target => Sys2Proof.Machine.execBrl c pn target s
  | .jmp c pn => Sys2Proof.Machine.execJmp c pn s
  | .doLoop c reg le => Sys2Proof.Machine.execDoLoop c reg le s
  | .doiLoop c count le => Sys2Proof.Machine.execDoiLoop c count le s
  | .interruptEntry c => Sys2Proof.Machine.execInterruptEntry c s
  | .tmrCompare c => Sys2Proof.Machine.execTmrCompare c s
  | .fsend c addr => Sys2Proof.Machine.execFsend c addr s
  | .fsendTaken c => Sys2Proof.Machine.execFsendTaken c s
  | .frxpop c => Sys2Proof.Machine.execFrxpop c s
  | .tmrcmpWrite c value => Sys2Proof.Machine.execTmrcmpWrite c value s
  | .spnGo c list addr => Sys2Proof.Machine.execSpnGo c list addr s
  | .spnAck c list => Sys2Proof.Machine.execSpnAck c list s
  | .spinelListStart c => Sys2Proof.Machine.execSpinelListStart c s
  | .spinelElementDone c => Sys2Proof.Machine.execSpinelElementDone c s
  | .spinelTransferFault c lease => Sys2Proof.Machine.execSpinelTransferFault c lease s
  | .itemEntersFabric port wh payload => Sys2Proof.Machine.execItemEntersFabric port wh payload s
  | .itemDelivered dest src lane => Sys2Proof.Machine.execItemDelivered dest src lane s
  | .ledgerOpen index kind noack emerg tagEpoch => Sys2Proof.Machine.execLedgerOpen index kind noack emerg tagEpoch s
  | .ledgerCommit tagEpoch => Sys2Proof.Machine.execLedgerCommit tagEpoch s
  | .ledgerW0Update index phase fstatus flags tagEpoch => Sys2Proof.Machine.execLedgerW0Update index phase fstatus flags tagEpoch s
  | .ledgerRelease index tagEpoch => Sys2Proof.Machine.execLedgerRelease index tagEpoch s
  | .sealerTrigger ue => Sys2Proof.Machine.execSealerTrigger ue s
  | .leaseGrant n owner rclass rindex duration => Sys2Proof.Machine.execLeaseGrant n owner rclass rindex duration s
  | .leaseRenew n owner epoch => Sys2Proof.Machine.execLeaseRenew n owner epoch s
  | .leaseRelease n owner epoch => Sys2Proof.Machine.execLeaseRelease n owner epoch s
  | .leaseRevoke n bySealer byReset => Sys2Proof.Machine.execLeaseRevoke n bySealer byReset s
  | .leaseExpiry n => Sys2Proof.Machine.execLeaseExpiry n s
  | .onyxMismatch group => Sys2Proof.Machine.execOnyxMismatch group s
  | .checkerFault stage => Sys2Proof.Machine.execCheckerFault stage s
  | .comparatorSelfTest ok => Sys2Proof.Machine.execComparatorSelfTest ok s
  | .onyxWdog => Sys2Proof.Machine.execOnyxWdog s
  | .onyxUe mac word => Sys2Proof.Machine.execOnyxUe mac word s
  | .onyxRestartImageCheck kept flash1Ok flash2Ok => Sys2Proof.Machine.execOnyxRestartImageCheck kept flash1Ok flash2Ok s
  | .onyxResume => Sys2Proof.Machine.execOnyxResume s
  | .thermalSample temp => Sys2Proof.Machine.execThermalSample temp s
  | .violationRateWindowEnd => Sys2Proof.Machine.execViolationRateWindowEnd s
  | .ethFrameReceived port f => Sys2Proof.Machine.execEthFrameReceived port f s
  | .pauseFrameReceived port opcode quanta => Sys2Proof.Machine.execPauseFrameReceived port opcode quanta s
  | .acknowledgementFrameReceived port a => Sys2Proof.Machine.execAcknowledgementFrameReceived port a s
  | .assuredMessageReceived flow ingress seq payload => Sys2Proof.Machine.execAssuredMessageReceived flow ingress seq payload s
  | .rtcpReceived port flow onRtpPort authOk => Sys2Proof.Machine.execRtcpReceived port flow onRtpPort authOk s
  | .linkUp port speed => Sys2Proof.Machine.execLinkUp port speed s
  | .linkDown port => Sys2Proof.Machine.execLinkDown port s
  | .pauseExpiry port => Sys2Proof.Machine.execPauseExpiry port s
  | .pauseWatchdogExpiry port => Sys2Proof.Machine.execPauseWatchdogExpiry port s
  | .pauseHoldoffEnd port => Sys2Proof.Machine.execPauseHoldoffEnd port s
  | .pauseRefresh port => Sys2Proof.Machine.execPauseRefresh port s
  | .ethFrameTxStart port => Sys2Proof.Machine.execEthFrameTxStart port s
  | .ethFrameTxEnd port => Sys2Proof.Machine.execEthFrameTxEnd port s
  | .heldAged port => Sys2Proof.Machine.execHeldAged port s
  | .holdTimeEnd port => Sys2Proof.Machine.execHoldTimeEnd port s
  | .settleEnd port => Sys2Proof.Machine.execSettleEnd port s
  | .assuredRetry flow => Sys2Proof.Machine.execAssuredRetry flow s
  | .rtcpTimer flow => Sys2Proof.Machine.execRtcpTimer flow s
  | .prpSupervision pair => Sys2Proof.Machine.execPrpSupervision pair s
  | .oldKeyErase flow => Sys2Proof.Machine.execOldKeyErase flow s
  | .superframeStart port => Sys2Proof.Machine.execSuperframeStart port s
  | .plcFrameTxStart port entry mode tmi ilv ft hdr body => Sys2Proof.Machine.execPlcFrameTxStart port entry mode tmi ilv ft hdr body s
  | .plcFrameTxEnd port limited clipped => Sys2Proof.Machine.execPlcFrameTxEnd port limited clipped s
  | .agcBlock port rmsDbfs mags => Sys2Proof.Machine.execAgcBlock port rmsDbfs mags s
  | .preambleCandidate port correlation stamp inversion start => Sys2Proof.Machine.execPreambleCandidate port correlation stamp inversion start s
  | .headerDecoded port checkOk hw => Sys2Proof.Machine.execHeaderDecoded port checkOk hw s
  | .payloadDecoded port rsFail mags fr body => Sys2Proof.Machine.execPayloadDecoded port rsFail mags fr body s
  | .beaconReceived port hdr b stamp => Sys2Proof.Machine.execBeaconReceived port hdr b stamp s
  | .emergencyVoiceReceived port fr subs => Sys2Proof.Machine.execEmergencyVoiceReceived port fr subs s
  | .voiceReceived port fr subs => Sys2Proof.Machine.execVoiceReceived port fr subs s
  | .assuredDataReceived port fr segidx bytes => Sys2Proof.Machine.execAssuredDataReceived port fr segidx bytes s
  | .plcAcknowledgementReceived port fr ackseq credit => Sys2Proof.Machine.execPlcAcknowledgementReceived port fr ackseq credit s
  | .contentionDataReceived port fr bytes => Sys2Proof.Machine.execContentionDataReceived port fr bytes s
  | .plcPoll port fr budget relays enclosed => Sys2Proof.Machine.execPlcPoll port fr budget relays enclosed s
  | .pollResponse port fr enclosed => Sys2Proof.Machine.execPollResponse port fr enclosed s
  | .joinReq port fr uid reqnode => Sys2Proof.Machine.execJoinReq port fr uid reqnode s
  | .joinAcc port fr uid node hops smgen => Sys2Proof.Machine.execJoinAcc port fr uid node hops smgen s
  | .joinRej port fr uid reason => Sys2Proof.Machine.execJoinRej port fr uid reason s
  | .mgmtLeave port fr => Sys2Proof.Machine.execMgmtLeave port fr s
  | .nbrReport port fr entries => Sys2Proof.Machine.execNbrReport port fr entries s
  | .routeSet port fr entries => Sys2Proof.Machine.execRouteSet port fr entries s
  | .slotmap port fr smgen part npart bytes => Sys2Proof.Machine.execSlotmap port fr smgen part npart bytes s
  | .tonemap port fr tmi sfno map => Sys2Proof.Machine.execTonemap port fr tmi sfno map s
  | .emReq port fr lchan peer => Sys2Proof.Machine.execEmReq port fr lchan peer s
  | .emRel port fr lchan => Sys2Proof.Machine.execEmRel port fr lchan s
  | .plcResign port fr netid => Sys2Proof.Machine.execPlcResign port fr netid s
  | .plcForeign port fr netid sfno => Sys2Proof.Machine.execPlcForeign port fr netid sfno s
  | .beaconLoss port => Sys2Proof.Machine.execBeaconLoss port s
  | .joinListenEnd port => Sys2Proof.Machine.execJoinListenEnd port s
  | .joinAnswerWait port => Sys2Proof.Machine.execJoinAnswerWait port s
  | .nbrReportPeriod port => Sys2Proof.Machine.execNbrReportPeriod port s
  | .nodeDrop port node => Sys2Proof.Machine.execNodeDrop port node s
  | .linkAbsent port node => Sys2Proof.Machine.execLinkAbsent port node s
  | .plcAssuredRetry port flow => Sys2Proof.Machine.execPlcAssuredRetry port flow s
  | .emergencyGrantIdle port => Sys2Proof.Machine.execEmergencyGrantIdle port s
  | .pollMiss port slave => Sys2Proof.Machine.execPollMiss port slave s
  | .pollPeriod port slave => Sys2Proof.Machine.execPollPeriod port slave s
  | .chainExclusionEnd port slave => Sys2Proof.Machine.execChainExclusionEnd port slave s
  | .resignAnnouncementEnd port => Sys2Proof.Machine.execResignAnnouncementEnd port s
  | .voiceAge port => Sys2Proof.Machine.execVoiceAge port s
  | .driverOverTemperature port => Sys2Proof.Machine.execDriverOverTemperature port s
  | .plcCalibrationDone port v rxdly txdly => Sys2Proof.Machine.execPlcCalibrationDone port v rxdly txdly s
  | .slotOutput slot inputs tIn => Sys2Proof.Machine.execSlotOutput slot inputs tIn s
  | .thresholdHoldoffEnd slot idx => Sys2Proof.Machine.execThresholdHoldoffEnd slot idx s
  | .sdmLoss slot => Sys2Proof.Machine.execSdmLoss slot s
  | .sdmReturn slot => Sys2Proof.Machine.execSdmReturn slot s
  | .tdmFrameEnd port fsPos rx => Sys2Proof.Machine.execTdmFrameEnd port fsPos rx s
  | .tdmClockLost port => Sys2Proof.Machine.execTdmClockLost port s
  | .tdmClockReturn port => Sys2Proof.Machine.execTdmClockReturn port s
  | .tdmEnableSettled port => Sys2Proof.Machine.execTdmEnableSettled port s
  | .topazJobStart eng chain => Sys2Proof.Machine.execTopazJobStart eng chain s
  | .topazYield eng => Sys2Proof.Machine.execTopazYield eng s
  | .topazJobEnd eng r => Sys2Proof.Machine.execTopazJobEnd eng r s
  | .segmentClose rec firstFailed againFailed => Sys2Proof.Machine.execSegmentClose rec firstFailed againFailed s
  | .segmentWrite ok => Sys2Proof.Machine.execSegmentWrite ok s
  | .agateSliceStart => Sys2Proof.Machine.execAgateSliceStart s
  | .agateSliceEnd pause done fails logicFail => Sys2Proof.Machine.execAgateSliceEnd pause done fails logicFail s
  | .retentionPauseEnd => Sys2Proof.Machine.execRetentionPauseEnd s
  | .correctedErrorReport mac row => Sys2Proof.Machine.execCorrectedErrorReport mac row s
  | .efuseProgramDone readbackOk => Sys2Proof.Machine.execEfuseProgramDone readbackOk s
  | .tapInstructionUpdate ir => Sys2Proof.Machine.execTapInstructionUpdate ir s
  | .testLogicReset => Sys2Proof.Machine.execTestLogicReset s
  | .commandTimeout q seq => Sys2Proof.Machine.execCommandTimeout q seq s
  | .ethPortFailure port => Sys2Proof.Machine.execEthPortFailure port s
  | .resignedPortRoleResume port => Sys2Proof.Machine.execResignedPortRoleResume port s
  | .ckAoStart => Sys2Proof.Machine.execCkAoStart s

end Sys2Proof.Machine
end

