-- ==== Sys2Proof/Machine/Params.lean ====
section
/-! DEFINITION. The other way round: the opcode and the parameter bytes of each host command, packed as R169 and Tables 7.7 to 7.16 have
them. KRN_LOAD and TPZ_CTX_RESTORE come with an image from host memory and are accepted by their own rows (log 81). -/

namespace Sys2Proof.Machine

/-- A host command as its entry carries it. -/
structure Packed where
  hdr : Hdr
  op : Nat
  params : List Byte
  deriving DecidableEq, Repr

/-- The eight fields of CH_CREATE after CHAN, each with its size (Table 7.8). -/
def chFields (p : ChParams) : List (List Byte) :=
  [le 1 p.codec.toNat, le 1 p.ptime.toNat, le 1 p.echoTail.toNat, le 1 p.jbMode.toNat, le 2 p.jbMin.toNat, le 2 p.jbMax.toNat, le 1 p.prio.toNat,
    le 2 p.flags.toNat]

def createBytes (p : ChParams) : List Byte := (chFields p).flatten

/-- The fields that MASK selects, in order (R181). -/
def modifyBytes (mask : Nat) (p : ChParams) : List Byte :=
  (fromN 0 8).flatMap (fun k => if mask / 2 ^ k % 2 = 1 then (chFields p).getD k [] else [])

/-- Header, opcode and parameters of a host command; none for a row that no entry spells. -/
def pack (i : Instr) : Option Packed :=
  match i with
  | .nopCommand h => some ⟨h, 0x0000, []⟩
  | .devInfo h => some ⟨h, 0x0101, []⟩
  | .devReset h kind => some ⟨h, 0x0102, le 1 kind.toNat⟩
  | .timeSet h timeNs flags => some ⟨h, 0x0103, le 8 timeNs.toNat ++ le 1 flags.toNat⟩
  | .timeSetWithWarmReset h timeNs => some ⟨h, 0x0103, le 8 timeNs.toNat ++ le 1 1⟩
  | .rtbCfg h src port srcto holdover stepthr lockthr slewmax => some ⟨h, 0x0104, le 1 src.toNat ++ le 1 port.toNat ++ le 2 srcto.toNat ++ le 4 holdover.toNat ++ le 4 stepthr.toNat ++ le 2 lockthr.toNat ++ le 2 slewmax.toNat⟩
  | .domainPower h dom on => some ⟨h, 0x0105, le 1 dom.toNat ++ le 1 on.toNat⟩
  | .hibernate h wakeAt flags => some ⟨h, 0x0106, le 8 wakeAt.toNat ++ le 1 flags.toNat⟩
  | .imageSlotErase h slot offset len => some ⟨h, 0x0107, le 1 0 ++ le 1 slot.toNat ++ le 4 offset.toNat ++ le 4 len.toNat⟩
  | .imageSlotWrite h slot offset len data => some ⟨h, 0x0107, le 1 1 ++ le 1 slot.toNat ++ le 4 offset.toNat ++ le 4 len.toNat ++ data⟩
  | .imageSlotVerify h slot offset len => some ⟨h, 0x0107, le 1 2 ++ le 1 slot.toNat ++ le 4 offset.toNat ++ le 4 len.toNat⟩
  | .imageSlotSetActslot h slot offset len => some ⟨h, 0x0107, le 1 3 ++ le 1 slot.toNat ++ le 4 offset.toNat ++ le 4 len.toNat⟩
  | .secminRaise h value => some ⟨h, 0x0108, le 1 value.toNat⟩
  | .keyRevoke h slot => some ⟨h, 0x0109, le 1 slot.toNat⟩
  | .lifecycleToField h m => some ⟨h, 0x010A, le 1 m.target.toNat ++ le 4 m.uidLo.toNat⟩
  | .lifecycleToReturn h uidLo token => some ⟨h, 0x010A, le 1 15 ++ le 4 uidLo.toNat ++ token⟩
  | .fuseProg h field data => some ⟨h, 0x010B, le 1 field.toNat ++ data⟩
  | .bootOptions h ethEn plcEn hostif ddrspeed => some ⟨h, 0x010C, le 1 ethEn.toNat ++ le 1 plcEn.toNat ++ le 1 hostif.toNat ++ le 1 ddrspeed.toNat⟩
  | .configCommit h => some ⟨h, 0x010D, []⟩
  | .admitCfg h reserve => some ⟨h, 0x010E, le 2 reserve.toNat⟩
  | .chCreate h chan p => some ⟨h, 0x0201, le 2 chan.toNat ++ createBytes p⟩
  | .chActivate h chan inB outB => some ⟨h, 0x0202, le 2 chan.toNat ++ le 4 inB.toNat ++ le 4 outB.toNat⟩
  | .chModify h chan mask p => some ⟨h, 0x0203, le 2 chan.toNat ++ le 2 mask.toNat ++ modifyBytes mask.toNat p⟩
  | .chDeactivate h chan => some ⟨h, 0x0204, le 2 chan.toNat⟩
  | .chDelete h chan => some ⟨h, 0x0205, le 2 chan.toNat⟩
  | .chStats h chan flags => some ⟨h, 0x0206, le 2 chan.toNat ++ le 1 flags.toNat⟩
  | .toneGen h chan dir toneset tone dur => some ⟨h, 0x0207, le 2 chan.toNat ++ le 1 dir.toNat ++ le 1 toneset.toNat ++ le 1 tone.toNat ++ le 2 dur.toNat⟩
  | .tonesetLoad h toneset defn => some ⟨h, 0x0208, le 1 toneset.toNat ++ defn⟩
  | .groupCreate h group maxl mix prio => some ⟨h, 0x0209, le 2 group.toNat ++ le 2 maxl.toNat ++ le 1 mix.toNat ++ le 1 prio.toNat⟩
  | .groupJoin h group chan role gain => some ⟨h, 0x020A, le 2 group.toNat ++ le 2 chan.toNat ++ le 1 role.toNat ++ le 1 gain.toNat⟩
  | .groupLeave h group chan => some ⟨h, 0x020B, le 2 group.toNat ++ le 2 chan.toNat⟩
  | .groupDelete h group => some ⟨h, 0x020C, le 2 group.toNat⟩
  | .recStart h chan queue segMs bufaddr buflen nbuf => some ⟨h, 0x020D, le 2 chan.toNat ++ le 1 queue.toNat ++ le 2 segMs.toNat ++ le 8 bufaddr.toNat ++ le 4 buflen.toNat ++ le 2 nbuf.toNat⟩
  | .recStop h r => some ⟨h, 0x020E, le 2 r.toNat⟩
  | .emergRule h rule trigger src group flags => some ⟨h, 0x020F, le 1 rule.toNat ++ le 1 trigger.toNat ++ le 4 src.toNat ++ le 2 group.toNat ++ le 1 flags.toNat⟩
  | .portCfg h port mode maxframe flags hold settle age pauseWd => some ⟨h, 0x0301, le 1 port.toNat ++ le 1 mode.toNat ++ le 2 maxframe.toNat ++ le 1 flags.toNat ++ le 2 hold.toNat ++ le 2 settle.toNat ++ le 2 age.toNat ++ le 2 pauseWd.toNat⟩
  | .portDisable h port => some ⟨h, 0x0302, le 1 port.toNat ++ le 1 0⟩
  | .portEnable h port => some ⟨h, 0x0302, le 1 port.toNat ++ le 1 1⟩
  | .portOutOfService h port => some ⟨h, 0x0302, le 1 port.toNat ++ le 1 2⟩
  | .portReturn h port => some ⟨h, 0x0302, le 1 port.toNat ++ le 1 3⟩
  | .flowAdd h flow kind portIn vlan chan linkchan prio egress flags mtch => some ⟨h, 0x0303, le 2 flow.toNat ++ le 1 kind.toNat ++ le 1 portIn.toNat ++ le 2 vlan.toNat ++ le 2 chan.toNat ++ le 2 linkchan.toNat ++ le 1 prio.toNat ++ le 1 egress.toNat ++ le 1 flags.toNat ++ mtch⟩
  | .flowTx h flow tlen template => some ⟨h, 0x0304, le 2 flow.toNat ++ le 1 tlen.toNat ++ template⟩
  | .flowDel h flow => some ⟨h, 0x0305, le 2 flow.toNat⟩
  | .srtpKey h flow dir suite kdr roc keylen saltlen key => some ⟨h, 0x0306, le 2 flow.toNat ++ le 1 dir.toNat ++ le 1 suite.toNat ++ le 1 kdr.toNat ++ le 4 roc.toNat ++ le 1 keylen.toNat ++ le 1 saltlen.toNat ++ key⟩
  | .prpPair h pair portA portB window => some ⟨h, 0x0307, le 1 pair.toNat ++ le 1 portA.toNat ++ le 1 portB.toNat ++ le 2 window.toNat⟩
  | .ptpCfg h port flags domain logsync => some ⟨h, 0x0308, le 1 port.toNat ++ le 1 flags.toNat ++ le 1 domain.toNat ++ le 1 logsync.toNat⟩
  | .assuredSend h flow len payload => some ⟨h, 0x0309, le 2 flow.toNat ++ le 2 len.toNat ++ payload⟩
  | .netStats h port flow flags => some ⟨h, 0x030A, le 1 port.toNat ++ le 2 flow.toNat ++ le 1 flags.toNat⟩
  | .plcPortCfg h port linkmode role netid node bandplan cstart cend zcmode k phase txlevel => some ⟨h, 0x0401, le 1 port.toNat ++ le 1 linkmode.toNat ++ le 1 role.toNat ++ le 2 netid.toNat ++ le 2 node.toNat ++ le 1 bandplan.toNat ++ le 2 cstart.toNat ++ le 2 cend.toNat ++ le 1 zcmode.toNat ++ le 1 k.toNat ++ le 2 phase.toNat ++ le 1 txlevel.toNat⟩
  | .plcPortOutOfService h port => some ⟨h, 0x0402, le 1 port.toNat ++ le 1 0⟩
  | .plcPortInService h port => some ⟨h, 0x0402, le 1 port.toNat ++ le 1 1⟩
  | .plcSlotmap h port map => some ⟨h, 0x0403, le 1 port.toNat ++ map⟩
  | .plcJoin h port netid node => some ⟨h, 0x0404, le 1 port.toNat ++ le 2 netid.toNat ++ le 2 node.toNat⟩
  | .plcLeave h port => some ⟨h, 0x0405, le 1 port.toNat⟩
  | .plcRoute h port dest nrelay relays => some ⟨h, 0x0406, le 1 port.toNat ++ le 2 dest.toNat ++ le 1 nrelay.toNat ++ relays.flatMap (fun x => le 2 x.toNat)⟩
  | .falloverCfg h ethport plcport flags => some ⟨h, 0x0407, le 1 ethport.toNat ++ le 1 plcport.toNat ++ le 1 flags.toNat⟩
  | .falloverToPowerline h ethport => some ⟨h, 0x0408, le 1 ethport.toNat ++ le 1 0⟩
  | .falloverBackToEthernet h ethport => some ⟨h, 0x0408, le 1 ethport.toNat ++ le 1 1⟩
  | .plcStats h port flags => some ⟨h, 0x0409, le 1 port.toNat ++ le 1 flags.toNat⟩
  | .sscSlotCfg h slot src preset ratio median phase shift chan => some ⟨h, 0x0501, le 1 slot.toNat ++ le 1 src.toNat ++ le 1 preset.toNat ++ le 2 ratio.toNat ++ le 1 median.toNat ++ le 1 phase.toNat ++ le 4 shift.toNat ++ le 2 chan.toNat⟩
  | .sscCoef h slot taps fade flags coefs => some ⟨h, 0x0502, le 1 slot.toNat ++ le 2 taps.toNat ++ le 2 fade.toNat ++ le 1 flags.toNat ++ coefs.flatMap (fun x => le 3 x.toNat)⟩
  | .sscThresh h slot idx level hyst flags => some ⟨h, 0x0503, le 1 slot.toNat ++ le 1 idx.toNat ++ le 3 level.toNat ++ le 3 hyst.toNat ++ le 1 flags.toNat⟩
  | .sscSlotDisable h slot => some ⟨h, 0x0504, le 1 slot.toNat ++ le 1 0⟩
  | .sscSlotEnable h slot => some ⟨h, 0x0504, le 1 slot.toNat ++ le 1 1⟩
  | .tdmPortCfg h port rate flags slots => some ⟨h, 0x0505, le 1 port.toNat ++ le 1 rate.toNat ++ le 1 flags.toNat ++ le 1 slots.toNat⟩
  | .tdmSlotmap h port n entries => some ⟨h, 0x0506, le 1 port.toNat ++ le 1 n.toNat ++ entries.flatMap (fun x => le 4 x.toNat)⟩
  | .tdmPortDisable h port => some ⟨h, 0x0507, le 1 port.toNat ++ le 1 0⟩
  | .tdmPortEnable h port => some ⟨h, 0x0507, le 1 port.toNat ++ le 1 1⟩
  | .sscStatus h kind index => some ⟨h, 0x0508, le 1 kind.toNat ++ le 1 index.toNat⟩
  | .tpzCtxAlloc h ctx => some ⟨h, 0x0601, le 1 ctx.toNat⟩
  | .tpzJobDeflate h ctx wrap effort flags src srclen chain nchain => some ⟨h, 0x0602, le 1 ctx.toNat ++ le 1 0 ++ le 1 wrap.toNat ++ le 1 effort.toNat ++ le 1 flags.toNat ++ le 8 src.toNat ++ le 4 srclen.toNat ++ le 8 chain.toNat ++ le 2 nchain.toNat⟩
  | .tpzJobInflate h ctx wrap effort flags src srclen chain nchain => some ⟨h, 0x0602, le 1 ctx.toNat ++ le 1 1 ++ le 1 wrap.toNat ++ le 1 effort.toNat ++ le 1 flags.toNat ++ le 8 src.toNat ++ le 4 srclen.toNat ++ le 8 chain.toNat ++ le 2 nchain.toNat⟩
  | .tpzCtxSave h ctx addr => some ⟨h, 0x0603, le 1 ctx.toNat ++ le 8 addr.toNat⟩
  | .tpzCtxFree h ctx => some ⟨h, 0x0605, le 1 ctx.toNat⟩
  | .agtRun h target index alg slice => some ⟨h, 0x0701, le 1 target.toNat ++ le 2 index.toNat ++ le 1 alg.toNat ++ le 2 slice.toNat⟩
  | .agtResults h result => some ⟨h, 0x0702, le 2 result.toNat⟩
  | .agtRepairSoft h result => some ⟨h, 0x0703, le 2 result.toNat⟩
  | .agtRepairFuse h result token => some ⟨h, 0x0704, le 2 result.toNat ++ token⟩
  | .coreOutOfService h core => some ⟨h, 0x0705, le 1 core.toNat ++ le 1 0⟩
  | .coreReturn h core => some ⟨h, 0x0705, le 1 core.toNat ++ le 1 1⟩
  | .coreRetire h core => some ⟨h, 0x0705, le 1 core.toNat ++ le 1 2⟩
  | .rebalance h fromC toC count => some ⟨h, 0x0706, le 1 fromC.toNat ++ le 1 toC.toNat ++ le 2 count.toNat⟩
  | .regRead h block flags offset count => some ⟨h, 0x0801, le 1 block.toNat ++ le 1 flags.toNat ++ le 2 offset.toNat ++ le 2 count.toNat⟩
  | .counters h group index flags => some ⟨h, 0x0802, le 1 group.toNat ++ le 2 index.toNat ++ le 1 flags.toNat⟩
  | .journalRead h fromSeq max => some ⟨h, 0x0803, le 4 fromSeq.toNat ++ le 2 max.toNat⟩
  | .pvlRead h fromIdx max => some ⟨h, 0x0804, le 4 fromIdx.toNat ++ le 2 max.toNat⟩
  | .bootledgerRead h => some ⟨h, 0x0805, []⟩
  | .notifyCfg h mask => some ⟨h, 0x0806, le 4 mask.toNat⟩
  | .logExport h log fromSeq addr len wrap => some ⟨h, 0x0807, le 1 log.toNat ++ le 4 fromSeq.toNat ++ le 8 addr.toNat ++ le 4 len.toNat ++ le 1 wrap.toNat⟩
  | .echo h data => some ⟨h, 0x0808, data⟩
  | .krnBind h kid chan stage => some ⟨h, 0x0902, le 1 kid.toNat ++ le 2 chan.toNat ++ le 1 stage.toNat⟩
  | .krnUnbind h kid chan => some ⟨h, 0x0903, le 1 kid.toNat ++ le 2 chan.toNat⟩
  | .krnUnload h kid => some ⟨h, 0x0904, le 1 kid.toNat⟩
  | .krnStatus h kid => some ⟨h, 0x0905, le 1 kid.toNat⟩
  | _ => none

/-- The parameters of CH_MODIFY name only the fields that MASK selects; the others stand at zero. -/
def modifyOnly (mask : Nat) (p : ChParams) : Bool :=
  let out (k : Nat) : Bool := mask / 2 ^ k % 2 != 1
  (!out 0 || p.codec == 0) && (!out 1 || p.ptime == 0) && (!out 2 || p.echoTail == 0) && (!out 3 || p.jbMode == 0) &&
    (!out 4 || p.jbMin == 0) && (!out 5 || p.jbMax == 0) && (!out 6 || p.prio == 0) && (!out 7 || p.flags == 0)

/-- A command in the one form its row has: TIME_SET with FLAGS 1 is the row TIME_SET_WITH_WARM_RESET (R179). -/
def canonical (i : Instr) : Bool :=
  match i with
  | .timeSet _ _ flags => flags != 1
  | .lifecycleToField _ m => m.target != 15
  | .chModify _ _ mask p => modifyOnly mask.toNat p
  | _ => true

end Sys2Proof.Machine
end

