-- ==== Sys2Proof/Safety.lean ====
section
/-! DEFINITION. What a safe run is, in the terms that claims use: steps that end in a next state, memories in their canonical
form, and the command queue as the outside world filled it. -/

namespace Sys2Proof.Machine

/-- A step or a command ends in a next state. -/
def Goes (o : Out) : Prop := ∃ t, o = .next t

/-- The canonical form of a memory of bytes whose unlisted addresses read as 0. -/
def Memory.wf (m : List Host.Cell) : Bool := cellsWf (0 : Byte) m

/-- The canonical form of a data memory of 48-bit words. -/
def Memory.wordsWf (m : Tbl Word48) : Bool := cellsWf (0 : Word48) m

/-- Every memory of the device is in its canonical form: DDR, the shared memories of the clusters, the cores' data
memories, the flash, whose erased bytes read 0xFF, and host memory, where only what the device has written is listed. -/
def State.memWf (s : State) : Bool :=
  Memory.wf s.gar.ddr && s.gar.clMem.all (fun e => Memory.wf e.2) && s.gar.cores.all (fun e => Memory.wordsWf e.2.dmem) &&
    cellsWf (0xFF : Byte) s.boot.flash && tblSortedFrom none s.hostMem.bytes

/-- The memory file of a state: a claim that a command leaves memory alone says that this is as it was. -/
def State.mem (s : State) : List Host.Cell × Tbl (List Host.Cell) × Tbl (Tbl Word48) × Tbl Byte × HostMem :=
  (s.gar.ddr, s.gar.clMem, tblMap (fun _ (c : CoreSt) => c.dmem) s.gar.cores, s.boot.flash, s.hostMem)

/-! ### A Garnet instruction that retires -/

/-- Core `n` has a job, and an instruction of this kind may stand where the core is: fetched inside its window, and allowed in a delay
slot or at a loop end if it stands there (R229, R264, R268). -/
def GReady (n : Nat) (ctl : Ctl) (s : State) : Prop := (core s n).job.isSome = true ∧ misplaced (core s n) ctl = none

/-- The last of the writes `l` to `k`, or the value `d` where none is to `k`. -/
def lastOf {α : Type} (k : Nat) (l : List (Nat × α)) (d : α) : α := l.foldl (fun v e => if e.1 = k then e.2 else v) d

/-- The instruction of core `n` at PC has retired with the writes `w`: what the core's registers, accumulators, flags and DMEM hold
afterwards, where it goes, and that nothing else changed (R238, R242 to R245, R267). -/
def Retires (n : Nat) (w : GWrites) (s t : State) : Prop :=
  let c := core s n
  let d := core t n
  t = setCore n d s ∧
  d = { c with cur := d.cur, h1 := c.cur, h2 := c.h1, h3 := c.h2, hw := d.hw, late := d.late, mlate := d.mlate, dmem := d.dmem,
               pc := d.pc, slot := d.slot, shadow := d.shadow, cycle := BitVec.ofNat 24 (satAdd 24 c.cycle.toNat 1) } ∧
  (∀ k, d.cur.acc k = lastOf k w.acc (c.cur.acc k)) ∧
  (∀ a, tblGet d.dmem a 0 = lastOf a w.mem (tblGet c.dmem a 0)) ∧
  (∀ r, r < 16 → d.cur.get r = lastOf r w.regs (c.cur.get r)) ∧
  (∀ r v, w.regs = [(r, v)] → w.zn = none → w.gov = 0 → w.sov = 0 → ¬(atLoopEnd c = true ∧ 0x2E ≤ r ∧ r ≤ 0x31) →
    d.cur.get r = (regPut r v c.cur).get r) ∧
  ((∀ v, (codeSTAT, v) ∉ w.regs) → d.cur.get codeSTAT =
    BitVec.ofNat 48 ((match w.zn with | some z => (c.cur.get codeSTAT).toNat / 16 * 16 + z | none => (c.cur.get codeSTAT).toNat)
      ||| (w.gov * 256) ||| (w.sov * 1024))) ∧
  (∀ p q, w.post = [(p, q)] → (∀ v, (0x10 + p, v) ∉ w.regs) → c.late = [] → p < 8 →
    d.cur.get (0x10 + p) = q.zeroExtend 48 ∧ ptr d p = q) ∧
  (∀ r, 16 ≤ r → r ≠ codeSTAT → (∀ v, (r, v) ∉ w.regs) → (∀ q, (r - 0x10, q) ∉ w.post) →
    ¬(atLoopEnd c = true ∧ 0x2E ≤ r ∧ r ≤ 0x31) → d.cur.get r = c.cur.get r) ∧
  (∀ b a, c.slot = some (b, a) → d.pc = a ∧ d.slot = none) ∧
  (c.slot = none → d.slot = none ∧ (atLoopEnd c = false → d.pc = c.pc + 1))

/-! ### A host command that is taken at once -/

/-- No command accepted before it on one of its objects stands unapplied (R175). -/
def objsClear (sp : Spec) (s : State) : Bool :=
  s.host.cmds.all (fun d => !(d.lref.isSome && d.fin.isNone && d.objs.any (fun o => sp.objs.contains o)))

/-- Every command taken before on queue `q` has begun (R145). -/
def turnClear (q : Nat) (s : State) : Bool := s.host.cmds.all (fun d => !(d.queue == q && d.started.isNone && d.fin.isNone))

/-- The command of header `h` that `sp` describes is taken, passes every check of R146, and begins at once: commands are fetched, its
sequence is the one expected, inside the window and of no un-retired command, no check refuses it, and nothing it must wait for stands. -/
def admits (h : Hdr) (sp : Spec) (s : State) : Bool :=
  served s && (cmdAt s h.queue.val h.seq).isNone && inWindow h.queue.val h.seq s && decide ((queue s h.queue.val).exp = h.seq) &&
    (scpCheck h sp s).isNone && objsClear sp s && turnClear h.queue.val s

/-- The record of an admitted command that has begun. -/
def begunCmd (h : Hdr) (i : Instr) (sp : Spec) (s : State) : Cmd :=
  let a := acceptCmd h i sp s
  { (cmdAt a h.queue.val h.seq).getD (newCmd h i sp.info sp.objs h.seq) with
    started := some (now a), deadline := sp.info.timeout.map (now a + ·) }

/-- The state in which an admitted command has begun: accepted (R149, R195), and its entry STARTED (R205). -/
def begun (h : Hdr) (i : Instr) (sp : Spec) (s : State) : State :=
  let a := acceptCmd h i sp s
  let c := begunCmd h i sp s
  setCmd c (match c.lref with | some k => ledgerPhase k 1 0 0 a | none => a)

end Sys2Proof.Machine
end

