-- ==== Sys2Proof/WellFormed.lean ====
section
/-! DEFINITION. Well-formed commands: what the interfaces can carry. A host command's variable part fits the 4,080
parameter bytes of an entry (R142), a fetched entry has its 64 bytes, and a list in a frame has no more elements than its
field can count. The meanings hold of every command; this says which of them the outside world can send. -/

namespace Sys2Proof

/-- The bytes that a DMA returned, at most `n`. -/
def Dma.wf (n : Nat) (d : Dma) : Bool := match d with | .data b => decide (b.length ≤ n) | .error => true

/-- Fixed parameters of `k` bytes and a variable part of `n` more fit an entry (R142). -/
def parFits (k n : Nat) : Bool := decide (k + n ≤ 4080)

/-- What is well formed of the commands that carry lists; every other command is well formed as it stands. -/
def Instr.wf (i : Instr) : Bool :=
  match i with
  | .imageSlotWrite _ _ _ _ data => parFits 10 data.length
  | .lifecycleToReturn _ _ token => parFits 5 token.length
  | .fuseProg _ _ data => parFits 1 data.length
  | .tonesetLoad _ _ defn => parFits 1 defn.length
  | .flowAdd _ _ _ _ _ _ _ _ _ _ mtch => parFits 13 mtch.length
  | .flowTx _ _ _ template => parFits 3 template.length
  | .srtpKey _ _ _ _ _ _ _ _ key => parFits 11 key.length
  | .assuredSend _ _ _ payload => parFits 4 payload.length
  | .plcSlotmap _ _ map => parFits 1 map.length
  | .plcRoute _ _ _ _ relays => parFits 4 (2 * relays.length)
  | .sscCoef _ _ _ _ _ coefs => parFits 6 (3 * coefs.length)
  | .tdmSlotmap _ _ _ entries => parFits 2 (4 * entries.length)
  | .agtRepairFuse _ _ token => parFits 2 token.length
  | .echo _ data => parFits 0 data.length
  | .submissionFetch _ e params => (match e with | .data b => decide (b.length = 64) | .error => true) && params.wf 4080
  | .plcPoll _ _ _ relays _ => decide (relays.length ≤ 4)
  | _ => true

end Sys2Proof
end

