-- ==== Sys2Proof/Certificates/Slice0/Obligations.lean ====
section
/-! DEFINITION. The statements of this row, for the provers. What several of them share stands first: when a command can do
its work, and what a part of the machine that it does not touch looks like afterwards. -/

/-! ### Garnet cores (Chapters 9 and 10) -/

namespace Sys2Proof.Obl

open Sys2Proof.Machine

/-- The signed lanes of X or Y register `r` as an operand sees them. -/
def xH (c : CoreSt) (r : BitVec 4) : Int := (laneH (xy c r.toNat)).toInt
def xL (c : CoreSt) (r : BitVec 4) : Int := (laneL (xy c r.toNat)).toInt

/-- The writes of a register ALU instruction with its parallel moves `m`: register `rd` takes the two lanes, and with `f` their Z and N. -/
def raWrites (rd : BitVec 4) (h l : LaneRes 24) (f : Bool) (m : GWrites) : GWrites :=
  ({ noWrites with regs := [(rd.toNat, word h.v l.v)], zn := if f then some (znBits h l) else none, sov := sovBits h l } : GWrites).and m

/-- The writes of an accumulator instruction with its parallel moves `m`. -/
def aaWrites (ad : BitVec 2) (h l : LaneRes 56) (f : Bool) (m : GWrites) : GWrites :=
  ({ noWrites with acc := [(2 * ad.toNat, h.v), (2 * ad.toNat + 1, l.v)], zn := if f then some (znBits h l) else none,
                   gov := govBits h l, sov := sovBits h l } : GWrites).and m

/-- Core `n` completes command `i` in state `s` with the writes `w`. -/
def Completes (n : Nat) (i : Instr) (w : GWrites) (s : State) : Prop := ∃ t, exec i s = .next t ∧ Retires n w s t

/-- A lane that an operation on bits gives. -/
def bits24 (v : BitVec 24) : LaneRes 24 := { v := v, z := decide (v = 0), n := v.msb, sov := false, gov := false }

end Sys2Proof.Obl

open Sys2Proof Sys2Proof.Machine Sys2Proof.Obl in
/-- R244, R255 to R259 and Table 10.4: every register ALU instruction, with any two parallel moves that complete. -/
def Obligations.GarnetRegisterAluCompletes : Prop :=
  ∀ (n : Fin 48) (rd a b : BitVec 4) (k : BitVec 6) (p q : PMove) (m : GWrites) (s : State),
    GReady n.val .plain s → pmoves (Machine.core s n.val) p q = .done m → (∀ v, (rd.toNat, v) ∉ m.regs) →
    let c := Machine.core s n.val
    let sat := modeSat (modeNow c)
    let al (x y : Int) : GWrites := raWrites rd (aluLane sat x) (aluLane sat y) true m
    let un (x y : Int) : GWrites := raWrites rd (aluLane false x) (aluLane false y) true m
    let lo (f : BitVec 24 → BitVec 24 → BitVec 24) : GWrites :=
      raWrites rd (bits24 (f (laneH (xy c a.toNat)) (laneH (xy c b.toNat)))) (bits24 (f (laneL (xy c a.toNat)) (laneL (xy c b.toNat)))) true m
    let mv (h l : BitVec 24) : GWrites := raWrites rd (bits24 h) (bits24 l) false m
    Completes n.val (.addR n rd a b p q) (al (xH c a + xH c b) (xL c a + xL c b)) s ∧
    Completes n.val (.subR n rd a b p q) (al (xH c a - xH c b) (xL c a - xL c b)) s ∧
    Completes n.val (.negR n rd a p q) (al (-(xH c a)) (-(xL c a))) s ∧
    Completes n.val (.absR n rd a p q) (al (xH c a).natAbs (xL c a).natAbs) s ∧
    Completes n.val (.maxR n rd a b p q) (un (max (xH c a) (xH c b)) (max (xL c a) (xL c b))) s ∧
    Completes n.val (.minR n rd a b p q) (un (min (xH c a) (xH c b)) (min (xL c a) (xL c b))) s ∧
    Completes n.val (.andR n rd a b p q) (lo (fun x y => x &&& y)) s ∧
    Completes n.val (.orR n rd a b p q) (lo (fun x y => x ||| y)) s ∧
    Completes n.val (.xorR n rd a b p q) (lo (fun x y => x ^^^ y)) s ∧
    Completes n.val (.notR n rd a p q) (lo (fun x _ => ~~~x)) s ∧
    (k.toNat ≤ 23 → Completes n.val (.asl n rd a k p q) (al (xH c a * (2 ^ k.toNat : Nat)) (xL c a * (2 ^ k.toNat : Nat))) s) ∧
    (k.toNat ≤ 23 → Completes n.val (.asr n rd a k p q) (un (xH c a / (2 ^ k.toNat : Nat)) (xL c a / (2 ^ k.toNat : Nat))) s) ∧
    (k.toNat ≤ 23 → Completes n.val (.lsr n rd a k p q) (lo (fun x _ => x >>> k.toNat)) s) ∧
    Completes n.val (.ashv n rd a b p q) (al (shiftBy (xH c a) (clampI 24 (xH c b))) (shiftBy (xL c a) (clampI 24 (xL c b)))) s ∧
    Completes n.val (.swap n rd a p q) (mv (laneL (xy c a.toNat)) (laneH (xy c a.toNat))) s ∧
    Completes n.val (.pack n rd a b p q) (mv (laneL (xy c a.toNat)) (laneL (xy c b.toNat))) s ∧
    Completes n.val (.clrx n rd p q) (mv 0 0) s ∧
    Completes n.val (.addsub n rd a b p q) (al (xH c a + xH c b) (xL c a - xL c b)) s ∧
    Completes n.val (.cmpR n a b p q)
      (({ noWrites with zn := some (znBits (aluLane sat (xH c a - xH c b)) (aluLane sat (xL c a - xL c b))),
                        sov := sovBits (aluLane sat (xH c a - xH c b)) (aluLane sat (xL c a - xL c b)) } : GWrites).and m) s

open Sys2Proof Sys2Proof.Machine Sys2Proof.Obl in
/-- R242, R243, R245 and Table 10.4: every accumulator instruction, with any two parallel moves that complete, where no GOV trap is due. -/
def Sys2Proof.Obl.GarnetAccumulatorCompletes : Prop :=
  ∀ (n : Fin 48) (d a : BitVec 2) (r : BitVec 4) (k : BitVec 6) (p q : PMove) (m : GWrites) (s : State),
    GReady n.val .plain s → pmoves (Machine.core s n.val) p q = .done m → (∀ v, (r.toNat, v) ∉ m.regs) →
    modeGtrap (modeNow (Machine.core s n.val)) = false →
    let c := Machine.core s n.val
    let sat := modeSat (modeNow c)
    let ssh := modeSsh (modeNow c)
    let x (g : BitVec 2) (i : Nat) : Int := (c.cur.acc (2 * g.toNat + i)).toInt
    let o (g : BitVec 2) (i : Nat) : Int := (c.h1.acc (2 * g.toNat + i)).toInt
    let rH : Int := xH c r * 16777216
    let rL : Int := xL c r * 16777216
    let aa (f : Bool) (h l : Int) : GWrites := aaWrites d (accLane h) (accLane l) f m
    let st (h l : LaneRes 24) : GWrites := raWrites r h l false m
    let fl (h l : Int) : GWrites := ({ noWrites with zn := some (znBits (accLane h) (accLane l)) } : GWrites).and m
    Completes n.val (.clra n d p q) (aa false 0 0) s ∧
    Completes n.val (.mova n d a p q) (aa false (o a 0) (o a 1)) s ∧
    Completes n.val (.adda n d a p q) (aa true (x d 0 + x a 0) (x d 1 + x a 1)) s ∧
    Completes n.val (.suba n d a p q) (aa true (x d 0 - x a 0) (x d 1 - x a 1)) s ∧
    Completes n.val (.nega n d a p q) (aa true (-(x a 0)) (-(x a 1))) s ∧
    Completes n.val (.absa n d a p q) (aa true (x a 0).natAbs (x a 1).natAbs) s ∧
    Completes n.val (.cmpa n d a p q) (fl (o d 0 - o a 0) (o d 1 - o a 1)) s ∧
    Completes n.val (.tsta n a p q) (fl (o a 0) (o a 1)) s ∧
    Completes n.val (.maxa n d a p q) (aa true (max (x d 0) (x a 0)) (max (x d 1) (x a 1))) s ∧
    Completes n.val (.mina n d a p q) (aa true (min (x d 0) (x a 0)) (min (x d 1) (x a 1))) s ∧
    (k.toNat ≤ 55 → Completes n.val (.asla n d a k p q) (aa false (x a 0 * (2 ^ k.toNat : Nat)) (x a 1 * (2 ^ k.toNat : Nat))) s) ∧
    (k.toNat ≤ 55 → Completes n.val (.asra n d a k p q) (aa false (x a 0 / (2 ^ k.toNat : Nat)) (x a 1 / (2 ^ k.toNat : Nat))) s) ∧
    Completes n.val (.asha n d a r p q) (aa false (shiftBy (x a 0) (clampI 56 (xH c r))) (shiftBy (x a 1) (clampI 56 (xL c r)))) s ∧
    Completes n.val (.ldah n d r p q) (aa false rH rL) s ∧
    Completes n.val (.addar n d r p q) (aa true (x d 0 + rH) (x d 1 + rL)) s ∧
    Completes n.val (.subar n d r p q) (aa true (x d 0 - rH) (x d 1 - rL)) s ∧
    Completes n.val (.stah n r a p q)
      (st (storeHigh sat ssh (c.h1.acc (2 * a.toNat))) (storeHigh sat ssh (c.h1.acc (2 * a.toNat + 1)))) s ∧
    Completes n.val (.stal n r a p q) (st (storeLow ssh (c.h1.acc (2 * a.toNat))) (storeLow ssh (c.h1.acc (2 * a.toNat + 1)))) s ∧
    Completes n.val (.sata n d a p q) (aaWrites d (sataLane (x a 0)) (sataLane (x a 1)) false m) s ∧
    Completes n.val (.nrma n r a p q)
      (st (laneOf (BitVec.ofNat 24 (redundant (c.h1.acc (2 * a.toNat)) 55))) (laneOf (BitVec.ofNat 24 (redundant (c.h1.acc (2 * a.toNat + 1)) 55)))) s

open Sys2Proof Sys2Proof.Machine Sys2Proof.Obl in
/-- R242, R256 and R262: MPY, MAC and MSU in either unit, MOVP, and the three filter taps, where no GOV trap is due. -/
def Sys2Proof.Obl.GarnetMacCompletes : Prop :=
  ∀ (n : Fin 48) (u : MacU) (u1 : MacF) (p q : PMove) (m : GWrites) (g pair : BitVec 2) (pd pc : BitVec 3) (s : State),
    GReady n.val .plain s → modeGtrap (modeNow (Machine.core s n.val)) = false →
    let c := Machine.core s n.val
    let fr := modeFrac (modeNow c)
    let mac (op : Nat) (acc : BitVec 2) (x y : Word48) (pr : BitVec 2) (m : GWrites) : GWrites :=
      let (h, l) := pairing pr x y
      aaWrites acc (macLane op (c.cur.acc (2 * acc.toNat)) (product fr h.1 h.2)) (macLane op (c.cur.acc (2 * acc.toNat + 1)) (product fr l.1 l.2)) false m
    let one (op : Nat) (m : GWrites) : GWrites := mac op u.acc (xy c u.xs.toNat) (xy c (8 + u.ys.toNat)) u.pair m
    let two (op : Nat) (m : GWrites) : GWrites :=
      if u1.op = 0 then one op m else (one op (mac u1.op.toNat u1.acc (xy c u1.xs.toNat) (xy c (8 + u1.ys.toNat)) u1.pair noWrites)).and m
    (pmoves c p q = .done m →
      Completes n.val (.movp n p q) m s ∧
      Completes n.val (.mpy n u .inU1 p q) (one 1 m) s ∧ Completes n.val (.macD n u .inU1 p q) (one 2 m) s ∧
      Completes n.val (.msu n u .inU1 p q) (one 3 m) s ∧
      ((u1.op = 0 → u1 = { op := 0, acc := 0, xs := 0, ys := 0, pair := 0 }) → (u1.op ≠ 0 → u1.acc ≠ u.acc) →
        Completes n.val (.mpy n u (.inU0 u1) p q) (two 1 m) s ∧ Completes n.val (.macD n u (.inU0 u1) p q) (two 2 m) s ∧
        Completes n.val (.msu n u (.inU0 u1) p q) (two 3 m) s)) ∧
    (∀ wa pd' pc', pd ≠ pc → stepPtr (ptr c pd.toNat) 1 (modReg c pd.toNat) (baseReg c pd.toNat) = some wa →
      stepPtr (ptr c pd.toNat) (-1) (modReg c pd.toNat) (baseReg c pd.toNat) = some pd' →
      stepPtr (ptr c pc.toNat) 1 (modReg c pc.toNat) (baseReg c pc.toNat) = some pc' →
      dmemOk c (ptr c pd.toNat).toNat = true → dmemOk c (ptr c pc.toNat).toNat = true → dmemOk c wa.toNat = true →
      let x := dmemRead c (ptr c pd.toNat).toNat
      let y := dmemRead c (ptr c pc.toNat).toNat
      let tap : GWrites := { noWrites with mem := [(wa.toNat, x)], post := [(pd.toNat, pd'), (pc.toNat, pc')] }
      Completes n.val (.ftap n g pair pd pc) (mac 2 g x y pair tap) s ∧
      Completes n.val (.ftaps n g pair pd pc) (mac 3 g x y pair tap) s ∧
      Completes n.val (.ftapz n g pair pd pc) (mac 1 g x y pair tap) s)

open Sys2Proof Sys2Proof.Machine Sys2Proof.Obl in
/-- R225, R255, R257 and R260: loads, stores, immediates and moves that raise nothing. -/
def Obligations.GarnetMoveCompletes : Prop :=
  ∀ (n : Fin 48) (reg rd : BitVec 6) (g w : BitVec 2) (ea : EA) (imm : BitVec 24) (s : State),
    GReady n.val .plain s → reg ≠ 0x3F → rd ≠ 0x3F →
    let c := Machine.core s n.val
    let put (r : Nat) (v : Word48) (x : GWrites) : GWrites := ({ noWrites with regs := [(r, narrow r v)] } : GWrites).and x
    let free (r : Nat) (v : Word48) : Prop := ¬(r = codeMODE ∧ userMode c = true ∧ (narrow r v ^^^ c.cur.get codeMODE) &&& 0x1F00 ≠ 0)
    (∀ a post, eaOf c ea = some (a, post) → a.toNat < 0x20000 → dmemOk c a.toNat = true →
      let pw : GWrites := { noWrites with post := post }
      (free reg.toNat (dmemRead c a.toNat) →
        Completes n.val (.ld n reg ea false) (put reg.toNat (dmemRead c a.toNat) pw) s) ∧
      Completes n.val (.st n reg ea) (({ noWrites with mem := [(a.toNat, regSrc c reg.toNat)] } : GWrites).and pw) s ∧
      (w ≠ 3 → Completes n.val (.staw n g w ea) (({ noWrites with mem := [(a.toNat, stawWord c g w)] } : GWrites).and pw) s) ∧
      (w ≠ 3 → ∃ x, ldawRes c g w (dmemRead c a.toNat) = .done x ∧ Completes n.val (.ldaw n g w ea false) (x.and pw) s)) ∧
    (reg.toNat < 16 →
      Completes n.val (.ldi n reg 0 imm) (put reg.toNat (word (laneH (c.cur.get reg.toNat)) imm) noWrites) s ∧
      Completes n.val (.ldi n reg 1 imm) (put reg.toNat (word imm (laneL (c.cur.get reg.toNat))) noWrites) s ∧
      Completes n.val (.ldi n reg 2 imm) (put reg.toNat (word imm imm) noWrites) s ∧
      Completes n.val (.cmpi n reg imm)
        (let h := aluLane (modeSat (modeNow c)) ((laneH (xy c reg.toNat)).toInt - imm.toInt)
         let l := aluLane (modeSat (modeNow c)) ((laneL (xy c reg.toNat)).toInt - imm.toInt)
         { noWrites with zn := some (znBits h l), sov := sovBits h l }) s) ∧
    (16 ≤ reg.toNat → free reg.toNat (imm.zeroExtend 48) → Completes n.val (.ldi n reg 0 imm) (put reg.toNat (imm.zeroExtend 48) noWrites) s) ∧
    (0x10 ≤ reg.toNat → reg.toNat ≤ 0x1F →
      Completes n.val (.addi n reg imm) (put reg.toNat (((c.cur.get reg.toNat).extractLsb' 0 24 + imm).zeroExtend 48) noWrites) s) ∧
    (free rd.toNat (regSrc c reg.toNat) → Completes n.val (.moveR n rd reg) (put rd.toNat (regSrc c reg.toNat) noWrites) s)

namespace Sys2Proof.Obl

open Sys2Proof.Machine

/-- The branch of core `n` at PC has issued: the slot comes next, then `target`; the registers hold what they held in `a`. -/
def Branches (n : Nat) (target : BitVec 16) (a : Arch) (s t : State) : Prop :=
  let c := Machine.core s n
  let d := Machine.core t n
  t = setCore n d s ∧
  d = { c with cur := d.cur, h1 := c.cur, h2 := c.h1, h3 := c.h2, hw := d.hw, late := d.late, mlate := d.mlate, pc := c.pc + 1,
               slot := some (c.pc, target), shadow := c.shadow - 1, cycle := BitVec.ofNat 24 (satAdd 24 c.cycle.toNat 1) } ∧
  (∀ r, d.cur.get r = a.get r) ∧ (∀ k, d.cur.acc k = a.acc k)

/-- The loop instruction of core `n` has retired: only the loop registers have changed, and the next instruction follows. -/
def Loops (n : Nat) (s t : State) : Prop :=
  let c := Machine.core s n
  let d := Machine.core t n
  t = setCore n d s ∧ d.pc = c.pc + 1 ∧ d.slot = none ∧ d.dmem = c.dmem ∧ d.lists = c.lists ∧ d.job = c.job ∧
  (∀ k, d.cur.acc k = c.cur.acc k) ∧ (∀ r, r < 0x28 ∨ 0x31 < r → d.cur.get r = c.cur.get r)

end Sys2Proof.Obl

open Sys2Proof Sys2Proof.Machine Sys2Proof.Obl in
/-- R263, R264 and Table 10.5: branches with their delay slot. -/
def Sys2Proof.Obl.GarnetBranchCompletes : Prop :=
  ∀ (n : Fin 48) (tgt : BitVec 16) (cond : BitVec 4) (pn : BitVec 3) (s : State), GReady n.val (.branch 0) s →
    let c := Machine.core s n.val
    (∃ t, exec (.bra n tgt) s = .next t ∧ Branches n.val tgt c.cur s t) ∧
    (∀ b, condTest cond (c.h3.get codeSTAT) (decide (ipend c ≠ 0)) = some b →
      ∃ t, exec (.bcc n cond tgt) s = .next t ∧ Branches n.val (if b then tgt else c.pc + 2) c.cur s t) ∧
    (∃ t, exec (.brl n pn tgt) s = .next t ∧ Branches n.val tgt (c.cur.set (0x10 + pn.toNat) ((c.pc + 2).zeroExtend 48)) s t) ∧
    ((c.h3.get (0x10 + pn.toNat)).toNat < 65536 →
      ∃ t, exec (.jmp n pn) s = .next t ∧ Branches n.val (BitVec.ofNat 16 (c.h3.get (0x10 + pn.toNat)).toNat) c.cur s t)

open Sys2Proof Sys2Proof.Machine Sys2Proof.Obl in
/-- R266 and R267: DO, DOI and LEAVE where no late write to a loop register is under way; and the loop-back decision of an instruction at the
end of a loop that is to run again or that is the only one of its end address. -/
def Sys2Proof.Obl.GarnetLoopCompletes : Prop :=
  ∀ (n : Fin 48) (reg : BitVec 6) (cnt : BitVec 24) (le : BitVec 16) (s : State),
    let c := Machine.core s n.val
    let k := loopReg c codeLDEPTH
    c.late = [] →
    (GReady n.val (.startLoop 0 0) s → k < 3 → c.pc.toNat + 1 ≤ le.toNat →
      let Started (cnt : BitVec 24) (t : State) : Prop :=
        let d := Machine.core t n.val
        Loops n.val s t ∧ loopReg d codeLDEPTH = k + 1 ∧ loopReg d (0x28 + k) = c.pc.toNat + 1 ∧ loopReg d (0x2B + k) = le.toNat ∧
          loopReg d (0x2E + k) = cnt.toNat
      (cnt ≠ 0 → ∃ t, exec (.doiLoop n cnt le) s = .next t ∧ Started cnt t) ∧
      (reg ≠ 0x3F → (c.h3.get reg.toNat).extractLsb' 0 24 ≠ (0 : BitVec 24) →
        ∃ t, exec (.doLoop n reg le) s = .next t ∧ Started ((c.h3.get reg.toNat).extractLsb' 0 24) t)) ∧
    (GReady n.val .leave s → 0 < k → k ≤ 3 →
      ∃ t, exec (.leave n) s = .next t ∧ Loops n.val s t ∧ loopReg (Machine.core t n.val) codeLDEPTH = k - 1) ∧
    (GReady n.val .plain s → atLoopEnd c = true →
      ∃ t, exec (.nopG n) s = .next t ∧
        let d := Machine.core t n.val
        let i := k - 1
        let lc := (loopReg c (0x2E + i) + 16777215) % 16777216
        loopReg d (0x2E + i) = lc ∧
        (lc ≠ 0 → loopReg d codeLDEPTH = k ∧ d.pc = BitVec.ofNat 16 (loopReg c (0x28 + i))) ∧
        (lc = 0 → (i = 0 ∨ loopReg c (0x2B + (i - 1)) ≠ loopReg c (0x2B + i)) →
          loopReg d codeLDEPTH = i ∧ d.pc = BitVec.ofNat 16 (loopReg c (0x2B + i) + 1)))

open Sys2Proof Sys2Proof.Machine Sys2Proof.Obl in
/-- R271: RTE outside user mode. -/
def Sys2Proof.Obl.GarnetReturnCompletes : Prop :=
  ∀ (n : Fin 48) (s : State), GReady n.val .rte s → userMode (Machine.core s n.val) = false →
    ∃ t, exec (.rte n) s = .next t ∧
      let c := Machine.core s n.val
      let d := Machine.core t n.val
      t = setCore n.val d s ∧ d.pc = (c.h3.get codeEPC).extractLsb' 0 16 ∧ d.slot = none ∧ d.shadow = 0 ∧ d.inExc = false ∧
      modeIe (modeNow d) = (c.h3.get codeESTAT).getLsbD 2 ∧ modeUsr (modeNow d) = (c.h3.get codeESTAT).getLsbD 3 ∧
      d.dmem = c.dmem ∧ d.lists = c.lists ∧ d.job = c.job ∧ (∀ k, d.cur.acc k = c.cur.acc k) ∧
      (∀ r, r ≠ codeMODE → d.cur.get r = c.cur.get r) ∧
      (∀ b, b < 48 → b ≠ 8 → b ≠ 12 → (d.cur.get codeMODE).getLsbD b = (c.cur.get codeMODE).getLsbD b)

open Sys2Proof Sys2Proof.Machine Sys2Proof.Obl in
/-- R257, R268, R269, R272 and R279: NOP, SPW, SPWA, END and BREAK. A wait for a busy list changes the cycle count alone; END of a job that does
not release held items (not urgent, or aborted) leaves the core idle where no further job waits there; BREAK of a customer kernel in user mode
enters the handler and quarantines the kernel. -/
def Sys2Proof.Obl.GarnetSystemCompletes : Prop :=
  ∀ (n : Fin 48) (k : BitVec 2) (imm : BitVec 8) (s : State),
    let c := Machine.core s n.val
    let still (ks : List Nat) : Prop := (∀ i ∈ ks, (spList c i).busy = false) ∧ (∀ i ∈ ks, (spList c i).unrep = false)
    let waits (i : Instr) : Prop := exec i s = .next (setCore n.val { c with cycle := BitVec.ofNat 24 (satAdd 24 c.cycle.toNat 1) } s)
    (GReady n.val .plain s →
      Completes n.val (.nopG n) noWrites s ∧
      (still [k.toNat] → Completes n.val (.spw n k) noWrites s) ∧
      ((spList c k.toNat).busy = true → waits (.spw n k)) ∧
      (still [0, 1, 2, 3] → Completes n.val (.spwa n) noWrites s) ∧
      ((∃ i, i < 4 ∧ (spList c i).busy = true) → waits (.spwa n)) ∧
      (∀ j kid krn stage, c.job = some j → j.kind = .krn stage kid → tblFind kid s.gar.kernels = some krn → modeUsr (c.cur.get codeMODE) = true →
        c.slot = none →
        ∃ t, exec (.brk n imm) s = .next t ∧
          (Machine.core t n.val).pc = 0x0010 ∧ ((Machine.core t n.val).cur.get codeEPC) = c.pc.zeroExtend 48 ∧
          ((Machine.core t n.val).cur.get codeECAUSE) = BitVec.ofNat 48 (0xA + 65536 * imm.toNat) ∧ userMode (Machine.core t n.val) = false ∧
          (∃ krn', tblFind kid t.gar.kernels = some krn' ∧ krn'.st = 2 ∧ krn'.cause = 0xA))) ∧
    (GReady n.val .endJob s →
      ((∃ i, i < 4 ∧ (spList c i).busy = true) → waits (.endJob n)) ∧
      (still [0, 1, 2, 3] → ∀ j, c.job = some j → (j.urgent = false ∨ j.aborted = true) → c.queue = [] →
        ∃ t, exec (.endJob n) s = .next t ∧ (Machine.core t n.val).job = none ∧ (Machine.core t n.val).fsend = none ∧ t.regs = s.regs ∧ t.gar.ddr = s.gar.ddr ∧
          (Machine.core t n.val).dmem = c.dmem))

open Sys2Proof Sys2Proof.Machine Sys2Proof.Obl in
/-- R236, R272 and R276: the core I/O operations that are rows of their own, interrupts, and the port's taking of an item. -/
def Sys2Proof.Obl.GarnetCoreIoCompletes : Prop :=
  ∀ (n : Fin 48) (addr : BitVec 24) (l : Fin 4) (s : State),
    let c := Machine.core s n.val
    let ends (i : Instr) (f : CoreSt → CoreSt) : Prop :=
      ∃ t, exec i s = .next t ∧ t = setCore n.val (Machine.core t n.val) s ∧
        (∃ d, Retires n.val noWrites s (setCore n.val d s) ∧ Machine.core t n.val = f d)
    (GReady n.val .plain s →
      (c.fsend = none → (userMode c = true → fsendBarred (itemAt c n.val addr.toNat).wh.dest = false) →
        ends (.fsend n addr) (fun d => { d with fsend := some (itemAt c n.val addr.toNat) })) ∧
      ends (.frxpop n) (fun d => { d with frx := c.frx.drop 1 }) ∧
      ends (.tmrcmpWrite n addr) (fun d => { d with tmrcmp := addr, tmr := false }) ∧
      ((spList c l.val).busy = false →
        ends (.spnGo n l addr) (fun d => { d with order := c.order ++ [l.val], lists := tblSet l.val { (spList c l.val) with
          busy := true, addr := addr, first := (spList c l.val).start.toNat, start := 0, usr := userMode c, valid := false, endB := false, fault := false,
          done := 0, fidx := 0, cause := 0, pend := false, unrep := false } c.lists })) ∧
      ends (.spnAck n l) (fun d => { d with lists := tblSet l.val { (spList c l.val) with
        endB := false, fault := false, done := 0, fidx := 0, cause := 0, pend := false, unrep := false } c.lists })) ∧
    (c.job.isSome = true → c.tmrcmp ≠ 0 → c.cycle = c.tmrcmp → exec (.tmrCompare n) s = .next (setCore n.val { c with tmr := true } s)) ∧
    (∀ i j, c.fsend = some i → c.job = some j →
      exec (.fsendTaken n) s = .next (setCore n.val { c with fsend := none, held := c.held ++ [(j, i)] } s)) ∧
    (c.job.isSome = true → modeIe (c.cur.get codeMODE) = true → c.slot = none → c.shadow = 0 →
      let p := (ipend c).toNat
      let e := (modeImask (c.cur.get codeMODE)).toNat
      ∀ code detail, (p % 2 = 1 ∧ e % 2 = 1 ∧ code = 0x10 ∧ (spList c detail).pend = true ∧ detail < 4 ∧ (∀ i, i < detail → (spList c i).pend = false)) ∨
          (¬(p % 2 = 1 ∧ e % 2 = 1) ∧ p / 2 % 2 = 1 ∧ e / 2 % 2 = 1 ∧ code = 0x11 ∧ detail = 0) ∨
          (¬(p % 2 = 1 ∧ e % 2 = 1) ∧ ¬(p / 2 % 2 = 1 ∧ e / 2 % 2 = 1) ∧ p / 4 % 2 = 1 ∧ e / 4 % 2 = 1 ∧ code = 0x12 ∧ detail = 0) →
        ∃ t, exec (.interruptEntry n) s = .next t ∧
          let d := Machine.core t n.val
          t = setCore n.val d s ∧ d.pc = 0x0020 ∧ d.cur.get codeEPC = c.pc.zeroExtend 48 ∧
          d.cur.get codeECAUSE = BitVec.ofNat 48 (code + 256 + 65536 * detail) ∧
          d.cur.get codeESTAT = BitVec.ofNat 48 (4 + 8 * b2n (modeUsr (c.cur.get codeMODE))) ∧
          modeIe (modeNow d) = false ∧ userMode d = false ∧ d.inExc = true ∧ d.dmem = c.dmem ∧ (∀ k, d.cur.acc k = c.cur.acc k) ∧
          (∀ r, r ≠ codeEPC → r ≠ codeECAUSE → r ≠ codeESTAT → r ≠ codeMODE → d.cur.get r = c.cur.get r))

open Sys2Proof Sys2Proof.Machine Sys2Proof.Obl in
/-- R246: an accumulation that overflows under GTRAP completes, and the trap is taken at its retirement, with EPC at the next instruction; firmware
(a job that is no customer kernel's), no parallel moves, no loop end and no delay slot. -/
def Obligations.GarnetGuardTrap : Prop :=
  ∀ (n : Fin 48) (d a : BitVec 2) (j : Job) (s : State),
    let c := Machine.core s n.val
    let z : PMove := { kind := 0, r := 0, pn := 0, inc := 0 }
    let h := accLane ((c.cur.acc (2 * d.toNat)).toInt + (c.cur.acc (2 * a.toNat)).toInt)
    let l := accLane ((c.cur.acc (2 * d.toNat + 1)).toInt + (c.cur.acc (2 * a.toNat + 1)).toInt)
    GReady n.val .plain s → c.job = some j → (∀ st k, j.kind ≠ .krn st k) → modeGtrap (modeNow c) = true → (h.gov = true ∨ l.gov = true) →
    c.slot = none → atLoopEnd c = false → c.inExc = false →
    ∃ t, exec (.adda n d a z z) s = .next t ∧
      let x := Machine.core t n.val
      t = setCore n.val x s ∧ x.cur.acc (2 * d.toNat) = h.v ∧ x.cur.acc (2 * d.toNat + 1) = l.v ∧
      (x.cur.get codeSTAT).getLsbD 8 = ((c.cur.get codeSTAT).getLsbD 8 || h.gov) ∧
      (x.cur.get codeSTAT).getLsbD 9 = ((c.cur.get codeSTAT).getLsbD 9 || l.gov) ∧
      x.cur.get codeEPC = (c.pc + 1).zeroExtend 48 ∧ x.pc = 0x0010 ∧
      x.cur.get codeECAUSE = BitVec.ofNat 48 (7 + 65536 * (b2n h.gov + 2 * b2n l.gov)) ∧ modeIe (modeNow x) = false ∧ userMode x = false

open Sys2Proof Sys2Proof.Machine Sys2Proof.Obl in
/-- R274, R275, R277, R278 and R280: a Spinel list's validation, the transfer of an element, and its failure. -/
def Obligations.SpinelListCompletes : Prop :=
  ∀ (n : Fin 48) (k : Nat) (rest : List Nat) (s : State),
    let c := Machine.core s n.val
    let l := spList c k
    c.order = k :: rest →
    (l.valid = false → l.addr.toNat < 0x20000 → spHeader (tblGet c.dmem l.addr.toNat 0) = none →
      ∃ t, exec (.spinelListStart n) s = .next t ∧ t = setCore n.val (Machine.core t n.val) s ∧
        let x := spList (Machine.core t n.val) k
        x.endB = true ∧ x.fault = true ∧ x.busy = false ∧ x.done = l.first ∧ x.fidx = 0 ∧ x.cause = 1 ∧ (Machine.core t n.val).dmem = c.dmem) ∧
    (∀ sc cnt lv li irq ep es, l.valid = false → l.addr.toNat < 0x20000 →
      spHeader (tblGet c.dmem l.addr.toNat 0) = some (sc, cnt, lv, li, irq, ep) → l.first < cnt →
      spElems c l.usr ((c.job.map Job.chan).getD 0) l.addr.toNat l.first (cnt - l.first) = .inr es →
      ∃ t, exec (.spinelListStart n) s = .next t ∧ t = setCore n.val (Machine.core t n.val) s ∧
        let x := spList (Machine.core t n.val) k
        x.valid = true ∧ x.busy = l.busy ∧ x.scatter = sc ∧ x.lv = lv ∧ x.lidx = li ∧ x.lepoch = ep ∧ x.done = l.first ∧ x.elems.drop l.first = es ∧
        (Machine.core t n.val).dmem = c.dmem) ∧
    (∀ e, l.valid = true → l.elems[l.done]? = some e →
      ((l.lv = true → gateOk s l.lidx (0x10 + n.val) l.lepoch = true) →
        ∃ t, exec (.spinelElementDone n) s = .next t ∧ t.gar.ddr = (spMove n.val l.scatter false e s).gar.ddr ∧
          t.gar.clMem = (spMove n.val l.scatter false e s).gar.clMem ∧ (Machine.core t n.val).dmem = (Machine.core (spMove n.val l.scatter false e s) n.val).dmem ∧
          (spList (Machine.core t n.val) k).done = l.done + 1 ∧ (spList (Machine.core t n.val) k).fault = (decide (l.done + 1 < l.elems.length) && l.fault) ∧
          (spList (Machine.core t n.val) k).busy = (decide (l.done + 1 < l.elems.length) && l.busy)) ∧
      (∀ lease : Bool, ∃ t, exec (.spinelTransferFault n lease) s = .next t ∧
        let x := spList (Machine.core t n.val) k
        x.endB = true ∧ x.fault = true ∧ x.busy = false ∧ x.done = l.done ∧ x.fidx = l.done ∧ x.cause = (if lease then 4 else 5)))

/-! ### Host commands (Chapters 6 to 8 and the command families) -/

namespace Sys2Proof.Obl

open Sys2Proof.Machine

/-- Admitted, and begun in a state of which `p` holds, the command of header `h` ends at once: its FINAL entry has OK and the result `res`,
and its effect is `f` (R146 to R151, R175, R207). -/
def EndsIf (h : Hdr) (i : Instr) (sp : Spec) (p : State → Prop) (res : State → List Byte) (f : State → State) (s : State) : Prop :=
  admits h sp s = true → p (begun h i sp s) →
    exec i s = .next (finish (begunCmd h i sp s) stOk (res (begun h i sp s)) (f (begun h i sp s)))

/-- As `EndsIf`, whatever the state. -/
def Ends (h : Hdr) (i : Instr) (sp : Spec) (res : State → List Byte) (f : State → State) (s : State) : Prop :=
  EndsIf h i sp (fun _ => True) res f s

/-- Admitted, and begun in a state of which `p` holds, the command of header `h` has the effect `f` and then goes on until the event `w` ends
it; one that is at-most-once is then IRREVERSIBLE, unless the eFuse operation it makes waits for another (R205). -/
def WaitsIf (h : Hdr) (i : Instr) (sp : Spec) (p : State → Prop) (w : Wait) (f : State → State) (s : State) : Prop :=
  admits h sp s = true → p (begun h i sp s) →
    exec i s = .next (irrevPhase (begunCmd h i sp s) w (putWait (begunCmd h i sp s) w (f (begun h i sp s))))

/-- As `WaitsIf`, whatever the state. -/
def Waits (h : Hdr) (i : Instr) (sp : Spec) (w : Wait) (f : State → State) (s : State) : Prop := WaitsIf h i sp (fun _ => True) w f s

/-- No result. -/
def noRes : State → List Byte := fun _ => []

/-- An eFuse operation begins, or waits for the one under way (R471). -/
def fuses (o : FuseOp) (b : State) : State :=
  if b.boot.fuseOp.isSome then { b with boot := { b.boot with fuseWait := b.boot.fuseWait ++ [o] } }
  else { b with boot := { b.boot with fuseOp := some o } }

end Sys2Proof.Obl

open Sys2Proof Sys2Proof.Machine Sys2Proof.Obl in
/-- R168, R178, R179, R181, R560: the device commands that complete at once. NOP has no effect; TIME_SET steps RTB to the time given, keeping the
fraction of the second where PPS is the source; DOMAIN_POWER of a domain already so does nothing; ADMIT_CFG sets the emergency reserve;
BOOT_OPTIONS stores the options; CONFIG_COMMIT answers the new generation. -/
def Sys2Proof.Obl.DeviceCommandsEnd : Prop :=
  ∀ (h : Hdr) (s : State),
    Ends h (.nopCommand h) specNop noRes (fun b => b) s ∧
    (∀ t fl, EndsIf h (.timeSet h t fl) (specTimeSet t fl) (fun b => timeSetBad b = false ∧ rd b rtbSrc ≠ 3) noRes
      (fun b => rtbStep ((t.toNat : Int) - (rtbNs b).toNat) b) s) ∧
    (∀ t fl, EndsIf h (.timeSet h t fl) (specTimeSet t fl) (fun b => timeSetBad b = false ∧ rd b rtbSrc = 3) noRes
      (fun b => rtbStep (((t.toNat / 1000000000 * 1000000000 + (rtbNs b).toNat % 1000000000 : Nat) : Int) - (rtbNs b).toNat) b) s) ∧
    (∀ dom, EndsIf h (.domainPower h dom 1) (specDomainPower dom 1) (fun b => domOn b dom.toNat = true ∧ b.pwr.cur = none) noRes (fun b => b) s) ∧
    (∀ dom, EndsIf h (.domainPower h dom 0) (specDomainPower dom 0) (fun b => rd b (domStat dom.toNat) = 0 ∨ rd b (domStat dom.toNat) = 3) noRes
      (fun b => b) s) ∧
    (∀ r, Ends h (.admitCfg h r) (specAdmitCfg r) noRes (fun b => { b with onyx := { b.onyx with emergReserve := r.toNat } }) s) ∧
    (∀ e p k d, d ≠ 0 → Ends h (.bootOptions h e p k d) (specBootOptions e p k d) noRes
      (fun b => { b with boot := { b.boot with cfg :=
        { b.boot.cfg with ethEn := e, plcEn := p.truncate 4, hostif := k.toNat, ddrspeed := d.toNat } } }) s) ∧
    (∀ e p k, Ends h (.bootOptions h e p k 0) (specBootOptions e p k 0) noRes
      (fun b => { b with boot := { b.boot with
        cfg := { b.boot.cfg with ethEn := e, plcEn := p.truncate 4, hostif := k.toNat, ddrspeed := 0 },
        hdr := { b.boot.hdr with ddrstate := b.boot.hdr.ddrstate / 4 * 4 } } }) s) ∧
    Ends h (.configCommit h) specConfigCommit (fun b => le 4 (b.boot.cfg.gen + 1).toNat) configCommit s ∧
    Ends h (.devInfo h) specDevInfo (fun b =>
      le 4 b.boot.release.toNat ++ le 1 0x21 ++ le 1 b.boot.lc.toNat ++ le 1 b.boot.hdr.mode ++ le 1 b.boot.hdr.actslot ++ le 1 b.boot.hdr.usedslot ++
        le 1 (b.boot.hdr.ddrstate % 4) ++ le 1 (rd b hbState) ++ le 1 ((fromN 0 48).filter (fun n => decide ((Machine.core b n).st ≤ 2))).length ++
        le 8 b.boot.hdr.exclCores.toNat ++ le 8 b.boot.fuses.uid.toNat ++ le 1 b.boot.fuses.secmin ++ le 1 b.boot.fuses.revoked.toNat ++ le 2 0)
      (fun b => b) s ∧
    (∀ w fl, Ends h (.hibernate h w fl) (specHibernate h w fl) noRes (fun b =>
      refresh (let t := abortRuns (fun _ => true) true (wr hibWakeNEn (b2n (fl.getLsbD 0)) (wr hibTimerEn (b2n (fl.getLsbD 1))
        (wr wakeAtLo w.toNat (wr wakeAtHi (w.toNat / 2 ^ 32) b))))
        { t with pwr := { t.pwr with hib := .armed, wakeLatch := false, armN := flag t hibWakeNEn, armT := flag t hibTimerEn,
                                     armAt := rd t wakeAtLo + rd t wakeAtHi * 2 ^ 32 } })) s)

open Sys2Proof Sys2Proof.Machine Sys2Proof.Obl in
/-- R179, R517, R518 and Table 19.4: RTB_CFG sets the source and the parameters of the discipline. With SRC 0 the claims of the discipline go and RTB
is FREE; with another source its claims are taken at acceptance (R513), and where RTB was UNSYNCED it is ACQUIRING. -/
def Sys2Proof.Obl.RtbCfgEnds : Prop :=
  ∀ (h : Hdr) (src port : BitVec 8) (srcto : BitVec 16) (hold stepthr : BitVec 32) (lock slew : BitVec 16) (s : State),
    let put (b : State) : State :=
      wr rtbSrcto srcto.toNat (wr rtbHoldover hold.toNat (wr rtbStepthr stepthr.toNat (wr rtbLockthr lock.toNat (wr rtbSlewmax slew.toNat
        (wr rtbSrc src.toNat (wr rtbPtpPort (if src = 1 then port.toNat else 0) (wr rtbPlcPort (if src = 2 then port.toNat else 0) b)))))))
    let hd := rtbHolder src.toNat port.toNat
    let take (b : State) : State := if src = 3 then claim 2 5 0 0xFFFF (claim 3 0 hd.1 hd.2 b) else claim 3 0 hd.1 hd.2 b
    let fresh (t : State) : State := { t with time := { t.time with servo := { t.time.servo with lastAt := now t, good := 0, lastOff := none } } }
    let i : Instr := .rtbCfg h src port srcto hold stepthr lock slew
    let sp := specRtbCfg src port srcto hold stepthr lock slew
    (src = 0 → EndsIf h i sp (fun b => rd b rtbState ≠ 4) noRes
      (fun b => notify 2 4 0 (eventNow 0x00 3 4 0 (wr rtbState 4 (put (unclaimIf (fun c => c.cls == 3 || (c.cls == 2 && c.idx == 5 && c.holder == 0)) b))))) s) ∧
    (src = 0 → EndsIf h i sp (fun b => rd b rtbState = 4) noRes
      (fun b => put (unclaimIf (fun c => c.cls == 3 || (c.cls == 2 && c.idx == 5 && c.holder == 0)) b)) s) ∧
    (src ≠ 0 → admits h sp s = true → unitLeaves s hd.1 = false →
      ∃ c, claimOf (begun h i sp s) 3 0 = some c ∧ c.holder = hd.1 ∧ c.obj = hd.2) ∧
    (src ≠ 0 → EndsIf h i sp (fun b => rd b rtbSrc = src.toNat ∧ rd b rtbState ≠ 0) noRes (fun b => put (take b)) s) ∧
    (src ≠ 0 → EndsIf h i sp (fun b => rd b rtbSrc ≠ src.toNat ∧ rd b rtbState ≠ 0) noRes (fun b => fresh (put (take b))) s) ∧
    (src ≠ 0 → EndsIf h i sp (fun b => rd b rtbState = 0) noRes
      (fun b => let t := fresh (put (take b))
        wr rtbState 1 { t with time := { t.time with servo := { t.time.servo with fresh := true } } }) s)

open Sys2Proof Sys2Proof.Machine Sys2Proof.Obl in
/-- R124, R127, R179: the image slots. ERASE makes 64 KiB of the slot read 0xFF, WRITE stores the data, either leaving the slot unverified; VERIFY
answers the first check that fails, and notes whether none does; SET_ACTSLOT chooses a verified slot. -/
def Sys2Proof.Obl.ImageSlotCommandsEnd : Prop :=
  ∀ (h : Hdr) (slot : BitVec 8) (off len : BitVec 32) (s : State),
    let mark (v : Bool) (t : Tbl Bool) : Tbl Bool := tblSet slot.toNat v t
    let a := 0x100000 + 16777216 * slot.toNat + off.toNat
    Ends h (.imageSlotErase h slot off len) (specImageSlotErase slot off) noRes
      (fun b => { b with boot := { b.boot with flash := tblDelRange a (a + 65536) b.boot.flash, verified := mark false b.boot.verified, dir := true } }) s ∧
    (∀ data, Ends h (.imageSlotWrite h slot off len data) (specImageSlotWrite h slot off len data) noRes
      (fun b => { b with boot := { b.boot with flash := cellsPut 0xFF b.boot.flash a data, verified := mark false b.boot.verified, dir := true } }) s) ∧
    (let i (b : State) : ImageRead := slotImage b slot.toNat
     let c (b : State) : Nat := if imageCause b (i b) = 0 ∧ (i b).extFound ≠ (i b).extDigest then 3 else imageCause b (i b)
     Ends h (.imageSlotVerify h slot off len) (specImageSlotVerify slot off len)
      (fun b => le 1 (c b) ++ le 4 (i b).release.toNat ++ le 4 (i b).secver.toNat)
      (fun b => { b with boot := { b.boot with verified := mark (c b == 0) b.boot.verified } }) s) ∧
    EndsIf h (.imageSlotSetActslot h slot off len) (specImageSlotSetActslot slot off len) (fun b => tblGet b.boot.verified slot.toNat false = true) noRes
      (fun b => { b with boot := { b.boot with hdr := { b.boot.hdr with actslot := slot.toNat } } }) s

open Sys2Proof Sys2Proof.Machine Sys2Proof.Obl in
/-- R126, R129 to R132, R179, R470, R471: the commands that program fuses begin an eFuse operation, or queue one behind the operation under way; all but
LIFECYCLE wait for it. -/
def Sys2Proof.Obl.FuseCommandsBegin : Prop :=
  ∀ (h : Hdr) (s : State),
    (∀ v, WaitsIf h (.secminRaise h v) (specSecminRaise v) (fun b => b.boot.fuses.secmin < v.toNat ∧ v.toNat ≤ b.boot.secver.toNat) .fuse
      (fuses (.secmin v.toNat)) s) ∧
    (∀ k, WaitsIf h (.keyRevoke h k) (specKeyRevoke k) (fun b => b.boot.fuses.revoked.getLsbD (3 - k.toNat) = false) .fuse (fuses (.revoke k.toNat)) s) ∧
    (∀ tg u, Ends h (.lifecycleToField h ⟨tg, u⟩) (specLifecycleToField tg u) noRes (fuses (.lifecycle (tg.truncate 4))) s) ∧
    (∀ u tok, Ends h (.lifecycleToReturn h u tok) (specLifecycleToReturn h u tok) noRes (fuses (.lifecycle 15)) s) ∧
    (∀ f d, WaitsIf h (.fuseProg h f d) (specFuseProg h f d) (fun b => customerSet b f.toNat = false) .fuse
      (fuses (.customer f.toNat (BitVec.ofNat 384 (if f = 1 then unBe d else unLe d)))) s) ∧
    (∀ r tok v, WaitsIf h (.agtRepairFuse h r tok) (specAgtRepairFuse h r tok)
      (fun b => tblFind r.toNat b.agt.results = some v ∧ ∃ w ws, toFuse b v = w :: ws) .fuse
      (fun b => fuses (.repair (toFuse b v) 0 false) b) s)

open Sys2Proof Sys2Proof.Machine Sys2Proof.Obl in
/-- R105, R123, R136, R178, R179: DEV_RESET and TIME_SET with a warm reset. The reset follows acceptance at once unless eFuse programming or the boot
ROM's answer must end first, and then the request stands; one that another stands before is
absorbed; in minimal mode the boot ROM answers first, and the start is not counted as incomplete; the time given is the seed that RTB starts from. -/
def Sys2Proof.Obl.ResetCommandsReset : Prop :=
  ∀ (h : Hdr) (s : State),
    let asks (c : Nat) (b : State) : Option (Nat × Option Bool) := if b.boot.resetReq.isSome then b.boot.resetReq else some (c, none)
    let begins (i : Instr) (sp : Spec) (f : State → State) : Prop := admits h sp s = true →
      exec i s = .next (resetDue (irrevPhase (begunCmd h i sp s) .reset (putWait (begunCmd h i sp s) .reset (f (begun h i sp s)))))
    (∀ k, minimal (begun h (.devReset h k) (specDevReset k) s) = false →
      begins (.devReset h k) (specDevReset k)
        (fun b => { b with boot := { b.boot with resetReq := asks (if b.pwr.safe then 4 else 1) b } })) ∧
    (∀ k, let b := begun h (.devReset h k) (specDevReset k) s
      admits h (specDevReset k) s = true → minimal b = true →
        exec (.devReset h k) s = .next (resetDue (finish (begunCmd h (.devReset h k) (specDevReset k) s) stOk []
          { b with boot := { b.boot with resetReq := some (4, none),
                                         hdr := { b.boot.hdr with incomplete := 0, mode := 0, lastDone := b.boot.hdr.bootno } } }))) ∧
    (∀ t, begins (.timeSetWithWarmReset h t) (specTimeSetWithWarmReset t)
      (fun b => { b with time := { b.time with seed := some t }, boot := { b.boot with resetReq := asks 1 b } })) ∧
    (∀ (c : Nat) (t : State), t.boot.resetReq = some (c, none) → fuseBusy t = false → romReplies t = false →
      resetDue t = warmNow c (freeBits 1 t == 1) (tookFree t)) ∧
    (∀ (t : State), fuseBusy t = true ∨ romReplies t = true → resetDue t = t)

open Sys2Proof Sys2Proof.Machine Sys2Proof.Obl in
/-- R85, R91, R560: a DOMAIN_POWER that switches something puts the switch to the sequencer (of a cluster that goes off, at the master-frame boundary),
enabling the PLL first where it is not ready, and waits for it. -/
def Sys2Proof.Obl.DomainPowerWaits : Prop :=
  ∀ (h : Hdr) (dom : BitVec 8) (s : State),
    let d := dom.toNat
    WaitsIf h (.domainPower h dom 1) (specDomainPower dom 1) (fun b => (domOn b d = false ∨ b.pwr.cur ≠ none) ∧ pllReady b (domPll d) = true)
      (.domain d) (domReq d true) s ∧
    WaitsIf h (.domainPower h dom 1) (specDomainPower dom 1) (fun b => (domOn b d = false ∨ b.pwr.cur ≠ none) ∧ pllReady b (domPll d) = false)
      (.domain d) (wr (pllEn (domPll d)) 1) s ∧
    (8 ≤ d → WaitsIf h (.domainPower h dom 0) (specDomainPower dom 0) (fun b => rd b (domStat d) ≠ 0 ∧ rd b (domStat d) ≠ 3) (.domain d)
      (fun b => { b with pwr := { b.pwr with offAtMf := b.pwr.offAtMf ++ [d] } }) s) ∧
    (d < 8 → WaitsIf h (.domainPower h dom 0) (specDomainPower dom 0) (fun b => rd b (domStat d) ≠ 0 ∧ rd b (domStat d) ≠ 3) (.domain d)
      (domReq d false) s)

namespace Sys2Proof.Obl

open Sys2Proof.Machine

/-- The begun command `i` applies in state `b`: its objects exist and permit it (R284, Tables 7.8 and 7.16). -/
def Applies (h : Hdr) (i : Instr) (b : State) : Prop := voiceValid i (planOf h b) = true

/-- As `Applies`, and nothing that runs is changed: the object has no frame boundaries, and no command placed on it stands (R181). -/
def AppliesNow (h : Hdr) (i : Instr) (ch : Nat) (b : State) : Prop := Applies h i b ∧ hasFrames b ch = false ∧ placedOn ch b = false

end Sys2Proof.Obl

open Sys2Proof Sys2Proof.Machine Sys2Proof.Obl in
/-- R175, R181, R284, R295, R300: channel commands whose object does not run take effect at once. CH_CREATE makes a context, CREATED, with the
parameters given (PRIO 0 with EMERG) and a first SEQ that is free (log 2); CH_MODIFY changes the fields of MASK; CH_DELETE frees the
context; TONE_GEN starts or stops a tone; TONESET_LOAD and EMERG_RULE store what they carry; KRN_BIND and KRN_UNBIND change the bindings;
KRN_UNLOAD frees the kernel. -/
def Obligations.ChannelCommandsEnd : Prop :=
  ∀ (h : Hdr) (ch : BitVec 16) (s : State),
    let n := ch.toNat
    (∀ p, EndsIf h (.chCreate h ch p) (specChCreate h ch p)
      (fun b => Applies h (.chCreate h ch p) b) noRes
      (fun b => tookFree (setChan n (newChan p h.emerg (freeBits 16 b)) b)) s) ∧
    (∀ mask p, mask ≠ 0 → EndsIf h (.chModify h ch mask p) (specChModify h ch mask p)
      (fun b => AppliesNow h (.chModify h ch mask p) n b) noRes
      (modChan n (fun c => emergPrio h.emerg
        { c with p := mergePar mask.toNat c.p p, bypass := false,
                 ec := if mask.getLsbD 2 ∨ c.bypass then (if (mergePar mask.toNat c.p p).echoTail = 0 then 0 else 1) else c.ec })) s) ∧
    (∀ p, EndsIf h (.chModify h ch 0 p) (specChModify h ch 0 p) (fun b => voiceValid (.chModify h ch 0 p) (planOf h b) = true) noRes (fun b => b) s) ∧
    EndsIf h (.chDelete h ch) (specChDelete h ch)
      (fun b => AppliesNow h (.chDelete h ch) n b) noRes
      (fun b => { b with voice := { b.voice with chans := tblDel n b.voice.chans } }) s ∧
    (∀ dir ts tone dur, EndsIf h (.toneGen h ch dir ts tone dur) (specToneGen h ch dir ts tone dur)
      (fun b => AppliesNow h (.toneGen h ch dir ts tone dur) n b) noRes
      (fun b =>
        let t : ToneSt := { dir := dir.toNat, set := ts.toNat, tone := tone.toNat,
                            until' := if dur = 0 then none else some ((rtbNs b).toNat + dur.toNat * 1000000) }
        modChan n (fun c => emergPrio h.emerg { c with tone := if tone = 0xFF then none else some t }) b) s) ∧
    (∀ ts d, EndsIf h (.tonesetLoad h ts d) (specTonesetLoad h ts d)
      (fun b => Applies h (.tonesetLoad h ts d) b) noRes
      (fun b => { b with voice := { b.voice with toneSets := tblSet ts.toNat d b.voice.toneSets } }) s) ∧
    (∀ r t src g fl, EndsIf h (.emergRule h r t src g fl) (specEmergRule h r t src g fl)
      (fun b => Applies h (.emergRule h r t src g fl) b) noRes
      (fun b =>
        let v : Rule := { trigger := t.toNat, src := src, group := g.toNat, enabled := fl.getLsbD 0 }
        { b with voice := { b.voice with rules := tblSet r.toNat v b.voice.rules } }) s) ∧
    (∀ kid stg, EndsIf h (.krnBind h kid ch stg) (specKrnBind h kid ch stg)
      (fun b => AppliesNow h (.krnBind h kid ch stg) n b) noRes
      (fun b => kernelState kid.toNat (modChan n (fun c => emergPrio h.emerg { c with binds := tblSet stg.toNat kid.toNat c.binds }) b)) s) ∧
    (∀ kid, EndsIf h (.krnUnbind h kid ch) (specKrnUnbind h kid ch)
      (fun b => AppliesNow h (.krnUnbind h kid ch) n b) noRes
      (fun b => kernelState kid.toNat (modChan n (fun c => emergPrio h.emerg { c with binds := tblFilter (fun _ k => k != kid.toNat) c.binds }) b)) s) ∧
    (∀ kid, EndsIf h (.krnUnload h kid) (specKrnUnload h kid)
      (fun b => Applies h (.krnUnload h kid) b) noRes
      (fun b =>
        let f : Chan → Chan := fun c => { c with binds := tblFilter (fun _ k => k != kid.toNat) c.binds }
        { b with voice := { b.voice with chans := tblMap (fun _ c => f c) b.voice.chans },
                 gar := { b.gar with kernels := tblDel kid.toNat b.gar.kernels } }) s)

open Sys2Proof Sys2Proof.Machine Sys2Proof.Obl in
/-- R175, R181: channel commands that take effect with a schedule, or at a frame boundary of a channel that runs, go into the schedule being built
and wait for its commit; at the commit, or at the boundary, they take effect (`PlacedChannelCommandsTakeEffect`). -/
def Obligations.ChannelCommandsArePlaced : Prop :=
  ∀ (h : Hdr) (ch : BitVec 16) (s : State),
    let n := ch.toNat
    let atOnce (i : Instr) (sp : Spec) : Prop := WaitsIf h i sp (Applies h i) .commit (fun b => b) s
    let onFrame (i : Instr) (sp : Spec) : Prop := WaitsIf h i sp (fun b => Applies h i b ∧ hasFrames b n = true) .commit (fun b => b) s
    (∀ x y, atOnce (.chActivate h ch x y) (specChActivate h ch x y)) ∧
    (∀ g m x p, atOnce (.groupCreate h g m x p) (specGroupCreate h g m x p)) ∧
    (∀ g r x, atOnce (.groupJoin h g ch r x) (specGroupJoin h g ch r x)) ∧
    (∀ g, atOnce (.groupLeave h g ch) (specGroupLeave h g ch)) ∧
    (∀ g, atOnce (.groupDelete h g) (specGroupDelete h g)) ∧
    (∀ m p, m ≠ 0 → onFrame (.chModify h ch m p) (specChModify h ch m p)) ∧
    onFrame (.chDeactivate h ch) (specChDeactivate h ch) ∧
    (∀ d t k u, onFrame (.toneGen h ch d t k u) (specToneGen h ch d t k u)) ∧
    (∀ q m a l k, onFrame (.recStart h ch q m a l k) (specRecStart h ch q m a l k)) ∧
    (∀ r, WaitsIf h (.recStop h r) (specRecStop h r)
      (fun b => Applies h (.recStop h r) b ∧ ∃ c, recChan b r.toNat = some c ∧ hasFrames b c = true) .commit (fun b => b) s) ∧
    (∀ k g, onFrame (.krnBind h k ch g) (specKrnBind h k ch g)) ∧
    (∀ k, onFrame (.krnUnbind h k ch) (specKrnUnbind h k ch))

open Sys2Proof Sys2Proof.Machine Sys2Proof.Obl in
/-- R36, R181, R284, R299, R301: what the placed commands do when they take effect, all ending OK. CH_ACTIVATE makes the channel ACTIVE on the core and
phase of its acceptance (with PRIO 0 trigger 0 fires); GROUP_CREATE, GROUP_JOIN, GROUP_LEAVE and GROUP_DELETE change the group; CH_DEACTIVATE makes the channel CREATED, with its
bindings released and its jobs dropped; REC_START makes the recorder; REC_STOP, with nothing unwritten, ends with the last segment's number. -/
def Obligations.PlacedChannelCommandsTakeEffect : Prop :=
  ∀ (h : Hdr) (c : Cmd) (ch : BitVec 16) (s : State),
    let n := ch.toNat
    let e := c.emerg
    (∀ x y, c.instr = .chActivate h ch x y → usableCore s (c.early.getD 0 0) = true →
      let t := coreBusy (c.early.getD 0 0) (modChan n (fun v =>
        emergPrio e { v with st := 2, core := c.early.getD 0 0, phase := c.early.getD 1 0, inB := x, outB := y, frames := [], ckpt := none,
                             jb := jbStart v.p, ec := if v.p.echoTail = 0 then 0 else 1, erle := 0, gapAt := none, stall := 0, settleIn := false }) s)
      takeEffect c s = finish c stOk (le 1 (c.early.getD 0 0))
        (match chan? t n with | some v => if v.p.prio = 0 then ruleEvent 0 n 0 t else t | none => t)) ∧
    (∀ g m x p, c.instr = .groupCreate h g m x p → takeEffect c s = finish c stOk []
      (setGroup g.toNat { maxl := m.toNat, mix := x.toNat, prio := if e then 0 else p.toNat, members := [] } s)) ∧
    (∀ g r x v, c.instr = .groupJoin h g ch r x → tblFind g.toNat s.voice.groups = some v →
      takeEffect c s = finish c stOk (le 2 (c.early.getD 0 0)) (modChan n (emergPrio e) (setGroup g.toNat
        { v with members := v.members.filter (fun y => y.chan != n) ++ [{ chan := n, talk := r.getLsbD 0, listen := r.getLsbD 1, gain := x.toInt }],
                 prio := if e then 0 else v.prio } s))) ∧
    (∀ g v, c.instr = .groupLeave h g ch → tblFind g.toNat s.voice.groups = some v →
      takeEffect c s = finish c stOk (le 2 (c.early.getD 0 0)) (setGroup g.toNat
        { v with members := v.members.filter (fun y => y.chan != n), prio := if e then 0 else v.prio } s)) ∧
    (∀ g, c.instr = .groupDelete h g → takeEffect c s = finish c stOk []
      { s with voice := { s.voice with groups := tblDel g.toNat s.voice.groups } }) ∧
    (∀ v, c.instr = .chDeactivate h ch → chan? s n = some v →
      takeEffect c s = finish c stOk [] (coreBusy v.core (dropJobs n (unbindLocal n (modChan n (fun v => emergPrio e
        { v with st := 1, frames := [], jb := jbInit, leg := false, moveTo := none, gapAt := none, stall := 0, ec := 0, lostIn := [],
                 settleIn := false }) s))))) ∧
    (∀ q m a l k, c.instr = .recStart h ch q m a l k →
      takeEffect c s = finish c stOk (le 2 (c.early.getD 0 0)) (modChan n (emergPrio e) (setRec (c.early.getD 0 0)
        { chan := n, queue := q.toNat, segMs := m.toNat, bufaddr := a, buflen := l.toNat, nbuf := k.toNat, start := rtbNs s, nframes := 0, bytes := 0,
          drops := 0, index := 0, body := [], spill := [], closed := [], bufLast := [], stopping := false, last := 0 } s))) ∧
    (∀ r v, c.instr = .recStop h r → tblFind r.toNat s.voice.recs = some v → v.nframes = 0 → v.spill = [] → v.closed = [] →
      takeEffect c s = finish c stOk (le 4 v.last.toNat) (recTidy (setRec r.toNat { v with stopping := true } s))) ∧
    (∀ q seq, cmdAt s q seq = some c → c.fin = none → c.wait = .commit →
      placeCmd q seq s = (match boundaryChan c.instr s with
        | some k => if hasFrames s k then setCmd { c with wait := .frame k } s else takeEffect c s
        | none => takeEffect c s))

open Sys2Proof Sys2Proof.Machine Sys2Proof.Obl in
/-- R309, R334, R337, R338, R341, R495, R496: the port commands. PORT_CFG stores the settings (with another MODE the delays of PTPLAT are free, log 2);
actions 1 and 3 of PORT_STATE start the port, waiting for link up; action 0 stops a port that nothing holds, with what it had to send expired; action 2
treats the link as lost, and a port past its hold time is OUT_OF_SERVICE. -/
def Obligations.EthPortCommandsComplete : Prop :=
  ∀ (h : Hdr) (port : BitVec 8) (s : State),
    let p := port.toNat
    (∀ mode mf fl hold settle age wd,
      let put (b : State) : State :=
        wr (ethPauseRx p) fl.toNat (wr (ethPauseTx p) (fl.toNat / 2) (wr (ethSst p) (fl.toNat / 4) (wr (ethMode p) mode.toNat
          (wr (ethMaxframe p) mf.toNat b))))
      let times (b : State) : State :=
        wr (ethHold p) hold.toNat (wr (ethSettle p) settle.toNat (wr (ethAge p) age.toNat (wr (ethPauseWd p) wd.toNat (put b))))
      let i : Instr := .portCfg h port mode mf fl hold settle age wd
      let sp := specPortCfg port mode mf fl hold settle age wd
      EndsIf h i sp (fun b => rd b (ethMode p) = mode.toNat) noRes times s ∧
      EndsIf h i sp (fun b => rd b (ethMode p) ≠ mode.toNat ∧ flag b (ethEn p) = false) noRes (fun b =>
        let t := times b
        wr (ptplatRx p) (Config.freeNat t.free) (wr (ptplatTx p) (Config.freeNat (t.free + 1)) (tookFree (tookFree t)))) s) ∧
    WaitsIf h (.portEnable h port) (specPortEnable port) (fun b => ethSt b p = 0) (.link p) (fun b => wr (ethEn p) 1 (wr (ethForceDown p) 0 b)) s ∧
    WaitsIf h (.portReturn h port) (specPortReturn port) (fun b => ethSt b p = 5 ∨ ethSt b p = 3) (.link p)
      (fun b => wr (ethEn p) 1 (wr (ethForceDown p) 0 b)) s ∧
    EndsIf h (.portDisable h port) (specPortDisable port) (fun b => ethSt b p ≠ 0 ∧ disableRej p b = none ∧ (ethP b p).sending = none) (fun _ => [0])
      (fun b => let t := linkGone p (expireAll p b)
        wr (ethState p) 0 (wr (ethEn p) 0 (setEth p { ethP t p with settleUntil := none, xoff := none } t))) s ∧
    (∀ c q, EndsIf h (.portDisable h port) (specPortDisable port)
      (fun b => ethSt b p ≠ 0 ∧ disableRej p b = none ∧ (ethP b p).sending = some (c, q)) (fun _ => [0])
      (fun b =>
        let v := ethP b p
        let t := linkGone p (expireAll p (setEth p { v with sending := none, q := tblSet c (q :: tblGet v.q c []) v.q } b))
        wr (ethState p) 0 (wr (ethEn p) 0 (setEth p { ethP t p with settleUntil := none, xoff := none } t))) s) ∧
    EndsIf h (.portOutOfService h port) (specPortOutOfService port) (fun b => ethSt b p ≠ 0 ∧ ethSt b p ≠ 5) (fun _ => [0])
      (fun b => let t := linkLoss p (wr (ethForceDown p) 1 b)
        if ethSt t p = 3 then unclaimIf (fun c => c.holder == 0x40 + p) (wr (ethState p) 5 t) else t) s

open Sys2Proof Sys2Proof.Machine Sys2Proof.Obl in
/-- R176, R202, R320, R321, R325, R328, R329, R332, R335, R342: the commands of flows, keys, pairs, PTP and statistics. A flow that a command with EMERG
makes or changes has PRIO 0. FLOW_TX starts the RTP sequence and
timestamp from the template, and the first RTCP after a free time (log 2); a new receiving key keeps the old one for 2 s; a statistics read with
FLAGS 1 clears what it read; ASSURED_SEND puts its message into the flow's window and waits for its acknowledgement. -/
def Obligations.FlowCommandsComplete : Prop :=
  ∀ (h : Hdr) (flow : BitVec 16) (s : State),
    let n := flow.toNat
    (∀ k p v c l pr e fl m, EndsIf h (.flowAdd h flow k p v c l pr e fl m) (specFlowAdd h flow k p v c l pr e fl m) (fun b => flow? b n = none) noRes
      (setFlow n { kind := k.toNat, portIn := p.toNat, vlan := v.toNat, chan := c.toNat, linkchan := l.toNat,
                   prio := if h.emerg then 0 else pr.toNat, egress := e.toNat, flags := fl.toNat, mtch := m, template := none, tx := none, rx := none, rxOld := none, stopped := false, stats := [], rtpSeq := 0,
                   rtpTs := 0, ssrc := none, nextSeq := 0, later := 0, out := [], txSeq := 0, credit := 16, misses := 0, fallen := none,
                   falling := none, noPath := false, rtcpPort := none, rtcpAt := 0 }) s) ∧
    (∀ tl tp f, fRtp f = false → EndsIf h (.flowTx h flow tl tp) (specFlowTx h flow tl tp) (fun b => flow? b n = some f) noRes
      (fun b => setFlow n { f with template := some tp, rtpSeq := 0, rtpTs := 0, rtcpAt := 0, prio := if h.emerg then 0 else f.prio } (tookFree b)) s) ∧
    (∀ tl tp f, fRtp f = true → EndsIf h (.flowTx h flow tl tp) (specFlowTx h flow tl tp) (fun b => flow? b n = some f) noRes
      (fun b =>
        let o := tplHeaders f tp - 12
        setFlow n { f with template := some tp, rtpSeq := BitVec.ofNat 16 (unBe ((tp.drop (o + 2)).take 2)),
                           rtpTs := BitVec.ofNat 32 (unBe ((tp.drop (o + 4)).take 4)),
                           rtcpAt := now b + 2500000 + Config.freeNat b.free % 5000001, prio := if h.emerg then 0 else f.prio } (tookFree b)) s) ∧
    (∀ f, EndsIf h (.flowDel h flow) (specFlowDel flow) (fun b => flow? b n = some f) noRes
      (fun b => { b with net := { b.net with flows := tblDel n b.net.flows },
                         claims := b.claims.filter (fun c => !(c.cls == 12 && c.idx == n)) }) s) ∧
    (∀ suite kdr roc kl sl key f,
      let k : SrtpKey := { suite := suite.toNat, kdr := kdr.toNat, roc := roc, key := key.take kl.toNat, salt := key.drop kl.toNat, count := 0,
                           top := none, seen := [], ctl := 0 }
      EndsIf h (.srtpKey h flow 1 suite kdr roc kl sl key) (specSrtpKey h flow 1 suite kdr roc kl sl key) (fun b => flow? b n = some f) noRes
        (setFlow n { f with tx := some k, stopped := false, prio := if h.emerg then 0 else f.prio }) s ∧
      EndsIf h (.srtpKey h flow 0 suite kdr roc kl sl key) (specSrtpKey h flow 0 suite kdr roc kl sl key) (fun b => flow? b n = some f) noRes
        (fun b => setFlow n { f with rx := some k, rxOld := f.rx.map (fun o => (o, now b + 2000000)), stopped := false,
                                     prio := if h.emerg then 0 else f.prio } b) s) ∧
    (∀ pair pa pb w, EndsIf h (.prpPair h pair pa pb w) (specPrpPair pair pa pb w)
      (fun b => rd b (ethMode pa.toNat) = rd b (ethMode pb.toNat)) noRes
      (fun b =>
        let t := wr (prpA pair.toNat) pa.toNat (wr (prpB pair.toNat) pb.toNat (wr (prpWindow pair.toNat) w.toNat (wr (prpEn pair.toNat) 1 b)))
        { t with net := { t.net with pairs := tblSet pair.toNat { pairInit with supAt := now b + 2000000 } t.net.pairs } }) s) ∧
    (∀ p fl d ls, Ends h (.ptpCfg h p fl d ls) (specPtpCfg p fl d ls) noRes
      (fun b => { b with net := { b.net with ptp := some { port := p.toNat, oneStep := decide (fl = 1), domain := d.toNat, logsync := ls.toInt } } }) s) ∧
    (∀ len pay f, fAssured f = true → WaitsIf h (.assuredSend h flow len pay) (specAssuredSend h flow len pay) (fun b => flow? b n = some f)
      (.assured n f.txSeq) (fun b => addMsg n (((begunCmd h (.assuredSend h flow len pay) (specAssuredSend h flow len pay) s).lref).getD 0)
        { seq := f.txSeq, stamp := (rtbNs b).extractLsb' 0 40, settle := false, err := false, last := true } pay
        (setFlow n { f with prio := if h.emerg then 0 else f.prio } b)) s) ∧
    (∀ p fl, fl ≠ 1 → EndsIf h (.netStats h p flow fl) (specNetStats p flow fl) (fun b => p = 0xFF → (flow? b n).isSome = true)
      (fun b => netStatsBytes b p.toNat n) (fun b => b) s) ∧
    (EndsIf h (.netStats h 0xFF flow 1) (specNetStats 0xFF flow 1) (fun b => (flow? b n).isSome = true) (fun b => netStatsBytes b 0xFF n)
      (modFlow n (fun f => { f with stats := [] })) s) ∧
    (Ends h (.netStats h 0xFE flow 1) (specNetStats 0xFE flow 1) (fun b => le 4 (rd b (prpDup n)) ++ le 4 (rd b (prpEvict n)))
      (fun b => wr (prpDup n) 0 (wr (prpEvict n) 0 b)) s) ∧
    (∀ p, p ≠ 0xFF → p ≠ 0xFE → Ends h (.netStats h p flow 1) (specNetStats p flow 1) (fun b => regWords b 1 (0x140 + 0x80 * p.toNat) 11)
      (fun b => (fromN 0 11).foldl (fun t k => regClear (rk 1 (0x140 + 0x80 * p.toNat + 4 * k)) t) b) s)

open Sys2Proof Sys2Proof.Machine Sys2Proof.Obl in
/-- R348, R351, R354, R376, R382, R389, R391, R395, R401, R402, R407, R495, R497: the powerline commands. -/
def Obligations.PowerlineCommandsComplete : Prop :=
  ∀ (h : Hdr) (port : BitVec 8) (s : State),
    let n := port.toNat
    (∀ lm role nid node bp cs ce zm k ph tx, EndsIf h (.plcPortCfg h port lm role nid node bp cs ce zm k ph tx)
      (specPlcPortCfg port lm role nid node bp cs ce zm k ph tx) (fun b => flag b (plcEn n) = false) noRes
      (fun b =>
        let t := wr (plcPolled n) lm.toNat (wr (plcRole n) role.toNat (wr (plcNetid n) nid.toNat (wr (plcNode n) node.toNat b)))
        let t := wr (plcBand n) bp.toNat (wr (plcCstart n) cs.toNat (wr (plcCend n) ce.toNat t))
        let t := wr (plcK n) (k.toNat - 1) (wr (plcPhase n) ph.toNat (wr (plcTxlevel n) tx.toNat (wr (zcMode n) zm.toNat (wr (zcEn n) 1 t))))
        modPlc n (fun v => { v with conf := true }) t) s) ∧
    Ends h (.plcPortOutOfService h port) (specPlcPortOutOfService port) noRes (plcOut n) s ∧
    WaitsIf h (.plcPortInService h port) (specPlcPortInService port) (fun b => flag b (plcEn n) = false) (.plcCal n)
      (modPlc n (fun v => { v with calibrating := true })) s ∧
    (∀ m, WaitsIf h (.plcSlotmap h port m) (specPlcSlotmap h port m) (fun b => plcCoord b n = true) (.plcMap n)
      (fun b => setPlc n { plcP b n with next := some (((plcP b n).smgen + 1) % 256, sfno b n + 2, parseMap m), mapCasts := 2 } b) s) ∧
    (∀ nid node, WaitsIf h (.plcJoin h port nid node) (specPlcJoin h port nid node) (fun b => rd b (plcState n) ≠ 0 ∧ flag b (plcRole n) = false)
      (.plcJoin n) (fun b =>
        let v := plcP b n
        let back := [rd b (plcNetid n), v.seek, v.want, rd b (plcState n), v.parent.getD 0xFFFF, v.coord.getD 0xFFFF, b2n (v.join = .no),
                     rd b (plcNode n), rd b (plcHops n)]
        startJoin n nid.toNat node.toNat (wr (plcNetid n) nid.toNat (wr (plcState n) 1
          (setCmd { begunCmd h (.plcJoin h port nid node) (specPlcJoin h port nid node) s with early := back } b)))) s) ∧
    WaitsIf h (.plcLeave h port) (specPlcLeave port) (fun b => rd b (plcState n) = 3 ∧ plcCoord b n = false) (.plcLeave n)
      (fun b => mgmtOnce n ((plcP b n).coord.getD 0xFFF) [0x04] b) s ∧
    EndsIf h (.plcLeave h port) (specPlcLeave port) (fun b => rd b (plcState n) ≠ 0 ∧ rd b (plcState n) ≠ 3 ∧ plcCoord b n = false) noRes
      (fun b => plcAllLost n (wr (plcState n) 1 (modPlc n (fun v => { v with join := .no, parent := none, map := none, routes := [] }) b))) s ∧
    (∀ d k r, Ends h (.plcRoute h port d k r) (specPlcRoute port d k r) noRes
      (modPlc n (fun v => { v with fixed := tblSet d.toNat (r.map (·.toNat)) v.fixed })) s) ∧
    (∀ plc fl,
      let c (b : State) : FallCfg := { plc := plc.toNat, auto := decide (fl.toNat % 2 = 1), autoReturn := decide (fl.toNat / 2 = 1),
                                       active := match fallOf b n with | some c => c.active && decide (c.plc = plc.toNat) | none => false }
      EndsIf h (.falloverCfg h port plc fl) (specFalloverCfg port plc fl) (fun b => fl.toNat % 2 = 0 ∨ ethSt (setFall n (c b) b) n ≠ 3) noRes
        (fun b => setFall n (c b) b) s ∧
      EndsIf h (.falloverCfg h port plc fl) (specFalloverCfg port plc fl) (fun b => fl.toNat % 2 = 1 ∧ ethSt (setFall n (c b) b) n = 3) noRes
        (fun b => pumpFallen plc.toNat (startFall n (c b) (setFall n (c b) b)).2) s) ∧
    (∀ c, EndsIf h (.falloverToPowerline h port) (specFalloverToPowerline port) (fun b => fallOf b n = some c) (fun b => le 2 (startFall n c b).1)
      (fun b => let t := (startFall n c b).2
        pumpFallen c.plc (if ethSt t n = 2 ∨ ethSt t n = 3 then expireAll n t else t)) s) ∧
    (∀ c, EndsIf h (.falloverBackToEthernet h port) (specFalloverBackToEthernet port) (fun b => fallOf b n = some c)
      (fun b => le 2 (startReturn n c b).1) (fun b => (startReturn n c b).2) s) ∧
    (∀ fl, Ends h (.plcStats h port fl) (specPlcStats port fl)
      (fun b => regWords b 2 (0x100 * n + 0x40) 48 ++ ((plcP b n).nbrs.take 104).flatMap (fun e =>
        le 2 e.1 ++ le 1 (linkCost e.2) ++ le 1 (toU 8 e.2.margin) ++ le 1 e.2.dec ++ le 1 e.2.hops ++ le 2 0))
      (fun b => if fl = 1 then (fromN 0 22).foldl (fun t k => wr (plcCnt n k) 0 t) b else b) s)

open Sys2Proof Sys2Proof.Machine Sys2Proof.Obl in
/-- R185, R410, R413 to R415, R418, R419: Opal's commands. On a slot that runs, SSC_SLOT_CFG and SSC_COEF stand until the fade; on one that does not,
they take effect at once. -/
def Sys2Proof.Obl.OpalCommandsComplete : Prop :=
  ∀ (h : Hdr) (slot' : BitVec 8) (s : State),
    let i := slot'.toNat
    (∀ src pre ratio med ph sh ch,
      let c : OCfg := { src := src.toNat, preset := pre.toNat, rcic := ratio.toNat % 1024, d := ratio.toNat / 1024, median := med.toNat,
                        phase := ph.toNat, shift := sh.toNat, chan := ch.toNat }
      let row : Instr := .sscSlotCfg h slot' src pre ratio med ph sh ch
      let sp := specSscSlotCfg slot' src pre ratio med ph sh ch
      WaitsIf h row sp (fun b => flag b (sscEn i) = true) (.fade i) (fun b => setSlot i { slot b i with pend := some (.cfg c) } b) s ∧
      EndsIf h row sp (fun b => flag b (sscEn i) = false) (fun b => (cfgResult (freeBalls i (putCfg i c b)) i).1)
        (fun b => (cfgResult (freeBalls i (putCfg i c b)) i).2) s) ∧
    (∀ taps fade (fl : BitVec 8) co,
      let c : OCoef := { fade := fade.toNat, half := fl == 1, h := co.map (·.toInt) }
      let row : Instr := .sscCoef h slot' taps fade fl co
      let sp := specSscCoef h slot' taps fade fl co
      WaitsIf h row sp (fun b => flag b (sscEn i) = true) (.fade i) (fun b => setSlot i { slot b i with pend := some (.coef c) } b) s ∧
      EndsIf h row sp (fun b => flag b (sscEn i) = false) noRes
        (fun b => wr (sscGdelay i) (slotGd (putCoef i c b) i) (putCoef i c b)) s) ∧
    (∀ idx lev hyst fl, Ends h (.sscThresh h slot' idx lev hyst fl) (specSscThresh slot' idx lev hyst fl) noRes
      (fun b =>
        let k := idx.toNat
        let t := tblGet (slot b i).thr k { armed := true, hold := none }
        wr (sscThrLevel i k) lev.toNat (wr (sscThrHyst i k) hyst.toNat (wr (sscThrFlags i k) fl.toNat
          (setSlot i { slot b i with thr := tblSet k { t with armed := true } (slot b i).thr } b)))) s) ∧
    EndsIf h (.sscSlotEnable h slot') (specSscSlotEnable slot') (fun b => flag b (sscEn i) = true) noRes (fun b => b) s ∧
    EndsIf h (.sscSlotEnable h slot') (specSscSlotEnable slot') (fun b => flag b (sscEn i) = false) noRes
      (fun b => opalUpd (restartSettle i (wr (sscEn i) 1
        (setSlot i { slot b i with thr := tblMap (fun _ t => { t with armed := true }) (slot b i).thr, block := [] } b)))) s ∧
    Ends h (.sscSlotDisable h slot') (specSscSlotDisable slot') noRes
      (fun b => opalUpd (wr (sscRemain i) 0 (wr (sscSdmLost i) 0 (wr (sscEn i) 0 (setSlot i { slot b i with block := [] } b))))) s ∧
    Ends h (.sscStatus h 0 slot') (specSscStatus 0 slot') (fun b => regWords b 3 (0x100 + 0x80 * i) 16) (fun b => b) s ∧
    (∀ k, k ≠ 0 → Ends h (.sscStatus h k slot') (specSscStatus k slot') (fun b => regWords b 4 (0x100 * i) 3 ++ regWords b 4 (0x100 * i + 0x10) 5)
      (fun b => b) s)

open Sys2Proof Sys2Proof.Machine Sys2Proof.Obl in
/-- R421, R423, R425, R428 and Table 19.4: the TDM ports' commands. -/
def Sys2Proof.Obl.TdmCommandsComplete : Prop :=
  ∀ (h : Hdr) (port : BitVec 8) (s : State),
    let p := port.toNat
    (∀ rate fl sl,
      let put (b : State) : State := wr (tdmRate p) rate.toNat (wr (tdmFlags p) fl.toNat (wr (tdmSlots p) (sl.toNat - 1) (setTdm p (tdmPort b p) b)))
      let i : Instr := .tdmPortCfg h port rate fl sl
      let sp := specTdmPortCfg port rate fl sl
      EndsIf h i sp (fun b => flag (put b) (tdmEn p) = false ∨ inBand b p = inBand (put b) p) noRes put s ∧
      EndsIf h i sp (fun b => flag (put b) (tdmEn p) = true ∧ inBand b p ≠ inBand (put b) p) noRes
        (fun b => let t := put b
          wr (tdmCand p) 0 (setLost p 0 (setTdm p { tdmPort t p with cands := [], hist := [], prevFs := none, miss := 0 } t))) s) ∧
    (∀ n es, Ends h (.tdmSlotmap h port n es) (specTdmSlotmap h port n es) noRes
      (fun b =>
        let t := setTdm p { tdmPort b p with n := n.toNat } b
        let t := (fromN n.toNat ((tdmPort b p).n - n.toNat)).foldl (fun t k => wr (tdmEntry p k) 0 t) t
        (fromN 0 n.toNat).foldl (fun t k => wr (tdmEntry p k) (es.getD k 0).toNat t) t) s) ∧
    WaitsIf h (.tdmPortEnable h port) (specTdmPortEnable port) (fun b => flag b (tdmEn p) = true) (.tdm p)
      (fun b => setTdm p { tdmPort b p with settleAt := some (now b + 2000) } b) s ∧
    WaitsIf h (.tdmPortEnable h port) (specTdmPortEnable port) (fun b => flag b (tdmEn p) = false) (.tdm p)
      (fun b =>
        let v := { tdmPort b p with prevFs := none, miss := 0, cands := [], ambig := 0, hist := [], err := false, settleAt := some (now b + 2000) }
        wr (tdmEn p) 1 (wr (tdmCand p) 0 (wr (tdmState p) (if intFs b p && !inBand b p then 2 else 0) (setTdm p v b)))) s ∧
    Ends h (.tdmPortDisable h port) (specTdmPortDisable port) (fun _ => [0])
      (fun b =>
        let t := unclaimIf (fun c => (c.cls == 9 && c.idx == p) || (c.cls == 2 && c.holder == 0x59 && c.obj == p)) b
        let t := if tdmConf t p then setTdm p { tdmPort t p with settleAt := none, tx := [] } t else t
        wr (tdmEn p) 0 (wr (tdmState p) 0 (wr (tdmCand p) 0 (wr (tdmOffset p) 0 t)))) s

open Sys2Proof Sys2Proof.Machine Sys2Proof.Obl in
/-- R186, R432, R438, R440, R450, R452: the compression commands. A job goes to Topaz with a lease of the pool on its context, whose stream is then in
progress; a save leaves the context as it is; a restore of a good image of this version puts it back; what an image says is free (log 2). -/
def Obligations.CompressionCommandsComplete : Prop :=
  ∀ (h : Hdr) (ctx : BitVec 8) (s : State),
    let c := ctx.toNat
    (ctx ≠ 0xFF → EndsIf h (.tpzCtxAlloc h ctx) (specTpzCtxAlloc h ctx) (fun b => claimOf b 4 c = none ∨ hostCtx b c = true) (fun _ => le 1 c)
      (claim 4 c 1 h.queue.val) s) ∧
    (∀ x, EndsIf h (.tpzCtxAlloc h 0xFF) (specTpzCtxAlloc h 0xFF) (fun b => choose ((fromN 0 64).filter (fun x => (claimOf b 4 x).isNone)) b = some x)
      (fun _ => le 1 x) (fun b => claim 4 x 1 h.queue.val (tookFree b)) s) ∧
    EndsIf h (.tpzCtxFree h ctx) (specTpzCtxFree h ctx) (fun b => hostCtx b c = true) noRes
      (fun b => { b with tpz := { b.tpz with ctxs := tblDel c b.tpz.ctxs }, claims := b.claims.filter (fun x => !(x.cls == 4 && x.idx == c)) }) s ∧
    (∀ a, EndsIf h (.tpzCtxSave h ctx a) (specTpzCtxSave h ctx a) (fun b => hostCtx b c = true) noRes
      (fun b =>
        let body := freeBytes 36860 b
        let image := body ++ le 4 (crc32c body).toNat
        let t := memPut a.toNat image (tookFree b)
        { t with hostMem := { t.hostMem with images := (image, ctxOf b c) :: t.hostMem.images } }) s) ∧
    (∀ a img, imageOk img = true → EndsIf h (.tpzCtxRestore h ctx a (.data img)) (specTpzCtxRestore h ctx (.data img))
      (fun b => hostCtx b c = true ∧ imageVersion b img = true) noRes
      (fun b => { b with tpz := { b.tpz with ctxs := tblSet c (imageCtx b img) b.tpz.ctxs } }) s) ∧
    (let job (row : Instr) (op : Nat) (wrap eff fl : BitVec 8) (src : BitVec 64) (len : BitVec 32) (chain : BitVec 64) (nch : BitVec 16) : Prop :=
      let sp := specTpzJob h op ctx wrap eff fl src len chain nch
      let me := begunCmd h row sp s
      let prio := if h.emerg then 0 else 6
      (fl.getLsbD 3 = true → admits h sp s = true → tblFind c (begun h row sp s).tpz.ckpt = some (ctxOf s c)) ∧
      WaitsIf h row sp (fun b => hostCtx b c = true ∧ (fl.getLsbD 3 = true → contRej (ctxOf b c) op wrap.toNat = none)) (.tpz c)
        (fun b =>
          let (l, t) := grantLease c b
          seqUp (5 * 65536 + c) 1 { t with tpz := { t.tpz with jobs := t.tpz.jobs ++
            [{ wh := jobWh prio c 0 me.lref b, ctx := c, op := op, wrap := wrap.toNat, effort := eff.toNat, flags := fl.toNat, src := src,
               srclen := len.toNat, chain := chain, nchain := nch.toNat, inline := [], data := none, prio := prio, lsn := me.lsn,
               cmd := (h.queue.val, h.seq), forLog := false, lease := l, eng := none, ents := none, saved := ctxOf b c }] } }) s
     (∀ w e f a l k n, job (.tpzJobDeflate h ctx w e f a l k n) 0 w e f a l k n) ∧
     (∀ w e f a l k n, job (.tpzJobInflate h ctx w e f a l k n) 1 w e f a l k n)) ∧
    (∀ log fr a len wrap x,
      let row : Instr := .logExport h log fr a len wrap
      let sp := specLogExport h log fr a len wrap
      let me := begunCmd h row sp s
      me.early = [x] →
      Waits h row sp (.tpz x)
        (fun b =>
          let recs := ((if log = 0 then journalList b else pvlList b).filter (fun e => decide (fr.toNat ≤ e.1))).flatMap (·.2)
          let prio := if h.emerg then 0 else 6
          submitJob { wh := jobWh prio x 1 me.lref b, ctx := x, op := 0, wrap := wrap.toNat, effort := Config.freeNat b.free % 9,
                      flags := 6 + Config.freeNat (b.free + 1) % 2, src := freeBits 64 (tookFree (tookFree b)), srclen := recs.length, chain := 0,
                      nchain := 1, inline := exportChain a len, data := some recs, prio := prio, lsn := me.lsn, cmd := (h.queue.val, h.seq),
                      forLog := true, lease := none, eng := none, ents := none, saved := ctxIdle } (tookFree (tookFree (tookFree b)))) s)

open Sys2Proof Sys2Proof.Machine Sys2Proof.Obl in
/-- R188, R463, R466, R490 to R492: the test and service commands. -/
def Obligations.TestCommandsComplete : Prop :=
  ∀ (h : Hdr) (s : State),
    (∀ t i a sl, WaitsIf h (.agtRun h t i a sl) (specAgtRun h t i a sl) (fun b => targetOut b t.toNat i.toNat = true) .agate
      (fun b => { b with agt := { b.agt with runs := b.agt.runs ++
        [{ result := none, cmd := some (h.queue.val, h.seq), target := t.toNat, index := i.toNat, alg := a.toNat, slice := sl.toNat, since := none,
           pauseEnd := none, notBefore := 0, cells := [], logicFail := false, prev := 5 }] } }) s) ∧
    (∀ r v, EndsIf h (.agtResults h r) (specAgtResults r) (fun b => tblFind r.toNat b.agt.results = some v) (fun _ => resultBytes r.toNat v)
      (fun b => b) s) ∧
    (∀ r v, EndsIf h (.agtRepairSoft h r) (specAgtRepairSoft r) (fun b => tblFind r.toNat b.agt.results = some v ∧ softRej b r.toNat = none)
      (fun _ => le 1 v.plan.length)
      (fun b => wr agtSoftmap (b.agt.soft ++ v.plan).length { b with agt := { b.agt with
          soft := b.agt.soft ++ v.plan,
          results := tblSet r.toNat { v with mapped := v.plan.length, fuseused := b.boot.fuses.repairs.length } b.agt.results } }) s) ∧
    (∀ c, EndsIf h (.coreOutOfService h c) (specCoreOutOfService h c) (fun b => 3 ≤ (Machine.core b c.toNat).st) (fun b => le 1 (Machine.core b c.toNat).st)
      (fun b => b) s) ∧
    (∀ c, WaitsIf h (.coreOutOfService h c) (specCoreOutOfService h c)
      (fun b => (Machine.core b c.toNat).st < 3 ∧ (planMoves (chansOn b c.toNat) (siblings c.toNat) 8192 b).2.1 = []) (.core c.toNat)
      (fun b =>
        let pl := planMoves (chansOn b c.toNat) (siblings c.toNat) 8192 b
        stageMoves pl.1 pl.2.2 (setCmd { begunCmd h (.coreOutOfService h c) (specCoreOutOfService h c) s with early := chansOn b c.toNat } b)) s) ∧
    (∀ c, EndsIf h (.coreReturn h c) (specCoreReturn h c) (fun b => (Machine.core b c.toNat).st ≤ 2) (fun b => le 1 (Machine.core b c.toNat).st) (fun b => b) s) ∧
    (∀ c, WaitsIf h (.coreReturn h c) (specCoreReturn h c) (fun b => 2 < (Machine.core b c.toNat).st ∧ (Machine.core b c.toNat).st ≠ 6 ∧ runOn b c.toNat = true) .agate (fun b => b) s) ∧
    (∀ c, WaitsIf h (.coreReturn h c) (specCoreReturn h c)
      (fun b => 2 < (Machine.core b c.toNat).st ∧ (Machine.core b c.toNat).st ≠ 6 ∧ runOn b c.toNat = false ∧ coreFit b c.toNat = true) (.core c.toNat) (fun b => b) s) ∧
    (∀ c, WaitsIf h (.coreReturn h c) (specCoreReturn h c)
      (fun b => 2 < (Machine.core b c.toNat).st ∧ (Machine.core b c.toNat).st ≠ 6 ∧ runOn b c.toNat = false ∧ coreFit b c.toNat = false) .agate
      (returnRun h.queue.val h.seq c.toNat) s) ∧
    (∀ c, EndsIf h (.coreRetire h c) (specCoreRetire c) (fun b => (Machine.core b c.toNat).st = 3 ∨ (Machine.core b c.toNat).st = 5 ∨ (Machine.core b c.toNat).st = 7)
      (fun _ => le 1 6)
      (fun b =>
        let t := setCore c.toNat { Machine.core b c.toNat with st := 6 } b
        { t with boot := { t.boot with cfg := { t.boot.cfg with retired := t.boot.cfg.retired ||| (1#64 <<< c.toNat) } } }) s) ∧
    (∀ f t k, WaitsIf h (.rebalance h f t k) (specRebalance h f t k) (fun b => rebalanceOk b f.toNat t.toNat = true) (.core f.toNat)
      (fun b =>
        let pl := planMoves (chansOn b f.toNat) [t.toNat] (if k = 0 then 8192 else k.toNat) b
        stageMoves pl.1 pl.2.2 (setCmd { begunCmd h (.rebalance h f t k) (specRebalance h f t k) s with early := pl.1.map (·.1) } b)) s)

open Sys2Proof Sys2Proof.Machine Sys2Proof.Obl in
/-- R189 to R191, R297, R308, R501, R502: the diagnostics, logs and statistics commands, and KRN_LOAD. Where they clear, they clear what they answer.
CORE and PHASE of a channel without a core, and where a kernel's windows lie among the free places, are free (log 2). -/
def Obligations.DiagnosticCommandsComplete : Prop :=
  ∀ (h : Hdr) (s : State),
    (∀ d, Ends h (.echo h d) (specEcho d) (fun _ => d) (fun b => b) s) ∧
    (∀ m, Ends h (.notifyCfg h m) (specNotifyCfg m) noRes (fun b => { b with host := { b.host with notifyMask := m } }) s) ∧
    (∀ g i fl, Ends h (.counters h g i fl) (specCounters g i fl) (fun b => counterBytes b g.toNat i.toNat)
      (fun b => if fl = 1 then counterClear g.toNat i.toNat b else b) s) ∧
    (∀ bl fl o c, Ends h (.regRead h bl fl o c) (specRegRead bl fl o c) (fun b => (readRegs bl.toNat o.toNat (fl == 1) c.toNat b).1)
      (fun b => if fl = 1 then (readRegs bl.toNat o.toNat true c.toNat b).2 else b) s) ∧
    (∀ fr m, Ends h (.journalRead h fr m) (specJournalRead fr m) (fun b => logBytes (journalList b) b.journal.nextSeq.toNat fr.toNat m.toNat)
      (fun b => ueReads wJournal 8192 b) s) ∧
    (∀ fr m, Ends h (.pvlRead h fr m) (specPvlRead fr m) (fun b => logBytes (pvlList b) b.pvl.next.toNat fr.toNat m.toNat) (fun b => b) s) ∧
    EndsIf h (.bootledgerRead h) specBootledgerRead (fun b => ueIn b wBoot 512 = false)
      (fun b => bootHdrBytes b.boot.hdr ++ (fromN 0 252).flatMap (fun k =>
        match tblFind k b.boot.recs with | some r => bootRecBytes r | none => List.replicate 16 0)) (fun b => b) s ∧
    EndsIf h (.bootledgerRead h) specBootledgerRead (fun b => ueIn b wBoot 512 = true) bootLedgerBytes
      (fun b => tookFree (ueReads wBoot 512 b)) s ∧
    (∀ kid k, EndsIf h (.krnStatus h kid) (specKrnStatus h kid) (fun b => tblFind kid.toNat b.gar.kernels = some k)
      (fun _ => le 1 k.st ++ le 2 k.faults ++ le 1 k.cause ++ le 1 k.core) (fun b => b) s) ∧
    (∀ ch fl c, fl ≠ 1 → EndsIf h (.chStats h ch fl) (specChStats h ch fl) (fun b => chan? b ch.toNat = some c) (fun b => statsBytes b c)
      (fun b => tookFree (tookFree b)) s) ∧
    (∀ ch c, EndsIf h (.chStats h ch 1) (specChStats h ch 1) (fun b => chan? b ch.toNat = some c) (fun b => statsBytes b c)
      (fun b => setChan ch.toNat { c with stats := [] } (tookFree (tookFree b))) s) ∧
    (∀ kid a len img ib db, EndsIf h (.krnLoad h kid a len (.data img)) (specKrnLoad h kid a len img)
      (fun b => choose (iBases b (imgIUnits img)) b = some ib ∧ choose (dBases b (imgDUnits img)) (tookFree b) = some db ∧
        tblFind kid.toNat b.gar.kernels = none)
      (fun _ => le 1 ib ++ le 1 (imgIUnits img) ++ le 1 db ++ le 1 (imgDUnits img))
      (fun b => placeKernel kid.toNat img ib db (tookFree (tookFree b))) s)

/-! ### The host interface (Chapter 6) -/

namespace Sys2Proof.Obl

open Sys2Proof.Machine

/-- Command `i` completes in state `s` and leaves `t`. -/
def Runs (i : Instr) (s t : State) : Prop := exec i s = .next t

/-- CMP of queue `q`. -/
def cmpOf (s : State) (q : Nat) : BitVec 16 := BitVec.ofNat 16 (rd s (qCmp q))

/-- An epoch byte that is the low 8 bits of the owning interface's epoch. -/
def epochOk (s : State) (q : Nat) (v : BitVec 32) : Prop := (v.extractLsb' 16 8).toNat = ownerEpoch s q % 256

end Sys2Proof.Obl

open Sys2Proof Sys2Proof.Machine Sys2Proof.Obl in
/-- R144: a doorbell. It moves the tail where all conditions hold, commands being served or not; it is ignored, counted and flagged where its epoch is
stale; it stops the queue with CAUSE 3 where the tail is earlier than the last one, or more than 256 past CMP + 1; and it is not acted on where MSPI
owns the queue or RUN is 0. While commands are not served nothing is fetched; once they are, the next queue's entry is. -/
def Obligations.DoorbellRule : Prop :=
  ∀ (q : Fin 4) (v : BitVec 32) (s : State), pcieUp s = true →
    (mspiOwned s q.val = true → ∃ u, Runs (.hbSqdb q v) s u ∧ u.host.queues = s.host.queues ∧ u.host.cmds = s.host.cmds ∧
      ∀ n, n < 4 → rd u (qErr n) = rd s (qErr n)) ∧
    (served s = false → ∀ e p, Runs (.submissionFetch q e p) s s) ∧
    (mspiOwned s q.val = false → served s = true → nextQueue s = some q.val → rd s (sqBaseLo q.val) % 4096 = 0 →
      ∀ b p, ∃ u, Runs (.submissionFetch q (.data b) (.data p)) s u ∧ rd u (sqFetch q.val) = (rd s (sqFetch q.val) + 1) % 65536) ∧
    (mspiOwned s q.val = false →
    let t : BitVec 16 := v.extractLsb' 0 16
    let tail := (queue s q.val).tail
    let far := (t - (cmpOf s q.val + 1)).toNat
    let live := rd s hbRun = 1 ∧ rd s (qErr q.val) = 0
    let earlier := 1 ≤ (tail - t).toNat ∧ (tail - t).toNat ≤ 32767
    (epochOk s q.val v → live → ¬earlier → far ≤ 256 → Runs (.hbSqdb q v) s (setQueue q.val { queue s q.val with tail := t } s)) ∧
    (¬epochOk s q.val v → ∃ u, Runs (.hbSqdb q v) s u ∧ rd u irqDbstale = 1 ∧ rd u badAcc = min (rd s badAcc + 1) 65535 ∧
      u.host.queues = s.host.queues ∧ u.host.cmds = s.host.cmds) ∧
    (epochOk s q.val v → live → earlier ∨ 256 < far → ∃ u, Runs (.hbSqdb q v) s u ∧ rd u (qErr q.val) = 3 ∧ rd u irqQerr = 1 ∧
      u.host.queues = s.host.queues ∧ u.host.cmds = s.host.cmds) ∧
    (epochOk s q.val v → rd s hbRun ≠ 1 → Runs (.hbSqdb q v) s s))

open Sys2Proof Sys2Proof.Machine Sys2Proof.Obl in
/-- R147, R148, R151, R152, R157 and Table 6.2: the other BAR0 writes with an action. A HEAD write retires what it passes; a stale one is counted;
a changed heartbeat ends HOST_ABSENT; HB_SEGACK takes the covered segments out of the ring, and one beyond the last written counts as that one; EN
set starts a ring afresh; RUN set from 0 restarts the queues that stopped. Log 108, the model's choice: a HEAD write for a queue of the other interface
is taken as a stale one, and a doorbell to a queue that HB_QERR_n has stopped is dropped. -/
def Obligations.HostRegisterWritesComplete : Prop :=
  ∀ (q : Fin 4) (v : BitVec 32) (s : State), pcieUp s = true →
    (epochOk s q.val v → mspiOwned s q.val = false →
      let u := queue s q.val
      let hd := v.toNat % 4096
      let acked := u.written.takeWhile (fun e => e.1 ≠ hd)
      let t := setQueue q.val { u with written := u.written.drop acked.length, head := hd, cursor := hd } s
      Runs (.hbCqhead q v) s (updQ q.val (acked.foldl (fun t e => retire q.val e.2 t) t))) ∧
    (¬epochOk s q.val v ∨ mspiOwned s q.val = true → Runs (.hbCqhead q v) s (bump badAcc s)) ∧
    (epochOk s q.val v → mspiOwned s q.val = false → rd s (qErr q.val) ≠ 0 → Runs (.hbSqdb q v) s s) ∧
    (rd s hbHeartbeat ≠ v.toNat → s.host.absent = true → onyxUp s = true →
      Runs (.hbHeartbeat v) s (refresh { wr hbHeartbeat v.toNat s with host := { s.host with absent := false, hbMisses := 0 } })) ∧
    (s.host.absent = false → Runs (.hbHeartbeat v) s (wr hbHeartbeat v.toNat s)) ∧
    (let upTo := if later32 v s.host.segLast then s.host.segLast else v
     ∃ t, Runs (.hbSegack v) s t ∧ rd t segAck = upTo.toNat ∧
      (later32 v s.host.segLast = true → rd t badAcc = min (rd s badAcc + 1) 65535) ∧
      (minimal s = false → t.host.segs = s.host.segs.filter (fun g => later32 g.num upTo)) ∧
      (minimal s = true → t.host.segs = s.host.segs ∧ t.ledger = s.ledger)) ∧
    (flag s (cqEn q.val) = false → v.getLsbD 31 = true →
      ∃ t, Runs (.hbCqcfgEnable q v) s t ∧ rd t (cqEn q.val) = 1 ∧ rd t (cqSize q.val) = v.toNat % 8 ∧ rd t (cqTail q.val) = 0 ∧
        rd t (cqPhase q.val) = 1 ∧ (queue t q.val).written = [] ∧ (queue t q.val).head = 0 ∧ t.host.cmds = s.host.cmds) ∧
    (rd s hbRun = 0 → v.getLsbD 0 = true →
      ∃ t, Runs (.hbCtrlRun v) s t ∧ rd t hbRun = 1 ∧ rd t hbNotifyq = v.toNat / 256 % 16 ∧ (∀ k, k < 4 → rd t (qErr k) = 0) ∧ t.host = s.host)

namespace Sys2Proof.Obl

open Sys2Proof.Machine

/-- The block registers that act on a write: PWR_DOM_REQ, PWR_HIB_CTL, PWR_CORE_RAMP, CLK_AUDSEL, RTB_SRC, RTB_ADDEND_HI, RTB_ADJ and RTB_CMD. -/
def writeActs (b off : Nat) : Bool :=
  (b == 7 && (off == 0x004 || off == 0x00C || off == 0x01C)) || (b == 8 && off == 0x060) ||
    (b == 9 && (off == 0x010 || off == 0x01C || off == 0x020 || off == 0x030))

/-- R9, R13, R141: REGISTER_WRITE for every block. BAR0 takes aligned dwords and counts any other; a block register of the firmware takes the bits
that its access code lets a write change, and those of Table 0.5 that a one clears; a register that acts on a write does so. -/
def RegisterWriteCompletes : Prop :=
  ∀ (b : BitVec 8) (off : BitVec 16) (sz : BitVec 8) (v : BitVec 32) (s : State),
    let o := off.toNat
    (pcieUp s = false → Runs (.registerWrite 10 off sz v) s s) ∧
    (pcieUp s = true → sz ≠ 4 ∨ o % 4 ≠ 0 → Runs (.registerWrite 10 off sz v) s (bump badAcc s)) ∧
    (pcieUp s = true → sz = 4 → o % 4 = 0 → Runs (.registerWrite 10 off sz v) s (hbWrite false o v s)) ∧
    (hostLinkUp s = true → 5 ≤ s.boot.step → sz = 4 → o % 4 = 0 → Runs (.registerWrite 11 off sz v) s (cfgWrite o v s)) ∧
    (1 ≤ b.toNat → b.toNat ≤ 9 → domOn s 1 = false ∨ sz ≠ 4 ∨ o % 4 ≠ 0 → Runs (.registerWrite b off sz v) s s) ∧
    (b = 0 ∨ 11 < b.toNat → Runs (.registerWrite b off sz v) s s) ∧
    (domOn s 1 = true → 1 ≤ b.toNat → b.toNat ≤ 9 → sz = 4 → o % 4 = 0 → writeActs b.toNat o = false →
      (regRow b.toNat o = none → Runs (.registerWrite b off sz v) s s) ∧
      (∀ r, regRow b.toNat o = some r →
        ∃ t, Runs (.registerWrite b off sz v) s t ∧ t = { s with regs := t.regs } ∧
          (∀ j, j ≠ rk b.toNat o → rdW t j = rdW s j) ∧
          (∀ k, k < 32 → (rdW t (rk b.toNat o)).getLsbD k =
            ((if (BitVec.ofNat 32 r.rw).getLsbD k then v.getLsbD k else (rdW s (rk b.toNat o)).getLsbD k) &&
              !((BitVec.ofNat 32 r.w1c).getLsbD k && v.getLsbD k))))) ∧
    (domOn s 1 = true → sz = 4 →
      (v.getLsbD 31 = true → Runs (.registerWrite 7 0x004 sz v) s (domReq (v.toNat % 16) (v.getLsbD 8) s)) ∧
      (v.getLsbD 31 = false → Runs (.registerWrite 7 0x004 sz v) s s) ∧
      (v.getLsbD 0 = false ∨ s.pwr.hib ≠ .awake ∨ booted s = false →
        Runs (.registerWrite 7 0x00C sz v) s (wr hibWakeNEn (v.toNat / 2) (wr hibTimerEn (v.toNat / 4) s))) ∧
      (v.getLsbD 0 = true → s.pwr.hib = .awake → booted s = true →
        Runs (.registerWrite 7 0x00C sz v) s (hibGo (wr hibWakeNEn (v.toNat / 2) (wr hibTimerEn (v.toNat / 4) s)))) ∧
      (∃ t, Runs (.registerWrite 7 0x01C sz v) s t ∧ rd t coreRamp = max 250 (min 16000 (v.toNat % 16384)) ∧ t = { s with regs := t.regs }) ∧
      (∃ t, Runs (.registerWrite 8 0x060 sz v) s t ∧ rd t audSrc = v.toNat % 2 ∧ rd t audActive = v.toNat % 2 ∧ t = { s with regs := t.regs }) ∧
      Runs (.registerWrite 9 0x010 sz v) s (srcWritten (rd s rtbSrc) (v.toNat % 4) (regStore (rk 9 0x10) v s)) ∧
      (∃ t, Runs (.registerWrite 9 0x01C sz v) s t ∧
        t.time.addend.toNat = clamp 4290672329 4299262263 (v.toNat % 256 * 4294967296 + (rdW s (rk 9 0x18)).toNat)) ∧
      (∃ t, Runs (.registerWrite 9 0x020 sz v) s t ∧ t.time.slew = v.toInt * 4294967296 ∧ t = { s with time := { s.time with slew := t.time.slew } }) ∧
      (v.getLsbD 0 = false → Runs (.registerWrite 9 0x030 sz v) s s) ∧
      (v.getLsbD 0 = true → Runs (.registerWrite 9 0x030 sz v) s (cmdStep s)))

/-- R9, R64, R74, R78, R79, R95: a clearing read of any register leaves the bits marked RC zero and every other as it was; a read of a low half
latches the upper half (and RTB_NOW_LO the fraction too); a read of PWR_SCRUB_UECNT frees the eight index registers. -/
def RegisterReadCompletes : Prop :=
  ∀ (b : BitVec 8) (off : BitVec 16) (s : State),
    (b = 10 → pcieUp s = false → Runs (.rcRegisterRead b off) s s) ∧
    (b ≠ 10 ∨ pcieUp s = true → ¬(b = 7 ∧ off = 0x28) →
      (regRow b.toNat off.toNat = none → Runs (.rcRegisterRead b off) s s) ∧
      (∀ r, regRow b.toNat off.toNat = some r →
        ∃ t, Runs (.rcRegisterRead b off) s t ∧ t = { s with regs := t.regs } ∧
          rdW t (rk b.toNat off.toNat) = rdW s (rk b.toNat off.toNat) &&& ~~~(BitVec.ofNat 32 r.rc) ∧
          (∀ j, j ≠ rk b.toNat off.toNat → rdW t j = rdW s j))) ∧
    (∃ t, Runs (.rcRegisterRead 7 0x28) s t ∧ rd t scrubUeN = 0 ∧ (∀ n, n < 8 → rd t (scrubUe n) = 0) ∧ t = { s with regs := t.regs }) ∧
    (∃ t, Runs .pwrScrubUecntRead s t ∧ rd t scrubUeN = 0 ∧ (∀ n, n < 8 → rd t (scrubUe n) = 0) ∧ t = { s with regs := t.regs }) ∧
    (∃ t, Runs .rtbNowLoRead s t ∧ tblGet t.time.latch (rk 9 4) 0 = (rtbNs s).extractLsb' 32 32 ∧
      tblGet t.time.latch (rk 9 8) 0 = (s.time.rtb.extractLsb' 16 16).zeroExtend 32 ∧ t = { s with time := { s.time with latch := t.time.latch } }) ∧
    (∃ t, Runs (.latchingLoRead 0x70) s t ∧ tblGet t.time.latch (rk 8 0x74) 0 = (s.time.ao.extractLsb' 32 16).zeroExtend 32 ∧
      t = { s with time := { s.time with latch := t.time.latch } }) ∧
    (∃ t, Runs (.latchingLoRead 0x78) s t ∧ tblGet t.time.latch (rk 8 0x7C) 0 = s.time.usec.extractLsb' 32 32 ∧
      t = { s with time := { s.time with latch := t.time.latch } }) ∧
    (∀ n, n < 4 → ∃ t, Runs (.latchingLoRead (BitVec.ofNat 16 (0x8C + 0x20 * n))) s t ∧
      tblGet t.time.latch (rk 8 (0x90 + 0x20 * n)) 0 = (zcOf s n).last.extractLsb' 32 32 ∧
      t = { s with time := { s.time with latch := t.time.latch } }) ∧
    (∀ o : BitVec 16, o ≠ 0x70 → o ≠ 0x78 → (∀ n, n < 4 → o ≠ BitVec.ofNat 16 (0x8C + 0x20 * n)) → Runs (.latchingLoRead o) s s)

end Sys2Proof.Obl

open Sys2Proof Sys2Proof.Machine Sys2Proof.Obl in
/-- R9, R13, R64, R74, R78, R79, R95, R141: register writes and reads of every block complete, with the effect that the register's access code gives
them. That configuration space is block 11 is the model's numbering (DESIGN CHOICE, log 107). -/
def Obligations.RegisterAccessCompletes : Prop := RegisterWriteCompletes ∧ RegisterReadCompletes

open Sys2Proof Sys2Proof.Machine Sys2Proof.Obl in
/-- R140, R145, R147, R148, R155, R167: fetching and completion writing. A fetched entry joins its queue as an item of WCLASS 3 and FETCH advances; a
DMA error stops the queue with CAUSE 2 and is a non-fatal AER error; without Bus Master Enable nothing is fetched or written over PCI Express; the
next held entry is written at TAIL and TAIL goes on, with the phase turned where it wraps; a hold that has expired signals the vector. -/
def Obligations.RingServiceCompletes : Prop :=
  ∀ (q : Fin 4) (s : State),
    let n := q.val
    let u := queue s n
    let entry (b p : List Byte) : Fetched :=
      { slotSeq := BitVec.ofNat 16 (rd s (sqFetch n)), entry := padTo 64 b, params := p,
        wh := { cmdHeader n (BitVec.ofNat 16 (leAt (padTo 64 b) 0 2)) (leAt (padTo 64 b) 6 2) with stamp := (rtbNs s).extractLsb' 0 40 } }
    let lost (t : State) : Prop := rd t (qErr n) = 2 ∧ rd t irqQerr = 1 ∧ rd t cfgNonFatal = 1 ∧ t.host.link.aer = true
    (served s = true → mspiOwned s n = false → nextQueue s = some n → rd s (sqBaseLo n) % 4096 = 0 →
      (∀ b p, ((padTo 64 b).getD 4 0).getLsbD 2 = false → ∃ t, Runs (.submissionFetch q (.data b) p) s t ∧
        (queue t n).fetched = u.fetched ++ [entry b []] ∧
        rd t (sqFetch n) = (rd s (sqFetch n) + 1) % 65536 ∧ t.host.cmds = s.host.cmds) ∧
      (∀ b p, ((padTo 64 b).getD 4 0).getLsbD 2 = true → ∃ t, Runs (.submissionFetch q (.data b) (.data p)) s t ∧
        (queue t n).fetched = u.fetched ++ [entry b p] ∧ rd t (sqFetch n) = (rd s (sqFetch n) + 1) % 65536 ∧ t.host.cmds = s.host.cmds) ∧
      (∀ p, ∃ t, Runs (.submissionFetch q .error p) s t ∧ lost t ∧ (queue t n).fetched = u.fetched) ∧
      (∀ b, ((padTo 64 b).getD 4 0).getLsbD 2 = true → ∃ t, Runs (.submissionFetch q (.data b) .error) s t ∧ lost t ∧
        (queue t n).fetched = u.fetched)) ∧
    (mspiOwned s n = false → flag s cfgBme = false →
      (∀ e p, Runs (.submissionFetch q e p) s s) ∧ (∀ w, Runs (.completionWrite q w) s s)) ∧
    (ringOpen s n = true → (mspiOwned s n = true ∨ rd s (cqBaseLo n) % 4096 = 0) →
      ∀ c s', nextCpl n s = some (c, s') →
        (∃ t, Runs (.completionWrite q true) s t ∧
          (queue t n).written = u.written ++ [(rd s (cqTail n), c)] ∧ rd t (cqTail n) = (rd s (cqTail n) + 1) % ringSize s n ∧
          ((rd s (cqTail n) + 1) % ringSize s n ≠ 0 → rd t (cqPhase n) = rd s (cqPhase n)) ∧
          ((rd s (cqTail n) + 1) % ringSize s n = 0 → rd t (cqPhase n) = 1 - rd s (cqPhase n))) ∧
        (∃ t, Runs (.completionWrite q false) s t ∧ lost t ∧ t.host.queues = s.host.queues)) ∧
    (∀ d, u.sigBy = some d → d ≤ now s →
      Runs (.cqIrqDelayExpiry q) s (signal (1 + n) (setQueue n { u with unsig := 0, sigBy := none } s)))

open Sys2Proof Sys2Proof.Machine Sys2Proof.Obl in
/-- R105, R137, R139, R156, R160, R166: a host link reset. From S11 on, and in minimal mode and SAFE, RUN is 0, the epoch has risen, and each
PCIe-owned queue has lost what was not accepted, with its sequence back at CMP + 1; commands that hold a ledger entry stand, and the leases of host
DMA are ended. Before S11 it resets PD_HOST and no epoch rises. It is absorbed into a warm reset that waits, and the leaving of D3hot is one only in
D3hot. -/
def Obligations.HostLinkResetRule : Prop :=
  ∀ (kind : LinkResetKind) (s : State), domOn s 2 = true →
    (kind = .d3hotToD0 → inD3 s = true) →
    (s.boot.resetReq ≠ none → Runs (.hostLinkReset kind) s s) ∧
    (s.boot.resetReq = none → ∃ t, Runs (.hostLinkReset kind) s t ∧ rd t hbRun = 0 ∧ rd t cfgBme = 0 ∧ inD3 t = false ∧ t.host.msi = [] ∧
      rd t hbEpochPcie =
        (if earlyBoot s then rd s hbEpochPcie else if rd s hbEpochPcie = 65535 then 1 else rd s hbEpochPcie + 1) ∧
      t.host.link.up = (s.host.link.up && decide (kind = .flr ∨ kind = .d3hotToD0)) ∧ t.ledger = s.ledger ∧
      (∀ q, q < 4 → mspiOwned s q = false →
        rd t (sqFetch q) = (cmpOf s q + 1).toNat ∧ queue t q = { queueReset with exp := cmpOf s q + 1, tail := cmpOf s q + 1 } ∧
        rd t (qErr q) = 0 ∧ rd t (cqEn q) = 0) ∧
      (∀ q, q < 4 → mspiOwned s q = true → queue t q = queue s q) ∧
      (∀ c ∈ t.host.cmds, mspiOwned s c.queue = false → c.queue < 4 → c.lref.isSome = true ∧ c.suspended = true) ∧
      (∀ c ∈ s.host.cmds, c.lref.isSome = true → ∃ d ∈ t.host.cmds, d.queue = c.queue ∧ d.seq = c.seq ∧ d.instr = c.instr ∧ d.fin = c.fin) ∧
      (earlyBoot s = false → ∀ n, n < 64 → ((lease t n).state = 0 ∨ (lease t n).owner ≠ 1) ∧ ((lease s n).owner ≠ 1 → lease t n = lease s n)) ∧
      (earlyBoot s = true → t.leases = s.leases)) ∧
    (inD3 s = false → Runs (.hostLinkReset .d3hotToD0) s s) ∧
    (5 ≤ s.boot.step ∨ minimal s = true → s.boot.cfg.hostif ≠ 1 →
      Runs .pcieLinkUp s { s with host := { s.host with link := { s.host.link with up := true } } })

open Sys2Proof Sys2Proof.Machine Sys2Proof.Obl in
/-- R141, R157, R158, R478: the end of a heartbeat period, counted on CLK_USEC, and DEVBEAT. An unchanged heartbeat is a miss, and MISS of them
make the host absent. -/
def Obligations.HeartbeatRule : Prop :=
  ∀ (s : State),
    (s.host.hbPeriodEnd ≤ now s →
      (rd s hbHeartbeat ≠ s.host.hbPrev.toNat →
        Runs .heartbeatPeriodEnd s { s with host := { s.host with
          hbPrev := BitVec.ofNat 32 (rd s hbHeartbeat), hbPeriodEnd := now s + rd s hbPeriod * 1000, hbMisses := 0 } }) ∧
      (rd s hbHeartbeat = s.host.hbPrev.toNat → s.host.hbMisses + 1 < rd s hbMiss →
        ∃ t, Runs .heartbeatPeriodEnd s t ∧ t.host.hbMisses = s.host.hbMisses + 1 ∧ rd t irqHbmiss = 1 ∧ t.host.absent = s.host.absent ∧
          t.host.hbPeriodEnd = now s + rd s hbPeriod * 1000) ∧
      (rd s hbHeartbeat = s.host.hbPrev.toNat → rd s hbMiss ≤ s.host.hbMisses + 1 →
        ∃ t, Runs .heartbeatPeriodEnd s t ∧ t.host.hbMisses = s.host.hbMisses + 1 ∧ t.host.absent = true)) ∧
    (s.onyx.phase = .running → s.host.devbeatAt ≤ now s →
      ∃ t, Runs .devbeatIncrement s t ∧ rd t hbDevbeat = (rd s hbDevbeat + 1) % 4294967296 ∧ t.host.devbeatAt = now s + 100000)

open Sys2Proof Sys2Proof.Machine Sys2Proof.Obl in
/-- R117, R141, R144, R163 to R165: MSPI transactions. A wrong CRC is counted and answered 1. Before S4 DONE the answer is STATUS 5; later a register
read answers the register (one that is not aligned the bytes of the dwords it touches), a write acts as it does over PCI Express, SUBMIT puts an
entry into a queue that MSPI owns, FETCH_CQ answers the entry at the cursor, RESYNC resets the MSPI queues and answers the new epoch, and a request
that cannot be served is counted and answered. -/
def Obligations.MspiCompletes : Prop :=
  ∀ (s : State), mspiOn s = true →
    let seen : State := { s with boot := { s.boot with mspiSeen := true } }
    let turned (st : Nat) : State := bump mspiStat (mspiAnswer st [] seen)
    Runs (.mspiBadRequest false) s (bump mspiStat (mspiAnswer 1 [] s)) ∧
    (s.boot.step ≤ 4 → minimal s = false → ∀ off v q e p,
      Runs (.mspiRegRead off) s (mspiAnswer 5 [] s) ∧ Runs (.mspiRegWrite off v) s (mspiAnswer 5 [] s) ∧
      Runs (.submit q e p) s (mspiAnswer 5 [] s) ∧ Runs (.fetchCq q) s (mspiAnswer 5 [] s) ∧ Runs .resync s (mspiAnswer 5 [] s) ∧
      Runs (.mspiBadRequest true) s (mspiAnswer 5 [] s)) ∧
    (4 < s.boot.step ∨ minimal s = true →
      Runs (.mspiBadRequest true) s (turned 2) ∧
      (∀ off, off.toNat % 4 = 0 →
        Runs (.mspiRegRead off) s (regClear (rk 10 off.toNat) (mspiAnswer 0 (le 4 (regView seen (rk 10 off.toNat)).toNat) seen))) ∧
      (∀ off, off.toNat % 4 ≠ 0 → ∃ t, Runs (.mspiRegRead off) s t ∧ t.host.mspiResp = some (0, barBytes seen off.toNat 4)) ∧
      (∀ off v, off.toNat % 4 = 0 → Runs (.mspiRegWrite off v) s (mspiAnswer 0 [] (hbWrite true off.toNat v seen))) ∧
      (∀ off v, off.toNat % 4 ≠ 0 → Runs (.mspiRegWrite off v) s (mspiAnswer 0 [] (bump badAcc seen))) ∧
      (∀ (q : BitVec 8) e p, submitLen e p = false → Runs (.submit q e p) s (turned 2)) ∧
      (∀ (q : BitVec 8) e p, submitLen e p = true → 4 ≤ q.toNat ∨ mspiOwned s q.toNat = false → Runs (.submit q e p) s (turned 3)) ∧
      (∀ (q : BitVec 8) e p, submitLen e p = true → q.toNat < 4 → mspiOwned s q.toNat = true →
        let u := queue s q.toNat
        let seq : BitVec 16 := BitVec.ofNat 16 (rd s (sqFetch q.toNat)) + BitVec.ofNat 16 u.ring.length
        (inWindow q.toNat seq s = false → Runs (.submit q e p) s (mspiAnswer 4 [] seen)) ∧
        (inWindow q.toNat seq s = true → ∃ t, Runs (.submit q e p) s t ∧ t.host.mspiResp = some (0, []) ∧
          (queue t q.toNat).tail = seq + 1 ∧ t.host.cmds = s.host.cmds ∧
          (served s = false → (queue t q.toNat).ring = u.ring ++ [{ slotSeq := seq, entry := e, params := p }] ∧
            (queue t q.toNat).fetched = u.fetched ∧ rd t (sqFetch q.toNat) = rd s (sqFetch q.toNat)) ∧
          (served s = true → (queue t q.toNat).ring = [] ∧ rd t (sqFetch q.toNat) = (seq + 1).toNat ∧
            (queue t q.toNat).fetched.map (fun f => (f.slotSeq, f.entry, f.params)) =
              u.fetched.map (fun f => (f.slotSeq, f.entry, f.params)) ++ u.ring.map (fun f => (f.slotSeq, f.entry, f.params)) ++ [(seq, e, p)]))) ∧
      (∀ (q : BitVec 8), 4 ≤ q.toNat ∨ mspiOwned s q.toNat = false → Runs (.fetchCq q) s (turned 3)) ∧
      (∀ (q : BitVec 8), q.toNat < 4 → mspiOwned s q.toNat = true →
        ((queue s q.toNat).written.find? (fun x => x.1 == (queue s q.toNat).cursor) = none → Runs (.fetchCq q) s (mspiAnswer 0 [] seen)) ∧
        (∀ i c, (queue s q.toNat).written.find? (fun x => x.1 == (queue s q.toNat).cursor) = some (i, c) →
          ∃ t, Runs (.fetchCq q) s t ∧ (queue t q.toNat).cursor = ((queue s q.toNat).cursor + 1) % ringSize s q.toNat ∧
            (queue t q.toNat).written = (queue s q.toNat).written ∧
            t.host.mspiResp = some (0, cplBytes c (if rd s (cqTail q.toNat) ≤ i then 1 - rd s (cqPhase q.toNat) else rd s (cqPhase q.toNat)) ++
              (c.payload.drop 16).take c.room))) ∧
      (∃ t, Runs .resync s t ∧ rd t hbEpochMspi = (if rd s hbEpochMspi = 65535 then 1 else rd s hbEpochMspi + 1) ∧
        t.host.mspiResp = some (0, le 2 (rd t hbEpochMspi)) ∧
        ∀ q, q < 4 → mspiOwned s q = true →
          rd t (sqFetch q) = (cmpOf s q + 1).toNat ∧ queue t q = { queueReset with exp := cmpOf s q + 1, tail := cmpOf s q + 1 }))

open Sys2Proof Sys2Proof.Machine Sys2Proof.Obl in
/-- R142, R143, R145, R146, R161: COMMAND_ACCEPT takes the first fetched entry of queue 0 and judges it: a CHECK that is wrong, a sequence or version
that is not expected, an unknown opcode are refused in this order; an entry whose bytes are the words of a command of the table goes the way of
that command. -/
def Obligations.CommandAcceptJudges : Prop :=
  ∀ (f : Fetched) (rest : List Fetched) (s : State), served s = true → (queue s 0).fetched = f :: rest →
    cmdAt s 0 (queue s 0).exp = none →
    let op := leAt f.entry 2 2
    let h := entryHdr 0 f (queue s 0).exp
    let no (r : Rej) : Prop := Runs .commandAccept s (refuseEntry h op r s)
    (entryCheck f ≠ h.check → no (rej stBadCheck)) ∧
    (entryCheck f = h.check → (par2 f.entry 0 ≠ (queue s 0).exp ∨ f.entry.getD 5 0 ≠ 1) → no (rej stBadSequence)) ∧
    (entryCheck f = h.check → par2 f.entry 0 = (queue s 0).exp → f.entry.getD 5 0 = 1 → fixedSizes op = none → no (rej stBadOpcode)) ∧
    (∀ rd sp, entryCheck f = h.check → par2 f.entry 0 = (queue s 0).exp → f.entry.getD 5 0 = 1 →
      let plen := leAt f.entry 6 2
      let p := padTo plen (if h.indirect then f.params else f.entry.drop 24)
      (∃ l, fixedSizes op = some l ∧ l.sum ≤ plen) → plen ≤ 4080 → (h.indirect = true ∨ plen ≤ 40) → entryReserved f plen = true →
      readCmd op h p = some rd → rd.bad = none → specOf rd.instr = some sp → parCheck op p rd sp.par = none →
      Runs .commandAccept s (scpAccept h rd.instr { sp with par := none } s))

/-! ### Accepted work and leases (Chapter 8) -/

open Sys2Proof Sys2Proof.Machine Sys2Proof.Obl in
/-- R568 and R216: what RELEASE and REVOKE do to the lease they end, and that GRANT is what sets the other fields anew. -/
def Obligations.LeaseEndKeepsTenure : Prop :=
  ∀ (n : Fin 64) (owner rclass : BitVec 8) (rindex : BitVec 16) (dur : BitVec 20) (epoch : BitVec 24) (s : State),
    let l := lease s n.val
    let ended (t : State) : Prop :=
      (lease t n.val).epoch = (if l.epoch = 0xFFFFFF then 1 else l.epoch + 1) ∧ (lease t n.val).state = 0 ∧ (lease t n.val).owner = 0xFF ∧
      (lease t n.val).rclass = l.rclass ∧ (lease t n.val).rindex = l.rindex ∧ (lease t n.val).duration = l.duration ∧
      (lease t n.val).deadline = l.deadline ∧ (∀ m, m ≠ n.val → lease t m = lease s m)
    (l.state = 1 ∨ l.state = 2 → l.owner = owner → l.epoch = epoch → ∃ t, Runs (.leaseRelease n owner epoch) s t ∧ ended t) ∧
    (∀ sealer, l.state ≠ 0 → ∃ t, Runs (.leaseRevoke n sealer true) s t ∧ ended t) ∧
    (l.state = 2 → onyxUp s = true → ∃ t, Runs (.leaseRevoke n false false) s t ∧ ended t) ∧
    (l.state = 2 → l.owner = 0 → ∃ t, Runs (.leaseRevoke n true false) s t ∧ ended t) ∧
    (l.state = 0 → onyxUp s = true → unitLeaves s owner.toNat = false → 100 ≤ dur.toNat → dur.toNat ≤ 1000000 → (n.val = 0 ↔ rclass = 1) → (rclass = 1 → owner = 0) →
      ∃ t, Runs (.leaseGrant n owner rclass rindex dur) s t ∧
        lease t n.val = { l with owner := owner, rclass := rclass, rindex := rindex, duration := dur, state := 1,
                                 deadline := BitVec.ofNat 44 (now s + dur.toNat) } ∧
        (∀ m, m ≠ n.val → lease t m = lease s m))

open Sys2Proof Sys2Proof.Machine Sys2Proof.Obl in
/-- R216, R217: RENEW by the holder with the current epoch; an operation of a holder whose precondition fails has no effect but its count in STALE;
GRANT of a lease that is not FREE, and REVOKE of one that is HELD, have none; and a HELD lease whose DEADLINE comes is EXPIRED, of
which an event tells Onyx. -/
def Sys2Proof.Obl.LeaseRenewAndExpiry : Prop :=
  ∀ (n : Fin 64) (owner rclass : BitVec 8) (rindex : BitVec 16) (dur : BitVec 20) (epoch : BitVec 24) (s : State),
    let l := lease s n.val
    (l.state = 1 ∨ l.state = 2 → l.owner = owner → l.epoch = epoch →
      Runs (.leaseRenew n owner epoch) s (setLease n.val { l with state := 1, deadline := BitVec.ofNat 44 (now s + l.duration.toNat) } s)) ∧
    (¬((l.state = 1 ∨ l.state = 2) ∧ l.owner = owner ∧ l.epoch = epoch) →
      let stale := setLease n.val { l with stale := BitVec.ofNat 32 (min (l.stale.toNat + 1) 4294967295) } s
      Runs (.leaseRenew n owner epoch) s stale ∧ Runs (.leaseRelease n owner epoch) s stale) ∧
    (l.state ≠ 0 → Runs (.leaseGrant n owner rclass rindex dur) s s) ∧
    (l.state = 1 → ∀ b, Runs (.leaseRevoke n b false) s s) ∧
    (l.state = 1 → l.deadline = BitVec.ofNat 44 (now s) → Runs (.leaseExpiry n) s (eventNow 0x03 2 n.val 2 (setLease n.val { l with state := 2 } s))) ∧
    (l.state = 1 → (l.deadline - BitVec.ofNat 44 (now s)).toNat < 2 ^ 43 → l.deadline ≠ BitVec.ofNat 44 (now s) → Runs (.leaseExpiry n) s s)

open Sys2Proof Sys2Proof.Machine Sys2Proof.Obl in
/-- R204 to R208, R213, R218: the ledger port. A write with another tag than lease 0's has no effect but its count and its event; OPEN writes W0 and W1
and records the tail; COMMIT makes the entry LIVE, in PHASE ACCEPTED, with its live-map bit, and where it was opened for a fetched command that
command is accepted; a later write changes W0 alone; release makes it FREE and
clears the bit. -/
def Sys2Proof.Obl.LedgerPortRule : Prop :=
  ∀ (i : BitVec 14) (kind phase fst fl : BitVec 8) (noack emerg : Bool) (tag : BitVec 24) (s : State),
    let n := i.toNat
    let e := entry s n
    let others (t : State) (k : Nat) : Prop := (∀ m, m ≠ k → entry t m = entry s m) ∧ t.regs = s.regs ∧ t.host = s.host
    (gateOk s 0 0x00 tag = false →
      ∀ r, r ∈ [Instr.ledgerOpen i kind noack emerg tag, .ledgerCommit tag, .ledgerW0Update i phase fst fl tag, .ledgerRelease i tag] →
        Runs r s (leaseDenied 0 s)) ∧
    (gateOk s 0 0x00 tag = true →
      (s.ledger.tail = none → e.state = 0 → 1 ≤ kind.toNat → kind.toNat ≤ 4 → admitted (if emerg ∨ kind = 4 then 1 else 0) 1 s = true →
        ∃ t, Runs (.ledgerOpen i kind noack emerg tag) s t ∧ others t n ∧
          entry t n = { e with state := 0x1E, phase := 0, fstatus := 0, tepoch := (lease s 0).epoch, kind := kind, lsn := s.ledger.nextLsn,
                               flags := BitVec.ofNat 8 (8 * b2n noack + 32 * b2n emerg) } ∧
          (∃ c, t.ledger.tail = some { index := n, lsn := s.ledger.nextLsn, mask := 0, cmd := c }) ∧ t.ledger.nextLsn = s.ledger.nextLsn + 1 ∧
          t.ledger.live = s.ledger.live) ∧
      (∀ x c, s.ledger.tail = some x → x.mask = 15 → x.cmd = some c →
        Runs (.ledgerCommit tag) s (let u := enlist c (ledgerCommit s)
          if c.noack then u else pushCpl c.queue (acceptedCpl c stAccepted 0) u)) ∧
      (∀ x, s.ledger.tail = some x → x.mask = 15 → x.cmd = none →
        ∃ t, Runs (.ledgerCommit tag) s t ∧ others t x.index ∧ entry t x.index = { entry s x.index with state := 0xE1, phase := 0 } ∧
          t.ledger.tail = none ∧ x.index ∈ t.ledger.live ∧ (∀ m, m ≠ x.index → (m ∈ t.ledger.live ↔ m ∈ s.ledger.live))) ∧
      (e.state = 0xE1 → e.phase.toNat ≤ phase.toNat → phase.toNat ≤ 5 → (phase ≠ 2 ∨ e.idem = 2) →
        ∃ t, Runs (.ledgerW0Update i phase fst fl tag) s t ∧ others t n ∧ t.ledger.live = s.ledger.live ∧
          entry t n = { e with phase := phase, fstatus := if 3 ≤ phase.toNat then fst else e.fstatus, flags := e.flags ||| (fl &&& 0x3F) }) ∧
      (e.state = 0xE1 ∨ e.state = 0x78 →
        ∃ t, Runs (.ledgerRelease i tag) s t ∧ others t n ∧ (entry t n).state = 0 ∧ (entry t n).lsn = e.lsn ∧ n ∉ t.ledger.live ∧
          (∀ m, m ≠ n → (m ∈ t.ledger.live ↔ m ∈ s.ledger.live))))

open Sys2Proof Sys2Proof.Machine Sys2Proof.Obl in
/-- R220, R221: the Sealer. It revokes lease 0; an open entry that is complete and reads whole becomes LIVE with SEALED, any other becomes VOID;
either is journalled, and the tail is closed. -/
def Sys2Proof.Obl.SealerRule : Prop :=
  ∀ (ue : Bool) (s : State), s.onyx.phase = .rom ∨ ((lease s 0).owner = 0 ∧ (lease s 0).state = 2) →
    (s.ledger.tail = none → (lease s 0).owner = 0 → Runs (.sealerTrigger ue) s (leaseRevoke 0 s)) ∧
    (∀ x, s.ledger.tail = some x → (lease s 0).owner = 0 →
      let e := entry s x.index
      let whole := ue = false ∧ entryUe s x.index = false ∧ e.state = 0x1E ∧ e.lsn = x.lsn ∧ x.mask = 15 ∧ crc32c (entryBody e) = e.bchk
      ∃ t, Runs (.sealerTrigger ue) s t ∧ t.ledger.tail = none ∧ ((lease s 0).state ≠ 0 → (lease t 0).state = 0) ∧
        (∀ m, m ≠ x.index → entry t m = entry s m) ∧
        (whole → entry t x.index = { e with state := 0xE1, phase := 0, flags := e.flags &&& 0x28 ||| 1 } ∧ x.index ∈ t.ledger.live ∧
          (∃ r, tblFind (s.journal.wridx) t.journal.recs = some r ∧ r.code = 0x100 ∧ r.d0 = BitVec.ofNat 32 x.index)) ∧
        (¬whole → entry t x.index = { e with state := 0x78 } ∧ t.ledger.live = s.ledger.live ∧
          (∃ r, tblFind (s.journal.wridx) t.journal.recs = some r ∧ r.code = 0x101 ∧ r.d0 = BitVec.ofNat 32 x.index)))

/-! ### Resets and the start (Chapter 5) -/

open Sys2Proof Sys2Proof.Machine Sys2Proof.Obl in
/-- R104, R108, R136: POR and a cold reset, no eFuse operation being under way: everything takes its reset value but the eFuse array and what the
flash holds, and host memory; a cold reset also keeps the TAP, CK_AO, the reference and the rows pending in Agate's tracker (log 123). -/
def Sys2Proof.Obl.PorAndColdResetClear : Prop :=
  ∀ (s : State), s.boot.fuseOp = none →
    let cleared : State := { State.reset with
      pending := s.pending, free := s.free, hostMem := s.hostMem,
      boot := { bootReset with fuses := s.boot.fuses, flash := s.boot.flash, verified := s.boot.verified, dir := s.boot.dir },
      onyx := { onyxReset with temp := s.onyx.temp } }
    Runs .por s cleared ∧
    Runs .coldReset s { cleared with
      regs := [], tap := s.tap, agt := { State.reset.agt with rows := s.agt.rows.filter (·.pending) },
      time := { State.reset.time with aoRun := s.time.aoRun, refRun := s.time.refRun },
      boot := { cleared.boot with hdr := { hdrReset with lastReset := 1 }, tapHold := s.tap.pads } }

open Sys2Proof Sys2Proof.Machine Sys2Proof.Obl in
/-- R104 to R107, R123, R135, R136: a warm reset by a source of Table 5.1 leaves S1 before it, warm, with its cause in the boot ledger's header, CORE_EN
high and PD_CTRL switching on, and the claims gone; without such a source there is none; eFuse programming holds it back; one that another waits before is absorbed; a domain reset switches its domain off and on,
and one of PD_CTRL or PD_MEM is a warm reset. -/
def Sys2Proof.Obl.WarmAndDomainReset : Prop :=
  ∀ (cause : BitVec 8) (ddr : Bool) (s : State),
    let c := cause.toNat
    let held : Prop := s.pwr.safe = true ∨ minimal s = true
    let source : Prop := (c = 1 ∧ ¬held ∧ booted s = true ∧ onyxUp s = true) ∨ (c = 2 ∧ ¬held ∧ s.boot.started = true) ∨ (c = 3 ∧ ¬held) ∨
      (c = 4 ∧ (minimal s = true ∨ (s.pwr.safe = true ∧ s.pwr.safeStuck = false ∧ s.onyx.phase ≠ .off ∧ (s.pwr.shutdown = true → s.onyx.temp < 115))))
    let told := if c = 4 then devResetPrep s else s
    domOn s 1 = true → 3 ≤ s.boot.step →
      (source →
        (s.boot.resetReq = none → fuseBusy s = false → romReplies s = false →
          ∃ t, Runs (.warmReset cause ddr) s t ∧ t.boot.step = 1 ∧ t.boot.warm = true ∧ t.boot.hdr.lastReset = 2 ∧ t.boot.hdr.warmCause = c ∧
            t.pwr.safe = false ∧ t.pwr.hib = .awake ∧ rd t coreEn = 1 ∧ rd t (domStat 1) = 1 ∧ t.claims = []) ∧
        (s.boot.resetReq = none → fuseBusy s = true →
          Runs (.warmReset cause ddr) s { told with boot := { told.boot with resetReq := some (c, some ddr) } }) ∧
        (s.boot.resetReq ≠ none → Runs (.warmReset cause ddr) s told)) ∧
      (¬source → Runs (.warmReset cause ddr) s s) ∧
      (∀ dom : Fin 12, 4 ≤ dom.val → s.boot.resetReq = none → Runs (.domainReset dom) s (domReq dom.val true (domReq dom.val false s))) ∧
      (∀ dom : Fin 12, dom.val = 1 ∨ dom.val = 3 → s.pwr.safe = false → s.boot.resetReq = none →
        Runs (.domainReset dom) s (resetDue { s with boot := { s.boot with resetReq := some (3, none) } }))

open Sys2Proof Sys2Proof.Machine Sys2Proof.Obl in
/-- R109 to R117, R121, R122, R460: each step of the start that passes is DONE, and the next begins with its watchdog armed; S4 in BLANK or in minimal
mode stops there; S12 ends the start with Onyx running. -/
def Sys2Proof.Obl.BootStepsPass : Prop :=
  ∀ (s : State),
    let begun (n : Nat) (t : State) : Prop := t.boot.step = n + 1 ∧ t.boot.started = true ∧ t.boot.attempt = 1 ∧ rd t hbBootstep = n
    (s.boot.step = 0 → s.boot.aoGood = false → s.boot.tapHold = false →
      ∃ t, Runs .aoPowerGood s t ∧ t.boot.aoGood = true ∧ rd t coreEn = 1 ∧ t.pwr.rampFrom = s.time.ao) ∧
    (s.boot.step = 0 → s.boot.aoGood = true → rd s (domStat 1) = 0 →
      ∃ t, Runs .coreRampEnd s t ∧ rd t (domStat 1) = 1 ∧ (∃ sw, t.pwr.cur = some sw ∧ sw.dom = 1 ∧ sw.on = true) ∧ t.boot = s.boot) ∧
    (atStep 1 s = true → lcValid (lcMajority s.boot.fuses.lc3) = true →
      ∃ t, Runs .fuseAndLifeCycleRead s t ∧ begun 1 t ∧ t.boot.lc = lcMajority s.boot.fuses.lc3 ∧ rd t agtFuseused = s.boot.fuses.repairs.length % 8192) ∧
    (atStep 2 s = true → s.agt.rows = [] → ∃ t, Runs (.agateTestOfMemories .pass ⟨[], []⟩ [] false) s t ∧ begun 2 t) ∧
    (atStep 3 s = true → ∃ t, Runs (.softRepairLoad .pass) s t ∧ begun 3 t ∧ t.agt.soft = s.agt.soft ++ s.agt.found ∧ t.pwr.faultN = false) ∧
    (atStep 4 s = true → domOn s 2 = true →
      (s.boot.lc ≠ 0 → s.boot.hdr.mode ≠ 1 → ∃ t, Runs (.onyxRomStart .pass true) s t ∧ begun 4 t ∧ t.onyx.phase = .rom ∧ rd t (domStat 2) = 2) ∧
      (s.boot.lc = 0 ∨ s.boot.hdr.mode = 1 →
        ∃ t, Runs (.onyxRomStart .pass true) s t ∧ t.boot.step = 4 ∧ t.boot.started = false ∧ t.pwr.faultN = true)) ∧
    (∀ readOk, atStep 5 s = true →
      let slot := (attemptSlot s s.boot.attempt).1
      let img : ImageRead := { slotImage s slot with readOk := readOk }
      (imageCause s img = 0 →
        ∃ t, Runs (.imageReadAndSignatureCheck readOk) s t ∧ begun 5 t ∧ t.onyx.phase = .replay ∧ t.boot.release = img.release ∧
          t.boot.hdr.usedslot = slot ∧ t.onyx.imem ++ t.onyx.dmem = slotPart s slot 512 img.coreLen.toNat) ∧
      (imageCause s img ≠ 0 → s.boot.attempt < attempts s →
        ∃ t, Runs (.imageReadAndSignatureCheck readOk) s t ∧ t.boot.step = 5 ∧ t.boot.attempt = s.boot.attempt + 1)) ∧
    (atStep 6 s = true → bootPowered s 6 = true → pllReady s 6 = true → extMatches s = true →
      ∃ t, Runs (.ddrTraining .pass false true) s t ∧ begun 6 t ∧ t.boot.extOk = true ∧ t.boot.ext = extPart s) ∧
    (atStep 7 s = true → bootPowered s 7 = true → (∃ g, g < 4 ∧ clusterOn s g = true) → s.boot.cfg.retired = 0 → s.agt.rows = [] →
      ∃ t, Runs (.garnetClusterTest ⟨[], []⟩ ⟨[], []⟩) s t ∧ begun 7 t) ∧
    (∀ l, atStep 8 s = true → bootPowered s 8 = true → ∃ t, Runs (.serdesBringUp l) s t ∧ begun 8 t) ∧
    (∀ l r x, atStep 9 s = true → bootPowered s 9 = true → s.boot.cfg.plcEn ≠ 0 → ∃ t, Runs (.plcFrontEndCalibration l r x) s t ∧ begun 9 t) ∧
    (∀ ok bad k, atStep 10 s = true → onyxUp s = true → bootPowered s 10 = true → s.boot.replaying = some [] →
      ∃ t, Runs (.ledgerReplay ⟨ok, k, bad⟩) s t ∧ begun 10 t ∧ t.boot.hdr.replayIdx = 0xFFFFFFFF) ∧
    (∀ ok bad i l, atStep 10 s = true → onyxUp s = true → bootPowered s 10 = true → s.boot.replaying = some (i :: l) →
      ∃ t, Runs (.ledgerReplay ⟨ok, 0, bad⟩) s t ∧ t.boot.step = 10 ∧ t.boot.hdr.replayIdx = BitVec.ofNat 32 i ∧ t.boot.replaying = some (i :: l)) ∧
    (atStep 11 s = true → hostSeen s = true →
      ∃ t, Runs .hostLink s t ∧ begun 11 t ∧ rd t hbEpochPcie = (if rd s hbEpochPcie = 65535 then 1 else rd s hbEpochPcie + 1) ∧
        rd t hbEpochMspi = (if rd s hbEpochMspi = 65535 then 1 else rd s hbEpochMspi + 1)) ∧
    (atStep 11 s = true → hostSeen s = false → due s s.boot.wdog = true →
      ∃ t, Runs .hostLink s t ∧ t.boot.step = 12 ∧ t.host.absent = true) ∧
    (atStep 12 s = true → onyxUp s = true → s.host.cmds = [] →
      ∃ t, Runs (.bootReady .pass) s t ∧ t.boot.step = 13 ∧ t.onyx.phase = .running ∧ t.boot.hdr.incomplete = 0 ∧ t.boot.hdr.lastDone = s.boot.hdr.bootno)

open Sys2Proof Sys2Proof.Machine Sys2Proof.Obl in
/-- R111, R112, R117: the boot watchdog. At S11 no host is an outcome and the start goes on; at S8 and S9 the ports are left out; any other step of one
attempt is recorded and the device starts again. -/
def Sys2Proof.Obl.BootWatchdogRule : Prop :=
  ∀ (s : State) (d : Nat), s.boot.started = true → s.boot.wdog = some d → d ≤ now s → s.boot.resetReq = none → s.pwr.safe = false →
    let n := s.boot.step
    (n = 11 → ∃ t, Runs .bootWatchdogExpiry s t ∧ t.boot.step = 12 ∧ t.host.absent = true) ∧
    (n = 8 ∨ n = 9 → ∃ t, Runs .bootWatchdogExpiry s t ∧ t.boot.step = n + 1 ∧ t.boot.started = true) ∧
    (n ∈ [3, 4, 7, 10, 12] → Runs .bootWatchdogExpiry s (bootRetry (bootRec n 6 s.boot.attempt 0 0 s))) ∧
    (n = 1 → Runs .bootWatchdogExpiry s (bootSafe (recS1 6 (warmHeader s))))

/-! ### Power (Chapter 4) -/

open Sys2Proof Sys2Proof.Machine Sys2Proof.Obl in
/-- R85 to R88: the sequencer. A request of an idle controller begins the switch; the comparator's power-good marks the domain ON; a power-good that
is missing opens the switches again; a switch that is over ends, and the next request is taken. -/
def Sys2Proof.Obl.PowerSequencerRule : Prop :=
  ∀ (dom : BitVec 4) (s : State),
    let d := dom.toNat
    (4 ≤ d → d ≤ 11 → domOn s 1 = true → s.pwr.cur = none → s.pwr.queue = [] →
      (rd s (domStat d) ≠ 2 → ∃ t, Runs (.domainSwitchOn dom) s t ∧ rd t (domStat d) = 1 ∧ t.pwr.queue = [] ∧
        ∃ sw, t.pwr.cur = some sw ∧ sw.dom = d ∧ sw.on = true ∧ sw.pgSeen = false) ∧
      (rd s (domStat d) = 2 → ∃ t, Runs (.domainSwitchOff dom) s t ∧ rd t (domStat d) = 1 ∧
        ∃ sw, t.pwr.cur = some sw ∧ sw.dom = d ∧ sw.on = false)) ∧
    (∀ c, s.pwr.cur = some c →
      (c.on = true → c.failed = false → c.pgSeen = false → 2 ≤ c.dom → c.dom < 12 →
        ∃ t, Runs .domainPowerGood s t ∧ rd t (domStat c.dom) = 2 ∧ t.pwr.cur = some { c with pgSeen := true }) ∧
      (c.on = true → c.failed = false → c.pgSeen = false → c.pgBy ≤ now s →
        Runs .domainPowerGoodTimeout s { s with pwr := { s.pwr with cur := some { c with failed := true, pgBy := now s + 10 } } }) ∧
      (let free : State := { s with pwr := { s.pwr with cur := none } }
       (c.on = true → c.failed = false → c.pgSeen = true →
         Runs .domainSwitchComplete s (seqUpd (nextSwitch 64 (finishWait (.domain c.dom) stOk [] free)))) ∧
       (c.on = false → c.failed = false → c.pgBy ≤ now s →
         Runs .domainSwitchComplete s (seqUpd (nextSwitch 64 (finishWait (.domain c.dom) stOk [] (wr (domStat c.dom) 0 free))))) ∧
       (c.failed = true → c.pgBy ≤ now s →
         Runs .domainSwitchComplete s (seqUpd (nextSwitch 64 (finishWait (.domain c.dom) stFaulted [] (pgFault c.dom free)))))))

open Sys2Proof Sys2Proof.Machine Sys2Proof.Obl in
/-- R94, R95, R97 to R100: hibernate and the scrubber. GO arms, with the enables and the wake time of that moment; an event during entry is latched; entry ends asleep with CORE_EN low, or on the way out where a wake event came; a wake
event asleep drives CORE_EN high; the scrubber reads one word after another and counts a pass at the end. -/
def Sys2Proof.Obl.HibernateAndScrub : Prop :=
  ∀ (v : BitVec 32) (s : State),
    (domOn s 1 = true → v.getLsbD 0 = true → s.pwr.hib = .awake → booted s = true →
      Runs (.hibernateGo v) s (let t := wr hibWakeNEn (v.toNat / 2) (wr hibTimerEn (v.toNat / 4) s)
        refresh { t with pwr := { t.pwr with hib := .armed, wakeLatch := false, armN := v.getLsbD 1, armT := v.getLsbD 2,
                                             armAt := rd s wakeAtLo + rd s wakeAtHi * 2 ^ 32 } })) ∧
    (∀ ok, s.pwr.hib = .armed → onyxUp s = true →
      ∃ t, Runs (.hibernateEntry ok) s t ∧ t.onyx.phase = .off ∧ rd t (domStat 1) = 0 ∧ (∀ p, p < 10 → rd t (pllEn p) = 0) ∧
        ((t.pwr.hib = .asleep ∧ rd t coreEn = 0) ∨ (t.pwr.hib = .leaving ∧ rd t coreEn = 1))) ∧
    (s.pwr.armN = true → s.time.aoRun = true → s.pwr.hib = .asleep →
      ∃ t, Runs .wakeNLow s t ∧ t.pwr.hib = .leaving ∧ rd t coreEn = 1 ∧ rd t wakeStatN = 1 ∧ t.pwr.rampFrom = s.time.ao) ∧
    (s.pwr.armN = true → s.time.aoRun = true → s.pwr.hib = .armed →
      ∃ t, Runs .wakeNLow s t ∧ t.pwr.hib = .armed ∧ t.pwr.wakeLatch = true ∧ rd t wakeStatN = 1 ∧ rd t wakeDuring = 1) ∧
    (s.pwr.armT = true → s.pwr.armAt ≤ s.time.ao.toNat → s.pwr.hib = .asleep →
      ∃ t, Runs .wakeTimerMatch s t ∧ t.pwr.hib = .leaving ∧ rd t coreEn = 1 ∧ rd t wakeStatTimer = 1) ∧
    (flag s scrubEn = true →
      let w := s.pwr.scrubPos
      (∀ ce, w ≠ 131071 → w ∉ s.pwr.ueWords → w < 131072 →
        let t := if ce then bump scrubCe s else s
        Runs (.scrubAdvance ce false) s { t with pwr := { t.pwr with scrubPos := w + 1 } }) ∧
      (∀ ce, w = 131071 → ∃ t, Runs (.scrubAdvance ce false) s t ∧ t.pwr.scrubPos = 0) ∧
      (∀ ce, w < 131071 → Runs (.scrubAdvance ce true) s (let t := recordUe w s; { t with pwr := { t.pwr with scrubPos := w + 1 } })))

open Sys2Proof Sys2Proof.Machine Sys2Proof.Obl in
/-- R130, R136, R471: an eFuse operation that ends reads back: its field has its new value where the read-back is right, and the command that waits ends,
FAULTED where it is not; a repair entry that fails is written once more. -/
def Sys2Proof.Obl.FuseProgramDoneRule : Prop :=
  ∀ (s : State), s.boot.resetReq = none →
    let ends (st : Nat) (fs : Fuses) : State := resetDue (finishWait .fuse st [] (fuseNext { s with boot := { s.boot with fuses := fs } }))
    let f := s.boot.fuses
    (∀ v, s.boot.fuseOp = some (.secmin v) → Runs (.efuseProgramDone true) s (ends stOk { f with secmin := v })) ∧
    (∀ k, s.boot.fuseOp = some (.revoke k) → Runs (.efuseProgramDone true) s (ends stOk { f with revoked := f.revoked ||| (1#4 <<< k) })) ∧
    (∀ v, s.boot.fuseOp = some (.customer 1 v) → Runs (.efuseProgramDone true) s (ends stOk { f with kernelHash := some v })) ∧
    (∀ v, s.boot.fuseOp = some (.secmin v) → Runs (.efuseProgramDone false) s (ends stFaulted f)) ∧
    (∀ w ws n, s.boot.fuseOp = some (.repair (w :: ws) n false) →
      Runs (.efuseProgramDone false) s (resetDue (let t := fuseWrite w false s
        if 4096 ≤ t.boot.fuses.repairs.length then finishWait .fuse stFaulted (le 2 n) (fuseNext t)
        else { t with boot := { t.boot with fuseOp := some (.repair (w :: ws) n true) } })))

/-! ### Time (Chapter 3) -/

open Sys2Proof Sys2Proof.Machine Sys2Proof.Obl in
/-- R55, R67, R68, R72 and Table 3.9: what writes to the RTB registers, a finished slew and the anchor do. -/
def Obligations.TimeBaseWritesComplete : Prop :=
  ∀ (v : BitVec 32) (s : State),
    let t := s.time
    let d := sx 64 (rd s rtbStepHi * 4294967296 + rd s rtbStepLo)
    (∃ u, Runs .rtbCmdStep s u ∧ u.time.rtb = t.rtb + BitVec.ofInt 96 (d * 4294967296) ∧ rd u rtbStepped = 1 ∧
      (∀ f, f.key ≠ rtbStepped.key → rd u f = rd s f) ∧ u.time.usec = t.usec ∧ u.time.addend = t.addend) ∧
    Runs (.rtbAdjWrite v) s { s with time := { t with slew := v.toInt * 4294967296 } } ∧
    (slewEnds s = true → ∃ u, Runs .slewComplete s u ∧ u.time.slew = 0 ∧ u.time.usec = t.usec + 1 ∧
      u.time.rtb = t.rtb + BitVec.ofInt 96 (1000 * (t.addend.toNat : Int) - t.slew) ∧
      u.time.servo = { t.servo with slewed := t.servo.slewed + t.slew } ∧ u.regs = s.regs) ∧
    (slewEnds s = false → Runs .slewComplete s s) ∧
    (let a := v.toNat % 256 * 4294967296 + (rdW s (rk 9 0x18)).toNat
     ∃ u, Runs (.rtbAddendWrite v) s u ∧ u.time.addend = BitVec.ofNat 40 (max 4290672329 (min 4299262263 a)) ∧
       (4290672329 ≤ a → a ≤ 4299262263 → ∀ f, f.key ≠ rk 9 0x18 → f.key ≠ rk 9 0x1C → rd u f = rd s f) ∧
       (a < 4290672329 ∨ 4299262263 < a → rd u rtbClamped = 1) ∧ u.time.rtb = t.rtb ∧
       (rdW u (rk 9 0x1C)).toNat * 4294967296 + (rdW u (rk 9 0x18)).toNat = u.time.addend.toNat) ∧
    (t.ao.toNat % 32768 = 0 → t.anchorHeld = false → domOn s 1 = true → s.pwr.hib = .awake ∨ s.pwr.hib = .armed →
      Runs .anchorRenewal s { s with time := { t with anchor := some { rtb := rtbNs s, ao := t.ao, addend := t.addend } } }) ∧
    (t.ao.toNat % 32768 = 0 → t.anchorHeld = true ∨ s.pwr.hib = .asleep ∨ s.pwr.hib = .leaving → Runs .anchorRenewal s s) ∧
    Runs .ckAoStart s { s with time := { t with aoRun := true } }

open Sys2Proof Sys2Proof.Machine Sys2Proof.Obl in
/-- R56, R57, R66 to R69, R558: the loss of the reference, or a reference that is stopped when the monitor is armed, leads to SAFE with RTB held; its return advances CLK_USEC by the CK_AO periods gone by; a source
that falls silent leads to HOLDOVER, and HOLDOVER that has lasted to FREE; CK_AUD falls back to PLL_AUD. -/
def Obligations.ClockSupervisionRule : Prop :=
  ∀ (s : State),
    let t := s.time
    (refMonitor s = true → t.refTrip = false →
      ∃ u, Runs .ckRefLoss s u ∧ u.pwr.safe = true ∧ u.pwr.faultN = true ∧ u.time.refRun = false ∧ u.time.anchorHeld = true ∧
        (t.refRun = true → hibHeld s = false → u.time.refLostAo = t.ao) ∧ (t.refRun = false → u.time.refLostAo = t.refLostAo) ∧ u.time.rtb = t.rtb) ∧
    (t.refRun = false → hibHeld s = false → Runs .ckRefReturn s { s with time := { t with
      refRun := true, refTrip := false, usec := t.usec + BitVec.ofNat 64 ((t.ao - t.refLostAo).toNat * 1000000 / 32768) } }) ∧
    (rd s rtbSrc ≠ 0 → rd s rtbState = 1 ∨ rd s rtbState = 2 → t.servo.lastAt + rd s rtbSrcto * 1000 ≤ now s →
      ∃ u, Runs .rtbSourceTimeout s u ∧ rd u rtbState = 3 ∧ rd u rtbSrcLost = 1 ∧ u.time.servo.holdAt = now s ∧ u.time.rtb = t.rtb) ∧
    (rd s rtbState = 3 → t.servo.holdAt + rd s rtbHoldover * 1000000 ≤ now s →
      ∃ u, Runs .rtbHoldoverExpiry s u ∧ rd u rtbState = 4 ∧ u.time = t ∧ u.fab.wait.length = s.fab.wait.length + 1) ∧
    (rd s audSrc = 1 → rd s audAuto = 1 → rd s audActive = 1 →
      ∃ u, Runs .audFallback s u ∧ rd u audActive = 0 ∧ rd u clkAudfb = 1 ∧ u.time = t)

open Sys2Proof Sys2Proof.Machine Sys2Proof.Obl in
/-- R65 to R68: the servo. Where RTB is LOCKED and the offset is small it slews; where RTB is ACQUIRING the sixteenth good offset locks it; where RTB has been
without a source and the offset exceeds STEPTHR it steps. A PPS edge is an update with its offset from a whole second. -/
def Obligations.DisciplineRule : Prop :=
  ∀ (off : Int) (ns : BitVec 64) (rising : Bool) (s : State),
    (rd s rtbSrc = 3 → rd s ppsEdge = b2n (!rising) → exec (.ppsEdge ⟨ns, rising⟩) s = exec (.disciplineUpdate (ppsOffset s ns)) s) ∧
    (rd s rtbSrc ≠ 3 ∨ rd s ppsEdge ≠ b2n (!rising) → Runs (.ppsEdge ⟨ns, rising⟩) s s) ∧
    (rd s rtbSrc ≠ 0 → onyxUp s = true → s.time.refRun = true →
      let v := s.time.servo
      let small := -2147483647 ≤ off ∧ off ≤ 2147483647
      (rd s rtbState = 1 → v.fresh = false → off.natAbs < rd s rtbLockthr → small →
        ∃ t, Runs (.disciplineUpdate off) s t ∧ t.time.slew = off * 4294967296 ∧ t.time.servo.good = v.good + 1 ∧
          t.time.servo.lastOff = some off ∧ t.time.rtb = s.time.rtb ∧ rd t rtbState = (if 16 ≤ v.good + 1 then 2 else 1)) ∧
      (rd s rtbState = 1 → v.fresh = false → rd s rtbLockthr ≤ off.natAbs → small →
        ∃ t, Runs (.disciplineUpdate off) s t ∧ t.time.slew = off * 4294967296 ∧ t.time.servo.good = 0 ∧ rd t rtbState = 1) ∧
      (rd s rtbState = 2 → off.natAbs < 4 * rd s rtbLockthr → small → v.nInt + 1 < 16 →
        ∃ t, Runs (.disciplineUpdate off) s t ∧ t.time.slew = off * 4294967296 ∧ t.time.addend = s.time.addend ∧ rd t rtbState = 2 ∧
          t.time.servo.nInt = v.nInt + 1) ∧
      (rd s rtbState = 0 ∨ rd s rtbState = 3 ∨ rd s rtbState = 4 → rd s rtbStepthr ≠ 0 → rd s rtbStepthr * 1000 < off.natAbs →
        off.natAbs < 549755813888 →
        ∃ t, Runs (.disciplineUpdate off) s t ∧ t.time.rtb = s.time.rtb + BitVec.ofInt 96 (-off * 4294967296) ∧ rd t rtbState = 1 ∧
          rd t rtbStepped = 1 ∧ t.time.slew = s.time.slew))

open Sys2Proof Sys2Proof.Machine Sys2Proof.Obl in
/-- R73 to R76: zero crossings. An edge counts when it has held for FILT samples and has the polarity of EDGE. LOCKED, an edge within 1 % of the prediction is taken and any other is counted as rejected; unlocked, the fourth
interval within 2 % locks; a predicted crossing that did not come is made, and the eighth in a row unlocks; in DC mode it comes every 20 ms, and a cycle that held an RTB step is flagged. -/
def Obligations.ZeroCrossingRule : Prop :=
  ∀ (zc : Fin 4) (stamp : BitVec 64) (rising : Bool) (held : Nat) (s : State), flag s (zcEn zc.val) = true →
    let n := zc.val
    let counts := zcCounts s n rising held = true
    let edge : Instr := .zeroCrossing zc ⟨stamp, rising, held⟩
    let z := zcOf s n
    let pred := z.last.toNat + rd s (zcPeriod n)
    (held < rd s (zcFilt n) ∨ rd s (zcEdge n) ≠ b2n (!rising) ∨ rd s (zcMode n) = 3 → Runs edge s s) ∧
    (rd s (zcMode n) ≠ 3 → counts → rd s (zcState n) = 1 →
      ((stamp.toNat - pred + (pred - stamp.toNat)) * 100 ≤ zcNominal (rd s (zcMode n)) →
        Runs edge s (zcTake n z stamp (stamp - z.last).toNat 1 s)) ∧
      (zcNominal (rd s (zcMode n)) < (stamp.toNat - pred + (pred - stamp.toNat)) * 100 →
        ∃ t, Runs edge s t ∧ (zcOf t n).last = z.last ∧ (zcOf t n).prev = some stamp ∧
          rd t (zcState n) = 1 ∧ rd t (zcPeriod n) = rd s (zcPeriod n))) ∧
    (rd s (zcMode n) ≠ 3 → counts → rd s (zcState n) ≠ 1 →
      (z.prev = none → Runs edge s (setZc n { z with prev := some stamp } s)) ∧
      (∀ p, z.prev = some p → zcWithin (zcNominal (rd s (zcMode n))) 2 (stamp - p).toNat = false →
        Runs edge s (setZc n { z with prev := some stamp, good := 0 } s)) ∧
      (∀ p, z.prev = some p → zcWithin (zcNominal (rd s (zcMode n))) 2 (stamp - p).toNat = true → z.good + 1 < 4 →
        ∃ t, Runs edge s t ∧ (zcOf t n).good = z.good + 1 ∧ (zcOf t n).last = stamp ∧ rd t (zcState n) = rd s (zcState n))) ∧
    (rd s (zcMode n) = 3 →
      ∃ t, Runs (.syntheticCrossing zc) s t ∧ rd t (zcState n) = 3 ∧ rd t (zcPeriod n) = 20000000 ∧
        (zcOf t n).last = BitVec.ofNat 64 ((rtbNs s).toNat / 20000000 * 20000000) ∧ (zcOf t n).flagged = z.stepped ∧ (zcOf t n).stepped = false) ∧
    (rd s (zcMode n) = 3 → ∃ t, Runs .rtbCmdStep s t ∧ (zcOf t n).stepped = true) ∧
    (rd s (zcMode n) ≠ 3 → rd s (zcState n) = 1 →
      let at' := z.last + BitVec.ofNat 64 (rd s (zcPeriod n))
      at'.toNat ≤ (rtbNs s).toNat →
      ∃ t, Runs (.syntheticCrossing zc) s t ∧ (zcOf t n).last = at' ∧ (zcOf t n).synth = true ∧
        rd t (zcState n) = (if 8 ≤ satAdd (zcSynth n).w (rd s (zcSynth n)) 1 then 2 else 1))

/-! ### The fabric and the dispatcher (Chapters 2 and 11) -/

open Sys2Proof Sys2Proof.Machine Sys2Proof.Obl in
/-- R34, R37 to R44: an item. A sending port presents it (`present`: it waits there until it goes); it stays while an item of its source, destination and lane
waits before it, or an item of a lower-numbered lane is ready there; then one whose check fails is rejected, one with token and credit takes its lane, and one
without them waits. At the destination it is taken by the unit, or rejected for the cause of Table 2.8, when its port serves that source and lane (which source
comes first is log 95). -/
def Sys2Proof.Obl.FabricItemRule : Prop :=
  ∀ (port : BitVec 8) (wh : WH) (payload : List Byte) (s : State),
    let i : Item := { wh := { wh with src := port }, payload := payload }
    let w := present i s
    let gone : State := { w with fab := { w.fab with wait := removeFirst i w.fab.wait } }
    (∀ d, unitDomain port.toNat = some d → domOn s d = true →
      w.fab.wait = (if s.fab.wait.contains i then s.fab.wait else s.fab.wait ++ [i]) ∧
      (firstWaiting w i = false ∨ laneServed w i = false → Runs (.itemEntersFabric port wh payload) s w) ∧
      (firstWaiting w i = true → laneServed w i = true →
        (∀ c, sendCause w i.wh = some c → Runs (.itemEntersFabric port wh payload) s (reject port.toNat c i gone)) ∧
        (sendCause w i.wh = none → mayEnter w port.toNat i = true →
          ∃ t, Runs (.itemEntersFabric port wh payload) s t ∧ t.fab.flight = s.fab.flight ++ [i] ∧ t.fab.wait = removeFirst i w.fab.wait ∧
            t.fab.rej = s.fab.rej ∧ t.gar = s.gar ∧ t.net = s.net ∧ t.voice = s.voice) ∧
        (sendCause w i.wh = none → mayEnter w port.toNat i = false → Runs (.itemEntersFabric port wh payload) s w))) ∧
    (∀ (dest src : BitVec 8) (lane : BitVec 3) (x : Item),
      let mine : Item → Bool := fun i => i.wh.dest == dest && i.wh.src == src && i.wh.prio == lane
      let away : State := takeItem x s
      (dest = 0 → onyxUp s = true) → s.fab.flight.find? mine = some x →
      (portServes s dest.toNat src.toNat lane.toNat = false → Runs (.itemDelivered dest src lane) s s) ∧
      (portServes s dest.toNat src.toNat lane.toNat = true →
        (∀ c, destCause s x = some c → Runs (.itemDelivered dest src lane) s (reject dest.toNat c x away)) ∧
        (destCause s x = none → s.net.rx.find? (fun r => r.item == x) = none →
          Runs (.itemDelivered dest src lane) s (unitTakes x none (forgetSender x away)))))

open Sys2Proof Sys2Proof.Machine Sys2Proof.Obl in
/-- R44: a rejection is counted by its cause, and captured while the buffer has room; a port that has no Onyx to copy its buffer keeps it. Where a
customer kernel sent the item, its fault follows. -/
def Sys2Proof.Obl.RejectionCounted : Prop :=
  ∀ (p cause : Nat) (i : Item) (s : State),
    let k := portKey p
    let r := rejPort s k
    let counted (t : State) : Prop :=
      tblGet (rejPort t k).counts cause 0 = min (tblGet r.counts cause 0 + 1) 4294967295 ∧
      (∀ c, c ≠ cause → tblGet (rejPort t k).counts c 0 = tblGet r.counts c 0) ∧
      (onyxUp s = false → r.buf.length < 16 →
        (rejPort t k).buf = r.buf ++ [{ wh := i.wh, head := padTo 16 i.payload, cause := cause }]) ∧
      (onyxUp s = false → 16 ≤ r.buf.length → (rejPort t k).buf = r.buf ∧ (rejPort t k).overflow = true) ∧
      t.fab.wait.length = s.fab.wait.length + 1
    (senderKernel s i = none → counted (reject p cause i s)) ∧
    (∀ kid, senderKernel s i = some kid → ∃ t, counted t ∧
      reject p cause i s = quarantine (i.wh.src.toNat - 0x10) kid (BitVec.ofNat 24 (0xB + 65536 * cause)) t)

open Sys2Proof Sys2Proof.Machine Sys2Proof.Obl in
/-- R20, R36, R71, R181, R200, R219, R287, R305, R306: what a TICK boundary does, and in which order: the grid moves on by a TICK; the leases are
renewed; each channel's finished frames are committed; the channels of faulted cores migrate; missed frames are counted; and the jobs and blocks
of the TICK that begins are issued, but not in SAFE. Before its time there is no boundary. -/
def Obligations.TickBoundaryOrder : Prop :=
  ∀ (s : State), dispAlive s = true →
    ((rtbNs s - s.time.tickRtb).toNat < tickLen s → Runs .tickBoundary s s) ∧
    (tickLen s ≤ (rtbNs s - s.time.tickRtb).toNat →
      let moved : State := { s with
        time := { s.time with tickRtb := tickAt s },
        voice := { s.voice with sched := { s.voice.sched with tick := s.voice.sched.tick + 1 } } }
      let renewed := topazRenew (jasperRenew (coresRenew (wr rtbTickofs (toU 32 (tickOfs (tickAt s))) moved)))
      let committed := renewed.voice.chans.foldl (fun t e => chanTick e.1 t) renewed
      let migrated := coreDue false (migrateAll committed)
      let counted := migrated.voice.chans.foldl (fun t e => match chan? t e.1 with | some c => missFrame e.1 c t | none => t) migrated
      let issued := if counted.voice.sched.running = true ∧ counted.pwr.safe = false then issueAll counted else counted
      Runs .tickBoundary s (if issued.pwr.safe then issued else tdmTick (opalTick issued)))

open Sys2Proof Sys2Proof.Machine Sys2Proof.Obl in
/-- R20, R290, R306, R493: the schedule. A commit leaves a schedule for the next master frame and lease 0 renewed; at the boundary it is in force, with
nothing frozen; without one the frozen count rises, and at 64 the device enters SAFE. -/
def Sys2Proof.Obl.ScheduleRule : Prop :=
  ∀ (s : State),
    (mayCommit s = true →
      ∃ t, Runs .scheduleCommit s t ∧ t.voice.sched.next.isSome = true ∧ t.voice.sched.moves = [] ∧ (lease t 0).state = 1) ∧
    (dispAlive s = true → s.voice.sched.mf ≤ s.voice.sched.tick / 4 → s.pwr.safe = false →
      (s.voice.sched.next = none → s.voice.sched.running = true → onyxUp s = false →
        Runs .masterFrameBoundary s { s with voice := { s.voice with sched := { s.voice.sched with
          mf := s.voice.sched.tick / 4 + 1, frozen := s.voice.sched.frozen + 1 } } }) ∧
      (∀ sp, s.voice.sched.next = some sp →
        Runs .masterFrameBoundary s
          (let t := applySchedule sp { s with voice := { s.voice with sched := { s.voice.sched with mf := s.voice.sched.tick / 4 + 1 } } }
           if onyxUp t then clockRates (mfSwitches t) else t))) ∧
    (dispAlive s = true → s.voice.sched.tick / 4 < s.voice.sched.mf → Runs .masterFrameBoundary s s) ∧
    (s.voice.sched.running = true → 64 ≤ s.voice.sched.frozen →
      ∃ t, Runs .frozenScheduleLimit s t ∧ t.pwr.safe = true ∧ t.pwr.faultN = true ∧ t.voice.sched.running = false) ∧
    (s.voice.sched.frozen < 64 → Runs .frozenScheduleLimit s s)

open Sys2Proof Sys2Proof.Machine Sys2Proof.Obl in
/-- R251, R289, R308: a PASSTHRU channel's jobs go by the urgent lane; a job that runs for 250 µs is stopped, a customer kernel's with its kernel
quarantined, a firmware job's with its core faulted. -/
def Sys2Proof.Obl.JobLaneAndWatchdog : Prop :=
  ∀ (n : Fin 48) (chan : BitVec 13) (s : State),
    (∀ c, chan? s chan.toNat = some c → s.voice.sched.running = true → c.core = n.val → isPassthru c.p = true → dueNow s c = true →
      Runs (.urgentLaneIssue n chan) s (startFrame chan.toNat c true s)) ∧
    (∀ j, (Machine.core s n.val).job = some j → now s < j.entered + 250 → Runs (.jobWatchdogExpiry n) s s) ∧
    (∀ j, (Machine.core s n.val).job = some j → j.entered + 250 ≤ now s →
      (∀ stage kid, j.kind = .krn stage kid →
        Runs (.jobWatchdogExpiry n) s (jobOver n.val 10 (quarantine n.val kid 0xC (spAbandon n.val s)))) ∧
      ((∀ stage kid, j.kind ≠ .krn stage kid) → Runs (.jobWatchdogExpiry n) s (coreFault n.val 0xC s)))

/-! ### Faults (Chapter 18) -/

open Sys2Proof Sys2Proof.Machine Sys2Proof.Obl in
/-- R478, R479, R482, R484 to R488: Onyx lockstep. A mismatch, a checker fault, a watchdog or an uncorrectable word restarts Onyx; the third mismatch within 60 s
resets the device warm, and one soon after that enters SAFE; the third checker fault and a comparator that fails its test degrade lockstep; the image check goes
on with the retained image or a flash slot, or resets. The Garnet cores and the fabric go on during a restart. -/
def Obligations.OnyxRestartRule : Prop :=
  ∀ (s : State), loaded s = true → s.pwr.safe = false →
    let goesOn (t : State) : Prop := t.gar = s.gar ∧ t.voice = s.voice ∧ t.fab.flight = s.fab.flight ∧ s.fab.wait <+: t.fab.wait
    (∃ t, Runs .onyxWdog s t ∧ t.onyx.phase = .rom ∧ rd t faultCode = 4 ∧ goesOn t) ∧
    (∀ mac word, ∃ t, Runs (.onyxUe mac word) s t ∧ t.onyx.phase = .rom ∧ rd t faultCode = 5 ∧ goesOn t) ∧
    (s.onyx.checking = true → s.onyx.masked = false → ∀ group : BitVec 32,
      let l := s.onyx.mismatches.filter (fun t => decide (now s < t + 60000000)) ++ [now s]
      (∀ t0, s.onyx.persistentDone = some t0 → now s ≤ t0 + 60000000 → ∃ t, Runs (.onyxMismatch group) s t ∧ t.pwr.safe = true ∧ t.pwr.faultN = true) ∧
      (s.onyx.persistentDone = none → l.length < 3 →
        ∃ t, Runs (.onyxMismatch group) s t ∧ t.onyx.phase = .rom ∧ t.onyx.mismatches = l ∧ rd t faultCode = 1 ∧ t.gar = s.gar) ∧
      (s.onyx.persistentDone = none → 3 ≤ l.length → Runs (.onyxMismatch group) s
        (warmReset 3 none (journalNow 6 0 2 0 0 [] { s with onyx := { s.onyx with mismatches := l, persistent := true } })))) ∧
    (s.onyx.checking = true → ∀ stage : BitVec 1,
      let l := s.onyx.checkers.filter (fun t => decide (now s < t + 60000000)) ++ [now s]
      (l.length < 3 → ∃ t, Runs (.checkerFault stage) s t ∧ t.onyx.phase = .rom ∧ t.onyx.masked = true ∧ t.onyx.checkers = l ∧ rd t faultCode = 2) ∧
      (3 ≤ l.length → ∃ t, Runs (.checkerFault stage) s t ∧ t.onyx.phase = .rom ∧ t.onyx.lateDegraded = some (s.onyx.lateDegraded.getD 2))) ∧
    (s.onyx.checking = true → Runs (.comparatorSelfTest true) s s ∧
      (onyxUp s = true → Runs (.comparatorSelfTest false) s (lockstepDegraded 1 s)) ∧
      (onyxUp s = false → Runs (.comparatorSelfTest false) s
        { s with onyx := { s.onyx with lateDegraded := some (s.onyx.lateDegraded.getD 1) } })) ∧
    (s.onyx.phase = .rom → ∀ (kept : RetainedRead) (f1 f2 : Bool),
      let held := kept.image = true ∧ Config.sha384 (s.onyx.imem ++ s.onyx.dmem) = BitVec.ofNat 384 (unBe ((s.boot.image.drop 0x20).take 48))
      let slot := slotImage s s.boot.hdr.usedslot
      let good := imageCause s slot = 0
      let core := slotPart s s.boot.hdr.usedslot 512 slot.coreLen.toNat
      (held → Runs (.onyxRestartImageCheck kept f1 f2) s { s with onyx := { s.onyx with phase := .rebuild, masked := false, image := 1, badRecs := kept.bad } }) ∧
      (¬held → (f1 || f2) = true → good →
        ∃ t, Runs (.onyxRestartImageCheck kept f1 f2) s t ∧ t.onyx.phase = .rebuild ∧ t.onyx.masked = false ∧ t.onyx.image = 2 ∧ t.onyx.badRecs = kept.bad ∧
          t.onyx.imem ++ t.onyx.dmem = core ∧ goesOn t) ∧
      (¬held → (f1 = false ∧ f2 = false) ∨ ¬good → Runs (.onyxRestartImageCheck kept f1 f2) s (warmReset 3 none s))) ∧
    (s.onyx.phase = .rebuild → s.onyx.events = [] → s.fab.rej = [] → s.onyx.lateDegraded = none →
      let back : State := { s with onyx := { s.onyx with phase := .replay } }
      let u := lateHeartbeat (shiftDeadlines (now s - s.onyx.faultAt) (takeUes (leaseGrant 0 0 1 0 25000 (revokeWhere (fun l => l.state == 2) back))))
      Runs .onyxResume s (refresh (tpzDrain (if booted u = true ∨ u.boot.step = 11 ∨ u.boot.step = 12 then replayAll u.onyx.badRecs u else u))))

open Sys2Proof Sys2Proof.Machine Sys2Proof.Obl in
/-- R53, R477, R504 to R506: a PLL that loses lock is answered by its index; a cluster PLL is tried again after 1 s; thermal levels are entered at 115, 120 and
130 °C and left 5 °C below; level 3 is SAFE; the violation log's window ends with its counts cleared; an Ethernet port that fails loses its link and degrades
the device. -/
def Obligations.FaultAnswers : Prop :=
  ∀ (s : State),
    (∀ pll : Fin 10, domOn s 1 = true →
      let p := pll.val
      let low := wr (clkLock p) 0 s
      (flag s (pllEn p) = true → flag s (clkLock p) = false → tblFind p s.pwr.pllLost = none →
        Runs (.pllLock pll) s (romBegin (bootPll p (pllWaits p (pllBack p (wr (clkLock p) 1 s)))))) ∧
      (flag s (clkLock p) = true → p ≤ 1 → ∃ t, Runs (.pllUnlock pll) s t ∧ t.pwr.safe = true ∧ t.pwr.faultN = true) ∧
      (flag s (clkLock p) = true → 2 ≤ p → p ≤ 5 → clusterOn low (p - 2) = true →
        let u : State := { low with pwr := { low.pwr with pllLost := tblSet p (now s) low.pwr.pllLost } }
        Runs (.pllUnlock pll) s (degrade 0x31 p (domReq (6 + p) false (journal 0x31 0 4 p 0 [] u)))) ∧
      (flag s (clkLock p) = true → p = 6 → Runs (.pllUnlock pll) s (warmReset 3 none (journal 0x31 0 2 6 0 [] low))) ∧
      (flag s (clkLock p) = true → p = 9 → domOn low 4 = true →
        Runs (.pllUnlock pll) s (degrade 0x31 9 ((fromN 0 8).foldl (fun s k => linkLoss k s) (journal 0x31 0 4 9 0 [] low)))) ∧
      (flag s (clkLock p) = true → p = 7 → domOn low 6 = false → Runs (.pllUnlock pll) s (journal 0x31 0 8 7 0 [] low)) ∧
      (flag s (clkLock p) = true → p = 8 → domOn low 5 = false → Runs (.pllUnlock pll) s (journal 0x31 0 8 8 0 [] low)) ∧
      (∀ t0, tblFind p s.pwr.pllLost = some t0 → 2 ≤ p → p ≤ 5 → t0 + 1000000 ≤ now s →
        let u : State := { s with pwr := { s.pwr with pllLost := tblDel p s.pwr.pllLost } }
        Runs (.pllRelockAttempt pll true) s (undegrade 0x31 p (domReq (6 + p) true (wr (clkLock p) 1 u))) ∧
        Runs (.pllRelockAttempt pll false) s (wr (pllEn p) 0 u))) ∧
    (∀ temp : Int, domOn s 1 = true →
      let hot : State := { s with onyx := { s.onyx with temp := temp } }
      (s.onyx.thermal = 0 → temp < 115 → Runs (.thermalSample temp) s hot) ∧
      (s.onyx.thermal = 0 → 115 ≤ temp → temp < 120 → ∃ t, Runs (.thermalSample temp) s t ∧ t.onyx.thermal = 1 ∧ t.pwr = s.pwr) ∧
      (s.onyx.thermal = 1 → 110 < temp → temp < 120 → Runs (.thermalSample temp) s hot) ∧
      (s.onyx.thermal = 1 → 120 ≤ temp → temp < 130 → ∃ t, Runs (.thermalSample temp) s t ∧ t.onyx.thermal = 2 ∧ t.pwr = s.pwr) ∧
      (s.onyx.thermal = 2 → 130 ≤ temp →
        let at3 : State := { s with onyx := { s.onyx with temp := temp, thermal := 3 } }
        Runs (.thermalSample temp) s (thermalDown 3 (thermalUp 2 (thermalStop (thermalNote 3 3 at3)))) ∧
        (s.agt.runs = [] → (∀ d, 7 ≤ d → d ≤ 11 → rd s (domStat d) ≠ 2) →
          ∃ t, Runs (.thermalSample temp) s t ∧ t.onyx.thermal = 3 ∧ t.pwr.safe = true ∧ t.pwr.shutdown = true)) ∧
      (s.onyx.thermal = 1 → temp ≤ 110 → ∃ t, Runs (.thermalSample temp) s t ∧ t.onyx.thermal = 0)) ∧
    (onyxUp s = true → s.pvl.since + 60000000 ≤ now s →
      ∃ t, Runs .violationRateWindowEnd s t ∧ t.pvl.win = [] ∧ t.pvl.excess = 0 ∧ t.pvl.since = s.pvl.since + 60000000 ∧
        ((∀ w ∈ s.pvl.win, w.n = 0) → t.pvl.written = (if 0 < s.pvl.excess then 1 else 0))) ∧
    (∀ port : Fin 8, domOn s 4 = true → ethSt s port.val ≠ 0 → ethSt s port.val ≠ 5 →
      let p := port.val
      let gone := linkLoss p (wr (ethForceDown p) 1 s)
      let out := if ethSt gone p = 3 then portOut p gone else gone
      Runs (.ethPortFailure port) s (degrade 0x50 p (journal 0x50 (0x40 + p) 4 p 0 [] out)))

/-! ### Ethernet events (Chapter 12) -/

open Sys2Proof Sys2Proof.Machine Sys2Proof.Obl in
/-- R313, R316 to R318, R323, R333: frames received and PAUSE. A frame passes the checks of R323 in order, each failure counted, and is then classified, with a
pair's duplicate dropped; a PAUSE frame stops the port for its quanta, or ends a pause; the watchdog breaks a pause that lasts and holds PAUSE off for four times
as long. -/
def Obligations.EthReceptionRule : Prop :=
  ∀ (port : Fin 8) (s : State),
    let p := port.val
    let v := ethP s p
    (linkOn s p = true → ∀ f : EthFrame,
      (f.fcsOk = false → Runs (.ethFrameReceived port f) s (bump (rxFcs p) s)) ∧
      (f.fcsOk = true → f.length < 64 → Runs (.ethFrameReceived port f) s (bump (rxRunt p) s)) ∧
      (f.fcsOk = true → 64 ≤ f.length → rd s (ethMaxframe p) < f.length → Runs (.ethFrameReceived port f) s (bump (rxOversize p) s)) ∧
      (f.fcsOk = true → 64 ≤ f.length → f.length ≤ rd s (ethMaxframe p) →
        let ordered := tagsOrdered 0 (parsed s p f.tags)
        (ordered = false → Runs (.ethFrameReceived port f) s (bump (rxTagerr p) s)) ∧
        (ordered = true → f.prpSeq = none → Runs (.ethFrameReceived port f) s (classify p f s)) ∧
        (ordered = true → ∀ q, f.prpSeq = some q →
          (∀ t, prpRx p f.srcMac q s = some t → Runs (.ethFrameReceived port f) s (classify p f t)) ∧
          (∀ k, pairOf s p = some k → prpRx p f.srcMac q s = none → Runs (.ethFrameReceived port f) s (bump (prpDup k) s))))) ∧
    (linkOn s p = true → flag s (ethPauseRx p) = true → v.holdoff = none →
      (∃ t, Runs (.pauseFrameReceived port 1 0) s t ∧ rd t (ethPaused p) = 0 ∧ (ethP t p).pauseUntil = none ∧ (ethP t p).wdSince = none ∧ (ethP t p).q = v.q) ∧
      (∀ quanta : BitVec 16, quanta ≠ 0 → ∃ t, Runs (.pauseFrameReceived port 1 quanta) s t ∧ rd t (ethPaused p) = 1 ∧
        (ethP t p).pauseUntil = some (now s + (quanta.toNat * 512 + ethMbps s p - 1) / ethMbps s p) ∧ (ethP t p).q = v.q) ∧
      (∀ op quanta : BitVec 16, op ≠ 1 → Runs (.pauseFrameReceived port op quanta) s (setEth p { v with ctlDisc := satAdd 32 v.ctlDisc 1 } s))) ∧
    (linkOn s p = true → flag s (ethPauseRx p) = false ∨ v.holdoff ≠ none → ∀ op quanta : BitVec 16,
      Runs (.pauseFrameReceived port op quanta) s (setEth p { v with ctlDisc := satAdd 32 v.ctlDisc 1 } s)) ∧
    (∀ u, v.pauseUntil = some u → u ≤ now s →
      Runs (.pauseExpiry port) s (wr (ethPaused p) 0 (setEth p { v with pauseUntil := none, wdSince := none } s))) ∧
    (∀ since, flag s (ethPaused p) = true → v.wdSince = some since → since + rd s (ethPauseWd p) * 1000 ≤ now s →
      ∃ t, Runs (.pauseWatchdogExpiry port) s t ∧ rd t (ethPaused p) = 0 ∧ rd t (ethHoldoff p) = 1 ∧ (ethP t p).pauseUntil = none ∧
        (ethP t p).holdoff = some (now s + 4 * (rd s (ethPauseWd p) * 1000))) ∧
    (∀ u, v.holdoff = some u → u ≤ now s → Runs (.pauseHoldoffEnd port) s (wr (ethHoldoff p) 0 (setEth p { v with holdoff := none } s))) ∧
    (∀ u, (ethP (pauseTxUpd p s) p).xoff = some u → u ≤ now s →
      let t := pauseTxUpd p s
      Runs (.pauseRefresh port) s (setEth p { ethP t p with xoff := some (now s + halfPause t p) } t))

open Sys2Proof Sys2Proof.Machine Sys2Proof.Obl in
/-- R310, R312, R338 to R341, R496: link and transmission. Link up ends the wait of a port command and leads a disabled or held port to UP, one out of service or
down to SETTLING; link loss holds what was queued; the hold time and the settle time end; voice at the age limit is discarded; held items go before new ones, in
strict priority of class. -/
def Obligations.EthLinkRule : Prop :=
  ∀ (port : Fin 8) (s : State),
    let p := port.val
    let v := ethP s p
    (∀ speed : BitVec 2, domOn s 4 = true → flag s (ethEn p) = true → flag s (ethForceDown p) = false → flag s (ethLink p) = false →
      s.onyx.degraded.contains (0x31, 9) = false →
      let u := notify 3 (p + 0x1000000) 0 (wr (ethSpeed p) (if rd s (ethMode p) = 2 then speed.toNat else 0) (wr (ethLink p) 1 s))
      (ethSt u p = 0 ∨ ethSt u p = 2 → Runs (.linkUp port speed) s (finishWait (.link p) stOk [1] (enterUp p u))) ∧
      (ethSt u p = 3 ∨ ethSt u p = 5 → Runs (.linkUp port speed) s (finishWait (.link p) stOk [1]
        (setEth p { ethP u p with settleUntil := some (now u + rd u (ethSettle p) * 1000) } (wr (ethState p) 4 u))))) ∧
    (flag s (ethLink p) = true → Runs (.linkDown port) s (linkLoss p s)) ∧
    (∀ u, ethSt s p = 2 → v.holdUntil = some u → u ≤ now s → onyxUp s = true → Runs (.holdTimeEnd port) s (holdEnd p s)) ∧
    (ethSt s p = 2 → onyxUp s = false → Runs (.holdTimeEnd port) s s) ∧
    (∀ u, ethSt s p = 4 → v.settleUntil = some u → u ≤ now s → onyxUp s = true → Runs (.settleEnd port) s (enterUp p s)) ∧
    (∃ t, Runs (.heldAged port) s t ∧
      ∀ e ∈ (ethP t p).q ++ (ethP t p).held, ∀ q ∈ e.2, q.voice.isSome = true → now s < q.at' + rd s (ethAge p) * 1000) ∧
    ((∀ e ∈ v.q ++ v.held, ∀ q ∈ e.2, q.voice.isSome = true → now s < q.at' + rd s (ethAge p) * 1000) → flag s (ethPauseTx p) = false →
      ∃ t, Runs (.heldAged port) s t ∧ ethP t p = v ∧ t.voice = s.voice ∧ rd t (heldAged p) = rd s (heldAged p)) ∧
    (∀ c q, domOn s 4 = true → s.pwr.safe = false → ethSt s p = 1 → v.sending = none → flag s (ethPaused p) = false →
      (firstClass v.held = some (c, q) →
        Runs (.ethFrameTxStart port) s (latM2w p q (setEth p { v with held := popClass c v.held, sending := some (c, q), wdSince := none } s))) ∧
      (firstClass v.held = none → firstClass v.q = some (c, q) →
        Runs (.ethFrameTxStart port) s (latM2w p q (setEth p { v with q := popClass c v.q, sending := some (c, q), wdSince := none } s)))) ∧
    (flag s (ethPaused p) = true → Runs (.ethFrameTxStart port) s s) ∧
    (∀ c q, v.sending = some (c, q) → flag s (ethPaused p) = false →
      let free (t : State) : State := match q.inPort with | some i => pauseTxUpd i t | none => t
      let sent : State := setEth p { v with sending := none } s
      (q.flow = none → Runs (.ethFrameTxEnd port) s (free sent)) ∧
      (∀ n, q.flow = some n → q.item.wh.assured = false → Runs (.ethFrameTxEnd port) s (free (flowBump n 4 sent))) ∧
      (∀ n, q.flow = some n → q.item.wh.assured = true → Runs (.ethFrameTxEnd port) s (free (modFlow n (fun f => { f with
        out := f.out.map (fun m => if m.seq = q.item.wh.seq then { m with sentAt := now s } else m) }) (flowBump n 4 sent)))))

open Sys2Proof Sys2Proof.Machine Sys2Proof.Obl in
/-- R201, R202, R327 to R331, R333: messages and keys of a flow. A message with the SEQ expected is accepted and acknowledged; one received before is
acknowledged again; an acknowledgement takes what it covers out of the window; a retry sends every unacknowledged message again, and the fourth in a row loses
the path; RTCP names its port, and the next is due after a free time (log 2) of 2.5 to 7.5 s; supervision is sent every 2 s; an old key lasts 2 s. -/
def Obligations.FlowEventsRule : Prop :=
  ∀ (flow : BitVec 13) (f : Flow) (s : State), flow? s flow.toNat = some f → onyxUp s = true →
    let n := flow.toNat
    (∀ (ingress : BitVec 8) (seq : BitVec 16) pay, fAssured f = true → s.pwr.hib = .awake → s.ledger.tail = none →
      0x40 ≤ ingress.toNat → ingress.toNat ≤ 0x47 →
      (later16 seq f.nextSeq = true → f.later + 1 < 64 →
        Runs (.assuredMessageReceived flow ingress seq pay) s (setFlow n { flowBumpN 44 1 f with later := f.later + 1 } s)) ∧
      (seq ≠ f.nextSeq → later16 seq f.nextSeq = false →
        Runs (.assuredMessageReceived flow ingress seq pay) s (sendAck n (ingress.toNat - 0x40) (f.nextSeq - 1) (setFlow n { f with later := 0 } s))) ∧
      (seq = f.nextSeq → admitted (if f.prio = 0 then 1 else 0) (pay.length / 1024 + 1) s = false →
        Runs (.assuredMessageReceived flow ingress seq pay) s (flowBump n 52 (setFlow n { f with later := 0 } s))) ∧
      (seq = f.nextSeq → admitted (if f.prio = 0 then 1 else 0) (pay.length / 1024 + 1) s = true →
        ∀ i t, ledgerAccept 3 0xFF (ingress.toNat + n * 0x100 + seq.toNat * 0x1000000) (pay.length / 1024 + 1) n (crc32c pay) false false s = (some i, t) →
          Runs (.assuredMessageReceived flow ingress seq pay) s (sendAck n (ingress.toNat - 0x40) seq
            (relayMsg n i (offerOf s f seq) pay (modFlow n (fun f => { f with nextSeq := f.nextSeq + 1, later := 0 }) t))))) ∧
    (∀ (port : Fin 8) (a : AckFrame) t, linkOn s port.val = true → flag s (ethSst port.val) = true → tagSst a.tags = some t →
      t.ver = 1 → t.rsvd1 = 0 → t.rsvd2 = 0 → tblFirst (fun _ f => ackFor s port.val (tagVid a.tags) t.chan.toNat f) s.net.flows = some (n, f) →
      (a.typ = 1 → a.rsvd = 0 →
        let path := if 0x10 ≤ f.egress ∧ f.egress ≤ 0x13 ∧ rd s (prpB (f.egress - 0x10)) = port.val then 1 else 0
        Runs (.acknowledgementFrameReceived port a) s (acked n t.seq a.credit.toNat path (eventNow 0x48 7 t.seq.toNat n s))) ∧
      (a.typ ≠ 1 ∨ a.rsvd ≠ 0 → Runs (.acknowledgementFrameReceived port a) s (violation 1 port.val 0x0106 1 n (be 6 a.srcMac.toNat) [] s))) ∧
    (let out := f.out.filter (·.sent)
     let ports := egressPorts s f.egress
     fAssured f = true → f.fallen = none → f.noPath = false → out ≠ [] → (∃ p ∈ ports, ethSt s p = 1) →
       (∀ m ∈ out, m.sentAt + rd s netAretry * 1000 ≤ now s) → rd s netAretry * 1000 ≤ now s →
      (f.misses + 1 < 4 →
        let g : Flow := { f with misses := f.misses + 1, out := f.out.map (fun m => if m.sent then { m with sentAt := now s } else m) }
        let u := out.foldl (fun s m => unqueue n m.seq s) (setFlow n (flowBumpN 40 out.length g) s)
        Runs (.assuredRetry flow) s (out.foldl (fun s m => emitMsg n f m s) u)) ∧
      (4 ≤ f.misses + 1 → s.plc.fall = [] → Runs (.assuredRetry flow) s (losePath n s))) ∧
    (∀ (port : Fin 8) (onRtp auth : Bool), linkOn s port.val = true → fRtp f = true →
      (fSrtp f = false → f.stopped = false →
        Runs (.rtcpReceived port flow onRtp auth) s (setFlow n { f with rtcpPort := some (if onRtp then 0 else 1) } s)) ∧
      (∀ k, fSrtp f = true → f.stopped = false → auth = true → f.rx = some k → k.ctl + 1 < 2147483648 →
        Runs (.rtcpReceived port flow onRtp auth) s
          (setFlow n { f with rx := some { k with ctl := k.ctl + 1 }, rtcpPort := some (if onRtp then 0 else 1) } s)) ∧
      (∀ k, fSrtp f = true → f.stopped = false → auth = true → f.rx = some k → 2147483648 ≤ k.ctl + 1 →
        ∃ t, Runs (.rtcpReceived port flow onRtp auth) s t ∧ ∃ g, flow? t n = some g ∧ g.stopped = true) ∧
      (fSrtp f = true → f.stopped = false → auth = false ∨ f.rx = none → Runs (.rtcpReceived port flow onRtp auth) s (flowBump n 28 s)) ∧
      (fSrtp f = true → f.stopped = true → Runs (.rtcpReceived port flow onRtp auth) s s)) ∧
    (fRtp f = true → f.template ≠ none → f.rtcpAt ≤ now s → fSrtp f = false → f.stopped = false →
      ∃ t, Runs (.rtcpTimer flow) s t ∧ ∃ g, flow? t n = some g ∧ now s + 2500000 ≤ g.rtcpAt ∧ g.rtcpAt ≤ now s + 7500000) ∧
    (∀ k u, f.rxOld = some (k, u) → u ≤ now s → Runs (.oldKeyErase flow) s (setFlow n { f with rxOld := none } s)) ∧
    (∀ k u, f.rxOld = some (k, u) → now s < u → Runs (.oldKeyErase flow) s s) ∧
    (∀ pair : Fin 4, flag s (prpEn pair.val) = true → (tblGet s.net.pairs pair.val pairInit).supAt ≤ now s →
      let pr := tblGet s.net.pairs pair.val pairInit
      let u : State := { tookFree s with net := { s.net with pairs := tblSet pair.val { pr with supAt := pr.supAt + 2000000 } s.net.pairs } }
      Runs (.prpSupervision pair) s ([rd s (prpA pair.val), rd s (prpB pair.val)].foldl
        (fun t p => onyxFrame 4 p 0 (freeBytes 60 s) t) u))

/-! ### The powerline (Chapters 13 and 14) -/

open Sys2Proof Sys2Proof.Machine Sys2Proof.Obl in
/-- R370 to R375: reception. A block that is too loud or too quiet steps the gain; a candidate near a rejected one is not tried; a failed inversion or header check
rejects the candidate; a valid header leads to the payload, which goes to Onyx as one item; a payload whose check failed has free bytes (log 2); a management frame of an MTYPE that Table 14.5 does not list is judged at once. The search goes on
after the sample of a false start, and after a frame's last sample. -/
def Obligations.PlcReceptionRule : Prop :=
  ∀ (port : Fin 4) (s : State), plcOn s port.val = true →
    let n := port.val
    let v := plcP s n
    let ended (nsym : Nat) (stamp : BitVec 64) : Nat := stamp.toNat * 1536 / 1000000 + 256 + 1152 * (1 + hdrSymbols (bandN s n) + nsym)
    (v.rx = .search → v.sending = none → ∀ (rms : Int) (mags : List Nat),
      let full := (mags.filter (fun m => decide (8191 ≤ m))).length
      let u := bumpN (plcCnt n 4) (blanked s n mags) s
      (-18 < rms ∨ 4 ≤ full → 0 < v.pga → Runs (.agcBlock port rms mags) s (pgaStep n (setPlc n { v with pga := v.pga - 1 } u))) ∧
      (rms < -30 → full < 4 → v.pga < 7 → Runs (.agcBlock port rms mags) s (pgaStep n (setPlc n { v with pga := v.pga + 1 } u))) ∧
      (-30 ≤ rms → rms ≤ -18 → full < 4 → Runs (.agcBlock port rms mags) s u)) ∧
    (v.rx ≠ .search ∨ v.sending.isSome = true → ∀ rms mags, Runs (.agcBlock port rms mags) s s) ∧
    (v.rx = .search → v.sending = none → ∀ (corr : BitVec 8) (stamp : BitVec 64) (start : Nat), rd s (plcDetthr n) ≤ corr.toNat →
      v.searched ≤ start → sampleNow s ≤ start + 131072 → v.deafTo ≤ stamp.toNat →
      ((∀ x ∈ v.rejected, start + 128 < x ∨ x + 128 < start) →
        Runs (.preambleCandidate port corr stamp true start) s
          (setPlc n { v with rx := .cand start stamp, searched := start, searchedAt := sampleNow s } s) ∧
        Runs (.preambleCandidate port corr stamp false start) s (rejectCand n start s)) ∧
      (∀ x ∈ v.rejected, x ≤ start + 128 → start ≤ x + 128 → ∀ inv, Runs (.preambleCandidate port corr stamp inv start) s s)) ∧
    (∀ (corr : BitVec 8) (stamp : BitVec 64) inv (start : Nat), stamp.toNat < v.deafTo ∨ start < v.searched ∨ corr.toNat < rd s (plcDetthr n) →
      Runs (.preambleCandidate port corr stamp inv start) s s) ∧
    (∀ start u, (plcP (rejectCand n start u) n).rx = .search ∧ start ∈ (plcP (rejectCand n start u) n).rejected ∧
      start + 1 ≤ (plcP (rejectCand n start u) n).searched) ∧
    (∀ start stamp (hw : BitVec 32), v.rx = .cand start stamp →
      Runs (.headerDecoded port false hw) s (rejectCand n start (bump (plcCnt n 0) s)) ∧
      (hdrValid s n hw.toNat = false → Runs (.headerDecoded port true hw) s (plcViol n 0x0201 1 0xFFFF 0 0 (rejectCand n start (bump (plcCnt n 1) s)))) ∧
      (hdrValid s n hw.toNat = true → ∃ nsym,
        Runs (.headerDecoded port true hw) s (setPlc n { v with rx := .frame (hw.toNat / 524288 % 2048 + 1) nsym (hw.toNat / 512 % 16) stamp } s))) ∧
    (∀ plen nsym ft stamp, v.rx = .frame plen nsym ft stamp → ∀ (rsFail : Nat) (mags : List Nat) (fr : PlcFrame) (body : List Byte),
      ft ≠ 5 ∨ 0 < rsFail ∨ fr.bad = true ∨ (1 ≤ leAt body 0 1 ∧ leAt body 0 1 ≤ 12) →
      let u := searchFrom n (ended nsym stamp) (bumpN (plcCnt n 2) rsFail (bumpN (plcCnt n 4) (blanked s n mags) (setPlc n { v with rxStamp := stamp } s)))
      let h := fr.hdr
      let item (p : List Byte) : Item :=
        mkItem 6 h.prio.toNat 0x00 (0x50 + n) h.lchan.toNat h.seq stamp.toNat h.settle (decide (rsFail ≠ 0) || h.err) h.last p
      (fr.bad = false → Runs (.payloadDecoded port rsFail mags fr body) s (offer (item (padTo plen (linkPayload h body))) (tookFree u))) ∧
      (fr.bad = true → Runs (.payloadDecoded port rsFail mags fr body) s (offer (item (freeBytes plen u)) (tookFree u)))) ∧
    (∀ plen nsym stamp, v.rx = .frame plen nsym 5 stamp → ∀ (mags : List Nat) (fr : PlcFrame) (body : List Byte), fr.bad = false →
      12 < leAt body 0 1 ∨ leAt body 0 1 = 0 →
      Runs (.payloadDecoded port 0 mags fr body) s (mgmtIn n fr false body id (searchFrom n (ended nsym stamp)
        (bumpN (plcCnt n 2) 0 (bumpN (plcCnt n 4) (blanked s n mags) (setPlc n { v with rxStamp := stamp } s))))))

open Sys2Proof Sys2Proof.Machine Sys2Proof.Obl in
/-- R218, R346 to R349, R354, R355, R380, R382, R387, R497: calibration, superframes, frames sent and beacons. A superframe starts at its crossing with SFNO
advanced; a node sends only in a slot it may use, under its lease, a frame that fits; the parent's beacon sets the node's superframe. -/
def Obligations.PlcSuperframeRule : Prop :=
  ∀ (port : Fin 4) (s : State),
    let n := port.val
    let v := plcP s n
    (v.calibrating = true → ∀ rxd txd c d,
      Runs (.plcCalibrationDone port .pass rxd txd) s (finishWait (.plcCal n) stOk [] (undegrade 0x51 n (plcInService n rxd txd s))) ∧
      Runs (.plcCalibrationDone port (.fail c d) rxd txd) s (finishWait (.plcCal n) stFaulted []
        (degrade 0x51 n (journal 0x51 (0x50 + n) 4 n c.toNat [] (plcOut n (setPlc n { v with calibrating := false } s)))))) ∧
    (flag s (plcEn n) = true → Runs (.driverOverTemperature port) s (degrade 0x51 n (journal 0x51 (0x50 + n) 4 n 0 [] (eventNow (0x50 + n) 9 n 0 (plcOut n s))))) ∧
    (∀ t0, plcOn s n = true → rd s (plcState n) ≠ 0 → sfStart s n = some t0 →
      (v.next = none → ∃ t, Runs (.superframeStart port) s (if onyxUp t then sfOnyx n t else t) ∧
        rd t (plcSfno n) = (sfno s n + 1) % 4294967296 ∧ (plcP t n).tsf = some t0 ∧ (plcP t n).silent = v.silent + 1 ∧ (plcP t n).sending = none) ∧
      (∀ gen at' m, v.next = some (gen, at', m) → plcCoord s n = true → at' ≤ (sfno s n + 1) % 4294967296 →
        ∃ u, rd u (plcSfno n) = (sfno s n + 1) % 4294967296 ∧ (plcP u n).tsf = some t0 ∧
          let t := finishWait (.plcMap n) stOk [] (installMap n gen m u)
          Runs (.superframeStart port) s (if onyxUp t then sfOnyx n t else t))) ∧
    (plcOn s n = true → rd s (plcState n) ≠ 0 → sfStart s n = none → Runs (.superframeStart port) s s) ∧
    (∀ (entry : BitVec 6) (mode : BitVec 3) (tmi : BitVec 4) (ilv : BitVec 6) (ft : BitVec 4) (hdr : LinkHdr) (body : List Byte) t0 l,
      plcOn s n = true → s.pwr.safe = false → v.tsf = some t0 → v.sending = none → v.lease = some l →
      rd s (plcState n) ≠ 6 → rd s (plcState n) ≠ 4 → mode.toNat ≤ 2 → mode = 0 ∨ tmi = 0 →
      let e := match v.map with | some m => m.entries[entry.toNat]? | none => none
      mayUse s n ft.toNat e mode.toNat tmi.toNat = true →
      let txrtb := t0.toNat + txPos s n * 750000
      let i : Instr := .plcFrameTxStart port entry mode tmi ilv ft hdr body
      (gateOk s l (0x50 + n) (lease s l).epoch = false → Runs i s (leaseDenied l s)) ∧
      (gateOk s l (0x50 + n) (lease s l).epoch = true → ∀ codes us b,
        mapCodes s n (if mode = 0 then tmi.toNat else 0) = some codes →
        frameUnits s n ft.toNat hdr body txrtb (match e with | some e => t0.toNat + e.start * 750000 | none => txrtb) (contPlace v entry.toNat) = some (us, b) →
        let h := if ft = 0 then beaconHdr s n else unitHdr s n us hdr
        let p := linkPayload h b
        let bs := sumOf id codes
        let len := frameLen mode.toNat (bandN s n) bs p.length
        16 ≤ p.length → p.length ≤ 2048 → modeOk s n e h.rxa.toNat mode.toNat tmi.toNat = true →
        (placeOk s n e len (regionNeed s n ft.toNat mode.toNat bs len b) = true → ∃ t tx, Runs i s t ∧ (plcP t n).sending = some tx ∧
          tx.ft = ft.toNat ∧ tx.entry = entry.toNat ∧ tx.units = us ∧ tx.hdr = h ∧ tx.rxa = h.rxa.toNat ∧ tx.len = len ∧
          tx.cont = (contPlace v entry.toNat).isSome ∧ tx.level = 9 + rd s (plcTxlevel n) ∧
          tx.hdrSyms = hdrSyms (bandN s n) (hdrWord mode.toNat tmi.toNat ft.toNat ilv.toNat (p.length - 1)) ∧
          tx.paySyms = paySyms mode.toNat ilv.toNat (bandN s n) codes (tx.hdrSyms.getLast?.getD []) p ∧ (plcP t n).rx = .search ∧ (plcP t n).pga = 0 ∧
          (plcP t n).txq = us.foldl (fun q u => removeFirst u q) v.txq) ∧
        (placeOk s n e len (regionNeed s n ft.toNat mode.toNat bs len b) = false → Runs i s s))) ∧
    (∀ tx, v.sending = some tx → tx.ft ≠ 3 → tx.ft ≠ 5 → Runs (.plcFrameTxEnd port false false) s
      (let quiet := (rtbNs s).toNat + 20000
       setPlc n { v with sending := none, deafTo := quiet, searched := quiet * 1536 / 1000000, searchedAt := quiet * 1536 / 1000000,
                         emHeard := v.emHeard || (decide (tx.ft = 1) && decide (v.emown = plcMe s n)) } s)) ∧
    (∀ tx, v.sending = some tx → tx.ft = 2 → ∃ t, Runs (.plcFrameTxEnd port true false) s t ∧ (plcP t n).sending = none ∧
      rd t (plcCnt n 6) = satAdd (plcCnt n 6).w (rd s (plcCnt n 6)) 1) ∧
    (∀ (hdr : LinkHdr) (b : Beacon) (stamp : BitVec 64), plcOn s n = true → rd s (plcState n) ≠ 0 → hdr.netid.toNat = plcMyNet s n →
      let tx := hdr.txa.toNat
      let u := hear n tx s
      let w := plcP u n
      let r : PNbr := { tblGet w.nbrs tx nbrInit with bcost := some b.cost.toNat, bfrom := sfno u n, hops := b.hops.toNat }
      let u' := setPlc n { w with nbrs := tblSet tx r w.nbrs } u
      plcCoord u' n = false →
      (pickParent (plcP u' n) = some tx → Runs (.beaconReceived port hdr b stamp) s (fromParent n tx b stamp u')) ∧
      (pickParent (plcP u' n) ≠ some tx → Runs (.beaconReceived port hdr b stamp) s (setPlc n { plcP u' n with silent := 0 } u'))) ∧
    (∀ (hdr : LinkHdr) (b : Beacon) (stamp : BitVec 64), plcOn s n = true → rd s (plcState n) ≠ 0 → rd s (plcState n) ≠ 3 → hdr.netid.toNat ≠ plcMyNet s n →
      Runs (.beaconReceived port hdr b stamp) s (foreignHeard n hdr.netid.toNat hdr.txa.toNat s))

open Sys2Proof Sys2Proof.Machine Sys2Proof.Obl in
/-- R379, R394, R395, R397 to R400: frames that pass the checks of the link and are this node's. Voice goes to its channel's core; assured segments collect until
the last; an acknowledgement frees what it covers; a poll is answered; the master notes an answer, polls again, and excludes a chain that fails. A frame for
another node is queued again. -/
def Obligations.PlcDataRule : Prop :=
  ∀ (port : Fin 4) (fr : PlcFrame) (s t : State),
    let n := port.val
    let h := fr.hdr
    (∀ (subs : List (List Byte)) fl (f : Flow) d, subs ≠ [] → subs.length ≤ plcNb t n → flowOfLink t h.lchan.toNat false = some (fl, f) →
      chanCore t f.chan = some d →
      let body := [BitVec.ofNat 8 subs.length, 0] ++ subs.flatMap (padTo 14)
      let u := flowBump fl 0 (offer (mkItem 6 f.prio d (0x50 + n) f.chan h.seq (plcP t n).rxStamp.toNat h.settle h.err h.last body) t)
      (linkIn n 2 fr s = (some true, t) → Runs (.voiceReceived port fr subs) s u) ∧
      (linkIn n 1 fr s = (some true, t) → h.txa.toNat ≠ (plcP s n).emown → plcMe t n ∉ (plcP t n).erelay → Runs (.emergencyVoiceReceived port fr subs) s u)) ∧
    (∀ subs : List (List Byte), plcNb t n < subs.length → linkIn n 2 fr s = (some true, t) →
      Runs (.voiceReceived port fr subs) s (plcViol n 0x0209 1 h.lchan.toNat h.netid.toNat h.txa.toNat (bump (plcCnt n 17) t))) ∧
    (linkIn n 3 fr s = (some true, t) → onyxUp t = true → ∀ fl f, t.pwr.hib = .awake → t.ledger.tail = none → flowOfLink t h.lchan.toNat true = some (fl, f) → ∀ bytes : List Byte,
      let o : Offer := { seq := h.seq, stamp := (plcP t n).rxStamp.extractLsb' 0 40, settle := h.settle, err := h.err, last := h.last }
      (h.last = false → Runs (.assuredDataReceived port fr 0 bytes) s (modPlc n (fun v => { v with segs := tblSet fl [bytes] v.segs }) t)) ∧
      (h.last = true → ∀ a u, assuredIn fl (0x50 + n) o bytes 2 n 0x020B (modPlc n (fun v => { v with segs := tblDel fl v.segs }) t) = (some a, u) →
        Runs (.assuredDataReceived port fr 0 bytes) s
          (plcPut n { ctlUnit 4 h.orig.toNat (le 2 a.toNat ++ [BitVec.ofNat 8 (creditOf f), 0]) u with lchan := h.lchan.toNat } (flowBump fl 48 u)))) ∧
    (linkIn n 4 fr s = (some true, t) → onyxUp t = true → ∀ fl f (ack : BitVec 16) (credit : BitVec 8), flowOfLink t h.lchan.toNat true = some (fl, f) →
      f.out.find? (fun m => !m.sent && !f.noPath) = none → ack ≠ f.txSeq →
      (later16 ack f.txSeq = false → Runs (.plcAcknowledgementReceived port fr ack credit) s (acked fl ack credit.toNat 2 (modPlc n (fun v => { v with cw := 4 }) t))) ∧
      (later16 ack f.txSeq = true → Runs (.plcAcknowledgementReceived port fr ack credit) s
        (plcViol n 0x0207 1 h.lchan.toNat h.netid.toNat h.txa.toNat (bump (plcCnt n 15) t)))) ∧
    (linkIn n 6 fr s = (some true, t) → ∀ (bytes : List Byte),
      (∀ fl f, tblFirst (fun _ f => f.kind == 2 && f.linkchan == h.lchan.toNat) t.net.flows = some (fl, f) →
        Runs (.contentionDataReceived port fr bytes) s (flowBump fl 0 (offer (mkItem 6 f.prio 0x00 (0x50 + n) (if fForward f then 0 else f.chan) h.seq
          (plcP t n).rxStamp.toNat h.settle h.err h.last (padTo (max 16 bytes.length) bytes)) t))) ∧
      (tblFirst (fun _ f => f.kind == 2 && f.linkchan == h.lchan.toNat) t.net.flows = none →
        Runs (.contentionDataReceived port fr bytes) s (plcViol n 0x0205 1 h.lchan.toNat h.netid.toNat h.txa.toNat (bump (plcCnt n 13) t)))) ∧
    (∀ bytes, linkIn n 6 fr s = (some false, t) → Runs (.contentionDataReceived port fr bytes) s (relayUnit n 6 fr bytes t)) ∧
    (∀ (budget : BitVec 16) relays enclosed, linkIn n 7 fr s = (some true, t) → h.final.toNat = plcMe t n →
      (toEnclose t n h.orig.toNat budget.toNat = none →
        Runs (.plcPoll port fr budget relays enclosed) s (plcPut n { ctlUnit 8 h.orig.toNat [] t with hop := some h.txa.toNat } t)) ∧
      (∀ ft us b, toEnclose t n h.orig.toNat budget.toNat = some (ft, us, b) →
        let u := modPlc n (fun v => { v with txq := us.foldl (fun q u => removeFirst u q) v.txq }) t
        let o := BitVec.ofNat 12 h.orig.toNat
        let lh := { unitHdr t n us { (beaconHdr t n) with final := o } with rxa := o }
        Runs (.plcPoll port fr budget relays enclosed) s (plcPut n { ctlUnit 8 h.orig.toNat (enclose ft lh b) u with hop := some h.txa.toNat } u))) ∧
    (∀ (budget : BitVec 16) (relays : List (BitVec 12)) enclosed mine, linkIn n 7 fr s = (some mine, t) → mine = false ∨ h.final.toNat ≠ plcMe t n →
      (∀ a ∈ relays, a.toNat ≠ plcMe t n) → Runs (.plcPoll port fr budget relays enclosed) s t) ∧
    (∀ p b (enclosed : List Byte), linkIn n 8 fr s = (some true, t) → plcCoord t n = true → tblFind h.orig.toNat (plcP t n).nodes = some p → p.poll = some b →
      let u := modPlc n (fun v => { v with nodes := tblSet h.orig.toNat { p with poll := none, misses := 0, polledAt := sfno t n } v.nodes }) t
      (enclosed.length ≤ b → Runs (.pollResponse port fr enclosed) s u) ∧
      (b < enclosed.length → Runs (.pollResponse port fr enclosed) s (plcViol n 0x0208 1 0xFFFF h.netid.toNat h.txa.toNat (bump (plcCnt n 16) u)))) ∧
    (∀ (slave : BitVec 12) p c, plcOn s n = true → plcCoord s n = true → flag s (plcPolled n) = true → onyxUp s = true →
      tblFind slave.toNat (plcP s n).nodes = some p → p.poll = none → p.polledAt + (if slaveVoice s n slave.toNat then 1 else rd s (plcPollper n)) ≤ sfno s n →
      bestChain s n slave.toNat p.excluded = some c →
      ∃ u q, Runs (.pollPeriod port slave) s u ∧ tblFind slave.toNat (plcP u n).nodes = some q ∧ q.poll.isSome = true ∧ q.chain = c ∧ q.polledAt = sfno s n) ∧
    (∀ (slave : BitVec 12) p, plcOn s n = true → plcCoord s n = true → tblFind slave.toNat (plcP s n).nodes = some p → p.poll.isSome = true →
      p.misses + 1 < rd s (plcPollmiss n) →
      Runs (.pollMiss port slave) s (modPlc n (fun v => { v with nodes := tblSet slave.toNat { p with poll := none, misses := p.misses + 1 } v.nodes })
        (bump (plcCnt n 20) s))) ∧
    (∀ (slave : BitVec 12) p, tblFind slave.toNat (plcP s n).nodes = some p → Runs (.chainExclusionEnd port slave) s
      (modPlc n (fun v => { v with nodes := tblSet slave.toNat { p with excluded := p.excluded.filter (fun x => decide (now s < x.2)) } v.nodes }) s))

open Sys2Proof Sys2Proof.Machine Sys2Proof.Obl in
/-- R384, R385, R388 to R391, R393, R396, R404, R406: management messages that pass the checks of the link and are this node's, while Onyx runs. -/
def Obligations.PlcManagementRule : Prop :=
  ∀ (port : Fin 4) (fr : PlcFrame) (s t : State), onyxUp t = true →
    let n := port.val
    let h := fr.hdr
    let v := plcP t n
    (linkInOf true n 5 fr s = (some true, t) → ∀ (uid : BitVec 64) (want : BitVec 12), want ≠ 0xFFF →
      let answer (b : List Byte) (u : State) : State := mgmt n 0xFFF b u
      (plcCoord t n = true → v.resignLeft.isSome = true → Runs (.joinReq port fr uid want) s (answer ([0x03] ++ le 8 uid.toNat ++ le 1 3) t)) ∧
      (plcCoord t n = true → v.resignLeft = none → tblFirst (fun _ p => p.uid == uid) v.nodes = none →
        (256 ≤ v.nodes.length → Runs (.joinReq port fr uid want) s (answer ([0x03] ++ le 8 uid.toNat ++ le 1 1) t)) ∧
        (v.nodes.length < 256 → joinAddr v (plcMe t n) uid.toNat want.toNat = none →
          Runs (.joinReq port fr uid want) s (answer ([0x03] ++ le 8 uid.toNat ++ le 1 2) t)) ∧
        (∀ a, v.nodes.length < 256 → joinAddr v (plcMe t n) uid.toNat want.toNat = some a →
          let p : PNode := { uid := uid, reportAt := sfno t n, missed := 0, nbrs := [], polledAt := 0, misses := 0, chain := [], excluded := [], poll := none }
          Runs (.joinReq port fr uid want) s (answer ([0x02] ++ le 8 uid.toNat ++ le 2 a ++ le 1 (9 - h.ttl.toNat) ++ le 1 v.smgen)
            (recompute n (setPlc n { v with nodes := tblSet a p v.nodes } t))))) ∧
      (plcCoord t n = false → rd t (plcState n) = 3 →
        (h.ttl ≠ 0 → Runs (.joinReq port fr uid want) s
          (relayUnit n 5 { fr with hdr := { h with final := BitVec.ofNat 12 (v.coord.getD 0xFFF) } } ([0x01] ++ le 8 uid.toNat ++ le 2 want.toNat) t)) ∧
        (h.ttl = 0 → Runs (.joinReq port fr uid want) s t))) ∧
    (linkInOf false n 5 fr s = (some true, t) →
      (∀ (uid : BitVec 64) (node : BitVec 12) (hops smgen : BitVec 8) k, v.join = .asked k → uid.toNat = myUid t →
        ∃ u, Runs (.joinAcc port fr uid node hops smgen) s (joinDone n u) ∧ rd u (plcNode n) = node.toNat ∧ rd u (plcHops n) = hops.toNat ∧
          (plcP u n).join = .accepted ∧ (plcP u n).coord = some h.orig.toNat) ∧
      (∀ (uid : BitVec 64) (reason : BitVec 8) k, v.join = .asked k → uid.toNat = myUid t → 1 ≤ reason.toNat → reason.toNat ≤ 3 →
        Runs (.joinRej port fr uid reason) s (modPlc n (fun v => { v with join := .listen 3, cw := 4 }) t)) ∧
      (plcCoord t n = true → Runs (.mgmtLeave port fr) s (recompute n (modPlc n (fun v => { v with nodes := tblDel h.orig.toNat v.nodes }) t))) ∧
      (∀ p (entries : List NbrEntry), plcCoord t n = true → tblFind h.orig.toNat v.nodes = some p → entries.length ≤ 104 → reportMoved p.nbrs entries = false →
        ∃ u q, Runs (.nbrReport port fr entries) s u ∧ tblFind h.orig.toNat (plcP u n).nodes = some q ∧ q.nbrs = entries ∧ q.reportAt = sfno t n ∧ q.missed = 0) ∧
      (∀ entries : List NbrEntry, 104 < entries.length →
        Runs (.nbrReport port fr entries) s (plcViol n 0x0206 1 0xFFFF h.netid.toNat h.txa.toNat (bump (plcCnt n 14) t))) ∧
      (∀ entries : List (BitVec 12 × BitVec 12), plcCoord t n = false → entries.length ≤ 255 → Runs (.routeSet port fr entries) s
        (modPlc n (fun v => { v with routes := entries.foldl (fun r e => tblSet e.1.toNat e.2.toNat r) v.routes }) t)) ∧
      (∀ (smgen part npart : BitVec 8) (bytes : List Byte), plcCoord t n = false → part.toNat < npart.toNat →
        let parts := (v.parts.filter (fun p => p.1 = smgen.toNat ∧ p.2.1 ≠ part.toNat)) ++ [(smgen.toNat, part.toNat, npart.toNat, bytes)]
        (joinParts parts smgen.toNat npart.toNat = none → Runs (.slotmap port fr smgen part npart bytes) s (setPlc n { v with parts := parts } t)) ∧
        (∀ b, joinParts parts smgen.toNat npart.toNat = some b → mapHdrBad b = none → b.length = 8 + 8 * leAt b 0 1 → v.smgen ≠ smgen.toNat →
          Runs (.slotmap port fr smgen part npart bytes) s (setPlc n { v with parts := [], next := some (smgen.toNat, 0, parseMap b) } t))) ∧
      (∀ (tmi : BitVec 8) (sf : BitVec 32) (map : List Byte), 1 ≤ tmi.toNat → tmi.toNat ≤ 15 → map.length = 86 → map.take 1 = [tmi] → plcCoord t n = false →
        toneValid map (bandLo t n) (bandHi t n) = true →
        Runs (.tonemap port fr tmi sf map) s (modPlc n (fun v => { v with pendTones := v.pendTones ++ [(tmi.toNat, sf.toNat, map)] }) t)) ∧
      (∀ lchan peer : BitVec 16, plcCoord t n = true →
        let r : EmReq := { lchan := lchan.toNat, node := h.orig.toNat, peer := peer.toNat % 4096 }
        Runs (.emReq port fr lchan peer) s (tryGrant n (setPlc n (if v.emReqs.contains r then v else { v with emReqs := v.emReqs ++ [r] }) t))) ∧
      (∀ lchan : BitVec 16, plcCoord t n = true →
        let u := setPlc n { v with emReqs := v.emReqs.filter (fun r => !(r.node == h.orig.toNat && r.lchan == lchan.toNat)) } t
        (v.emown = h.orig.toNat → Runs (.emRel port fr lchan) s (tryGrant n (endGrant n u))) ∧ (v.emown ≠ h.orig.toNat → Runs (.emRel port fr lchan) s u)) ∧
      (∀ netid : BitVec 16, plcCoord t n = false → ∃ u, Runs (.plcResign port fr netid) s u ∧ rd u (plcState n) = 2 ∧ (plcP u n).seek = netid.toNat ∧
        (plcP u n).join = .listen 3) ∧
      (∀ (netid : BitVec 16) (sf : BitVec 32), plcCoord t n = true →
        (netid.toNat ≠ rd t (plcNetid n) → Runs (.plcForeign port fr netid sf) s (foreignHeard n netid.toNat 0 t)) ∧
        (netid.toNat = rd t (plcNetid n) → Runs (.plcForeign port fr netid sf) s t)))

open Sys2Proof Sys2Proof.Machine Sys2Proof.Obl in
/-- R389 to R391, R396, R398 to R400, R404, R405: the powerline's timers, each at its limit and not before. -/
def Obligations.PlcTimersRule : Prop :=
  ∀ (port : Fin 4) (s : State), onyxUp s = true →
    let n := port.val
    let v := plcP s n
    (rd s (plcState n) = 3 →
      (rd s (plcBloss n) ≤ v.silent →
        Runs (.beaconLoss port) s (plcAllLost n (let u := wr (plcState n) 4 s; startJoin n (rd u (plcNetid n)) (plcMe u n) u))) ∧
      (v.silent < rd s (plcBloss n) → Runs (.beaconLoss port) s s) ∧
      (v.sinceRep < rd s (plcNbrper n) → Runs (.nbrReportPeriod port) s s) ∧
      (rd s (plcNbrper n) ≤ v.sinceRep → ∃ t, Runs (.nbrReportPeriod port) s t ∧ (plcP t n).sinceRep = 0 ∧
        ∃ u ∈ (plcP t n).txq, u.ft = 5 ∧ u.body.take 1 = [0x05])) ∧
    (v.join = .listen 0 → v.parent.isSome = true → v.bflags % 2 = 1 → rd s (plcState n) ≠ 4 →
      ∃ t, Runs (.joinListenEnd port) s t ∧ rd t (plcState n) = 2 ∧ (plcP t n).join = .asked 4) ∧
    (v.join = .asked 0 → ∃ t, Runs (.joinAnswerWait port) s t ∧ (plcP t n).join = .asked 4 ∧ (plcP t n).cw = min 64 (2 * v.cw)) ∧
    (∀ k, v.join = .asked (k + 1) → Runs (.joinAnswerWait port) s s) ∧
    (∀ (node : BitVec 12) p, plcCoord s n = true → tblFind node.toNat v.nodes = some p →
      (p.reportAt + 4 * rd s (plcNbrper n) ≤ sfno s n →
        Runs (.nodeDrop port node) s (recompute n (setPlc n { v with nodes := tblDel node.toNat v.nodes } s))) ∧
      (sfno s n < p.reportAt + 4 * rd s (plcNbrper n) → Runs (.nodeDrop port node) s s)) ∧
    (∀ (node : BitVec 12) b, tblFind node.toNat v.nbrs = some b →
      (b.heardAt + 64 ≤ sfno s n → plcCoord s n = false → Runs (.linkAbsent port node) s
        (setPlc n { v with nbrs := tblDel node.toNat v.nbrs, parent := if v.parent = some node.toNat then none else v.parent } s)) ∧
      (sfno s n < b.heardAt + 64 → Runs (.linkAbsent port node) s s)) ∧
    (∀ (flow : BitVec 13) f, flow? s flow.toNat = some f → f.fallen = some n → f.out.any (·.sent) = true → plcReady s n = true →
      tblGet v.sentSf flow.toNat 0 + rd s (plcAretry n) ≤ sfno s n →
      (rd s (plcAloss n) ≤ f.misses + 1 → Runs (.plcAssuredRetry port flow) s (plcPathLost flow.toNat s)) ∧
      (f.misses + 1 < rd s (plcAloss n) → ∃ t, Runs (.plcAssuredRetry port flow) s t ∧ tblFind flow.toNat (plcP t n).sentSf = some (sfno s n) ∧
        ∃ g, flow? t flow.toNat = some g ∧ g.misses = f.misses + 1 ∧ g.out = f.out)) ∧
    (plcCoord s n = true → v.emown ≠ 0 →
      (rd s (plcEmidle n) ≤ v.emIdle → Runs (.emergencyGrantIdle port) s (tryGrant n (endGrant n s))) ∧
      (v.emIdle < rd s (plcEmidle n) → Runs (.emergencyGrantIdle port) s s)) ∧
    (∃ t, Runs (.voiceAge port) s t ∧ ∀ u ∈ (plcP t n).txq, u.voice.isSome = true → now s < u.at' + rd s (plcVage n) * 1000) ∧
    (v.resignLeft = some 0 → ∃ t, Runs (.resignAnnouncementEnd port) s t ∧ rd t (plcState n) = 6 ∧ (plcP t n).resigned = true ∧ (plcP t n).nodes = [] ∧
      (plcP t n).seek = v.seek ∧ (plcP t n).join = .listen 3) ∧
    (v.resigned = true → rd s (plcBloss n) ≤ v.quiet → flag s (plcEn n) = true →
      let w : PlcPort := { v with resigned := false, join := .no, parent := none, cost := 0, foreign := [] }
      Runs (.resignedPortRoleResume port) s (plcUp n (wr (plcState n) 5 (wr (plcHops n) 0 (setPlc n w s)))))

/-! ### Opal, TDM, Topaz, Agate, the TAP and timeouts (Chapters 15 to 17, 20 and 7) -/

open Sys2Proof Sys2Proof.Machine Sys2Proof.Obl in
/-- R409, R418, R419, R422, R425 to R427, R431: outputs, losses and returns. An output is made of exactly R_CIC × D inputs; frame sync twice at one place aligns a
port, eight frames without it lose alignment; a lost bit clock takes the port out of timing and its return begins the search again. -/
def Obligations.OpalTdmEventsRule : Prop :=
  ∀ (s : State),
    (∀ (k : Fin 64) (inputs : List Int) (tIn : BitVec 64),
      let i := k.val
      let u := applyPend i s
      domOn s 6 = true → flag s (sscEn i) = true → flag s (sscSdmLost i) = false → rd u (sscSrc i) ≠ 28 →
      (inputs.length = rd u (sscRcic i) * rd u (sscD i) → Runs (.slotOutput k inputs tIn) s (slotOut i inputs tIn.toNat u)) ∧
      (inputs.length ≠ rd u (sscRcic i) * rd u (sscD i) → Runs (.slotOutput k inputs tIn) s s)) ∧
    (∀ (k : Fin 64) (inputs : List Int) (tIn : BitVec 64),
      let i := k.val
      let u := applyPend i s
      let o := slot u i
      let need := rd u (sscRcic i) * rd u (sscD i)
      domOn s 6 = true → flag s (sscEn i) = true → flag s (sscSdmLost i) = false → rd u (sscSrc i) = 28 →
      (o.loop.length < need → Runs (.slotOutput k inputs tIn) s s) ∧
      (need ≤ o.loop.length → ∀ x, (o.loop.take need).getLast? = some x → Runs (.slotOutput k inputs tIn) s
        (slotOut i ((o.loop.take need).map (·.1)) x.2 (setSlot i { o with loop := o.loop.drop need } u)))) ∧
    (∀ (k : Fin 64) (idx : Fin 4) at',
      let o := slot s k.val
      let t := tblGet o.thr idx.val { armed := true, hold := none }
      t.hold = some at' → at' ≤ now s →
        Runs (.thresholdHoldoffEnd k idx) s (setSlot k.val { o with thr := tblSet idx.val { t with hold := none } o.thr } s)) ∧
    (∀ k : Fin 64, flag s (sscEn k.val) = true → rd s (sscSrc k.val) < 24 → flag s (sscSdmLost k.val) = false →
      Runs (.sdmLoss k) s (bump (sscSdmloss k.val) (wr (sscSdmLost k.val) 1 s))) ∧
    (∀ k : Fin 64, flag s (sscSdmLost k.val) = true → Runs (.sdmReturn k) s (restartSettle k.val (wr (sscSdmLost k.val) 0 s))) ∧
    (∀ (port : Fin 16) (bytes : List Byte) (at' : BitVec 64), let p := port.val
      domOn s 6 = true → flag s (tdmEn p) = true → rd s (tdmState p) ≠ 3 → inBand s p = false →
      let sf := frameSlots (rd s (tdmRate p))
      let cur := padTo sf bytes
      let a := rd s (tdmOffset p)
      let first := if a = 0 then at'.toNat else at'.toNat - 125000 + a * 125000 / (8 * sf)
      let u := sendTx p (takeRx p first (rxSlots sf a (tdmPort s p).prev cur) (setTdm p { tdmPort s p with prev := cur } s))
      (intFs s p = true → rd s (tdmState p) = 2 → ∀ fs, Runs (.tdmFrameEnd port fs ⟨bytes, at'⟩) s u) ∧
      (intFs s p = true → rd s (tdmState p) ≠ 2 → ∀ fs, ∃ t, Runs (.tdmFrameEnd port fs ⟨bytes, at'⟩) s t ∧ rd t (tdmState p) = 2 ∧ rd t (tdmOffset p) = 0) ∧
      (∀ fs : BitVec 10, intFs s p = false → rd s (tdmState p) ≠ 2 →
        ((tdmPort s p).prevFs = some fs.toNat →
          ∃ t, Runs (.tdmFrameEnd port (some fs) ⟨bytes, at'⟩) s t ∧ rd t (tdmState p) = 2 ∧ rd t (tdmOffset p) = 0 ∧ (tdmPort t p).prevFs = none) ∧
        ((tdmPort s p).prevFs ≠ some fs.toNat →
          ∃ t, Runs (.tdmFrameEnd port (some fs) ⟨bytes, at'⟩) s t ∧ rd t (tdmState p) = rd s (tdmState p) ∧ (tdmPort t p).prevFs = some fs.toNat ∧
            (tdmPort t p).err = true)) ∧
      (intFs s p = false → rd s (tdmState p) = 2 → Runs (.tdmFrameEnd port (some 0) ⟨bytes, at'⟩) s (setTdm p { tdmPort u p with prevFs := none, miss := 0 } u)) ∧
      (intFs s p = false → rd s (tdmState p) = 2 → (tdmPort s p).miss = 7 →
        ∃ t, Runs (.tdmFrameEnd port none ⟨bytes, at'⟩) s t ∧ rd t (tdmState p) = 0 ∧ (tdmPort t p).miss = 0 ∧ (tdmPort t p).err = true)) ∧
    (∀ port : Fin 16, let p := port.val
      (flag s (tdmEn p) = true → intClk s p = false → rd s (tdmState p) ≠ 3 →
        ∃ t, Runs (.tdmClockLost port) s t ∧ rd t (tdmState p) = 3 ∧ rd t (tdmCand p) = 0 ∧ (tdmPort t p).err = true ∧ (tdmPort t p).cands = []) ∧
      (rd s (tdmState p) = 3 → Runs (.tdmClockReturn port) s (wr (tdmState p) 0 s)) ∧
      (∀ at', (tdmPort s p).settleAt = some at' → at' ≤ now s →
        let u := setTdm p { tdmPort s p with settleAt := none } s
        Runs (.tdmEnableSettled port) s (finishWait (.tdm p) stOk [if rd s (tdmState p) = 2 then 1 else 0] u)))

open Sys2Proof Sys2Proof.Machine Sys2Proof.Obl in
/-- R133, R218, R302, R432, R433, R435, R437, R439, R440, R445 to R449, R453: Topaz. The next job for a free engine starts under its lease, with its chain list
read; one that the gate turns away ends with ERR LEASE; a job gives way to one of lower-numbered PRIO; a job that nothing upsets ends as its input, OP, WRAP, EFFORT,
FLAGS, context and chain alone have it, and its output is in the entries of its chain. A due segment is closed under the next number, and the lowest segment not
written goes to its buffer and its ring. -/
def Obligations.TopazEventsRule : Prop :=
  ∀ (eng : Fin 4) (s : State),
    let e := eng.val
    (domOn s 7 = true → s.pwr.safe = false → jobOn s e = none → ∀ chain : Dma,
      (nextJob s e = none → Runs (.topazJobStart eng chain) s s) ∧
      (∀ j l, nextJob s e = some j → j.lease = some l →
        let fail (err : Nat) : State := endJobAs j err 0 (ctxOf s j.ctx).check [] (ctxOf s j.ctx) s
        (jobGate s j = false → Runs (.topazJobStart eng chain) s (fail 0x51)) ∧
        (jobGate s j = true → j.ents.isSome = true → Runs (.topazJobStart eng chain) s (setJob { j with eng := some e } s)) ∧
        (jobGate s j = true → j.ents = none → j.inline = [] →
          Runs (.topazJobStart eng .error) s (fail 0x50) ∧
          (∀ b, chainEnts j.nchain (padTo (16 * j.nchain) b) = none → Runs (.topazJobStart eng (.data b)) s (fail 3)) ∧
          (∀ b ls, chainEnts j.nchain (padTo (16 * j.nchain) b) = some ls →
            Runs (.topazJobStart eng (.data b)) s (setCtx j.ctx (jobCtx j) (setJob { j with eng := some e, ents := some ls } s)))) ∧
        (∀ ls, jobGate s j = true → j.ents = none → j.inline ≠ [] → chainEnts j.nchain (padTo (16 * j.nchain) j.inline) = some ls →
          Runs (.topazJobStart eng chain) s (setCtx j.ctx (jobCtx j) (setJob { j with eng := some e, ents := some ls } s))))) ∧
    (s.pwr.safe = true → (∀ chain, Runs (.topazJobStart eng chain) s s) ∧ Runs (.topazYield eng) s s ∧ ∀ r, Runs (.topazJobEnd eng r) s s) ∧
    (∀ j, jobOn s e = some j → s.pwr.safe = false →
      ((∃ k ∈ s.tpz.jobs, k.eng = none ∧ k.op = j.op ∧ k.prio < j.prio) → Runs (.topazYield eng) s (bump (tpzCnt 4) (setJob { j with eng := none } s))) ∧
      ((∀ k ∈ s.tpz.jobs, k.eng = none → k.op = j.op → j.prio ≤ k.prio) → s.onyx.thermal < 2 → Runs (.topazYield eng) s s) ∧
      (jobGate s j = true →
        (∀ src d, jobData j src = some d →
          let r := jobRun j.op j.wrap j.effort j.flags j.saved d (chainRoom j)
          Runs (.topazJobEnd eng { src := src, upset := .none }) s (endJobAs j r.err (jobIn j.srclen r) r.ctx.check r.out r.ctx s) ∧
          (∀ i o : BitVec 32, ∃ c, Runs (.topazJobEnd eng { src := src, upset := .memUe i o }) s
            (endJobAs j 0x50 (min i.toNat (jobIn j.srclen r)) c (r.out.take o.toNat) r.ctx (tookFree s)))) ∧
        (∀ u, jobData j .error = none → Runs (.topazJobEnd eng { src := .error, upset := u }) s (cutJob j 0x50 none s)) ∧
        (∀ src d, jobData j src = some d → j.op ≠ 0 ∨ j.flags / 2 % 2 = 0 →
          Runs (.topazJobEnd eng { src := src, upset := .verifyCheck }) s s ∧
          ∀ i o : BitVec 32, Runs (.topazJobEnd eng { src := src, upset := .verifyData i o }) s s)) ∧
      (∀ (r : TpzEnd) l ep, jobGate s j = false → j.lease = some (l, ep) → Runs (.topazJobEnd eng r) s (cutJob j 0x51 (jobData j r.src) (leaseDenied l s)))) ∧
    (∀ (rec : BitVec 8) r i u, tblFind rec.toNat s.voice.recs = some r → onyxUp s = true → domOn s 7 = true → s.pwr.safe = false → s.onyx.thermal < 2 →
      (retakeCtx s).voice.recCtx.isSome = true → s.ledger.tail = none → segDue s r = true → r.closed.length < 4 → admitted 1 1 s = true → ∀ failed again : Bool,
      let s0 := retakeCtx s
      let num := s0.host.segNum + 1
      let data := segBytes rec.toNat num r (segMeta (failed && again) (r.buflen - 64 - r.bytes) s0) s0
      ledgerAccept 4 0xFF (rec.toNat * 0x100 + num.toNat % 65536 * 0x1000000 + num.toNat / 65536 * 2 ^ 40) 1 rec.toNat (crc32c data) false false
        (tookFree (tookFree s0)) = (some i, u) →
      ∃ t g, Runs (.segmentClose rec failed again) s t ∧ t.host.segNum = num ∧ g ∈ t.host.segs ∧ g.num = num ∧ g.lref = i ∧ g.written = false ∧
        g.recorder = rec.toNat ∧ g.data = data ∧ g.len = data.length) ∧
    (∀ g, s.host.segs.find? (fun g => !g.written) = some g → onyxUp s = true →
      (ringOpen s g.queue = true → bufFree s g = true →
        Runs (.segmentWrite false) s (stopQueue g.queue 2 (aerNonFatal s)) ∧
        (∃ t, Runs (.segmentWrite true) s t ∧ t.host.segLast = (if later32 g.num s.host.segLast then g.num else s.host.segLast) ∧
          t.hostMem.bytes = memRows g.addr.toNat g.data s.hostMem.bytes ∧ ∀ x ∈ t.host.segs, x.num = g.num → x.written = true)) ∧
      (ringOpen s g.queue = false ∨ bufFree s g = false → ∀ w, Runs (.segmentWrite w) s s))

open Sys2Proof Sys2Proof.Machine Sys2Proof.Obl in
/-- R177, R457 to R461, R464, R505, R533, R534: field test slices, corrected errors, the TAP and timeouts. A slice starts while nothing forbids it and ends with the
next one at least 8 ms later; a row is counted and pending at AGT_CETHR; a pad-controlling instruction takes the balls only while RESET_N is low; a command whose
timeout has come ends with TIMEOUT, but not an OO command that has begun its irreversible step. -/
def Obligations.AgateTapTimeoutRule : Prop :=
  ∀ (s : State),
    (∀ r rest, s.agt.runs = r :: rest → r.since = none → r.pauseEnd = none →
      (r.notBefore ≤ now s → s.onyx.thermal < 2 → s.pwr.safe = false → s.pwr.hib = .awake →
        (∀ n, r.result = some n → ∃ t, Runs .agateSliceStart s t ∧ t.agt.runs = { r with since := some (now s) } :: rest ∧ rd t agtBusy = 1 ∧
          rd t agtInslice = 1 ∧ rd t agtResultNo = n.toNat) ∧
        (r.result = none → onyxUp s = true → ∃ t n x k, Runs .agateSliceStart s t ∧
          t.agt.runs = { r with result := some n, prev := x, since := some k } :: rest ∧ rd t agtBusy = 1 ∧ rd t agtInslice = 1)) ∧
      (now s < r.notBefore ∨ 2 ≤ s.onyx.thermal ∨ s.pwr.safe = true → Runs .agateSliceStart s s)) ∧
    (∀ r rest t0 n (fails : List FailCell) (bad : Bool), s.agt.runs = r :: rest → r.since = some t0 → r.result = some n →
      let d := sliceOf s r
      let r' := sliceRun s t0 fails bad r
      (∀ pause fin, now s < sliceEnds t0 d ∨ pause ≠ d.pause ∨ fin ≠ d.fin → Runs (.agateSliceEnd pause fin fails bad) s s) ∧
      (sliceEnds t0 d ≤ now s →
        r'.since = none ∧ r'.notBefore = sliceEnds t0 d + 8000 ∧ r'.cells = r.cells ++ fails ∧
        (d.fin = false → d.pause = false → ∃ t, Runs (.agateSliceEnd false false fails bad) s t ∧ t.agt.runs = r' :: rest ∧ r'.pauseEnd = none ∧
          rd t agtInslice = 0 ∧ rd t agtInpause = 0) ∧
        (d.fin = false → d.pause = true → ∃ t, Runs (.agateSliceEnd true false fails bad) s t ∧ t.agt.runs = r' :: rest ∧
          r'.pauseEnd = some (sliceEnds t0 d + 1000 * rd s agtPause) ∧ rd t agtInslice = 0 ∧ rd t agtInpause = 1) ∧
        (d.fin = true → ∃ t, Runs (.agateSliceEnd d.pause true fails bad) s (runEnd r' n t) ∧ t.agt.runs = r' :: rest))) ∧
    (∀ r rest k, s.agt.runs = r :: rest → r.pauseEnd = some k → k ≤ now s →
      Runs .retentionPauseEnd s (wr agtInpause 0 { s with agt := { s.agt with runs := { r with pauseEnd := none } :: rest } })) ∧
    (∀ (mac row : BitVec 16) d, macroDomain mac.toNat = some d → domOn s d = true →
      let mine : CeRow → Bool := fun r => r.mac == mac.toNat && r.row == row.toNat
      (s.agt.rows.find? mine = none → 64 ≤ s.agt.rows.length → Runs (.correctedErrorReport mac row) s (wr agtCetrkOvf 1 s)) ∧
      (s.agt.rows.find? mine = none → s.agt.rows.length < 64 → 1 < rd s agtCethr → Runs (.correctedErrorReport mac row) s
        (wr agtCetrkN (s.agt.rows.length + 1)
          { s with agt := { s.agt with rows := s.agt.rows ++ [{ mac := mac.toNat, row := row.toNat, count := 1, pending := false }] } })) ∧
      (∀ r, s.agt.rows.find? mine = some r → r.pending = false →
        let cnt (p : Bool) : State :=
          { s with agt := { s.agt with rows := s.agt.rows.map (fun x => if mine x then { x with count := r.count + 1, pending := p } else x) } }
        (r.count + 1 < rd s agtCethr → Runs (.correctedErrorReport mac row) s (cnt false)) ∧
        (rd s agtCethr ≤ r.count + 1 →
          Runs (.correctedErrorReport mac row) s (journal 0x106 0x68 8 mac.toNat row.toNat [] (bump agtPending (cnt true)))))) ∧
    (∀ ir : BitVec 8, ∃ t, Runs (.tapInstructionUpdate ir) s t ∧ t.tap = { ir := ir, pads := padControlling ir && resetLow s } ∧
      t.boot.tapHold = (padControlling ir && resetLow s) ∧ (t.boot.tapHold = true → t.pwr.faultN = true ∧ rd t coreEn = 1)) ∧
    Runs .testLogicReset s { s with tap := { ir := 1, pads := false }, boot := { s.boot with tapHold := false } } ∧
    (∀ (q : Fin 4) (seq : BitVec 16) c d, cmdAt s q.val seq = some c → c.started.isSome = true → c.fin = none → c.deadline = some d →
      (d ≤ now s → c.idem ≠ .oo ∨ (c.wait = .fuse ∧ s.boot.fuseWait ≠ []) → onyxUp s = true →
        Runs (.commandTimeout q seq) s (recTidy (finish c stTimeout [] (undo c s)))) ∧
      (now s < d ∨ (c.idem = .oo ∧ c.wait ≠ .fuse) ∨ onyxUp s = false → Runs (.commandTimeout q seq) s s))

/-! ### The block as a whole -/

open Sys2Proof Sys2Proof.Machine Sys2Proof.Obl in
/-- The block's queue: a step runs the command at the front on the state with the queue's rest; on an empty queue a microsecond goes by (log 11, the model's
choice). -/
def Obligations.StepRunsFrontCommand : Prop :=
  (∀ (c : Instr) (rest : List Instr) (s : State), step { s with pending := c :: rest } = exec c { s with pending := rest }) ∧
  (∀ s : State, s.pending = [] → step s = .next (idleTick s)) ∧
  (∀ s : State, s.pending = [] → s.time.refRun = true → s.pwr.hib = .awake ∨ s.pwr.hib = .armed → (tickUs s).time.usec = s.time.usec + 1) ∧
  (∀ s : State, s.time.refRun = false → (tickUs s).time.usec = s.time.usec ∧ (tickUs s).time.rtb = s.time.rtb)

open Sys2Proof Sys2Proof.Machine Sys2Proof.Obl in
/-- R72, R104, R108, R134, R537 and Tables 3.8, 3.9, 4.9 and 8.9: right after POR. RTB is zero and UNSYNCED with the nominal addend and no anchor; CORE_EN and
FAULT_N are low; every lease is FREE; the ledger, the journal and the command queue are empty; registers read their reset values; no memory lists a cell. -/
def Obligations.ResetState : Prop :=
  let s := State.reset
  s.pending = [] ∧ s.time.rtb = 0 ∧ s.time.addend = 0x0100000000 ∧ s.time.anchor = none ∧ s.time.usec = 0 ∧ s.time.ao = 0 ∧
    rd s rtbState = 0 ∧ rd s rtbSrc = 0 ∧ rd s coreEn = 0 ∧ s.pwr.faultN = true ∧ s.pwr.safe = false ∧ s.boot.step = 0 ∧ s.onyx.phase = .off ∧
    (∀ n, (lease s n).state = 0) ∧ s.ledger.entries = [] ∧ s.journal.recs = [] ∧ s.journal.nextSeq = 1 ∧ s.claims = [] ∧ s.host.cmds = [] ∧
    rdW s (rk 9 0x24) = 200 ∧ rdW s (rk 9 0x34) = 100 ∧ rdW s (rk 9 0x38) = 1000 ∧ rdW s (rk 9 0x3C) = 3000 ∧ rdW s (rk 9 0x40) = 300 ∧
    rdW s (rk 9 0x1C) = 1 ∧ rdW s (rk 8 0x60) = 2 ∧ rdW s (rk 7 0x1C) = 2000 ∧ rdW s (rk 7 0x20) = 0x80000004 ∧ State.memWf s = true

open Sys2Proof Sys2Proof.Machine Sys2Proof.Obl in
/-- R146, R174, R175: what happens to a host command at its acceptance. While commands are not served it stays; out of sequence it is refused with BAD_SEQUENCE under
the expected sequence; the first check that fails refuses it, and the ledger records nothing; accepted while an earlier command on one of its objects stands, it
waits. -/
def Obligations.HostCommandAdmission : Prop :=
  ∀ (h : Hdr) (i : Instr) (sp : Spec) (s : State), exec i s = .next (scp h i sp s) →
    let q := h.queue.val
    let no (seq : BitVec 16) (r : Rej) : State := refuse (newCmd h i sp.info sp.objs seq) r s
    (served s = false → Runs i s s) ∧
    (served s = true → cmdAt s q h.seq = none → inWindow q (queue s q).exp s = true →
      ((queue s q).exp ≠ h.seq → Runs i s (no (queue s q).exp (rej stBadSequence))) ∧
      ((queue s q).exp = h.seq → ∀ r, scpCheck h sp s = some r → Runs i s (no h.seq r) ∧ (no h.seq r).ledger = s.ledger) ∧
      ((queue s q).exp = h.seq → scpCheck h sp s = none → ∀ c, cmdAt (acceptCmd h i sp s) q h.seq = some c →
        blocked c (acceptCmd h i sp s) = true → Runs i s (acceptCmd h i sp s))) ∧
    (∀ r, sp.par = some r → scpCheck h sp s = some r) ∧
    (sp.par = none → h.emerg = true → h.queue ≠ 0 → scpCheck h sp s = some (badParam 0xFFFF))

open Sys2Proof Sys2Proof.Machine in
/-- The spec gives every command of the table an effect, if it be none in a state that does not take it (R9, R174): every form of every command, in every
state, is answered with a next state. No form faults and none is refused; what the next state holds the other statements say. -/
def Obligations.EveryCommandAnswersNext : Prop :=
  (∀ (i : Instr) (s : State), ∃ t, exec i s = .next t) ∧ (∀ s : State, ∃ t, step s = .next t)

open Sys2Proof Sys2Proof.Machine Sys2Proof.Obl in
/-- R34: the port that an item enters by writes SRC with its unit's own ID, and a SRC that the unit supplies is ignored. -/
def Obligations.PortWritesSource : Prop :=
  ∀ (port x : BitVec 8) (wh : WH) (payload : List Byte) (s : State),
    exec (.itemEntersFabric port { wh with src := x } payload) s = exec (.itemEntersFabric port wh payload) s ∧
    (∀ d, unitDomain port.toNat = some d → domOn s d = true → s.fab.wait = [] →
      let i : Item := { wh := { wh with src := port }, payload := payload }
      sendCause s i.wh = none → mayEnter s port.toNat i = true →
        ∃ t, Runs (.itemEntersFabric port { wh with src := x } payload) s t ∧ t.fab.flight = s.fab.flight ++ [i]) ∧
    (∀ n : Fin 48, unitDomain (0x10 + n.val) = some (8 + n.val / 12))

open Sys2Proof Sys2Proof.Machine Sys2Proof.Obl in
/-- The memories (DDR, cluster shared memory, DMEM, flash, and of host memory what the device has written) keep their canonical form, so that equal memories
are equal data: a retiring Garnet instruction, a Spinel transfer, an item written into DMEM, an engine's output, and the cells themselves. -/
def Obligations.MemoriesStayCanonical : Prop :=
  ∀ (s : State), State.memWf s = true →
    (∀ n a w, State.memWf (dmemPut n a w s) = true) ∧
    (∀ cl space a b, State.memWf (remotePut cl space a b s) = true) ∧
    (∀ n i, State.memWf (coreItem n i s) = true) ∧
    (∀ n (w : GWrites), w.io = [] → w.gov = 0 → State.memWf (complete n w s) = true) ∧
    (∀ a (b : List Byte), State.memWf { s with boot := { s.boot with flash := cellsPut 0xFF s.boot.flash a b } } = true) ∧
    (∀ a (b : List Byte), State.memWf (memPut a b s) = true)

open Sys2Proof Sys2Proof.Machine Sys2Proof.Obl in
/-- R142, R169 and Tables 7.7 to 7.16: packing a host command into the opcode and parameter bytes of its entry, and reading that entry, gives the command back, with
every operand at every value. KRN_LOAD and TPZ_CTX_RESTORE are accepted by their own rows (log 81). -/
def Obligations.HostCommandsRoundTrip : Prop :=
  ∀ (i : Instr) (p : Packed), canonical i = true → pack i = some p → ∃ r, readCmd p.op p.hdr p.params = some r ∧ r.instr = i

/-! ### Statements that join two or more of the above -/

/-- R242, R243, R245, R256, R262: the accumulator instructions and the MAC issue. -/
def Obligations.GarnetAccumulatorAndMacComplete : Prop := Sys2Proof.Obl.GarnetAccumulatorCompletes ∧ Sys2Proof.Obl.GarnetMacCompletes

/-- R263, R264, R266, R267, R271: branches with their delay slot, hardware loops, and the return from a trap. -/
def Obligations.GarnetControlFlowCompletes : Prop := Sys2Proof.Obl.GarnetBranchCompletes ∧ Sys2Proof.Obl.GarnetLoopCompletes ∧ Sys2Proof.Obl.GarnetReturnCompletes

/-- R236, R257, R268, R269, R272, R276, R279: system instructions, and what a core gives to and takes from its ports. -/
def Obligations.GarnetSystemAndIoComplete : Prop := Sys2Proof.Obl.GarnetSystemCompletes ∧ Sys2Proof.Obl.GarnetCoreIoCompletes

/-- R168, R178, R179, R517, R518: device commands, and the choice of the discipline source. -/
def Obligations.DeviceCommandsComplete : Prop := Sys2Proof.Obl.DeviceCommandsEnd ∧ Sys2Proof.Obl.RtbCfgEnds

/-- R124 to R128, R471: image slots and eFuse operations by command. -/
def Obligations.ImageAndFuseCommandsComplete : Prop := Sys2Proof.Obl.ImageSlotCommandsEnd ∧ Sys2Proof.Obl.FuseCommandsBegin

/-- R85, R91, R104, R178: resets and domain switching by command. -/
def Obligations.ResetAndDomainCommandsComplete : Prop := Sys2Proof.Obl.ResetCommandsReset ∧ Sys2Proof.Obl.DomainPowerWaits

/-- R185, R410, R413 to R415, R418, R419, R421, R423, R425, R428: the commands of Opal and of the TDM ports. -/
def Obligations.OpalAndTdmCommandsComplete : Prop := Sys2Proof.Obl.OpalCommandsComplete ∧ Sys2Proof.Obl.TdmCommandsComplete

/-- R204 to R208, R213, R216 to R218, R220, R221: renewal and expiry of leases, the ledger port, and the Sealer. -/
def Obligations.LeaseAndLedgerRule : Prop := Sys2Proof.Obl.LeaseRenewAndExpiry ∧ Sys2Proof.Obl.LedgerPortRule ∧ Sys2Proof.Obl.SealerRule

/-- R104, R106, R108: what each kind of reset keeps and clears. -/
def Obligations.ResetKindsRule : Prop := Sys2Proof.Obl.PorAndColdResetClear ∧ Sys2Proof.Obl.WarmAndDomainReset

/-- R109 to R117, R121, R122, R130, R136, R460, R471: the steps of a start, their watchdog, and an eFuse operation that ends. -/
def Obligations.BootSequenceRule : Prop := Sys2Proof.Obl.BootStepsPass ∧ Sys2Proof.Obl.BootWatchdogRule ∧ Sys2Proof.Obl.FuseProgramDoneRule

/-- R85 to R88, R94, R95, R97 to R100: the power sequencer, hibernate and the scrubber. -/
def Obligations.PowerAndHibernateRule : Prop := Sys2Proof.Obl.PowerSequencerRule ∧ Sys2Proof.Obl.HibernateAndScrub

/-- R34, R37 to R44: items on the fabric, and those it rejects. -/
def Obligations.FabricRule : Prop := Sys2Proof.Obl.FabricItemRule ∧ Sys2Proof.Obl.RejectionCounted

/-- R20, R251, R289, R290, R306, R308: the schedule, the urgent lane and the job watchdog. -/
def Obligations.ScheduleAndJobsRule : Prop := Sys2Proof.Obl.ScheduleRule ∧ Sys2Proof.Obl.JobLaneAndWatchdog
end

