-- ==== Sys2Proof/Laws/Tables.lean ====
section
/-! SUPPORT. Laws of tables and memory cells: a read after a write, and the canonical form that every write keeps. -/

namespace Sys2Proof.Machine

theorem tblFind_set_same {α : Type} (k : Nat) (v : α) (t : Tbl α) : tblFind k (tblSet k v t) = some v := by
  induction t with
  | nil => simp [tblSet, tblFind]
  | cons e t ih =>
    obtain ⟨j, w⟩ := e
    simp only [tblSet]
    split
    · simp [tblFind]
    · split
      · simp [tblFind]
      · rename_i h1 h2
        simp [tblFind, h2, ih]

theorem tblFind_set_other {α : Type} (k j : Nat) (v : α) (t : Tbl α) (h : j ≠ k) : tblFind j (tblSet k v t) = tblFind j t := by
  induction t with
  | nil => simp [tblSet, tblFind, Ne.symm h]
  | cons e t ih =>
    obtain ⟨i, w⟩ := e
    simp only [tblSet]
    split
    · simp [tblFind, Ne.symm h]
    · split
      · rename_i h1 h2
        subst h2
        simp [tblFind, Ne.symm h]
      · simp only [tblFind, ih]

@[simp] theorem tblGet_set_same {α : Type} (k : Nat) (v d : α) (t : Tbl α) : tblGet (tblSet k v t) k d = v := by
  simp [tblGet, tblFind_set_same]

theorem tblGet_set_other {α : Type} (k j : Nat) (v d : α) (t : Tbl α) (h : j ≠ k) :
    tblGet (tblSet k v t) j d = tblGet t j d := by
  simp [tblGet, tblFind_set_other k j v t h]

theorem tblFind_del_same {α : Type} (k : Nat) (t : Tbl α) : tblFind k (tblDel k t) = none := by
  induction t with
  | nil => rfl
  | cons e t ih =>
    obtain ⟨i, w⟩ := e
    simp only [tblDel]
    split
    · exact ih
    · rename_i h
      simp [tblFind, h, ih]

theorem tblFind_del_other {α : Type} (k j : Nat) (t : Tbl α) (h : j ≠ k) : tblFind j (tblDel k t) = tblFind j t := by
  induction t with
  | nil => rfl
  | cons e t ih =>
    obtain ⟨i, w⟩ := e
    simp only [tblDel]
    split
    · rename_i hi
      subst hi
      simp [tblFind, Ne.symm h, ih]
    · simp only [tblFind, ih]

/-! ### The canonical form -/

/-- The numbers of the table are all above `l`, and rising. -/
theorem sorted_above {α : Type} (l j : Nat) (v : α) (t : Tbl α) :
    tblSortedFrom (some l) ((j, v) :: t) = (decide (l < j) && tblSortedFrom (some j) t) := rfl

theorem sorted_weaken {α : Type} (l m : Nat) (t : Tbl α) (h : l ≤ m) (ht : tblSortedFrom (some m) t = true) :
    tblSortedFrom (some l) t = true := by
  cases t with
  | nil => rfl
  | cons e t =>
    obtain ⟨j, w⟩ := e
    simp only [tblSortedFrom, Bool.and_eq_true, decide_eq_true_eq] at ht ⊢
    exact ⟨by omega, ht.2⟩

theorem sorted_none {α : Type} (l : Nat) (t : Tbl α) (ht : tblSortedFrom (some l) t = true) : tblSortedFrom none t = true := by
  cases t with
  | nil => rfl
  | cons e t =>
    obtain ⟨j, w⟩ := e
    simp only [tblSortedFrom, Bool.and_eq_true] at ht ⊢
    exact ht.2

theorem set_sorted {α : Type} (k : Nat) (v : α) (t : Tbl α) (l : Nat) (hl : l < k) (ht : tblSortedFrom (some l) t = true) :
    tblSortedFrom (some l) (tblSet k v t) = true := by
  induction t generalizing l with
  | nil => simp [tblSet, tblSortedFrom, hl]
  | cons e t ih =>
    obtain ⟨j, w⟩ := e
    simp only [tblSortedFrom, Bool.and_eq_true, decide_eq_true_eq] at ht
    simp only [tblSet]
    split
    · rename_i h
      simp [tblSortedFrom, hl, h, ht.2]
    · split
      · rename_i h1 h2
        subst h2
        simp [tblSortedFrom, hl, ht.2]
      · rename_i h1 h2
        simp only [tblSortedFrom, Bool.and_eq_true, decide_eq_true_eq]
        exact ⟨ht.1, ih j (by omega) ht.2⟩

theorem set_sorted_none {α : Type} (k : Nat) (v : α) (t : Tbl α) (ht : tblSortedFrom none t = true) :
    tblSortedFrom none (tblSet k v t) = true := by
  cases t with
  | nil => rfl
  | cons e t =>
    obtain ⟨j, w⟩ := e
    simp only [tblSortedFrom] at ht
    simp only [tblSet]
    split
    · rename_i h
      simp [tblSortedFrom, h, ht]
    · split
      · rename_i h1 h2
        subst h2
        simpa [tblSortedFrom] using ht
      · rename_i h1 h2
        simpa only [tblSortedFrom] using set_sorted k v t j (by omega) ht

theorem del_sorted {α : Type} (k : Nat) (t : Tbl α) (l : Nat) (ht : tblSortedFrom (some l) t = true) :
    tblSortedFrom (some l) (tblDel k t) = true := by
  induction t generalizing l with
  | nil => rfl
  | cons e t ih =>
    obtain ⟨j, w⟩ := e
    simp only [tblSortedFrom, Bool.and_eq_true, decide_eq_true_eq] at ht
    simp only [tblDel]
    split
    · exact ih l (sorted_weaken l j t (by omega) ht.2)
    · simp only [tblSortedFrom, Bool.and_eq_true, decide_eq_true_eq]
      exact ⟨ht.1, ih j ht.2⟩

theorem del_sorted_none {α : Type} (k : Nat) (t : Tbl α) (ht : tblSortedFrom none t = true) :
    tblSortedFrom none (tblDel k t) = true := by
  cases t with
  | nil => rfl
  | cons e t =>
    obtain ⟨j, w⟩ := e
    simp only [tblSortedFrom] at ht
    simp only [tblDel]
    split
    · exact sorted_none j _ (del_sorted k t j ht)
    · simpa only [tblSortedFrom] using del_sorted k t j ht

theorem any_set {α : Type} (p : Nat → α → Bool) (k : Nat) (v : α) (t : Tbl α) (hv : p k v = false) (ht : tblAny p t = false) :
    tblAny p (tblSet k v t) = false := by
  induction t with
  | nil => simp [tblSet, tblAny, hv]
  | cons e t ih =>
    obtain ⟨j, w⟩ := e
    simp only [tblAny, Bool.or_eq_false_iff] at ht
    simp only [tblSet]
    split
    · simp [tblAny, hv, ht]
    · split
      · simp [tblAny, hv, ht.2]
      · simp [tblAny, ht.1, ih ht.2]

theorem any_del {α : Type} (p : Nat → α → Bool) (k : Nat) (t : Tbl α) (ht : tblAny p t = false) : tblAny p (tblDel k t) = false := by
  induction t with
  | nil => rfl
  | cons e t ih =>
    obtain ⟨j, w⟩ := e
    simp only [tblAny, Bool.or_eq_false_iff] at ht
    simp only [tblDel]
    split
    · exact ih ht.2
    · simp [tblAny, ht.1, ih ht.2]

/-- Writing one cell keeps the canonical form. -/
theorem cellPut_wf {α : Type} [DecidableEq α] (d : α) (t : Tbl α) (a : Nat) (v : α) (h : cellsWf d t = true) :
    cellsWf d (cellPut d t a v) = true := by
  simp only [cellsWf, Bool.and_eq_true, Bool.not_eq_true'] at h ⊢
  unfold cellPut
  split
  · exact ⟨del_sorted_none a t h.1, any_del _ a t h.2⟩
  · rename_i hv
    exact ⟨set_sorted_none a v t h.1, any_set _ a v t (by simp [hv]) h.2⟩

/-- Writing consecutive cells keeps the canonical form. -/
theorem cellsPut_wf {α : Type} [DecidableEq α] (d : α) (t : Tbl α) (a : Nat) (vs : List α) (h : cellsWf d t = true) :
    cellsWf d (cellsPut d t a vs) = true := by
  induction vs generalizing t a with
  | nil => exact h
  | cons v vs ih => exact ih _ _ (cellPut_wf d t a v h)

/-- A cell reads as what was last written there. -/
@[simp] theorem cellPut_get_same {α : Type} [DecidableEq α] (d : α) (t : Tbl α) (a : Nat) (v : α) :
    tblGet (cellPut d t a v) a d = v := by
  unfold cellPut
  split
  · rename_i h
    simp [tblGet, tblFind_del_same, h]
  · simp

/-- A write leaves every other cell alone. -/
theorem cellPut_get_other {α : Type} [DecidableEq α] (d : α) (t : Tbl α) (a b : Nat) (v : α) (h : b ≠ a) :
    tblGet (cellPut d t a v) b d = tblGet t b d := by
  unfold cellPut
  split
  · simp [tblGet, tblFind_del_other a b t h]
  · exact tblGet_set_other a b v d t h

/-- A write of consecutive cells leaves every cell outside them alone. -/
theorem cellsPut_get_outside {α : Type} [DecidableEq α] (d : α) (t : Tbl α) (a b : Nat) (vs : List α)
    (h : b < a ∨ a + vs.length ≤ b) : tblGet (cellsPut d t a vs) b d = tblGet t b d := by
  induction vs generalizing t a with
  | nil => rfl
  | cons v vs ih =>
    simp only [List.length_cons] at h
    simp only [cellsPut]
    rw [ih (cellPut d t a v) (a + 1) (by omega), cellPut_get_other d t a b v (by omega)]

/-- Reading back consecutive cells gives what was written. -/
theorem cellsGet_put {α : Type} [DecidableEq α] (d : α) (t : Tbl α) (a : Nat) (vs : List α) :
    cellsGet d (cellsPut d t a vs) a vs.length = vs := by
  induction vs generalizing t a with
  | nil => rfl
  | cons v vs ih =>
    simp only [cellsPut, List.length_cons, cellsGet]
    rw [ih, cellsPut_get_outside d _ (a + 1) a vs (by omega), cellPut_get_same]

end Sys2Proof.Machine
end

