-- ==== Sys2Proof/Laws/Blocks.lean ====
section
/-! SUPPORT. The plain updates of one part of a block: each changes its own field of State and no other, and the part reads as it was last set,
every other part as before. -/

namespace Sys2Proof.Machine

@[simp] theorem setCore_pending (n : Nat) (c : CoreSt) (s : State) : (setCore n c s).pending = s.pending := rfl
@[simp] theorem setCore_free (n : Nat) (c : CoreSt) (s : State) : (setCore n c s).free = s.free := rfl
@[simp] theorem setCore_regs (n : Nat) (c : CoreSt) (s : State) : (setCore n c s).regs = s.regs := rfl
@[simp] theorem setCore_time (n : Nat) (c : CoreSt) (s : State) : (setCore n c s).time = s.time := rfl
@[simp] theorem setCore_pwr (n : Nat) (c : CoreSt) (s : State) : (setCore n c s).pwr = s.pwr := rfl
@[simp] theorem setCore_boot (n : Nat) (c : CoreSt) (s : State) : (setCore n c s).boot = s.boot := rfl
@[simp] theorem setCore_host (n : Nat) (c : CoreSt) (s : State) : (setCore n c s).host = s.host := rfl
@[simp] theorem setCore_ledger (n : Nat) (c : CoreSt) (s : State) : (setCore n c s).ledger = s.ledger := rfl
@[simp] theorem setCore_leases (n : Nat) (c : CoreSt) (s : State) : (setCore n c s).leases = s.leases := rfl
@[simp] theorem setCore_claims (n : Nat) (c : CoreSt) (s : State) : (setCore n c s).claims = s.claims := rfl
@[simp] theorem setCore_journal (n : Nat) (c : CoreSt) (s : State) : (setCore n c s).journal = s.journal := rfl
@[simp] theorem setCore_pvl (n : Nat) (c : CoreSt) (s : State) : (setCore n c s).pvl = s.pvl := rfl
@[simp] theorem setCore_onyx (n : Nat) (c : CoreSt) (s : State) : (setCore n c s).onyx = s.onyx := rfl
@[simp] theorem setCore_fab (n : Nat) (c : CoreSt) (s : State) : (setCore n c s).fab = s.fab := rfl
@[simp] theorem setCore_voice (n : Nat) (c : CoreSt) (s : State) : (setCore n c s).voice = s.voice := rfl
@[simp] theorem setCore_net (n : Nat) (c : CoreSt) (s : State) : (setCore n c s).net = s.net := rfl
@[simp] theorem setCore_plc (n : Nat) (c : CoreSt) (s : State) : (setCore n c s).plc = s.plc := rfl
@[simp] theorem setCore_opal (n : Nat) (c : CoreSt) (s : State) : (setCore n c s).opal = s.opal := rfl
@[simp] theorem setCore_tdm (n : Nat) (c : CoreSt) (s : State) : (setCore n c s).tdm = s.tdm := rfl
@[simp] theorem setCore_tpz (n : Nat) (c : CoreSt) (s : State) : (setCore n c s).tpz = s.tpz := rfl
@[simp] theorem setCore_hostMem (n : Nat) (c : CoreSt) (s : State) : (setCore n c s).hostMem = s.hostMem := rfl
@[simp] theorem setCore_agt (n : Nat) (c : CoreSt) (s : State) : (setCore n c s).agt = s.agt := rfl
@[simp] theorem setCore_tap (n : Nat) (c : CoreSt) (s : State) : (setCore n c s).tap = s.tap := rfl
@[simp] theorem setCore_shadow (n : Nat) (c : CoreSt) (s : State) : (setCore n c s).shadow = s.shadow := rfl

@[simp] theorem setChan_pending (n : Nat) (c : Chan) (s : State) : (setChan n c s).pending = s.pending := rfl
@[simp] theorem setChan_free (n : Nat) (c : Chan) (s : State) : (setChan n c s).free = s.free := rfl
@[simp] theorem setChan_regs (n : Nat) (c : Chan) (s : State) : (setChan n c s).regs = s.regs := rfl
@[simp] theorem setChan_time (n : Nat) (c : Chan) (s : State) : (setChan n c s).time = s.time := rfl
@[simp] theorem setChan_pwr (n : Nat) (c : Chan) (s : State) : (setChan n c s).pwr = s.pwr := rfl
@[simp] theorem setChan_boot (n : Nat) (c : Chan) (s : State) : (setChan n c s).boot = s.boot := rfl
@[simp] theorem setChan_host (n : Nat) (c : Chan) (s : State) : (setChan n c s).host = s.host := rfl
@[simp] theorem setChan_ledger (n : Nat) (c : Chan) (s : State) : (setChan n c s).ledger = s.ledger := rfl
@[simp] theorem setChan_leases (n : Nat) (c : Chan) (s : State) : (setChan n c s).leases = s.leases := rfl
@[simp] theorem setChan_claims (n : Nat) (c : Chan) (s : State) : (setChan n c s).claims = s.claims := rfl
@[simp] theorem setChan_journal (n : Nat) (c : Chan) (s : State) : (setChan n c s).journal = s.journal := rfl
@[simp] theorem setChan_pvl (n : Nat) (c : Chan) (s : State) : (setChan n c s).pvl = s.pvl := rfl
@[simp] theorem setChan_onyx (n : Nat) (c : Chan) (s : State) : (setChan n c s).onyx = s.onyx := rfl
@[simp] theorem setChan_fab (n : Nat) (c : Chan) (s : State) : (setChan n c s).fab = s.fab := rfl
@[simp] theorem setChan_gar (n : Nat) (c : Chan) (s : State) : (setChan n c s).gar = s.gar := rfl
@[simp] theorem setChan_net (n : Nat) (c : Chan) (s : State) : (setChan n c s).net = s.net := rfl
@[simp] theorem setChan_plc (n : Nat) (c : Chan) (s : State) : (setChan n c s).plc = s.plc := rfl
@[simp] theorem setChan_opal (n : Nat) (c : Chan) (s : State) : (setChan n c s).opal = s.opal := rfl
@[simp] theorem setChan_tdm (n : Nat) (c : Chan) (s : State) : (setChan n c s).tdm = s.tdm := rfl
@[simp] theorem setChan_tpz (n : Nat) (c : Chan) (s : State) : (setChan n c s).tpz = s.tpz := rfl
@[simp] theorem setChan_hostMem (n : Nat) (c : Chan) (s : State) : (setChan n c s).hostMem = s.hostMem := rfl
@[simp] theorem setChan_agt (n : Nat) (c : Chan) (s : State) : (setChan n c s).agt = s.agt := rfl
@[simp] theorem setChan_tap (n : Nat) (c : Chan) (s : State) : (setChan n c s).tap = s.tap := rfl
@[simp] theorem setChan_shadow (n : Nat) (c : Chan) (s : State) : (setChan n c s).shadow = s.shadow := rfl

@[simp] theorem setGroup_pending (g : Nat) (v : Group) (s : State) : (setGroup g v s).pending = s.pending := rfl
@[simp] theorem setGroup_free (g : Nat) (v : Group) (s : State) : (setGroup g v s).free = s.free := rfl
@[simp] theorem setGroup_regs (g : Nat) (v : Group) (s : State) : (setGroup g v s).regs = s.regs := rfl
@[simp] theorem setGroup_time (g : Nat) (v : Group) (s : State) : (setGroup g v s).time = s.time := rfl
@[simp] theorem setGroup_pwr (g : Nat) (v : Group) (s : State) : (setGroup g v s).pwr = s.pwr := rfl
@[simp] theorem setGroup_boot (g : Nat) (v : Group) (s : State) : (setGroup g v s).boot = s.boot := rfl
@[simp] theorem setGroup_host (g : Nat) (v : Group) (s : State) : (setGroup g v s).host = s.host := rfl
@[simp] theorem setGroup_ledger (g : Nat) (v : Group) (s : State) : (setGroup g v s).ledger = s.ledger := rfl
@[simp] theorem setGroup_leases (g : Nat) (v : Group) (s : State) : (setGroup g v s).leases = s.leases := rfl
@[simp] theorem setGroup_claims (g : Nat) (v : Group) (s : State) : (setGroup g v s).claims = s.claims := rfl
@[simp] theorem setGroup_journal (g : Nat) (v : Group) (s : State) : (setGroup g v s).journal = s.journal := rfl
@[simp] theorem setGroup_pvl (g : Nat) (v : Group) (s : State) : (setGroup g v s).pvl = s.pvl := rfl
@[simp] theorem setGroup_onyx (g : Nat) (v : Group) (s : State) : (setGroup g v s).onyx = s.onyx := rfl
@[simp] theorem setGroup_fab (g : Nat) (v : Group) (s : State) : (setGroup g v s).fab = s.fab := rfl
@[simp] theorem setGroup_gar (g : Nat) (v : Group) (s : State) : (setGroup g v s).gar = s.gar := rfl
@[simp] theorem setGroup_net (g : Nat) (v : Group) (s : State) : (setGroup g v s).net = s.net := rfl
@[simp] theorem setGroup_plc (g : Nat) (v : Group) (s : State) : (setGroup g v s).plc = s.plc := rfl
@[simp] theorem setGroup_opal (g : Nat) (v : Group) (s : State) : (setGroup g v s).opal = s.opal := rfl
@[simp] theorem setGroup_tdm (g : Nat) (v : Group) (s : State) : (setGroup g v s).tdm = s.tdm := rfl
@[simp] theorem setGroup_tpz (g : Nat) (v : Group) (s : State) : (setGroup g v s).tpz = s.tpz := rfl
@[simp] theorem setGroup_hostMem (g : Nat) (v : Group) (s : State) : (setGroup g v s).hostMem = s.hostMem := rfl
@[simp] theorem setGroup_agt (g : Nat) (v : Group) (s : State) : (setGroup g v s).agt = s.agt := rfl
@[simp] theorem setGroup_tap (g : Nat) (v : Group) (s : State) : (setGroup g v s).tap = s.tap := rfl
@[simp] theorem setGroup_shadow (g : Nat) (v : Group) (s : State) : (setGroup g v s).shadow = s.shadow := rfl

@[simp] theorem setRec_pending (r : Nat) (v : Recorder) (s : State) : (setRec r v s).pending = s.pending := rfl
@[simp] theorem setRec_free (r : Nat) (v : Recorder) (s : State) : (setRec r v s).free = s.free := rfl
@[simp] theorem setRec_regs (r : Nat) (v : Recorder) (s : State) : (setRec r v s).regs = s.regs := rfl
@[simp] theorem setRec_time (r : Nat) (v : Recorder) (s : State) : (setRec r v s).time = s.time := rfl
@[simp] theorem setRec_pwr (r : Nat) (v : Recorder) (s : State) : (setRec r v s).pwr = s.pwr := rfl
@[simp] theorem setRec_boot (r : Nat) (v : Recorder) (s : State) : (setRec r v s).boot = s.boot := rfl
@[simp] theorem setRec_host (r : Nat) (v : Recorder) (s : State) : (setRec r v s).host = s.host := rfl
@[simp] theorem setRec_ledger (r : Nat) (v : Recorder) (s : State) : (setRec r v s).ledger = s.ledger := rfl
@[simp] theorem setRec_leases (r : Nat) (v : Recorder) (s : State) : (setRec r v s).leases = s.leases := rfl
@[simp] theorem setRec_claims (r : Nat) (v : Recorder) (s : State) : (setRec r v s).claims = s.claims := rfl
@[simp] theorem setRec_journal (r : Nat) (v : Recorder) (s : State) : (setRec r v s).journal = s.journal := rfl
@[simp] theorem setRec_pvl (r : Nat) (v : Recorder) (s : State) : (setRec r v s).pvl = s.pvl := rfl
@[simp] theorem setRec_onyx (r : Nat) (v : Recorder) (s : State) : (setRec r v s).onyx = s.onyx := rfl
@[simp] theorem setRec_fab (r : Nat) (v : Recorder) (s : State) : (setRec r v s).fab = s.fab := rfl
@[simp] theorem setRec_gar (r : Nat) (v : Recorder) (s : State) : (setRec r v s).gar = s.gar := rfl
@[simp] theorem setRec_net (r : Nat) (v : Recorder) (s : State) : (setRec r v s).net = s.net := rfl
@[simp] theorem setRec_plc (r : Nat) (v : Recorder) (s : State) : (setRec r v s).plc = s.plc := rfl
@[simp] theorem setRec_opal (r : Nat) (v : Recorder) (s : State) : (setRec r v s).opal = s.opal := rfl
@[simp] theorem setRec_tdm (r : Nat) (v : Recorder) (s : State) : (setRec r v s).tdm = s.tdm := rfl
@[simp] theorem setRec_tpz (r : Nat) (v : Recorder) (s : State) : (setRec r v s).tpz = s.tpz := rfl
@[simp] theorem setRec_hostMem (r : Nat) (v : Recorder) (s : State) : (setRec r v s).hostMem = s.hostMem := rfl
@[simp] theorem setRec_agt (r : Nat) (v : Recorder) (s : State) : (setRec r v s).agt = s.agt := rfl
@[simp] theorem setRec_tap (r : Nat) (v : Recorder) (s : State) : (setRec r v s).tap = s.tap := rfl
@[simp] theorem setRec_shadow (r : Nat) (v : Recorder) (s : State) : (setRec r v s).shadow = s.shadow := rfl

@[simp] theorem setSched_pending (v : SchedSt) (s : State) : (setSched v s).pending = s.pending := rfl
@[simp] theorem setSched_free (v : SchedSt) (s : State) : (setSched v s).free = s.free := rfl
@[simp] theorem setSched_regs (v : SchedSt) (s : State) : (setSched v s).regs = s.regs := rfl
@[simp] theorem setSched_time (v : SchedSt) (s : State) : (setSched v s).time = s.time := rfl
@[simp] theorem setSched_pwr (v : SchedSt) (s : State) : (setSched v s).pwr = s.pwr := rfl
@[simp] theorem setSched_boot (v : SchedSt) (s : State) : (setSched v s).boot = s.boot := rfl
@[simp] theorem setSched_host (v : SchedSt) (s : State) : (setSched v s).host = s.host := rfl
@[simp] theorem setSched_ledger (v : SchedSt) (s : State) : (setSched v s).ledger = s.ledger := rfl
@[simp] theorem setSched_leases (v : SchedSt) (s : State) : (setSched v s).leases = s.leases := rfl
@[simp] theorem setSched_claims (v : SchedSt) (s : State) : (setSched v s).claims = s.claims := rfl
@[simp] theorem setSched_journal (v : SchedSt) (s : State) : (setSched v s).journal = s.journal := rfl
@[simp] theorem setSched_pvl (v : SchedSt) (s : State) : (setSched v s).pvl = s.pvl := rfl
@[simp] theorem setSched_onyx (v : SchedSt) (s : State) : (setSched v s).onyx = s.onyx := rfl
@[simp] theorem setSched_fab (v : SchedSt) (s : State) : (setSched v s).fab = s.fab := rfl
@[simp] theorem setSched_gar (v : SchedSt) (s : State) : (setSched v s).gar = s.gar := rfl
@[simp] theorem setSched_net (v : SchedSt) (s : State) : (setSched v s).net = s.net := rfl
@[simp] theorem setSched_plc (v : SchedSt) (s : State) : (setSched v s).plc = s.plc := rfl
@[simp] theorem setSched_opal (v : SchedSt) (s : State) : (setSched v s).opal = s.opal := rfl
@[simp] theorem setSched_tdm (v : SchedSt) (s : State) : (setSched v s).tdm = s.tdm := rfl
@[simp] theorem setSched_tpz (v : SchedSt) (s : State) : (setSched v s).tpz = s.tpz := rfl
@[simp] theorem setSched_hostMem (v : SchedSt) (s : State) : (setSched v s).hostMem = s.hostMem := rfl
@[simp] theorem setSched_agt (v : SchedSt) (s : State) : (setSched v s).agt = s.agt := rfl
@[simp] theorem setSched_tap (v : SchedSt) (s : State) : (setSched v s).tap = s.tap := rfl
@[simp] theorem setSched_shadow (v : SchedSt) (s : State) : (setSched v s).shadow = s.shadow := rfl

@[simp] theorem setRej_pending (p : Nat) (r : RejPort) (s : State) : (setRej p r s).pending = s.pending := rfl
@[simp] theorem setRej_free (p : Nat) (r : RejPort) (s : State) : (setRej p r s).free = s.free := rfl
@[simp] theorem setRej_regs (p : Nat) (r : RejPort) (s : State) : (setRej p r s).regs = s.regs := rfl
@[simp] theorem setRej_time (p : Nat) (r : RejPort) (s : State) : (setRej p r s).time = s.time := rfl
@[simp] theorem setRej_pwr (p : Nat) (r : RejPort) (s : State) : (setRej p r s).pwr = s.pwr := rfl
@[simp] theorem setRej_boot (p : Nat) (r : RejPort) (s : State) : (setRej p r s).boot = s.boot := rfl
@[simp] theorem setRej_host (p : Nat) (r : RejPort) (s : State) : (setRej p r s).host = s.host := rfl
@[simp] theorem setRej_ledger (p : Nat) (r : RejPort) (s : State) : (setRej p r s).ledger = s.ledger := rfl
@[simp] theorem setRej_leases (p : Nat) (r : RejPort) (s : State) : (setRej p r s).leases = s.leases := rfl
@[simp] theorem setRej_claims (p : Nat) (r : RejPort) (s : State) : (setRej p r s).claims = s.claims := rfl
@[simp] theorem setRej_journal (p : Nat) (r : RejPort) (s : State) : (setRej p r s).journal = s.journal := rfl
@[simp] theorem setRej_pvl (p : Nat) (r : RejPort) (s : State) : (setRej p r s).pvl = s.pvl := rfl
@[simp] theorem setRej_onyx (p : Nat) (r : RejPort) (s : State) : (setRej p r s).onyx = s.onyx := rfl
@[simp] theorem setRej_gar (p : Nat) (r : RejPort) (s : State) : (setRej p r s).gar = s.gar := rfl
@[simp] theorem setRej_voice (p : Nat) (r : RejPort) (s : State) : (setRej p r s).voice = s.voice := rfl
@[simp] theorem setRej_net (p : Nat) (r : RejPort) (s : State) : (setRej p r s).net = s.net := rfl
@[simp] theorem setRej_plc (p : Nat) (r : RejPort) (s : State) : (setRej p r s).plc = s.plc := rfl
@[simp] theorem setRej_opal (p : Nat) (r : RejPort) (s : State) : (setRej p r s).opal = s.opal := rfl
@[simp] theorem setRej_tdm (p : Nat) (r : RejPort) (s : State) : (setRej p r s).tdm = s.tdm := rfl
@[simp] theorem setRej_tpz (p : Nat) (r : RejPort) (s : State) : (setRej p r s).tpz = s.tpz := rfl
@[simp] theorem setRej_hostMem (p : Nat) (r : RejPort) (s : State) : (setRej p r s).hostMem = s.hostMem := rfl
@[simp] theorem setRej_agt (p : Nat) (r : RejPort) (s : State) : (setRej p r s).agt = s.agt := rfl
@[simp] theorem setRej_tap (p : Nat) (r : RejPort) (s : State) : (setRej p r s).tap = s.tap := rfl
@[simp] theorem setRej_shadow (p : Nat) (r : RejPort) (s : State) : (setRej p r s).shadow = s.shadow := rfl

@[simp] theorem offer_pending (i : Item) (s : State) : (offer i s).pending = s.pending := rfl
@[simp] theorem offer_free (i : Item) (s : State) : (offer i s).free = s.free := rfl
@[simp] theorem offer_regs (i : Item) (s : State) : (offer i s).regs = s.regs := rfl
@[simp] theorem offer_time (i : Item) (s : State) : (offer i s).time = s.time := rfl
@[simp] theorem offer_pwr (i : Item) (s : State) : (offer i s).pwr = s.pwr := rfl
@[simp] theorem offer_boot (i : Item) (s : State) : (offer i s).boot = s.boot := rfl
@[simp] theorem offer_host (i : Item) (s : State) : (offer i s).host = s.host := rfl
@[simp] theorem offer_ledger (i : Item) (s : State) : (offer i s).ledger = s.ledger := rfl
@[simp] theorem offer_leases (i : Item) (s : State) : (offer i s).leases = s.leases := rfl
@[simp] theorem offer_claims (i : Item) (s : State) : (offer i s).claims = s.claims := rfl
@[simp] theorem offer_journal (i : Item) (s : State) : (offer i s).journal = s.journal := rfl
@[simp] theorem offer_pvl (i : Item) (s : State) : (offer i s).pvl = s.pvl := rfl
@[simp] theorem offer_onyx (i : Item) (s : State) : (offer i s).onyx = s.onyx := rfl
@[simp] theorem offer_gar (i : Item) (s : State) : (offer i s).gar = s.gar := rfl
@[simp] theorem offer_voice (i : Item) (s : State) : (offer i s).voice = s.voice := rfl
@[simp] theorem offer_net (i : Item) (s : State) : (offer i s).net = s.net := rfl
@[simp] theorem offer_plc (i : Item) (s : State) : (offer i s).plc = s.plc := rfl
@[simp] theorem offer_opal (i : Item) (s : State) : (offer i s).opal = s.opal := rfl
@[simp] theorem offer_tdm (i : Item) (s : State) : (offer i s).tdm = s.tdm := rfl
@[simp] theorem offer_tpz (i : Item) (s : State) : (offer i s).tpz = s.tpz := rfl
@[simp] theorem offer_hostMem (i : Item) (s : State) : (offer i s).hostMem = s.hostMem := rfl
@[simp] theorem offer_agt (i : Item) (s : State) : (offer i s).agt = s.agt := rfl
@[simp] theorem offer_tap (i : Item) (s : State) : (offer i s).tap = s.tap := rfl
@[simp] theorem offer_shadow (i : Item) (s : State) : (offer i s).shadow = s.shadow := rfl

@[simp] theorem setFlow_pending (n : Nat) (f : Flow) (s : State) : (setFlow n f s).pending = s.pending := rfl
@[simp] theorem setFlow_free (n : Nat) (f : Flow) (s : State) : (setFlow n f s).free = s.free := rfl
@[simp] theorem setFlow_regs (n : Nat) (f : Flow) (s : State) : (setFlow n f s).regs = s.regs := rfl
@[simp] theorem setFlow_time (n : Nat) (f : Flow) (s : State) : (setFlow n f s).time = s.time := rfl
@[simp] theorem setFlow_pwr (n : Nat) (f : Flow) (s : State) : (setFlow n f s).pwr = s.pwr := rfl
@[simp] theorem setFlow_boot (n : Nat) (f : Flow) (s : State) : (setFlow n f s).boot = s.boot := rfl
@[simp] theorem setFlow_host (n : Nat) (f : Flow) (s : State) : (setFlow n f s).host = s.host := rfl
@[simp] theorem setFlow_ledger (n : Nat) (f : Flow) (s : State) : (setFlow n f s).ledger = s.ledger := rfl
@[simp] theorem setFlow_leases (n : Nat) (f : Flow) (s : State) : (setFlow n f s).leases = s.leases := rfl
@[simp] theorem setFlow_claims (n : Nat) (f : Flow) (s : State) : (setFlow n f s).claims = s.claims := rfl
@[simp] theorem setFlow_journal (n : Nat) (f : Flow) (s : State) : (setFlow n f s).journal = s.journal := rfl
@[simp] theorem setFlow_pvl (n : Nat) (f : Flow) (s : State) : (setFlow n f s).pvl = s.pvl := rfl
@[simp] theorem setFlow_onyx (n : Nat) (f : Flow) (s : State) : (setFlow n f s).onyx = s.onyx := rfl
@[simp] theorem setFlow_fab (n : Nat) (f : Flow) (s : State) : (setFlow n f s).fab = s.fab := rfl
@[simp] theorem setFlow_gar (n : Nat) (f : Flow) (s : State) : (setFlow n f s).gar = s.gar := rfl
@[simp] theorem setFlow_voice (n : Nat) (f : Flow) (s : State) : (setFlow n f s).voice = s.voice := rfl
@[simp] theorem setFlow_plc (n : Nat) (f : Flow) (s : State) : (setFlow n f s).plc = s.plc := rfl
@[simp] theorem setFlow_opal (n : Nat) (f : Flow) (s : State) : (setFlow n f s).opal = s.opal := rfl
@[simp] theorem setFlow_tdm (n : Nat) (f : Flow) (s : State) : (setFlow n f s).tdm = s.tdm := rfl
@[simp] theorem setFlow_tpz (n : Nat) (f : Flow) (s : State) : (setFlow n f s).tpz = s.tpz := rfl
@[simp] theorem setFlow_hostMem (n : Nat) (f : Flow) (s : State) : (setFlow n f s).hostMem = s.hostMem := rfl
@[simp] theorem setFlow_agt (n : Nat) (f : Flow) (s : State) : (setFlow n f s).agt = s.agt := rfl
@[simp] theorem setFlow_tap (n : Nat) (f : Flow) (s : State) : (setFlow n f s).tap = s.tap := rfl
@[simp] theorem setFlow_shadow (n : Nat) (f : Flow) (s : State) : (setFlow n f s).shadow = s.shadow := rfl

@[simp] theorem setEth_pending (p : Nat) (v : EthPort) (s : State) : (setEth p v s).pending = s.pending := rfl
@[simp] theorem setEth_free (p : Nat) (v : EthPort) (s : State) : (setEth p v s).free = s.free := rfl
@[simp] theorem setEth_regs (p : Nat) (v : EthPort) (s : State) : (setEth p v s).regs = s.regs := rfl
@[simp] theorem setEth_time (p : Nat) (v : EthPort) (s : State) : (setEth p v s).time = s.time := rfl
@[simp] theorem setEth_pwr (p : Nat) (v : EthPort) (s : State) : (setEth p v s).pwr = s.pwr := rfl
@[simp] theorem setEth_boot (p : Nat) (v : EthPort) (s : State) : (setEth p v s).boot = s.boot := rfl
@[simp] theorem setEth_host (p : Nat) (v : EthPort) (s : State) : (setEth p v s).host = s.host := rfl
@[simp] theorem setEth_ledger (p : Nat) (v : EthPort) (s : State) : (setEth p v s).ledger = s.ledger := rfl
@[simp] theorem setEth_leases (p : Nat) (v : EthPort) (s : State) : (setEth p v s).leases = s.leases := rfl
@[simp] theorem setEth_claims (p : Nat) (v : EthPort) (s : State) : (setEth p v s).claims = s.claims := rfl
@[simp] theorem setEth_journal (p : Nat) (v : EthPort) (s : State) : (setEth p v s).journal = s.journal := rfl
@[simp] theorem setEth_pvl (p : Nat) (v : EthPort) (s : State) : (setEth p v s).pvl = s.pvl := rfl
@[simp] theorem setEth_onyx (p : Nat) (v : EthPort) (s : State) : (setEth p v s).onyx = s.onyx := rfl
@[simp] theorem setEth_fab (p : Nat) (v : EthPort) (s : State) : (setEth p v s).fab = s.fab := rfl
@[simp] theorem setEth_gar (p : Nat) (v : EthPort) (s : State) : (setEth p v s).gar = s.gar := rfl
@[simp] theorem setEth_voice (p : Nat) (v : EthPort) (s : State) : (setEth p v s).voice = s.voice := rfl
@[simp] theorem setEth_plc (p : Nat) (v : EthPort) (s : State) : (setEth p v s).plc = s.plc := rfl
@[simp] theorem setEth_opal (p : Nat) (v : EthPort) (s : State) : (setEth p v s).opal = s.opal := rfl
@[simp] theorem setEth_tdm (p : Nat) (v : EthPort) (s : State) : (setEth p v s).tdm = s.tdm := rfl
@[simp] theorem setEth_tpz (p : Nat) (v : EthPort) (s : State) : (setEth p v s).tpz = s.tpz := rfl
@[simp] theorem setEth_hostMem (p : Nat) (v : EthPort) (s : State) : (setEth p v s).hostMem = s.hostMem := rfl
@[simp] theorem setEth_agt (p : Nat) (v : EthPort) (s : State) : (setEth p v s).agt = s.agt := rfl
@[simp] theorem setEth_tap (p : Nat) (v : EthPort) (s : State) : (setEth p v s).tap = s.tap := rfl
@[simp] theorem setEth_shadow (p : Nat) (v : EthPort) (s : State) : (setEth p v s).shadow = s.shadow := rfl

@[simp] theorem setPlc_pending (n : Nat) (v : PlcPort) (s : State) : (setPlc n v s).pending = s.pending := rfl
@[simp] theorem setPlc_free (n : Nat) (v : PlcPort) (s : State) : (setPlc n v s).free = s.free := rfl
@[simp] theorem setPlc_regs (n : Nat) (v : PlcPort) (s : State) : (setPlc n v s).regs = s.regs := rfl
@[simp] theorem setPlc_time (n : Nat) (v : PlcPort) (s : State) : (setPlc n v s).time = s.time := rfl
@[simp] theorem setPlc_pwr (n : Nat) (v : PlcPort) (s : State) : (setPlc n v s).pwr = s.pwr := rfl
@[simp] theorem setPlc_boot (n : Nat) (v : PlcPort) (s : State) : (setPlc n v s).boot = s.boot := rfl
@[simp] theorem setPlc_host (n : Nat) (v : PlcPort) (s : State) : (setPlc n v s).host = s.host := rfl
@[simp] theorem setPlc_ledger (n : Nat) (v : PlcPort) (s : State) : (setPlc n v s).ledger = s.ledger := rfl
@[simp] theorem setPlc_leases (n : Nat) (v : PlcPort) (s : State) : (setPlc n v s).leases = s.leases := rfl
@[simp] theorem setPlc_claims (n : Nat) (v : PlcPort) (s : State) : (setPlc n v s).claims = s.claims := rfl
@[simp] theorem setPlc_journal (n : Nat) (v : PlcPort) (s : State) : (setPlc n v s).journal = s.journal := rfl
@[simp] theorem setPlc_pvl (n : Nat) (v : PlcPort) (s : State) : (setPlc n v s).pvl = s.pvl := rfl
@[simp] theorem setPlc_onyx (n : Nat) (v : PlcPort) (s : State) : (setPlc n v s).onyx = s.onyx := rfl
@[simp] theorem setPlc_fab (n : Nat) (v : PlcPort) (s : State) : (setPlc n v s).fab = s.fab := rfl
@[simp] theorem setPlc_gar (n : Nat) (v : PlcPort) (s : State) : (setPlc n v s).gar = s.gar := rfl
@[simp] theorem setPlc_voice (n : Nat) (v : PlcPort) (s : State) : (setPlc n v s).voice = s.voice := rfl
@[simp] theorem setPlc_net (n : Nat) (v : PlcPort) (s : State) : (setPlc n v s).net = s.net := rfl
@[simp] theorem setPlc_opal (n : Nat) (v : PlcPort) (s : State) : (setPlc n v s).opal = s.opal := rfl
@[simp] theorem setPlc_tdm (n : Nat) (v : PlcPort) (s : State) : (setPlc n v s).tdm = s.tdm := rfl
@[simp] theorem setPlc_tpz (n : Nat) (v : PlcPort) (s : State) : (setPlc n v s).tpz = s.tpz := rfl
@[simp] theorem setPlc_hostMem (n : Nat) (v : PlcPort) (s : State) : (setPlc n v s).hostMem = s.hostMem := rfl
@[simp] theorem setPlc_agt (n : Nat) (v : PlcPort) (s : State) : (setPlc n v s).agt = s.agt := rfl
@[simp] theorem setPlc_tap (n : Nat) (v : PlcPort) (s : State) : (setPlc n v s).tap = s.tap := rfl
@[simp] theorem setPlc_shadow (n : Nat) (v : PlcPort) (s : State) : (setPlc n v s).shadow = s.shadow := rfl

@[simp] theorem setFall_pending (p : Nat) (c : FallCfg) (s : State) : (setFall p c s).pending = s.pending := rfl
@[simp] theorem setFall_free (p : Nat) (c : FallCfg) (s : State) : (setFall p c s).free = s.free := rfl
@[simp] theorem setFall_regs (p : Nat) (c : FallCfg) (s : State) : (setFall p c s).regs = s.regs := rfl
@[simp] theorem setFall_time (p : Nat) (c : FallCfg) (s : State) : (setFall p c s).time = s.time := rfl
@[simp] theorem setFall_pwr (p : Nat) (c : FallCfg) (s : State) : (setFall p c s).pwr = s.pwr := rfl
@[simp] theorem setFall_boot (p : Nat) (c : FallCfg) (s : State) : (setFall p c s).boot = s.boot := rfl
@[simp] theorem setFall_host (p : Nat) (c : FallCfg) (s : State) : (setFall p c s).host = s.host := rfl
@[simp] theorem setFall_ledger (p : Nat) (c : FallCfg) (s : State) : (setFall p c s).ledger = s.ledger := rfl
@[simp] theorem setFall_leases (p : Nat) (c : FallCfg) (s : State) : (setFall p c s).leases = s.leases := rfl
@[simp] theorem setFall_claims (p : Nat) (c : FallCfg) (s : State) : (setFall p c s).claims = s.claims := rfl
@[simp] theorem setFall_journal (p : Nat) (c : FallCfg) (s : State) : (setFall p c s).journal = s.journal := rfl
@[simp] theorem setFall_pvl (p : Nat) (c : FallCfg) (s : State) : (setFall p c s).pvl = s.pvl := rfl
@[simp] theorem setFall_onyx (p : Nat) (c : FallCfg) (s : State) : (setFall p c s).onyx = s.onyx := rfl
@[simp] theorem setFall_fab (p : Nat) (c : FallCfg) (s : State) : (setFall p c s).fab = s.fab := rfl
@[simp] theorem setFall_gar (p : Nat) (c : FallCfg) (s : State) : (setFall p c s).gar = s.gar := rfl
@[simp] theorem setFall_voice (p : Nat) (c : FallCfg) (s : State) : (setFall p c s).voice = s.voice := rfl
@[simp] theorem setFall_net (p : Nat) (c : FallCfg) (s : State) : (setFall p c s).net = s.net := rfl
@[simp] theorem setFall_opal (p : Nat) (c : FallCfg) (s : State) : (setFall p c s).opal = s.opal := rfl
@[simp] theorem setFall_tdm (p : Nat) (c : FallCfg) (s : State) : (setFall p c s).tdm = s.tdm := rfl
@[simp] theorem setFall_tpz (p : Nat) (c : FallCfg) (s : State) : (setFall p c s).tpz = s.tpz := rfl
@[simp] theorem setFall_hostMem (p : Nat) (c : FallCfg) (s : State) : (setFall p c s).hostMem = s.hostMem := rfl
@[simp] theorem setFall_agt (p : Nat) (c : FallCfg) (s : State) : (setFall p c s).agt = s.agt := rfl
@[simp] theorem setFall_tap (p : Nat) (c : FallCfg) (s : State) : (setFall p c s).tap = s.tap := rfl
@[simp] theorem setFall_shadow (p : Nat) (c : FallCfg) (s : State) : (setFall p c s).shadow = s.shadow := rfl

@[simp] theorem setSlot_pending (i : Nat) (o : OSlot) (s : State) : (setSlot i o s).pending = s.pending := rfl
@[simp] theorem setSlot_free (i : Nat) (o : OSlot) (s : State) : (setSlot i o s).free = s.free := rfl
@[simp] theorem setSlot_regs (i : Nat) (o : OSlot) (s : State) : (setSlot i o s).regs = s.regs := rfl
@[simp] theorem setSlot_time (i : Nat) (o : OSlot) (s : State) : (setSlot i o s).time = s.time := rfl
@[simp] theorem setSlot_pwr (i : Nat) (o : OSlot) (s : State) : (setSlot i o s).pwr = s.pwr := rfl
@[simp] theorem setSlot_boot (i : Nat) (o : OSlot) (s : State) : (setSlot i o s).boot = s.boot := rfl
@[simp] theorem setSlot_host (i : Nat) (o : OSlot) (s : State) : (setSlot i o s).host = s.host := rfl
@[simp] theorem setSlot_ledger (i : Nat) (o : OSlot) (s : State) : (setSlot i o s).ledger = s.ledger := rfl
@[simp] theorem setSlot_leases (i : Nat) (o : OSlot) (s : State) : (setSlot i o s).leases = s.leases := rfl
@[simp] theorem setSlot_claims (i : Nat) (o : OSlot) (s : State) : (setSlot i o s).claims = s.claims := rfl
@[simp] theorem setSlot_journal (i : Nat) (o : OSlot) (s : State) : (setSlot i o s).journal = s.journal := rfl
@[simp] theorem setSlot_pvl (i : Nat) (o : OSlot) (s : State) : (setSlot i o s).pvl = s.pvl := rfl
@[simp] theorem setSlot_onyx (i : Nat) (o : OSlot) (s : State) : (setSlot i o s).onyx = s.onyx := rfl
@[simp] theorem setSlot_fab (i : Nat) (o : OSlot) (s : State) : (setSlot i o s).fab = s.fab := rfl
@[simp] theorem setSlot_gar (i : Nat) (o : OSlot) (s : State) : (setSlot i o s).gar = s.gar := rfl
@[simp] theorem setSlot_voice (i : Nat) (o : OSlot) (s : State) : (setSlot i o s).voice = s.voice := rfl
@[simp] theorem setSlot_net (i : Nat) (o : OSlot) (s : State) : (setSlot i o s).net = s.net := rfl
@[simp] theorem setSlot_plc (i : Nat) (o : OSlot) (s : State) : (setSlot i o s).plc = s.plc := rfl
@[simp] theorem setSlot_tdm (i : Nat) (o : OSlot) (s : State) : (setSlot i o s).tdm = s.tdm := rfl
@[simp] theorem setSlot_tpz (i : Nat) (o : OSlot) (s : State) : (setSlot i o s).tpz = s.tpz := rfl
@[simp] theorem setSlot_hostMem (i : Nat) (o : OSlot) (s : State) : (setSlot i o s).hostMem = s.hostMem := rfl
@[simp] theorem setSlot_agt (i : Nat) (o : OSlot) (s : State) : (setSlot i o s).agt = s.agt := rfl
@[simp] theorem setSlot_tap (i : Nat) (o : OSlot) (s : State) : (setSlot i o s).tap = s.tap := rfl
@[simp] theorem setSlot_shadow (i : Nat) (o : OSlot) (s : State) : (setSlot i o s).shadow = s.shadow := rfl

@[simp] theorem setTdm_pending (p : Nat) (v : TdmPort) (s : State) : (setTdm p v s).pending = s.pending := rfl
@[simp] theorem setTdm_free (p : Nat) (v : TdmPort) (s : State) : (setTdm p v s).free = s.free := rfl
@[simp] theorem setTdm_regs (p : Nat) (v : TdmPort) (s : State) : (setTdm p v s).regs = s.regs := rfl
@[simp] theorem setTdm_time (p : Nat) (v : TdmPort) (s : State) : (setTdm p v s).time = s.time := rfl
@[simp] theorem setTdm_pwr (p : Nat) (v : TdmPort) (s : State) : (setTdm p v s).pwr = s.pwr := rfl
@[simp] theorem setTdm_boot (p : Nat) (v : TdmPort) (s : State) : (setTdm p v s).boot = s.boot := rfl
@[simp] theorem setTdm_host (p : Nat) (v : TdmPort) (s : State) : (setTdm p v s).host = s.host := rfl
@[simp] theorem setTdm_ledger (p : Nat) (v : TdmPort) (s : State) : (setTdm p v s).ledger = s.ledger := rfl
@[simp] theorem setTdm_leases (p : Nat) (v : TdmPort) (s : State) : (setTdm p v s).leases = s.leases := rfl
@[simp] theorem setTdm_claims (p : Nat) (v : TdmPort) (s : State) : (setTdm p v s).claims = s.claims := rfl
@[simp] theorem setTdm_journal (p : Nat) (v : TdmPort) (s : State) : (setTdm p v s).journal = s.journal := rfl
@[simp] theorem setTdm_pvl (p : Nat) (v : TdmPort) (s : State) : (setTdm p v s).pvl = s.pvl := rfl
@[simp] theorem setTdm_onyx (p : Nat) (v : TdmPort) (s : State) : (setTdm p v s).onyx = s.onyx := rfl
@[simp] theorem setTdm_fab (p : Nat) (v : TdmPort) (s : State) : (setTdm p v s).fab = s.fab := rfl
@[simp] theorem setTdm_gar (p : Nat) (v : TdmPort) (s : State) : (setTdm p v s).gar = s.gar := rfl
@[simp] theorem setTdm_voice (p : Nat) (v : TdmPort) (s : State) : (setTdm p v s).voice = s.voice := rfl
@[simp] theorem setTdm_net (p : Nat) (v : TdmPort) (s : State) : (setTdm p v s).net = s.net := rfl
@[simp] theorem setTdm_plc (p : Nat) (v : TdmPort) (s : State) : (setTdm p v s).plc = s.plc := rfl
@[simp] theorem setTdm_opal (p : Nat) (v : TdmPort) (s : State) : (setTdm p v s).opal = s.opal := rfl
@[simp] theorem setTdm_tpz (p : Nat) (v : TdmPort) (s : State) : (setTdm p v s).tpz = s.tpz := rfl
@[simp] theorem setTdm_hostMem (p : Nat) (v : TdmPort) (s : State) : (setTdm p v s).hostMem = s.hostMem := rfl
@[simp] theorem setTdm_agt (p : Nat) (v : TdmPort) (s : State) : (setTdm p v s).agt = s.agt := rfl
@[simp] theorem setTdm_tap (p : Nat) (v : TdmPort) (s : State) : (setTdm p v s).tap = s.tap := rfl
@[simp] theorem setTdm_shadow (p : Nat) (v : TdmPort) (s : State) : (setTdm p v s).shadow = s.shadow := rfl

@[simp] theorem setZc_pending (n : Nat) (z : Zc) (s : State) : (setZc n z s).pending = s.pending := rfl
@[simp] theorem setZc_free (n : Nat) (z : Zc) (s : State) : (setZc n z s).free = s.free := rfl
@[simp] theorem setZc_regs (n : Nat) (z : Zc) (s : State) : (setZc n z s).regs = s.regs := rfl
@[simp] theorem setZc_pwr (n : Nat) (z : Zc) (s : State) : (setZc n z s).pwr = s.pwr := rfl
@[simp] theorem setZc_boot (n : Nat) (z : Zc) (s : State) : (setZc n z s).boot = s.boot := rfl
@[simp] theorem setZc_host (n : Nat) (z : Zc) (s : State) : (setZc n z s).host = s.host := rfl
@[simp] theorem setZc_ledger (n : Nat) (z : Zc) (s : State) : (setZc n z s).ledger = s.ledger := rfl
@[simp] theorem setZc_leases (n : Nat) (z : Zc) (s : State) : (setZc n z s).leases = s.leases := rfl
@[simp] theorem setZc_claims (n : Nat) (z : Zc) (s : State) : (setZc n z s).claims = s.claims := rfl
@[simp] theorem setZc_journal (n : Nat) (z : Zc) (s : State) : (setZc n z s).journal = s.journal := rfl
@[simp] theorem setZc_pvl (n : Nat) (z : Zc) (s : State) : (setZc n z s).pvl = s.pvl := rfl
@[simp] theorem setZc_onyx (n : Nat) (z : Zc) (s : State) : (setZc n z s).onyx = s.onyx := rfl
@[simp] theorem setZc_fab (n : Nat) (z : Zc) (s : State) : (setZc n z s).fab = s.fab := rfl
@[simp] theorem setZc_gar (n : Nat) (z : Zc) (s : State) : (setZc n z s).gar = s.gar := rfl
@[simp] theorem setZc_voice (n : Nat) (z : Zc) (s : State) : (setZc n z s).voice = s.voice := rfl
@[simp] theorem setZc_net (n : Nat) (z : Zc) (s : State) : (setZc n z s).net = s.net := rfl
@[simp] theorem setZc_plc (n : Nat) (z : Zc) (s : State) : (setZc n z s).plc = s.plc := rfl
@[simp] theorem setZc_opal (n : Nat) (z : Zc) (s : State) : (setZc n z s).opal = s.opal := rfl
@[simp] theorem setZc_tdm (n : Nat) (z : Zc) (s : State) : (setZc n z s).tdm = s.tdm := rfl
@[simp] theorem setZc_tpz (n : Nat) (z : Zc) (s : State) : (setZc n z s).tpz = s.tpz := rfl
@[simp] theorem setZc_hostMem (n : Nat) (z : Zc) (s : State) : (setZc n z s).hostMem = s.hostMem := rfl
@[simp] theorem setZc_agt (n : Nat) (z : Zc) (s : State) : (setZc n z s).agt = s.agt := rfl
@[simp] theorem setZc_tap (n : Nat) (z : Zc) (s : State) : (setZc n z s).tap = s.tap := rfl
@[simp] theorem setZc_shadow (n : Nat) (z : Zc) (s : State) : (setZc n z s).shadow = s.shadow := rfl

@[simp] theorem setCtx_pending (c : Nat) (v : TpzCtx) (s : State) : (setCtx c v s).pending = s.pending := rfl
@[simp] theorem setCtx_free (c : Nat) (v : TpzCtx) (s : State) : (setCtx c v s).free = s.free := rfl
@[simp] theorem setCtx_regs (c : Nat) (v : TpzCtx) (s : State) : (setCtx c v s).regs = s.regs := rfl
@[simp] theorem setCtx_time (c : Nat) (v : TpzCtx) (s : State) : (setCtx c v s).time = s.time := rfl
@[simp] theorem setCtx_pwr (c : Nat) (v : TpzCtx) (s : State) : (setCtx c v s).pwr = s.pwr := rfl
@[simp] theorem setCtx_boot (c : Nat) (v : TpzCtx) (s : State) : (setCtx c v s).boot = s.boot := rfl
@[simp] theorem setCtx_host (c : Nat) (v : TpzCtx) (s : State) : (setCtx c v s).host = s.host := rfl
@[simp] theorem setCtx_ledger (c : Nat) (v : TpzCtx) (s : State) : (setCtx c v s).ledger = s.ledger := rfl
@[simp] theorem setCtx_leases (c : Nat) (v : TpzCtx) (s : State) : (setCtx c v s).leases = s.leases := rfl
@[simp] theorem setCtx_claims (c : Nat) (v : TpzCtx) (s : State) : (setCtx c v s).claims = s.claims := rfl
@[simp] theorem setCtx_journal (c : Nat) (v : TpzCtx) (s : State) : (setCtx c v s).journal = s.journal := rfl
@[simp] theorem setCtx_pvl (c : Nat) (v : TpzCtx) (s : State) : (setCtx c v s).pvl = s.pvl := rfl
@[simp] theorem setCtx_onyx (c : Nat) (v : TpzCtx) (s : State) : (setCtx c v s).onyx = s.onyx := rfl
@[simp] theorem setCtx_fab (c : Nat) (v : TpzCtx) (s : State) : (setCtx c v s).fab = s.fab := rfl
@[simp] theorem setCtx_gar (c : Nat) (v : TpzCtx) (s : State) : (setCtx c v s).gar = s.gar := rfl
@[simp] theorem setCtx_voice (c : Nat) (v : TpzCtx) (s : State) : (setCtx c v s).voice = s.voice := rfl
@[simp] theorem setCtx_net (c : Nat) (v : TpzCtx) (s : State) : (setCtx c v s).net = s.net := rfl
@[simp] theorem setCtx_plc (c : Nat) (v : TpzCtx) (s : State) : (setCtx c v s).plc = s.plc := rfl
@[simp] theorem setCtx_opal (c : Nat) (v : TpzCtx) (s : State) : (setCtx c v s).opal = s.opal := rfl
@[simp] theorem setCtx_tdm (c : Nat) (v : TpzCtx) (s : State) : (setCtx c v s).tdm = s.tdm := rfl
@[simp] theorem setCtx_hostMem (c : Nat) (v : TpzCtx) (s : State) : (setCtx c v s).hostMem = s.hostMem := rfl
@[simp] theorem setCtx_agt (c : Nat) (v : TpzCtx) (s : State) : (setCtx c v s).agt = s.agt := rfl
@[simp] theorem setCtx_tap (c : Nat) (v : TpzCtx) (s : State) : (setCtx c v s).tap = s.tap := rfl
@[simp] theorem setCtx_shadow (c : Nat) (v : TpzCtx) (s : State) : (setCtx c v s).shadow = s.shadow := rfl

@[simp] theorem memPut_pending (a : Nat) (b : List Byte) (s : State) : (memPut a b s).pending = s.pending := rfl
@[simp] theorem memPut_free (a : Nat) (b : List Byte) (s : State) : (memPut a b s).free = s.free := rfl
@[simp] theorem memPut_regs (a : Nat) (b : List Byte) (s : State) : (memPut a b s).regs = s.regs := rfl
@[simp] theorem memPut_time (a : Nat) (b : List Byte) (s : State) : (memPut a b s).time = s.time := rfl
@[simp] theorem memPut_pwr (a : Nat) (b : List Byte) (s : State) : (memPut a b s).pwr = s.pwr := rfl
@[simp] theorem memPut_boot (a : Nat) (b : List Byte) (s : State) : (memPut a b s).boot = s.boot := rfl
@[simp] theorem memPut_host (a : Nat) (b : List Byte) (s : State) : (memPut a b s).host = s.host := rfl
@[simp] theorem memPut_ledger (a : Nat) (b : List Byte) (s : State) : (memPut a b s).ledger = s.ledger := rfl
@[simp] theorem memPut_leases (a : Nat) (b : List Byte) (s : State) : (memPut a b s).leases = s.leases := rfl
@[simp] theorem memPut_claims (a : Nat) (b : List Byte) (s : State) : (memPut a b s).claims = s.claims := rfl
@[simp] theorem memPut_journal (a : Nat) (b : List Byte) (s : State) : (memPut a b s).journal = s.journal := rfl
@[simp] theorem memPut_pvl (a : Nat) (b : List Byte) (s : State) : (memPut a b s).pvl = s.pvl := rfl
@[simp] theorem memPut_onyx (a : Nat) (b : List Byte) (s : State) : (memPut a b s).onyx = s.onyx := rfl
@[simp] theorem memPut_fab (a : Nat) (b : List Byte) (s : State) : (memPut a b s).fab = s.fab := rfl
@[simp] theorem memPut_gar (a : Nat) (b : List Byte) (s : State) : (memPut a b s).gar = s.gar := rfl
@[simp] theorem memPut_voice (a : Nat) (b : List Byte) (s : State) : (memPut a b s).voice = s.voice := rfl
@[simp] theorem memPut_net (a : Nat) (b : List Byte) (s : State) : (memPut a b s).net = s.net := rfl
@[simp] theorem memPut_plc (a : Nat) (b : List Byte) (s : State) : (memPut a b s).plc = s.plc := rfl
@[simp] theorem memPut_opal (a : Nat) (b : List Byte) (s : State) : (memPut a b s).opal = s.opal := rfl
@[simp] theorem memPut_tdm (a : Nat) (b : List Byte) (s : State) : (memPut a b s).tdm = s.tdm := rfl
@[simp] theorem memPut_tpz (a : Nat) (b : List Byte) (s : State) : (memPut a b s).tpz = s.tpz := rfl
@[simp] theorem memPut_agt (a : Nat) (b : List Byte) (s : State) : (memPut a b s).agt = s.agt := rfl
@[simp] theorem memPut_tap (a : Nat) (b : List Byte) (s : State) : (memPut a b s).tap = s.tap := rfl
@[simp] theorem memPut_shadow (a : Nat) (b : List Byte) (s : State) : (memPut a b s).shadow = s.shadow := rfl

@[simp] theorem core_setCore_same (n : Nat) (c : CoreSt) (s : State) : core (setCore n c s) n = c := by simp [core, setCore]
theorem core_setCore_other (n : Nat) (c : CoreSt) (j : Nat) (s : State) (h : j ≠ n) : core (setCore n c s) j = core s j := by
  simp [core, setCore, tblGet_set_other _ _ _ _ _ h]
@[simp] theorem rejPort_setRej_same (p : Nat) (r : RejPort) (s : State) : rejPort (setRej p r s) p = r := by simp [rejPort, setRej]
theorem rejPort_setRej_other (p : Nat) (r : RejPort) (j : Nat) (s : State) (h : j ≠ p) : rejPort (setRej p r s) j = rejPort s j := by
  simp [rejPort, setRej, tblGet_set_other _ _ _ _ _ h]
@[simp] theorem ethP_setEth_same (p : Nat) (v : EthPort) (s : State) : ethP (setEth p v s) p = v := by simp [ethP, setEth]
theorem ethP_setEth_other (p : Nat) (v : EthPort) (j : Nat) (s : State) (h : j ≠ p) : ethP (setEth p v s) j = ethP s j := by
  simp [ethP, setEth, tblGet_set_other _ _ _ _ _ h]
@[simp] theorem plcP_setPlc_same (n : Nat) (v : PlcPort) (s : State) : plcP (setPlc n v s) n = v := by simp [plcP, setPlc]
theorem plcP_setPlc_other (n : Nat) (v : PlcPort) (j : Nat) (s : State) (h : j ≠ n) : plcP (setPlc n v s) j = plcP s j := by
  simp [plcP, setPlc, tblGet_set_other _ _ _ _ _ h]
@[simp] theorem slot_setSlot_same (i : Nat) (o : OSlot) (s : State) : slot (setSlot i o s) i = o := by simp [slot, setSlot]
theorem slot_setSlot_other (i : Nat) (o : OSlot) (j : Nat) (s : State) (h : j ≠ i) : slot (setSlot i o s) j = slot s j := by
  simp [slot, setSlot, tblGet_set_other _ _ _ _ _ h]
@[simp] theorem tdmPort_setTdm_same (p : Nat) (v : TdmPort) (s : State) : tdmPort (setTdm p v s) p = v := by simp [tdmPort, setTdm]
theorem tdmPort_setTdm_other (p : Nat) (v : TdmPort) (j : Nat) (s : State) (h : j ≠ p) : tdmPort (setTdm p v s) j = tdmPort s j := by
  simp [tdmPort, setTdm, tblGet_set_other _ _ _ _ _ h]
@[simp] theorem zcOf_setZc_same (n : Nat) (z : Zc) (s : State) : zcOf (setZc n z s) n = z := by simp [zcOf, setZc]
theorem zcOf_setZc_other (n : Nat) (z : Zc) (j : Nat) (s : State) (h : j ≠ n) : zcOf (setZc n z s) j = zcOf s j := by
  simp [zcOf, setZc, tblGet_set_other _ _ _ _ _ h]
@[simp] theorem ctxOf_setCtx_same (c : Nat) (v : TpzCtx) (s : State) : ctxOf (setCtx c v s) c = v := by simp [ctxOf, setCtx]
theorem ctxOf_setCtx_other (c : Nat) (v : TpzCtx) (j : Nat) (s : State) (h : j ≠ c) : ctxOf (setCtx c v s) j = ctxOf s j := by
  simp [ctxOf, setCtx, tblGet_set_other _ _ _ _ _ h]
@[simp] theorem chan_setChan_same (n : Nat) (c : Chan) (s : State) : chan? (setChan n c s) n = some c := by simp [chan?, setChan, tblFind_set_same]
theorem chan_setChan_other (n : Nat) (c : Chan) (j : Nat) (s : State) (h : j ≠ n) : chan? (setChan n c s) j = chan? s j := by
  simp [chan?, setChan, tblFind_set_other _ _ _ _ h]
@[simp] theorem flow_setFlow_same (n : Nat) (f : Flow) (s : State) : flow? (setFlow n f s) n = some f := by simp [flow?, setFlow, tblFind_set_same]
theorem flow_setFlow_other (n : Nat) (f : Flow) (j : Nat) (s : State) (h : j ≠ n) : flow? (setFlow n f s) j = flow? s j := by
  simp [flow?, setFlow, tblFind_set_other _ _ _ _ h]
@[simp] theorem fallOf_setFall_same (p : Nat) (c : FallCfg) (s : State) : fallOf (setFall p c s) p = some c := by simp [fallOf, setFall, tblFind_set_same]
theorem fallOf_setFall_other (p : Nat) (c : FallCfg) (j : Nat) (s : State) (h : j ≠ p) : fallOf (setFall p c s) j = fallOf s j := by
  simp [fallOf, setFall, tblFind_set_other _ _ _ _ h]

end Sys2Proof.Machine
end

