-- ==== Sys2Proof/Laws/Garnet.lean ====
section
/-! SUPPORT. What the retirement of a Garnet instruction does, said once: `complete_retires` for the instructions that
write and go on. -/

namespace Sys2Proof.Machine

/-! ### Cores and registers -/

theorem tblSet_set {α : Type} (k : Nat) (v w : α) (t : Tbl α) : tblSet k v (tblSet k w t) = tblSet k v t := by
  induction t with
  | nil => simp [tblSet]
  | cons e t ih =>
    obtain ⟨j, x⟩ := e
    simp only [tblSet]
    split <;> rename_i h
    · simp [tblSet]
    · split <;> rename_i h2
      · simp [tblSet]
      · simp [tblSet, h, h2, ih]

@[simp] theorem core_setCore (n : Nat) (c : CoreSt) (s : State) : core (setCore n c s) n = c := by simp [core, setCore]

@[simp] theorem setCore_setCore (n : Nat) (c d : CoreSt) (s : State) : setCore n c (setCore n d s) = setCore n c s := by
  simp [setCore, tblSet_set]

theorem Arch.get_set (a : Arch) (k j : Nat) (v : Word48) : (a.set k v).get j = if j = k then v else a.get j := by
  unfold Arch.get Arch.set
  split
  · subst_vars; simp
  · rename_i h; exact cellPut_get_other 0 a.r k j v h

@[simp] theorem Arch.acc_set (a : Arch) (k j : Nat) (v : Word48) : (a.set k v).acc j = a.acc j := rfl

@[simp] theorem Arch.get_setAcc (a : Arch) (k j : Nat) (v : AccLane) : (a.setAcc k v).get j = a.get j := rfl

theorem Arch.acc_setAcc (a : Arch) (k j : Nat) (v : AccLane) : (a.setAcc k v).acc j = if j = k then v else a.acc j := by
  unfold Arch.acc Arch.setAcc
  split
  · subst_vars; simp
  · rename_i h; exact cellPut_get_other 0 a.a k j v h

/-! ### Writes of address generation and of the loop hardware -/

/-- From core `c` to core `d`, only what the hardware writes by itself has changed, and only registers of which `P`. -/
def HwOnly (P : Nat → Prop) (c d : CoreSt) : Prop :=
  d = { c with hw := d.hw, cur := d.cur } ∧ (∀ k, d.cur.acc k = c.cur.acc k) ∧ (∀ r, ¬P r → d.cur.get r = c.cur.get r) ∧
    (∀ r, ¬P r → tblGet d.hw r 0 = tblGet c.hw r 0)

theorem HwOnly.refl (P : Nat → Prop) (c : CoreSt) : HwOnly P c c := ⟨rfl, fun _ => rfl, fun _ _ => rfl, fun _ _ => rfl⟩

theorem HwOnly.trans {P : Nat → Prop} {c d e : CoreSt} (h : HwOnly P c d) (g : HwOnly P d e) : HwOnly P c e := by
  obtain ⟨h1, h2, h3, h4⟩ := h
  obtain ⟨g1, g2, g3, g4⟩ := g
  refine ⟨?_, fun k => (g2 k).trans (h2 k), fun r hr => (g3 r hr).trans (h3 r hr), fun r hr => (g4 r hr).trans (h4 r hr)⟩
  rw [g1, h1]

theorem hwPut_only (P : Nat → Prop) (k : Nat) (v : Word48) (c : CoreSt) (hk : P k) : HwOnly P c (hwPut k v c) := by
  have hne : ∀ r, ¬P r → r ≠ k := fun r hr h => hr (h ▸ hk)
  simp only [hwPut]
  split
  · exact ⟨rfl, fun _ => rfl, fun _ _ => rfl, fun r hr => tblGet_set_other _ _ _ _ _ (hne r hr)⟩
  · refine ⟨rfl, fun _ => rfl, fun r hr => ?_, fun r hr => tblGet_set_other _ _ _ _ _ (hne r hr)⟩
    simp [Arch.get_set, hne r hr]

/-- The pointers that address generation modifies. -/
theorem post_only (l : List (Nat × Lane)) (c : CoreSt) (P : Nat → Prop) (h : ∀ e ∈ l, P (0x10 + e.1)) :
    HwOnly P c (l.foldl (fun c e => hwPut (0x10 + e.1) (e.2.zeroExtend 48) c) c) := by
  induction l generalizing c with
  | nil => exact .refl P c
  | cons e l ih =>
    exact (hwPut_only P _ _ c (h e (by simp))).trans (ih _ (fun x hx => h x (by simp [hx])))

theorem loopReg_depth (c : CoreSt) : loopReg c codeLDEPTH < 4 := Nat.mod_lt _ (by decide)

/-- The loop-back decision writes loop counters and LDEPTH. -/
theorem loopBack_only (n : Nat) (c : CoreSt) : HwOnly (fun r => 0x2E ≤ r ∧ r ≤ 0x31) c (loopBack n c).1 := by
  induction n generalizing c with
  | zero => exact .refl _ c
  | succ n ih =>
    have hd := loopReg_depth c
    have h1 := hwPut_only (fun r => 0x2E ≤ r ∧ r ≤ 0x31) (0x2E + (loopReg c codeLDEPTH - 1))
      (BitVec.ofNat 48 ((loopReg c (0x2E + (loopReg c codeLDEPTH - 1)) + 16777215) % 16777216)) c (by omega)
    have h2 := fun v d => hwPut_only (fun r => 0x2E ≤ r ∧ r ≤ 0x31) codeLDEPTH v d (by decide)
    unfold loopBack
    simp only
    split
    · exact h1
    · split
      · exact (h1.trans (h2 _ _)).trans (ih _)
      · exact h1.trans (h2 _ _)

/-! ### Register writes -/

theorem narrow_xy (r : Nat) (v : Word48) (h : r < 16) : narrow r v = v := by
  apply BitVec.eq_of_toNat_eq
  simp only [narrow, regWidth, h, if_true, BitVec.toNat_ofNat]
  have := v.isLt
  omega

theorem regPut_other (k r : Nat) (v : Word48) (a : Arch) (h : r ≠ k) : (regPut k v a).get r = a.get r := by
  unfold regPut
  repeat' split
  all_goals simp [Arch.get_set, h]

@[simp] theorem regPut_acc (k j : Nat) (v : Word48) (a : Arch) : (regPut k v a).acc j = a.acc j := by
  unfold regPut
  repeat' split
  all_goals rfl

theorem regPut_xy (k : Nat) (v : Word48) (a : Arch) (h : k < 16) : (regPut k v a).get k = v := by
  have h1 : k ≠ codeSTAT := by unfold codeSTAT; omega
  have h2 : k ≠ codeMODE := by unfold codeMODE; omega
  have h3 : k ≠ codeESTAT := by unfold codeESTAT; omega
  have h4 : k ≠ codeECAUSE := by unfold codeECAUSE; omega
  simp [regPut, h1, h2, h3, h4, Arch.get_set, narrow_xy k v h]

theorem lastOf_cons {α : Type} (k : Nat) (e : Nat × α) (l : List (Nat × α)) (d : α) :
    lastOf k (e :: l) d = lastOf k l (if e.1 = k then e.2 else d) := rfl

theorem regs_acc (l : List (Nat × Word48)) (a : Arch) (k : Nat) : (l.foldl (fun a e => regPut e.1 e.2 a) a).acc k = a.acc k := by
  induction l generalizing a with
  | nil => rfl
  | cons e l ih => simp [ih]

theorem regs_xy (l : List (Nat × Word48)) (a : Arch) (r : Nat) (h : r < 16) :
    (l.foldl (fun a e => regPut e.1 e.2 a) a).get r = lastOf r l (a.get r) := by
  induction l generalizing a with
  | nil => rfl
  | cons e l ih =>
    simp only [List.foldl_cons, ih, lastOf_cons]
    split <;> rename_i he
    · subst he; rw [regPut_xy _ _ _ h]
    · rw [regPut_other _ _ _ _ (Ne.symm he)]

theorem regs_other (l : List (Nat × Word48)) (a : Arch) (r : Nat) (h : ∀ v, (r, v) ∉ l) :
    (l.foldl (fun a e => regPut e.1 e.2 a) a).get r = a.get r := by
  induction l generalizing a with
  | nil => rfl
  | cons e l ih =>
    simp only [List.foldl_cons]
    rw [ih _ (fun v hv => h v (by simp [hv])), regPut_other]
    intro he
    exact h e.2 (by simp [he])

theorem accs_get (l : List (Nat × AccLane)) (a : Arch) (r : Nat) : (l.foldl (fun a e => a.setAcc e.1 e.2) a).get r = a.get r := by
  induction l generalizing a with
  | nil => rfl
  | cons e l ih => simp [ih]

theorem accs_acc (l : List (Nat × AccLane)) (a : Arch) (k : Nat) :
    (l.foldl (fun a e => a.setAcc e.1 e.2) a).acc k = lastOf k l (a.acc k) := by
  induction l generalizing a with
  | nil => rfl
  | cons e l ih =>
    simp only [List.foldl_cons, ih, lastOf_cons, Arch.acc_setAcc]
    congr 1
    split <;> simp_all [eq_comm]

theorem mems_get (l : List (Nat × Word48)) (d : Tbl Word48) (k : Nat) :
    tblGet (l.foldl (fun d e => cellPut 0 d e.1 e.2) d) k 0 = lastOf k l (tblGet d k 0) := by
  induction l generalizing d with
  | nil => rfl
  | cons e l ih =>
    simp only [List.foldl_cons, ih, lastOf_cons]
    split <;> rename_i he
    · subst he; simp
    · rw [cellPut_get_other _ _ _ _ _ (Ne.symm he)]

/-- The registers after the writes `w` over the registers `a`, before the loop-back decision. -/
def afterWrites (w : GWrites) (a : Arch) : Arch :=
  let a := w.regs.foldl (fun a e => regPut e.1 e.2 a) a
  let a := w.acc.foldl (fun a e => a.setAcc e.1 e.2) a
  let st := (a.get codeSTAT).toNat
  let st := match w.zn with | some z => st / 16 * 16 + z | none => st
  a.set codeSTAT (BitVec.ofNat 48 (st ||| (w.gov * 256) ||| (w.sov * 1024)))

/-- The core with its pointers modified by address generation. -/
def afterPost (w : GWrites) (c : CoreSt) : CoreSt := w.post.foldl (fun c e => hwPut (0x10 + e.1) (e.2.zeroExtend 48) c) c

theorem applyWrites_fields (w : GWrites) (c : CoreSt) (P : Nat → Prop) (h : ∀ e ∈ w.post, P (0x10 + e.1)) :
    let d := applyWrites w c
    d = { c with cur := d.cur, h1 := c.cur, h2 := c.h1, h3 := c.h2, hw := d.hw, late := d.late, mlate := d.mlate, dmem := d.dmem } ∧
    d.cur = afterWrites w (afterPost w c).cur ∧ d.dmem = w.mem.foldl (fun d e => cellPut 0 d e.1 e.2) c.dmem := by
  have hp := (post_only w.post c P h).1
  refine ⟨?_, rfl, ?_⟩
  · simp only [applyWrites, ageLate]
    rw [hp]
  · simp only [applyWrites, ageLate]
    rw [hp]

theorem afterWrites_acc (w : GWrites) (a : Arch) (k : Nat) : (afterWrites w a).acc k = lastOf k w.acc (a.acc k) := by
  simp [afterWrites, accs_acc, regs_acc]

theorem afterWrites_get (w : GWrites) (a : Arch) (r : Nat) (h : r ≠ codeSTAT) :
    (afterWrites w a).get r = (w.regs.foldl (fun a e => regPut e.1 e.2 a) a).get r := by
  simp [afterWrites, Arch.get_set, h, accs_get]

theorem afterWrites_stat (w : GWrites) (a : Arch) :
    (afterWrites w a).get codeSTAT =
      BitVec.ofNat 48 ((match w.zn with
        | some z => ((w.regs.foldl (fun a e => regPut e.1 e.2 a) a).get codeSTAT).toNat / 16 * 16 + z
        | none => ((w.regs.foldl (fun a e => regPut e.1 e.2 a) a).get codeSTAT).toNat) ||| (w.gov * 256) ||| (w.sov * 1024)) := by
  simp only [afterWrites, Arch.get_set, accs_get, if_true]

/-- Where no earlier write is under way, none lands, and address generation sees the pointers it has just modified. -/
theorem applyWrites_hw (w : GWrites) (c : CoreSt) (h : c.late = []) : (applyWrites w c).hw = (afterPost w c).hw := by
  have hl : (afterPost w c).late = [] := by
    have := congrArg CoreSt.late (post_only w.post c (fun _ => True) (fun _ _ => trivial)).1
    exact this.trans h
  simp only [applyWrites, ageLate]
  rw [show (List.foldl (fun c e => hwPut (0x10 + e.1) (e.2.zeroExtend 48) c) c w.post) = afterPost w c from rfl, hl]
  rw [List.filter_eq_nil_iff.mpr]
  · rfl
  · intro l hm
    simp only [List.nil_append, List.mem_map, List.mem_filterMap, Option.ite_none_right_eq_some] at hm
    obtain ⟨m, ⟨e, -, he, hm⟩, rfl⟩ := hm
    simp only [Option.some.injEq] at hm
    subst hm
    obtain ⟨d, hd⟩ := Option.isSome_iff_exists.mp he
    simp only [hd, decide_eq_true_eq, Nat.not_le]
    unfold lateDist at hd
    repeat' split at hd
    all_goals simp_all
    all_goals omega

theorem written_fields (w : GWrites) (c : CoreSt) :
    let d := written w c
    d = { c with cur := d.cur, h1 := c.cur, h2 := c.h1, h3 := c.h2, hw := d.hw, late := d.late, mlate := d.mlate,
                 dmem := d.dmem, shadow := d.shadow, cycle := BitVec.ofNat 24 (satAdd 24 c.cycle.toNat 1) } ∧
    d.cur = afterWrites w (afterPost w c).cur ∧ d.dmem = w.mem.foldl (fun d e => cellPut 0 d e.1 e.2) c.dmem ∧
    d.hw = (applyWrites w c).hw := by
  obtain ⟨a1, a2, a3⟩ := applyWrites_fields w c (fun _ => True) (fun _ _ => trivial)
  refine ⟨?_, a2, a3, rfl⟩
  simp only [written, addCycles]
  generalize applyWrites w c = d at a1 ⊢
  obtain ⟨cu, hw, la, ml, dm, rfl⟩ : ∃ cu hw la ml dm, d =
    { c with cur := cu, h1 := c.cur, h2 := c.h1, h3 := c.h2, hw := hw, late := la, mlate := ml, dmem := dm } := ⟨_, _, _, _, _, a1⟩
  rfl

theorem loopStep_fields (c : CoreSt) :
    let e := loopStep c
    e = { c with cur := e.cur, hw := e.hw, pc := e.pc } ∧ (∀ k, e.cur.acc k = c.cur.acc k) ∧
    (∀ r, ¬(0x2E ≤ r ∧ r ≤ 0x31) → e.cur.get r = c.cur.get r) ∧ (∀ r, ¬(0x2E ≤ r ∧ r ≤ 0x31) → tblGet e.hw r 0 = tblGet c.hw r 0) := by
  obtain ⟨l1, l2, l3, l4⟩ := loopBack_only 3 c
  unfold loopStep
  generalize loopBack 3 c = x at l1 l2 l3 l4
  obtain ⟨x, p⟩ := x
  refine ⟨?_, l2, l3, l4⟩
  obtain ⟨cu, hw, rfl⟩ : ∃ cu hw, x = { c with cur := cu, hw := hw } := ⟨_, _, l1⟩
  rfl

/-- The loop counters and LDEPTH, where the instruction is the last of a loop. -/
def LoopRegs (c : CoreSt) (r : Nat) : Prop := (c.slot = none ∧ atLoopEnd c = true) ∧ 0x2E ≤ r ∧ r ≤ 0x31

theorem goOn_fields (c d : CoreSt) (hs : d.slot = c.slot) :
    let e := goOn c d
    e = { d with cur := e.cur, hw := e.hw, pc := e.pc, slot := none } ∧ (∀ k, e.cur.acc k = d.cur.acc k) ∧
    (∀ r, ¬LoopRegs c r → e.cur.get r = d.cur.get r) ∧ (∀ r, ¬LoopRegs c r → tblGet e.hw r 0 = tblGet d.hw r 0) ∧
    (∀ b a, c.slot = some (b, a) → e.pc = a) ∧ (c.slot = none → atLoopEnd c = false → e.pc = c.pc + 1) := by
  cases hsl : c.slot with
  | some x =>
    obtain ⟨b, t⟩ := x
    have he : goOn c d = { d with slot := none, pc := t } := by simp only [goOn, hsl]
    rw [he]
    exact ⟨rfl, fun _ => rfl, fun _ _ => rfl, fun _ _ => rfl, by rintro _ _ ⟨⟩; rfl, by simp⟩
  | none =>
    rw [hsl] at hs
    cases hle : atLoopEnd c with
    | false =>
      have he : goOn c d = { d with pc := c.pc + 1 } := by simp [goOn, hsl, hle]
      rw [he]
      refine ⟨?_, fun _ => rfl, fun _ _ => rfl, fun _ _ => rfl, by simp, fun _ _ => rfl⟩
      cases d; simp only at hs; subst hs; rfl
    | true =>
      have he : goOn c d = loopStep d := by simp only [goOn, hsl, hle, if_true]
      have hq : ∀ r, ¬LoopRegs c r → ¬(0x2E ≤ r ∧ r ≤ 0x31) := fun r hr h => hr ⟨⟨hsl, hle⟩, h⟩
      obtain ⟨l1, l2, l3, l4⟩ := loopStep_fields d
      rw [he]
      refine ⟨?_, l2, fun r hr => l3 r (hq r hr), fun r hr => l4 r (hq r hr), ?_, ?_⟩
      rotate_left
      · intro _ _ h; cases h
      · intro _ h; cases h
      generalize loopStep d = x at l1
      obtain ⟨cu', hw', pc', rfl⟩ : ∃ cu' hw' pc', x = { d with cur := cu', hw := hw', pc := pc' } := ⟨_, _, _, l1⟩
      cases d; simp only at hs; subst hs; rfl

/-- An instruction that writes and goes on, without a trap. -/
theorem complete_retires (n : Nat) (w : GWrites) (s : State) (hc : w.ctl = .plain) (hio : w.io = [])
    (hp : ∀ e ∈ w.post, e.1 < 8) (ht : modeGtrap (modeNow (core s n)) = false ∨ w.gov = 0) : Retires n w s (complete n w s) := by
  have ht : (modeGtrap (modeNow (core s n)) && decide (w.gov ≠ 0)) = false := by rcases ht with h | h <;> simp [h]
  generalize hcs : core s n = c at *
  let P : Nat → Prop := fun r => (0x10 ≤ r ∧ r < 0x18) ∧ ∃ q, (r - 0x10, q) ∈ w.post
  have hP : ∀ e ∈ w.post, P (0x10 + e.1) := fun e he => ⟨⟨by omega, by have := hp e he; omega⟩, e.2, by simpa using he⟩
  obtain ⟨-, p2, p3, p4⟩ := post_only w.post c P hP
  obtain ⟨a1, hcur, a3, a4⟩ := written_fields w c
  have hw0 : c.late = [] → (written w c).hw = (afterPost w c).hw := fun h => a4.trans (applyWrites_hw w c h)
  have hcomp : complete n w s = setCore n (goOn c (written w c)) s := by
    simp only [complete, hcs, hio, hc, ht, List.foldl_nil, Bool.false_eq_true, if_false, goTo]
  generalize written w c = d at *
  have hsl : d.slot = c.slot := by have := congrArg CoreSt.slot a1; exact this
  obtain ⟨g1, g2, g3, g4, g5, g6⟩ := goOn_fields c d hsl
  generalize goOn c d = e at *
  have hnot : ∀ r, ¬(0x10 ≤ r ∧ r < 0x18) → (afterPost w c).cur.get r = c.cur.get r := fun r hr => p3 r (fun h => hr h.1)
  have hQ : ∀ r, ¬(0x2E ≤ r ∧ r ≤ 0x31) → ¬LoopRegs c r := fun r hr h => hr h.2
  have hd : e.dmem = d.dmem := by have := congrArg CoreSt.dmem g1; exact this
  have hes : e.slot = none := by have := congrArg CoreSt.slot g1; exact this
  unfold Retires
  rw [hcomp, hcs, core_setCore]
  refine ⟨rfl, ?_, ?_, ?_, ?_, ?_, ?_, ?_, ?_, fun b a h => ⟨g5 b a h, hes⟩, fun h => ⟨hes, g6 h⟩⟩
  · obtain ⟨x1, x2, x3, x4, x5, x6, x7, rfl⟩ : ∃ x1 x2 x3 x4 x5 x6 x7, d =
      { c with cur := x1, h1 := c.cur, h2 := c.h1, h3 := c.h2, hw := x2, late := x3, mlate := x4, dmem := x5, shadow := x6, cycle := x7 } :=
      ⟨_, _, _, _, _, _, _, a1⟩
    obtain ⟨y1, y2, y3, y4, rfl⟩ : ∃ y1 y2 y3 y4, e = { c with
      cur := y1, h1 := c.cur, h2 := c.h1, h3 := c.h2, hw := y2, late := x3, mlate := x4, dmem := x5, shadow := x6, cycle := x7, pc := y3, slot := y4 } :=
      ⟨_, _, _, _, g1⟩
    have := congrArg CoreSt.cycle a1
    simp only at this
    subst this
    rfl
  · intro k
    rw [g2, hcur, afterWrites_acc, show (afterPost w c).cur.acc k = c.cur.acc k from p2 k]
  · intro a
    rw [hd, a3, mems_get]
  · intro r hr
    rw [g3 r (hQ r (by omega)), hcur, afterWrites_get _ _ _ (by unfold codeSTAT; omega), regs_xy _ _ _ hr, hnot r (by omega)]
  · intro r v hw hz hg hs hl
    rw [g3 r (fun h => hl ⟨h.1.2, h.2⟩), hcur]
    have hreg : ∀ a : Arch, (w.regs.foldl (fun a e => regPut e.1 e.2 a) a) = regPut r v a := by intro a; rw [hw]; rfl
    have hap : (afterPost w c).cur.get codeSTAT = c.cur.get codeSTAT := hnot _ (by decide)
    by_cases hr : r = codeSTAT
    · subst hr
      rw [afterWrites_stat, hz, hg, hs, hreg]
      simp only [Nat.zero_mul, Nat.or_zero, BitVec.ofNat_toNat, BitVec.setWidth_eq]
      simp only [regPut, if_true, Arch.get_set, hap]
    · rw [afterWrites_get _ _ _ hr, hreg]
      simp only [regPut, hr, if_false]
      repeat' split
      all_goals simp only [Arch.get_set, if_true]
  · intro hst
    rw [g3 codeSTAT (hQ _ (by decide)), hcur, afterWrites_stat, regs_other _ _ _ hst, hnot _ (by decide)]
    try rfl
  · intro p q hpq hr hlate hp8
    have hne : 0x10 + p ≠ codeSTAT := by unfold codeSTAT; omega
    have hput : afterPost w c = hwPut (0x10 + p) (q.zeroExtend 48) c := by simp only [afterPost, hpq]; rfl
    have hval : (afterPost w c).cur.get (0x10 + p) = q.zeroExtend 48 := by
      rw [hput]; simp only [hwPut, hlate, List.any_nil, Bool.false_eq_true, if_false, Arch.get_set, if_true]
    have hhw : tblGet (afterPost w c).hw (0x10 + p) 0 = q.zeroExtend 48 := by
      rw [hput]; simp only [hwPut, hlate, List.any_nil, Bool.false_eq_true, if_false, tblGet_set_same]
    refine ⟨?_, ?_⟩
    · rw [g3 _ (hQ _ (by omega)), hcur, afterWrites_get _ _ _ hne, regs_other _ _ _ hr, hval]
    · unfold ptr
      rw [g4 _ (hQ _ (by omega)), hw0 hlate, hhw]
      apply BitVec.eq_of_toNat_eq
      have := q.isLt
      simp only [BitVec.extractLsb'_toNat, BitVec.toNat_setWidth, Nat.shiftRight_zero]
      omega
  · intro r hr hst hregs hpost hloop
    rw [g3 r (fun h => hloop ⟨h.1.2, h.2⟩), hcur, afterWrites_get _ _ _ hst, regs_other _ _ _ hregs]
    exact p3 r (fun h => by obtain ⟨-, q, hq⟩ := h; exact hpost q hq)

/-! ### Where instructions and parallel moves come out -/

/-- An instruction that stands where it may, and that its body lets complete. -/
theorem garnet_done (n : Nat) (ctl : Ctl) (body : CoreSt → GRes) (w : GWrites) (s : State) (h : GReady n ctl s)
    (hb : body (core s n) = .done w) : garnet n ctl body s = complete n w s := by
  obtain ⟨h1, h2⟩ := h
  have : (core s n).job.isNone = false := by cases hj : (core s n).job <;> simp_all
  simp [garnet, this, outcome, h2, hb]

/-- What a parallel move that completes writes: at most one register, one word and one pointer. -/
theorem pmove_done (c : CoreSt) (p : PMove) (m : GWrites) (h : pmove c p = .done m) :
    (∀ e ∈ m.post, e.1 < 8) ∧ m.io = [] ∧ m.ctl = .plain ∧ m.gov = 0 ∧ m.zn = none ∧ m.acc = [] := by
  have hp : p.pn.toNat < 8 := p.pn.isLt
  unfold pmove at h
  simp only at h
  repeat' split at h
  all_goals first | (injection h with h; subst h; simp [noWrites, hp]) | (simp [excIllegal, excLoad, excStore] at h)

theorem regTwice_append_nil (l : List (Nat × Word48)) : regTwice ([] ++ l) = regTwice l := rfl

/-- What two parallel moves that complete write. -/
theorem pmoves_done (c : CoreSt) (p q : PMove) (m : GWrites) (h : pmoves c p q = .done m) :
    (∀ e ∈ m.post, e.1 < 8) ∧ m.io = [] ∧ m.ctl = .plain ∧ m.gov = 0 ∧ m.zn = none ∧ m.acc = [] ∧ regTwice m.regs = false := by
  unfold pmoves at h
  split at h
  · simp [excIllegal] at h
  · unfold both at h
    split at h
    all_goals try (simp [excIllegal] at h)
    · rename_i x y hx hy
      split at h
      · simp at h
      · rename_i hr
        injection h with h
        subst h
        obtain ⟨a1, a2, a3, a4, a5, a6⟩ := pmove_done c p x hx
        obtain ⟨b1, b2, b3, b4, b5, b6⟩ := pmove_done c q y hy
        refine ⟨?_, ?_, ?_, ?_, ?_, ?_, ?_⟩
        · intro e he
          rcases List.mem_append.mp he with he | he
          · exact a1 e he
          · exact b1 e he
        all_goals simp_all [GWrites.and]
    · split at h <;> simp at h

/-- A main operation that writes `w` with parallel moves that write `m`, no register being written twice. -/
theorem withMoves_done (c : CoreSt) (p q : PMove) (w m : GWrites) (h : pmoves c p q = .done m)
    (hr : ∀ e ∈ w.regs, ∀ v, (e.1, v) ∉ m.regs) (hw : regTwice w.regs = false) : withMoves c p q (.done w) = .done (w.and m) := by
  have hm := (pmoves_done c p q m h).2.2.2.2.2.2
  have key : ∀ l : List (Nat × Word48), regTwice l = false → (∀ e ∈ l, ∀ v, (e.1, v) ∉ m.regs) → regTwice (l ++ m.regs) = false := by
    intro l
    induction l with
    | nil => intro _ _; exact hm
    | cons e l ih =>
      obtain ⟨k, v⟩ := e
      intro h1 h2
      simp only [regTwice, Bool.or_eq_false_iff] at h1
      simp only [List.cons_append, regTwice, Bool.or_eq_false_iff, List.any_append]
      refine ⟨⟨h1.1, ?_⟩, ih h1.2 (fun e he => h2 e (by simp [he]))⟩
      rw [List.any_eq_false]
      intro x hx hk
      have := h2 (k, v) (by simp) x.2
      simp only [beq_iff_eq] at hk
      exact this (by rw [← hk]; exact hx)
  simp only [withMoves, h, both, key w.regs hw hr]
  rfl

end Sys2Proof.Machine
end

