-- ==== Sys2Proof/Laws/State.lean ====
section
/-! SUPPORT. One lemma for each field of State under each plain update: what the named operations leave alone. -/

namespace Sys2Proof.Machine

@[simp] theorem wrW_pending (k : Nat) (v : Word32) (s : State) : (wrW k v s).pending = s.pending := rfl
@[simp] theorem wrW_free (k : Nat) (v : Word32) (s : State) : (wrW k v s).free = s.free := rfl
@[simp] theorem wrW_time (k : Nat) (v : Word32) (s : State) : (wrW k v s).time = s.time := rfl
@[simp] theorem wrW_pwr (k : Nat) (v : Word32) (s : State) : (wrW k v s).pwr = s.pwr := rfl
@[simp] theorem wrW_boot (k : Nat) (v : Word32) (s : State) : (wrW k v s).boot = s.boot := rfl
@[simp] theorem wrW_host (k : Nat) (v : Word32) (s : State) : (wrW k v s).host = s.host := rfl
@[simp] theorem wrW_ledger (k : Nat) (v : Word32) (s : State) : (wrW k v s).ledger = s.ledger := rfl
@[simp] theorem wrW_leases (k : Nat) (v : Word32) (s : State) : (wrW k v s).leases = s.leases := rfl
@[simp] theorem wrW_claims (k : Nat) (v : Word32) (s : State) : (wrW k v s).claims = s.claims := rfl
@[simp] theorem wrW_journal (k : Nat) (v : Word32) (s : State) : (wrW k v s).journal = s.journal := rfl
@[simp] theorem wrW_pvl (k : Nat) (v : Word32) (s : State) : (wrW k v s).pvl = s.pvl := rfl
@[simp] theorem wrW_onyx (k : Nat) (v : Word32) (s : State) : (wrW k v s).onyx = s.onyx := rfl
@[simp] theorem wrW_fab (k : Nat) (v : Word32) (s : State) : (wrW k v s).fab = s.fab := rfl
@[simp] theorem wrW_gar (k : Nat) (v : Word32) (s : State) : (wrW k v s).gar = s.gar := rfl
@[simp] theorem wrW_voice (k : Nat) (v : Word32) (s : State) : (wrW k v s).voice = s.voice := rfl
@[simp] theorem wrW_net (k : Nat) (v : Word32) (s : State) : (wrW k v s).net = s.net := rfl
@[simp] theorem wrW_plc (k : Nat) (v : Word32) (s : State) : (wrW k v s).plc = s.plc := rfl
@[simp] theorem wrW_opal (k : Nat) (v : Word32) (s : State) : (wrW k v s).opal = s.opal := rfl
@[simp] theorem wrW_tdm (k : Nat) (v : Word32) (s : State) : (wrW k v s).tdm = s.tdm := rfl
@[simp] theorem wrW_tpz (k : Nat) (v : Word32) (s : State) : (wrW k v s).tpz = s.tpz := rfl
@[simp] theorem wrW_agt (k : Nat) (v : Word32) (s : State) : (wrW k v s).agt = s.agt := rfl
@[simp] theorem wrW_hostMem (k : Nat) (v : Word32) (s : State) : (wrW k v s).hostMem = s.hostMem := rfl
@[simp] theorem wrW_tap (k : Nat) (v : Word32) (s : State) : (wrW k v s).tap = s.tap := rfl
@[simp] theorem wrW_shadow (k : Nat) (v : Word32) (s : State) : (wrW k v s).shadow = s.shadow := rfl

@[simp] theorem wr_pending (f : Fld) (x : Nat) (s : State) : (wr f x s).pending = s.pending := rfl
@[simp] theorem wr_free (f : Fld) (x : Nat) (s : State) : (wr f x s).free = s.free := rfl
@[simp] theorem wr_time (f : Fld) (x : Nat) (s : State) : (wr f x s).time = s.time := rfl
@[simp] theorem wr_pwr (f : Fld) (x : Nat) (s : State) : (wr f x s).pwr = s.pwr := rfl
@[simp] theorem wr_boot (f : Fld) (x : Nat) (s : State) : (wr f x s).boot = s.boot := rfl
@[simp] theorem wr_host (f : Fld) (x : Nat) (s : State) : (wr f x s).host = s.host := rfl
@[simp] theorem wr_ledger (f : Fld) (x : Nat) (s : State) : (wr f x s).ledger = s.ledger := rfl
@[simp] theorem wr_leases (f : Fld) (x : Nat) (s : State) : (wr f x s).leases = s.leases := rfl
@[simp] theorem wr_claims (f : Fld) (x : Nat) (s : State) : (wr f x s).claims = s.claims := rfl
@[simp] theorem wr_journal (f : Fld) (x : Nat) (s : State) : (wr f x s).journal = s.journal := rfl
@[simp] theorem wr_pvl (f : Fld) (x : Nat) (s : State) : (wr f x s).pvl = s.pvl := rfl
@[simp] theorem wr_onyx (f : Fld) (x : Nat) (s : State) : (wr f x s).onyx = s.onyx := rfl
@[simp] theorem wr_fab (f : Fld) (x : Nat) (s : State) : (wr f x s).fab = s.fab := rfl
@[simp] theorem wr_gar (f : Fld) (x : Nat) (s : State) : (wr f x s).gar = s.gar := rfl
@[simp] theorem wr_voice (f : Fld) (x : Nat) (s : State) : (wr f x s).voice = s.voice := rfl
@[simp] theorem wr_net (f : Fld) (x : Nat) (s : State) : (wr f x s).net = s.net := rfl
@[simp] theorem wr_plc (f : Fld) (x : Nat) (s : State) : (wr f x s).plc = s.plc := rfl
@[simp] theorem wr_opal (f : Fld) (x : Nat) (s : State) : (wr f x s).opal = s.opal := rfl
@[simp] theorem wr_tdm (f : Fld) (x : Nat) (s : State) : (wr f x s).tdm = s.tdm := rfl
@[simp] theorem wr_tpz (f : Fld) (x : Nat) (s : State) : (wr f x s).tpz = s.tpz := rfl
@[simp] theorem wr_agt (f : Fld) (x : Nat) (s : State) : (wr f x s).agt = s.agt := rfl
@[simp] theorem wr_hostMem (f : Fld) (x : Nat) (s : State) : (wr f x s).hostMem = s.hostMem := rfl
@[simp] theorem wr_tap (f : Fld) (x : Nat) (s : State) : (wr f x s).tap = s.tap := rfl
@[simp] theorem wr_shadow (f : Fld) (x : Nat) (s : State) : (wr f x s).shadow = s.shadow := rfl

@[simp] theorem bumpN_pending (f : Fld) (n : Nat) (s : State) : (bumpN f n s).pending = s.pending := rfl
@[simp] theorem bumpN_free (f : Fld) (n : Nat) (s : State) : (bumpN f n s).free = s.free := rfl
@[simp] theorem bumpN_time (f : Fld) (n : Nat) (s : State) : (bumpN f n s).time = s.time := rfl
@[simp] theorem bumpN_pwr (f : Fld) (n : Nat) (s : State) : (bumpN f n s).pwr = s.pwr := rfl
@[simp] theorem bumpN_boot (f : Fld) (n : Nat) (s : State) : (bumpN f n s).boot = s.boot := rfl
@[simp] theorem bumpN_host (f : Fld) (n : Nat) (s : State) : (bumpN f n s).host = s.host := rfl
@[simp] theorem bumpN_ledger (f : Fld) (n : Nat) (s : State) : (bumpN f n s).ledger = s.ledger := rfl
@[simp] theorem bumpN_leases (f : Fld) (n : Nat) (s : State) : (bumpN f n s).leases = s.leases := rfl
@[simp] theorem bumpN_claims (f : Fld) (n : Nat) (s : State) : (bumpN f n s).claims = s.claims := rfl
@[simp] theorem bumpN_journal (f : Fld) (n : Nat) (s : State) : (bumpN f n s).journal = s.journal := rfl
@[simp] theorem bumpN_pvl (f : Fld) (n : Nat) (s : State) : (bumpN f n s).pvl = s.pvl := rfl
@[simp] theorem bumpN_onyx (f : Fld) (n : Nat) (s : State) : (bumpN f n s).onyx = s.onyx := rfl
@[simp] theorem bumpN_fab (f : Fld) (n : Nat) (s : State) : (bumpN f n s).fab = s.fab := rfl
@[simp] theorem bumpN_gar (f : Fld) (n : Nat) (s : State) : (bumpN f n s).gar = s.gar := rfl
@[simp] theorem bumpN_voice (f : Fld) (n : Nat) (s : State) : (bumpN f n s).voice = s.voice := rfl
@[simp] theorem bumpN_net (f : Fld) (n : Nat) (s : State) : (bumpN f n s).net = s.net := rfl
@[simp] theorem bumpN_plc (f : Fld) (n : Nat) (s : State) : (bumpN f n s).plc = s.plc := rfl
@[simp] theorem bumpN_opal (f : Fld) (n : Nat) (s : State) : (bumpN f n s).opal = s.opal := rfl
@[simp] theorem bumpN_tdm (f : Fld) (n : Nat) (s : State) : (bumpN f n s).tdm = s.tdm := rfl
@[simp] theorem bumpN_tpz (f : Fld) (n : Nat) (s : State) : (bumpN f n s).tpz = s.tpz := rfl
@[simp] theorem bumpN_agt (f : Fld) (n : Nat) (s : State) : (bumpN f n s).agt = s.agt := rfl
@[simp] theorem bumpN_hostMem (f : Fld) (n : Nat) (s : State) : (bumpN f n s).hostMem = s.hostMem := rfl
@[simp] theorem bumpN_tap (f : Fld) (n : Nat) (s : State) : (bumpN f n s).tap = s.tap := rfl
@[simp] theorem bumpN_shadow (f : Fld) (n : Nat) (s : State) : (bumpN f n s).shadow = s.shadow := rfl

@[simp] theorem bump_pending (f : Fld) (s : State) : (bump f s).pending = s.pending := rfl
@[simp] theorem bump_free (f : Fld) (s : State) : (bump f s).free = s.free := rfl
@[simp] theorem bump_time (f : Fld) (s : State) : (bump f s).time = s.time := rfl
@[simp] theorem bump_pwr (f : Fld) (s : State) : (bump f s).pwr = s.pwr := rfl
@[simp] theorem bump_boot (f : Fld) (s : State) : (bump f s).boot = s.boot := rfl
@[simp] theorem bump_host (f : Fld) (s : State) : (bump f s).host = s.host := rfl
@[simp] theorem bump_ledger (f : Fld) (s : State) : (bump f s).ledger = s.ledger := rfl
@[simp] theorem bump_leases (f : Fld) (s : State) : (bump f s).leases = s.leases := rfl
@[simp] theorem bump_claims (f : Fld) (s : State) : (bump f s).claims = s.claims := rfl
@[simp] theorem bump_journal (f : Fld) (s : State) : (bump f s).journal = s.journal := rfl
@[simp] theorem bump_pvl (f : Fld) (s : State) : (bump f s).pvl = s.pvl := rfl
@[simp] theorem bump_onyx (f : Fld) (s : State) : (bump f s).onyx = s.onyx := rfl
@[simp] theorem bump_fab (f : Fld) (s : State) : (bump f s).fab = s.fab := rfl
@[simp] theorem bump_gar (f : Fld) (s : State) : (bump f s).gar = s.gar := rfl
@[simp] theorem bump_voice (f : Fld) (s : State) : (bump f s).voice = s.voice := rfl
@[simp] theorem bump_net (f : Fld) (s : State) : (bump f s).net = s.net := rfl
@[simp] theorem bump_plc (f : Fld) (s : State) : (bump f s).plc = s.plc := rfl
@[simp] theorem bump_opal (f : Fld) (s : State) : (bump f s).opal = s.opal := rfl
@[simp] theorem bump_tdm (f : Fld) (s : State) : (bump f s).tdm = s.tdm := rfl
@[simp] theorem bump_tpz (f : Fld) (s : State) : (bump f s).tpz = s.tpz := rfl
@[simp] theorem bump_agt (f : Fld) (s : State) : (bump f s).agt = s.agt := rfl
@[simp] theorem bump_hostMem (f : Fld) (s : State) : (bump f s).hostMem = s.hostMem := rfl
@[simp] theorem bump_tap (f : Fld) (s : State) : (bump f s).tap = s.tap := rfl
@[simp] theorem bump_shadow (f : Fld) (s : State) : (bump f s).shadow = s.shadow := rfl

@[simp] theorem resetRegs_pending (b lo hi : Nat) (s : State) : (resetRegs b lo hi s).pending = s.pending := rfl
@[simp] theorem resetRegs_free (b lo hi : Nat) (s : State) : (resetRegs b lo hi s).free = s.free := rfl
@[simp] theorem resetRegs_time (b lo hi : Nat) (s : State) : (resetRegs b lo hi s).time = s.time := rfl
@[simp] theorem resetRegs_pwr (b lo hi : Nat) (s : State) : (resetRegs b lo hi s).pwr = s.pwr := rfl
@[simp] theorem resetRegs_boot (b lo hi : Nat) (s : State) : (resetRegs b lo hi s).boot = s.boot := rfl
@[simp] theorem resetRegs_host (b lo hi : Nat) (s : State) : (resetRegs b lo hi s).host = s.host := rfl
@[simp] theorem resetRegs_ledger (b lo hi : Nat) (s : State) : (resetRegs b lo hi s).ledger = s.ledger := rfl
@[simp] theorem resetRegs_leases (b lo hi : Nat) (s : State) : (resetRegs b lo hi s).leases = s.leases := rfl
@[simp] theorem resetRegs_claims (b lo hi : Nat) (s : State) : (resetRegs b lo hi s).claims = s.claims := rfl
@[simp] theorem resetRegs_journal (b lo hi : Nat) (s : State) : (resetRegs b lo hi s).journal = s.journal := rfl
@[simp] theorem resetRegs_pvl (b lo hi : Nat) (s : State) : (resetRegs b lo hi s).pvl = s.pvl := rfl
@[simp] theorem resetRegs_onyx (b lo hi : Nat) (s : State) : (resetRegs b lo hi s).onyx = s.onyx := rfl
@[simp] theorem resetRegs_fab (b lo hi : Nat) (s : State) : (resetRegs b lo hi s).fab = s.fab := rfl
@[simp] theorem resetRegs_gar (b lo hi : Nat) (s : State) : (resetRegs b lo hi s).gar = s.gar := rfl
@[simp] theorem resetRegs_voice (b lo hi : Nat) (s : State) : (resetRegs b lo hi s).voice = s.voice := rfl
@[simp] theorem resetRegs_net (b lo hi : Nat) (s : State) : (resetRegs b lo hi s).net = s.net := rfl
@[simp] theorem resetRegs_plc (b lo hi : Nat) (s : State) : (resetRegs b lo hi s).plc = s.plc := rfl
@[simp] theorem resetRegs_opal (b lo hi : Nat) (s : State) : (resetRegs b lo hi s).opal = s.opal := rfl
@[simp] theorem resetRegs_tdm (b lo hi : Nat) (s : State) : (resetRegs b lo hi s).tdm = s.tdm := rfl
@[simp] theorem resetRegs_tpz (b lo hi : Nat) (s : State) : (resetRegs b lo hi s).tpz = s.tpz := rfl
@[simp] theorem resetRegs_agt (b lo hi : Nat) (s : State) : (resetRegs b lo hi s).agt = s.agt := rfl
@[simp] theorem resetRegs_hostMem (b lo hi : Nat) (s : State) : (resetRegs b lo hi s).hostMem = s.hostMem := rfl
@[simp] theorem resetRegs_tap (b lo hi : Nat) (s : State) : (resetRegs b lo hi s).tap = s.tap := rfl
@[simp] theorem resetRegs_shadow (b lo hi : Nat) (s : State) : (resetRegs b lo hi s).shadow = s.shadow := rfl

@[simp] theorem tookFree_pending (s : State) : (tookFree s).pending = s.pending := rfl
@[simp] theorem tookFree_regs (s : State) : (tookFree s).regs = s.regs := rfl
@[simp] theorem tookFree_time (s : State) : (tookFree s).time = s.time := rfl
@[simp] theorem tookFree_pwr (s : State) : (tookFree s).pwr = s.pwr := rfl
@[simp] theorem tookFree_boot (s : State) : (tookFree s).boot = s.boot := rfl
@[simp] theorem tookFree_host (s : State) : (tookFree s).host = s.host := rfl
@[simp] theorem tookFree_ledger (s : State) : (tookFree s).ledger = s.ledger := rfl
@[simp] theorem tookFree_leases (s : State) : (tookFree s).leases = s.leases := rfl
@[simp] theorem tookFree_claims (s : State) : (tookFree s).claims = s.claims := rfl
@[simp] theorem tookFree_journal (s : State) : (tookFree s).journal = s.journal := rfl
@[simp] theorem tookFree_pvl (s : State) : (tookFree s).pvl = s.pvl := rfl
@[simp] theorem tookFree_onyx (s : State) : (tookFree s).onyx = s.onyx := rfl
@[simp] theorem tookFree_fab (s : State) : (tookFree s).fab = s.fab := rfl
@[simp] theorem tookFree_gar (s : State) : (tookFree s).gar = s.gar := rfl
@[simp] theorem tookFree_voice (s : State) : (tookFree s).voice = s.voice := rfl
@[simp] theorem tookFree_net (s : State) : (tookFree s).net = s.net := rfl
@[simp] theorem tookFree_plc (s : State) : (tookFree s).plc = s.plc := rfl
@[simp] theorem tookFree_opal (s : State) : (tookFree s).opal = s.opal := rfl
@[simp] theorem tookFree_tdm (s : State) : (tookFree s).tdm = s.tdm := rfl
@[simp] theorem tookFree_tpz (s : State) : (tookFree s).tpz = s.tpz := rfl
@[simp] theorem tookFree_agt (s : State) : (tookFree s).agt = s.agt := rfl
@[simp] theorem tookFree_hostMem (s : State) : (tookFree s).hostMem = s.hostMem := rfl
@[simp] theorem tookFree_tap (s : State) : (tookFree s).tap = s.tap := rfl
@[simp] theorem tookFree_shadow (s : State) : (tookFree s).shadow = s.shadow := rfl

@[simp] theorem setQueue_pending (q : Nat) (v : QueueSt) (s : State) : (setQueue q v s).pending = s.pending := rfl
@[simp] theorem setQueue_free (q : Nat) (v : QueueSt) (s : State) : (setQueue q v s).free = s.free := rfl
@[simp] theorem setQueue_regs (q : Nat) (v : QueueSt) (s : State) : (setQueue q v s).regs = s.regs := rfl
@[simp] theorem setQueue_time (q : Nat) (v : QueueSt) (s : State) : (setQueue q v s).time = s.time := rfl
@[simp] theorem setQueue_pwr (q : Nat) (v : QueueSt) (s : State) : (setQueue q v s).pwr = s.pwr := rfl
@[simp] theorem setQueue_boot (q : Nat) (v : QueueSt) (s : State) : (setQueue q v s).boot = s.boot := rfl
@[simp] theorem setQueue_ledger (q : Nat) (v : QueueSt) (s : State) : (setQueue q v s).ledger = s.ledger := rfl
@[simp] theorem setQueue_leases (q : Nat) (v : QueueSt) (s : State) : (setQueue q v s).leases = s.leases := rfl
@[simp] theorem setQueue_claims (q : Nat) (v : QueueSt) (s : State) : (setQueue q v s).claims = s.claims := rfl
@[simp] theorem setQueue_journal (q : Nat) (v : QueueSt) (s : State) : (setQueue q v s).journal = s.journal := rfl
@[simp] theorem setQueue_pvl (q : Nat) (v : QueueSt) (s : State) : (setQueue q v s).pvl = s.pvl := rfl
@[simp] theorem setQueue_onyx (q : Nat) (v : QueueSt) (s : State) : (setQueue q v s).onyx = s.onyx := rfl
@[simp] theorem setQueue_fab (q : Nat) (v : QueueSt) (s : State) : (setQueue q v s).fab = s.fab := rfl
@[simp] theorem setQueue_gar (q : Nat) (v : QueueSt) (s : State) : (setQueue q v s).gar = s.gar := rfl
@[simp] theorem setQueue_voice (q : Nat) (v : QueueSt) (s : State) : (setQueue q v s).voice = s.voice := rfl
@[simp] theorem setQueue_net (q : Nat) (v : QueueSt) (s : State) : (setQueue q v s).net = s.net := rfl
@[simp] theorem setQueue_plc (q : Nat) (v : QueueSt) (s : State) : (setQueue q v s).plc = s.plc := rfl
@[simp] theorem setQueue_opal (q : Nat) (v : QueueSt) (s : State) : (setQueue q v s).opal = s.opal := rfl
@[simp] theorem setQueue_tdm (q : Nat) (v : QueueSt) (s : State) : (setQueue q v s).tdm = s.tdm := rfl
@[simp] theorem setQueue_tpz (q : Nat) (v : QueueSt) (s : State) : (setQueue q v s).tpz = s.tpz := rfl
@[simp] theorem setQueue_agt (q : Nat) (v : QueueSt) (s : State) : (setQueue q v s).agt = s.agt := rfl
@[simp] theorem setQueue_hostMem (q : Nat) (v : QueueSt) (s : State) : (setQueue q v s).hostMem = s.hostMem := rfl
@[simp] theorem setQueue_tap (q : Nat) (v : QueueSt) (s : State) : (setQueue q v s).tap = s.tap := rfl
@[simp] theorem setQueue_shadow (q : Nat) (v : QueueSt) (s : State) : (setQueue q v s).shadow = s.shadow := rfl

@[simp] theorem setCmd_pending (c : Cmd) (s : State) : (setCmd c s).pending = s.pending := rfl
@[simp] theorem setCmd_free (c : Cmd) (s : State) : (setCmd c s).free = s.free := rfl
@[simp] theorem setCmd_regs (c : Cmd) (s : State) : (setCmd c s).regs = s.regs := rfl
@[simp] theorem setCmd_time (c : Cmd) (s : State) : (setCmd c s).time = s.time := rfl
@[simp] theorem setCmd_pwr (c : Cmd) (s : State) : (setCmd c s).pwr = s.pwr := rfl
@[simp] theorem setCmd_boot (c : Cmd) (s : State) : (setCmd c s).boot = s.boot := rfl
@[simp] theorem setCmd_ledger (c : Cmd) (s : State) : (setCmd c s).ledger = s.ledger := rfl
@[simp] theorem setCmd_leases (c : Cmd) (s : State) : (setCmd c s).leases = s.leases := rfl
@[simp] theorem setCmd_claims (c : Cmd) (s : State) : (setCmd c s).claims = s.claims := rfl
@[simp] theorem setCmd_journal (c : Cmd) (s : State) : (setCmd c s).journal = s.journal := rfl
@[simp] theorem setCmd_pvl (c : Cmd) (s : State) : (setCmd c s).pvl = s.pvl := rfl
@[simp] theorem setCmd_onyx (c : Cmd) (s : State) : (setCmd c s).onyx = s.onyx := rfl
@[simp] theorem setCmd_fab (c : Cmd) (s : State) : (setCmd c s).fab = s.fab := rfl
@[simp] theorem setCmd_gar (c : Cmd) (s : State) : (setCmd c s).gar = s.gar := rfl
@[simp] theorem setCmd_voice (c : Cmd) (s : State) : (setCmd c s).voice = s.voice := rfl
@[simp] theorem setCmd_net (c : Cmd) (s : State) : (setCmd c s).net = s.net := rfl
@[simp] theorem setCmd_plc (c : Cmd) (s : State) : (setCmd c s).plc = s.plc := rfl
@[simp] theorem setCmd_opal (c : Cmd) (s : State) : (setCmd c s).opal = s.opal := rfl
@[simp] theorem setCmd_tdm (c : Cmd) (s : State) : (setCmd c s).tdm = s.tdm := rfl
@[simp] theorem setCmd_tpz (c : Cmd) (s : State) : (setCmd c s).tpz = s.tpz := rfl
@[simp] theorem setCmd_agt (c : Cmd) (s : State) : (setCmd c s).agt = s.agt := rfl
@[simp] theorem setCmd_hostMem (c : Cmd) (s : State) : (setCmd c s).hostMem = s.hostMem := rfl
@[simp] theorem setCmd_tap (c : Cmd) (s : State) : (setCmd c s).tap = s.tap := rfl
@[simp] theorem setCmd_shadow (c : Cmd) (s : State) : (setCmd c s).shadow = s.shadow := rfl

@[simp] theorem addCmd_pending (c : Cmd) (s : State) : (addCmd c s).pending = s.pending := rfl
@[simp] theorem addCmd_free (c : Cmd) (s : State) : (addCmd c s).free = s.free := rfl
@[simp] theorem addCmd_regs (c : Cmd) (s : State) : (addCmd c s).regs = s.regs := rfl
@[simp] theorem addCmd_time (c : Cmd) (s : State) : (addCmd c s).time = s.time := rfl
@[simp] theorem addCmd_pwr (c : Cmd) (s : State) : (addCmd c s).pwr = s.pwr := rfl
@[simp] theorem addCmd_boot (c : Cmd) (s : State) : (addCmd c s).boot = s.boot := rfl
@[simp] theorem addCmd_ledger (c : Cmd) (s : State) : (addCmd c s).ledger = s.ledger := rfl
@[simp] theorem addCmd_leases (c : Cmd) (s : State) : (addCmd c s).leases = s.leases := rfl
@[simp] theorem addCmd_claims (c : Cmd) (s : State) : (addCmd c s).claims = s.claims := rfl
@[simp] theorem addCmd_journal (c : Cmd) (s : State) : (addCmd c s).journal = s.journal := rfl
@[simp] theorem addCmd_pvl (c : Cmd) (s : State) : (addCmd c s).pvl = s.pvl := rfl
@[simp] theorem addCmd_onyx (c : Cmd) (s : State) : (addCmd c s).onyx = s.onyx := rfl
@[simp] theorem addCmd_fab (c : Cmd) (s : State) : (addCmd c s).fab = s.fab := rfl
@[simp] theorem addCmd_gar (c : Cmd) (s : State) : (addCmd c s).gar = s.gar := rfl
@[simp] theorem addCmd_voice (c : Cmd) (s : State) : (addCmd c s).voice = s.voice := rfl
@[simp] theorem addCmd_net (c : Cmd) (s : State) : (addCmd c s).net = s.net := rfl
@[simp] theorem addCmd_plc (c : Cmd) (s : State) : (addCmd c s).plc = s.plc := rfl
@[simp] theorem addCmd_opal (c : Cmd) (s : State) : (addCmd c s).opal = s.opal := rfl
@[simp] theorem addCmd_tdm (c : Cmd) (s : State) : (addCmd c s).tdm = s.tdm := rfl
@[simp] theorem addCmd_tpz (c : Cmd) (s : State) : (addCmd c s).tpz = s.tpz := rfl
@[simp] theorem addCmd_agt (c : Cmd) (s : State) : (addCmd c s).agt = s.agt := rfl
@[simp] theorem addCmd_hostMem (c : Cmd) (s : State) : (addCmd c s).hostMem = s.hostMem := rfl
@[simp] theorem addCmd_tap (c : Cmd) (s : State) : (addCmd c s).tap = s.tap := rfl
@[simp] theorem addCmd_shadow (c : Cmd) (s : State) : (addCmd c s).shadow = s.shadow := rfl

@[simp] theorem pushCpl_pending (q : Nat) (c : Cpl) (s : State) : (pushCpl q c s).pending = s.pending := rfl
@[simp] theorem pushCpl_free (q : Nat) (c : Cpl) (s : State) : (pushCpl q c s).free = s.free := rfl
@[simp] theorem pushCpl_regs (q : Nat) (c : Cpl) (s : State) : (pushCpl q c s).regs = s.regs := rfl
@[simp] theorem pushCpl_time (q : Nat) (c : Cpl) (s : State) : (pushCpl q c s).time = s.time := rfl
@[simp] theorem pushCpl_pwr (q : Nat) (c : Cpl) (s : State) : (pushCpl q c s).pwr = s.pwr := rfl
@[simp] theorem pushCpl_boot (q : Nat) (c : Cpl) (s : State) : (pushCpl q c s).boot = s.boot := rfl
@[simp] theorem pushCpl_ledger (q : Nat) (c : Cpl) (s : State) : (pushCpl q c s).ledger = s.ledger := rfl
@[simp] theorem pushCpl_leases (q : Nat) (c : Cpl) (s : State) : (pushCpl q c s).leases = s.leases := rfl
@[simp] theorem pushCpl_claims (q : Nat) (c : Cpl) (s : State) : (pushCpl q c s).claims = s.claims := rfl
@[simp] theorem pushCpl_journal (q : Nat) (c : Cpl) (s : State) : (pushCpl q c s).journal = s.journal := rfl
@[simp] theorem pushCpl_pvl (q : Nat) (c : Cpl) (s : State) : (pushCpl q c s).pvl = s.pvl := rfl
@[simp] theorem pushCpl_onyx (q : Nat) (c : Cpl) (s : State) : (pushCpl q c s).onyx = s.onyx := rfl
@[simp] theorem pushCpl_fab (q : Nat) (c : Cpl) (s : State) : (pushCpl q c s).fab = s.fab := rfl
@[simp] theorem pushCpl_gar (q : Nat) (c : Cpl) (s : State) : (pushCpl q c s).gar = s.gar := rfl
@[simp] theorem pushCpl_voice (q : Nat) (c : Cpl) (s : State) : (pushCpl q c s).voice = s.voice := rfl
@[simp] theorem pushCpl_net (q : Nat) (c : Cpl) (s : State) : (pushCpl q c s).net = s.net := rfl
@[simp] theorem pushCpl_plc (q : Nat) (c : Cpl) (s : State) : (pushCpl q c s).plc = s.plc := rfl
@[simp] theorem pushCpl_opal (q : Nat) (c : Cpl) (s : State) : (pushCpl q c s).opal = s.opal := rfl
@[simp] theorem pushCpl_tdm (q : Nat) (c : Cpl) (s : State) : (pushCpl q c s).tdm = s.tdm := rfl
@[simp] theorem pushCpl_tpz (q : Nat) (c : Cpl) (s : State) : (pushCpl q c s).tpz = s.tpz := rfl
@[simp] theorem pushCpl_agt (q : Nat) (c : Cpl) (s : State) : (pushCpl q c s).agt = s.agt := rfl
@[simp] theorem pushCpl_hostMem (q : Nat) (c : Cpl) (s : State) : (pushCpl q c s).hostMem = s.hostMem := rfl
@[simp] theorem pushCpl_tap (q : Nat) (c : Cpl) (s : State) : (pushCpl q c s).tap = s.tap := rfl
@[simp] theorem pushCpl_shadow (q : Nat) (c : Cpl) (s : State) : (pushCpl q c s).shadow = s.shadow := rfl

@[simp] theorem setLease_pending (n : Nat) (l : Lease) (s : State) : (setLease n l s).pending = s.pending := rfl
@[simp] theorem setLease_free (n : Nat) (l : Lease) (s : State) : (setLease n l s).free = s.free := rfl
@[simp] theorem setLease_regs (n : Nat) (l : Lease) (s : State) : (setLease n l s).regs = s.regs := rfl
@[simp] theorem setLease_time (n : Nat) (l : Lease) (s : State) : (setLease n l s).time = s.time := rfl
@[simp] theorem setLease_pwr (n : Nat) (l : Lease) (s : State) : (setLease n l s).pwr = s.pwr := rfl
@[simp] theorem setLease_boot (n : Nat) (l : Lease) (s : State) : (setLease n l s).boot = s.boot := rfl
@[simp] theorem setLease_host (n : Nat) (l : Lease) (s : State) : (setLease n l s).host = s.host := rfl
@[simp] theorem setLease_ledger (n : Nat) (l : Lease) (s : State) : (setLease n l s).ledger = s.ledger := rfl
@[simp] theorem setLease_claims (n : Nat) (l : Lease) (s : State) : (setLease n l s).claims = s.claims := rfl
@[simp] theorem setLease_journal (n : Nat) (l : Lease) (s : State) : (setLease n l s).journal = s.journal := rfl
@[simp] theorem setLease_pvl (n : Nat) (l : Lease) (s : State) : (setLease n l s).pvl = s.pvl := rfl
@[simp] theorem setLease_onyx (n : Nat) (l : Lease) (s : State) : (setLease n l s).onyx = s.onyx := rfl
@[simp] theorem setLease_fab (n : Nat) (l : Lease) (s : State) : (setLease n l s).fab = s.fab := rfl
@[simp] theorem setLease_gar (n : Nat) (l : Lease) (s : State) : (setLease n l s).gar = s.gar := rfl
@[simp] theorem setLease_voice (n : Nat) (l : Lease) (s : State) : (setLease n l s).voice = s.voice := rfl
@[simp] theorem setLease_net (n : Nat) (l : Lease) (s : State) : (setLease n l s).net = s.net := rfl
@[simp] theorem setLease_plc (n : Nat) (l : Lease) (s : State) : (setLease n l s).plc = s.plc := rfl
@[simp] theorem setLease_opal (n : Nat) (l : Lease) (s : State) : (setLease n l s).opal = s.opal := rfl
@[simp] theorem setLease_tdm (n : Nat) (l : Lease) (s : State) : (setLease n l s).tdm = s.tdm := rfl
@[simp] theorem setLease_tpz (n : Nat) (l : Lease) (s : State) : (setLease n l s).tpz = s.tpz := rfl
@[simp] theorem setLease_agt (n : Nat) (l : Lease) (s : State) : (setLease n l s).agt = s.agt := rfl
@[simp] theorem setLease_hostMem (n : Nat) (l : Lease) (s : State) : (setLease n l s).hostMem = s.hostMem := rfl
@[simp] theorem setLease_tap (n : Nat) (l : Lease) (s : State) : (setLease n l s).tap = s.tap := rfl
@[simp] theorem setLease_shadow (n : Nat) (l : Lease) (s : State) : (setLease n l s).shadow = s.shadow := rfl

@[simp] theorem setEntry_pending (i : Nat) (e : LEntry) (s : State) : (setEntry i e s).pending = s.pending := rfl
@[simp] theorem setEntry_free (i : Nat) (e : LEntry) (s : State) : (setEntry i e s).free = s.free := rfl
@[simp] theorem setEntry_regs (i : Nat) (e : LEntry) (s : State) : (setEntry i e s).regs = s.regs := rfl
@[simp] theorem setEntry_time (i : Nat) (e : LEntry) (s : State) : (setEntry i e s).time = s.time := rfl
@[simp] theorem setEntry_pwr (i : Nat) (e : LEntry) (s : State) : (setEntry i e s).pwr = s.pwr := rfl
@[simp] theorem setEntry_boot (i : Nat) (e : LEntry) (s : State) : (setEntry i e s).boot = s.boot := rfl
@[simp] theorem setEntry_host (i : Nat) (e : LEntry) (s : State) : (setEntry i e s).host = s.host := rfl
@[simp] theorem setEntry_leases (i : Nat) (e : LEntry) (s : State) : (setEntry i e s).leases = s.leases := rfl
@[simp] theorem setEntry_claims (i : Nat) (e : LEntry) (s : State) : (setEntry i e s).claims = s.claims := rfl
@[simp] theorem setEntry_journal (i : Nat) (e : LEntry) (s : State) : (setEntry i e s).journal = s.journal := rfl
@[simp] theorem setEntry_pvl (i : Nat) (e : LEntry) (s : State) : (setEntry i e s).pvl = s.pvl := rfl
@[simp] theorem setEntry_onyx (i : Nat) (e : LEntry) (s : State) : (setEntry i e s).onyx = s.onyx := rfl
@[simp] theorem setEntry_fab (i : Nat) (e : LEntry) (s : State) : (setEntry i e s).fab = s.fab := rfl
@[simp] theorem setEntry_gar (i : Nat) (e : LEntry) (s : State) : (setEntry i e s).gar = s.gar := rfl
@[simp] theorem setEntry_voice (i : Nat) (e : LEntry) (s : State) : (setEntry i e s).voice = s.voice := rfl
@[simp] theorem setEntry_net (i : Nat) (e : LEntry) (s : State) : (setEntry i e s).net = s.net := rfl
@[simp] theorem setEntry_plc (i : Nat) (e : LEntry) (s : State) : (setEntry i e s).plc = s.plc := rfl
@[simp] theorem setEntry_opal (i : Nat) (e : LEntry) (s : State) : (setEntry i e s).opal = s.opal := rfl
@[simp] theorem setEntry_tdm (i : Nat) (e : LEntry) (s : State) : (setEntry i e s).tdm = s.tdm := rfl
@[simp] theorem setEntry_tpz (i : Nat) (e : LEntry) (s : State) : (setEntry i e s).tpz = s.tpz := rfl
@[simp] theorem setEntry_agt (i : Nat) (e : LEntry) (s : State) : (setEntry i e s).agt = s.agt := rfl
@[simp] theorem setEntry_hostMem (i : Nat) (e : LEntry) (s : State) : (setEntry i e s).hostMem = s.hostMem := rfl
@[simp] theorem setEntry_tap (i : Nat) (e : LEntry) (s : State) : (setEntry i e s).tap = s.tap := rfl
@[simp] theorem setEntry_shadow (i : Nat) (e : LEntry) (s : State) : (setEntry i e s).shadow = s.shadow := rfl

@[simp] theorem liveClear_pending (i : Nat) (s : State) : (liveClear i s).pending = s.pending := rfl
@[simp] theorem liveClear_free (i : Nat) (s : State) : (liveClear i s).free = s.free := rfl
@[simp] theorem liveClear_regs (i : Nat) (s : State) : (liveClear i s).regs = s.regs := rfl
@[simp] theorem liveClear_time (i : Nat) (s : State) : (liveClear i s).time = s.time := rfl
@[simp] theorem liveClear_pwr (i : Nat) (s : State) : (liveClear i s).pwr = s.pwr := rfl
@[simp] theorem liveClear_boot (i : Nat) (s : State) : (liveClear i s).boot = s.boot := rfl
@[simp] theorem liveClear_host (i : Nat) (s : State) : (liveClear i s).host = s.host := rfl
@[simp] theorem liveClear_leases (i : Nat) (s : State) : (liveClear i s).leases = s.leases := rfl
@[simp] theorem liveClear_claims (i : Nat) (s : State) : (liveClear i s).claims = s.claims := rfl
@[simp] theorem liveClear_journal (i : Nat) (s : State) : (liveClear i s).journal = s.journal := rfl
@[simp] theorem liveClear_pvl (i : Nat) (s : State) : (liveClear i s).pvl = s.pvl := rfl
@[simp] theorem liveClear_onyx (i : Nat) (s : State) : (liveClear i s).onyx = s.onyx := rfl
@[simp] theorem liveClear_fab (i : Nat) (s : State) : (liveClear i s).fab = s.fab := rfl
@[simp] theorem liveClear_gar (i : Nat) (s : State) : (liveClear i s).gar = s.gar := rfl
@[simp] theorem liveClear_voice (i : Nat) (s : State) : (liveClear i s).voice = s.voice := rfl
@[simp] theorem liveClear_net (i : Nat) (s : State) : (liveClear i s).net = s.net := rfl
@[simp] theorem liveClear_plc (i : Nat) (s : State) : (liveClear i s).plc = s.plc := rfl
@[simp] theorem liveClear_opal (i : Nat) (s : State) : (liveClear i s).opal = s.opal := rfl
@[simp] theorem liveClear_tdm (i : Nat) (s : State) : (liveClear i s).tdm = s.tdm := rfl
@[simp] theorem liveClear_tpz (i : Nat) (s : State) : (liveClear i s).tpz = s.tpz := rfl
@[simp] theorem liveClear_agt (i : Nat) (s : State) : (liveClear i s).agt = s.agt := rfl
@[simp] theorem liveClear_hostMem (i : Nat) (s : State) : (liveClear i s).hostMem = s.hostMem := rfl
@[simp] theorem liveClear_tap (i : Nat) (s : State) : (liveClear i s).tap = s.tap := rfl
@[simp] theorem liveClear_shadow (i : Nat) (s : State) : (liveClear i s).shadow = s.shadow := rfl

@[simp] theorem ueFix_pending (lo n : Nat) (s : State) : (ueFix lo n s).pending = s.pending := rfl
@[simp] theorem ueFix_free (lo n : Nat) (s : State) : (ueFix lo n s).free = s.free := rfl
@[simp] theorem ueFix_regs (lo n : Nat) (s : State) : (ueFix lo n s).regs = s.regs := rfl
@[simp] theorem ueFix_time (lo n : Nat) (s : State) : (ueFix lo n s).time = s.time := rfl
@[simp] theorem ueFix_boot (lo n : Nat) (s : State) : (ueFix lo n s).boot = s.boot := rfl
@[simp] theorem ueFix_host (lo n : Nat) (s : State) : (ueFix lo n s).host = s.host := rfl
@[simp] theorem ueFix_ledger (lo n : Nat) (s : State) : (ueFix lo n s).ledger = s.ledger := rfl
@[simp] theorem ueFix_leases (lo n : Nat) (s : State) : (ueFix lo n s).leases = s.leases := rfl
@[simp] theorem ueFix_claims (lo n : Nat) (s : State) : (ueFix lo n s).claims = s.claims := rfl
@[simp] theorem ueFix_journal (lo n : Nat) (s : State) : (ueFix lo n s).journal = s.journal := rfl
@[simp] theorem ueFix_pvl (lo n : Nat) (s : State) : (ueFix lo n s).pvl = s.pvl := rfl
@[simp] theorem ueFix_onyx (lo n : Nat) (s : State) : (ueFix lo n s).onyx = s.onyx := rfl
@[simp] theorem ueFix_fab (lo n : Nat) (s : State) : (ueFix lo n s).fab = s.fab := rfl
@[simp] theorem ueFix_gar (lo n : Nat) (s : State) : (ueFix lo n s).gar = s.gar := rfl
@[simp] theorem ueFix_voice (lo n : Nat) (s : State) : (ueFix lo n s).voice = s.voice := rfl
@[simp] theorem ueFix_net (lo n : Nat) (s : State) : (ueFix lo n s).net = s.net := rfl
@[simp] theorem ueFix_plc (lo n : Nat) (s : State) : (ueFix lo n s).plc = s.plc := rfl
@[simp] theorem ueFix_opal (lo n : Nat) (s : State) : (ueFix lo n s).opal = s.opal := rfl
@[simp] theorem ueFix_tdm (lo n : Nat) (s : State) : (ueFix lo n s).tdm = s.tdm := rfl
@[simp] theorem ueFix_tpz (lo n : Nat) (s : State) : (ueFix lo n s).tpz = s.tpz := rfl
@[simp] theorem ueFix_agt (lo n : Nat) (s : State) : (ueFix lo n s).agt = s.agt := rfl
@[simp] theorem ueFix_hostMem (lo n : Nat) (s : State) : (ueFix lo n s).hostMem = s.hostMem := rfl
@[simp] theorem ueFix_tap (lo n : Nat) (s : State) : (ueFix lo n s).tap = s.tap := rfl
@[simp] theorem ueFix_shadow (lo n : Nat) (s : State) : (ueFix lo n s).shadow = s.shadow := rfl

@[simp] theorem unclaim_pending (c i : Nat) (s : State) : (unclaim c i s).pending = s.pending := rfl
@[simp] theorem unclaim_free (c i : Nat) (s : State) : (unclaim c i s).free = s.free := rfl
@[simp] theorem unclaim_regs (c i : Nat) (s : State) : (unclaim c i s).regs = s.regs := rfl
@[simp] theorem unclaim_time (c i : Nat) (s : State) : (unclaim c i s).time = s.time := rfl
@[simp] theorem unclaim_pwr (c i : Nat) (s : State) : (unclaim c i s).pwr = s.pwr := rfl
@[simp] theorem unclaim_boot (c i : Nat) (s : State) : (unclaim c i s).boot = s.boot := rfl
@[simp] theorem unclaim_host (c i : Nat) (s : State) : (unclaim c i s).host = s.host := rfl
@[simp] theorem unclaim_ledger (c i : Nat) (s : State) : (unclaim c i s).ledger = s.ledger := rfl
@[simp] theorem unclaim_leases (c i : Nat) (s : State) : (unclaim c i s).leases = s.leases := rfl
@[simp] theorem unclaim_journal (c i : Nat) (s : State) : (unclaim c i s).journal = s.journal := rfl
@[simp] theorem unclaim_pvl (c i : Nat) (s : State) : (unclaim c i s).pvl = s.pvl := rfl
@[simp] theorem unclaim_onyx (c i : Nat) (s : State) : (unclaim c i s).onyx = s.onyx := rfl
@[simp] theorem unclaim_fab (c i : Nat) (s : State) : (unclaim c i s).fab = s.fab := rfl
@[simp] theorem unclaim_gar (c i : Nat) (s : State) : (unclaim c i s).gar = s.gar := rfl
@[simp] theorem unclaim_voice (c i : Nat) (s : State) : (unclaim c i s).voice = s.voice := rfl
@[simp] theorem unclaim_net (c i : Nat) (s : State) : (unclaim c i s).net = s.net := rfl
@[simp] theorem unclaim_plc (c i : Nat) (s : State) : (unclaim c i s).plc = s.plc := rfl
@[simp] theorem unclaim_opal (c i : Nat) (s : State) : (unclaim c i s).opal = s.opal := rfl
@[simp] theorem unclaim_tdm (c i : Nat) (s : State) : (unclaim c i s).tdm = s.tdm := rfl
@[simp] theorem unclaim_tpz (c i : Nat) (s : State) : (unclaim c i s).tpz = s.tpz := rfl
@[simp] theorem unclaim_agt (c i : Nat) (s : State) : (unclaim c i s).agt = s.agt := rfl
@[simp] theorem unclaim_hostMem (c i : Nat) (s : State) : (unclaim c i s).hostMem = s.hostMem := rfl
@[simp] theorem unclaim_tap (c i : Nat) (s : State) : (unclaim c i s).tap = s.tap := rfl
@[simp] theorem unclaim_shadow (c i : Nat) (s : State) : (unclaim c i s).shadow = s.shadow := rfl

@[simp] theorem unclaimIf_pending (p : Claim → Bool) (s : State) : (unclaimIf p s).pending = s.pending := rfl
@[simp] theorem unclaimIf_free (p : Claim → Bool) (s : State) : (unclaimIf p s).free = s.free := rfl
@[simp] theorem unclaimIf_regs (p : Claim → Bool) (s : State) : (unclaimIf p s).regs = s.regs := rfl
@[simp] theorem unclaimIf_time (p : Claim → Bool) (s : State) : (unclaimIf p s).time = s.time := rfl
@[simp] theorem unclaimIf_pwr (p : Claim → Bool) (s : State) : (unclaimIf p s).pwr = s.pwr := rfl
@[simp] theorem unclaimIf_boot (p : Claim → Bool) (s : State) : (unclaimIf p s).boot = s.boot := rfl
@[simp] theorem unclaimIf_host (p : Claim → Bool) (s : State) : (unclaimIf p s).host = s.host := rfl
@[simp] theorem unclaimIf_ledger (p : Claim → Bool) (s : State) : (unclaimIf p s).ledger = s.ledger := rfl
@[simp] theorem unclaimIf_leases (p : Claim → Bool) (s : State) : (unclaimIf p s).leases = s.leases := rfl
@[simp] theorem unclaimIf_journal (p : Claim → Bool) (s : State) : (unclaimIf p s).journal = s.journal := rfl
@[simp] theorem unclaimIf_pvl (p : Claim → Bool) (s : State) : (unclaimIf p s).pvl = s.pvl := rfl
@[simp] theorem unclaimIf_onyx (p : Claim → Bool) (s : State) : (unclaimIf p s).onyx = s.onyx := rfl
@[simp] theorem unclaimIf_fab (p : Claim → Bool) (s : State) : (unclaimIf p s).fab = s.fab := rfl
@[simp] theorem unclaimIf_gar (p : Claim → Bool) (s : State) : (unclaimIf p s).gar = s.gar := rfl
@[simp] theorem unclaimIf_voice (p : Claim → Bool) (s : State) : (unclaimIf p s).voice = s.voice := rfl
@[simp] theorem unclaimIf_net (p : Claim → Bool) (s : State) : (unclaimIf p s).net = s.net := rfl
@[simp] theorem unclaimIf_plc (p : Claim → Bool) (s : State) : (unclaimIf p s).plc = s.plc := rfl
@[simp] theorem unclaimIf_opal (p : Claim → Bool) (s : State) : (unclaimIf p s).opal = s.opal := rfl
@[simp] theorem unclaimIf_tdm (p : Claim → Bool) (s : State) : (unclaimIf p s).tdm = s.tdm := rfl
@[simp] theorem unclaimIf_tpz (p : Claim → Bool) (s : State) : (unclaimIf p s).tpz = s.tpz := rfl
@[simp] theorem unclaimIf_agt (p : Claim → Bool) (s : State) : (unclaimIf p s).agt = s.agt := rfl
@[simp] theorem unclaimIf_hostMem (p : Claim → Bool) (s : State) : (unclaimIf p s).hostMem = s.hostMem := rfl
@[simp] theorem unclaimIf_tap (p : Claim → Bool) (s : State) : (unclaimIf p s).tap = s.tap := rfl
@[simp] theorem unclaimIf_shadow (p : Claim → Bool) (s : State) : (unclaimIf p s).shadow = s.shadow := rfl

@[simp] theorem liveSet_pending (i : Nat) (s : State) : (liveSet i s).pending = s.pending := by unfold liveSet; split <;> rfl
@[simp] theorem liveSet_free (i : Nat) (s : State) : (liveSet i s).free = s.free := by unfold liveSet; split <;> rfl
@[simp] theorem liveSet_regs (i : Nat) (s : State) : (liveSet i s).regs = s.regs := by unfold liveSet; split <;> rfl
@[simp] theorem liveSet_time (i : Nat) (s : State) : (liveSet i s).time = s.time := by unfold liveSet; split <;> rfl
@[simp] theorem liveSet_pwr (i : Nat) (s : State) : (liveSet i s).pwr = s.pwr := by unfold liveSet; split <;> rfl
@[simp] theorem liveSet_boot (i : Nat) (s : State) : (liveSet i s).boot = s.boot := by unfold liveSet; split <;> rfl
@[simp] theorem liveSet_host (i : Nat) (s : State) : (liveSet i s).host = s.host := by unfold liveSet; split <;> rfl
@[simp] theorem liveSet_leases (i : Nat) (s : State) : (liveSet i s).leases = s.leases := by unfold liveSet; split <;> rfl
@[simp] theorem liveSet_claims (i : Nat) (s : State) : (liveSet i s).claims = s.claims := by unfold liveSet; split <;> rfl
@[simp] theorem liveSet_journal (i : Nat) (s : State) : (liveSet i s).journal = s.journal := by unfold liveSet; split <;> rfl
@[simp] theorem liveSet_pvl (i : Nat) (s : State) : (liveSet i s).pvl = s.pvl := by unfold liveSet; split <;> rfl
@[simp] theorem liveSet_onyx (i : Nat) (s : State) : (liveSet i s).onyx = s.onyx := by unfold liveSet; split <;> rfl
@[simp] theorem liveSet_fab (i : Nat) (s : State) : (liveSet i s).fab = s.fab := by unfold liveSet; split <;> rfl
@[simp] theorem liveSet_gar (i : Nat) (s : State) : (liveSet i s).gar = s.gar := by unfold liveSet; split <;> rfl
@[simp] theorem liveSet_voice (i : Nat) (s : State) : (liveSet i s).voice = s.voice := by unfold liveSet; split <;> rfl
@[simp] theorem liveSet_net (i : Nat) (s : State) : (liveSet i s).net = s.net := by unfold liveSet; split <;> rfl
@[simp] theorem liveSet_plc (i : Nat) (s : State) : (liveSet i s).plc = s.plc := by unfold liveSet; split <;> rfl
@[simp] theorem liveSet_opal (i : Nat) (s : State) : (liveSet i s).opal = s.opal := by unfold liveSet; split <;> rfl
@[simp] theorem liveSet_tdm (i : Nat) (s : State) : (liveSet i s).tdm = s.tdm := by unfold liveSet; split <;> rfl
@[simp] theorem liveSet_tpz (i : Nat) (s : State) : (liveSet i s).tpz = s.tpz := by unfold liveSet; split <;> rfl
@[simp] theorem liveSet_agt (i : Nat) (s : State) : (liveSet i s).agt = s.agt := by unfold liveSet; split <;> rfl
@[simp] theorem liveSet_hostMem (i : Nat) (s : State) : (liveSet i s).hostMem = s.hostMem := by unfold liveSet; split <;> rfl
@[simp] theorem liveSet_tap (i : Nat) (s : State) : (liveSet i s).tap = s.tap := by unfold liveSet; split <;> rfl
@[simp] theorem liveSet_shadow (i : Nat) (s : State) : (liveSet i s).shadow = s.shadow := by unfold liveSet; split <;> rfl

@[simp] theorem ledgerPhase_pending (i p fs fl : Nat) (s : State) : (ledgerPhase i p fs fl s).pending = s.pending := by simp only [ledgerPhase, apply_ite State.pending, ueFix_pending, setEntry_pending, ite_self]
@[simp] theorem ledgerPhase_free (i p fs fl : Nat) (s : State) : (ledgerPhase i p fs fl s).free = s.free := by simp only [ledgerPhase, apply_ite State.free, ueFix_free, setEntry_free, ite_self]
@[simp] theorem ledgerPhase_regs (i p fs fl : Nat) (s : State) : (ledgerPhase i p fs fl s).regs = s.regs := by simp only [ledgerPhase, apply_ite State.regs, ueFix_regs, setEntry_regs, ite_self]
@[simp] theorem ledgerPhase_time (i p fs fl : Nat) (s : State) : (ledgerPhase i p fs fl s).time = s.time := by simp only [ledgerPhase, apply_ite State.time, ueFix_time, setEntry_time, ite_self]
@[simp] theorem ledgerPhase_boot (i p fs fl : Nat) (s : State) : (ledgerPhase i p fs fl s).boot = s.boot := by simp only [ledgerPhase, apply_ite State.boot, ueFix_boot, setEntry_boot, ite_self]
@[simp] theorem ledgerPhase_host (i p fs fl : Nat) (s : State) : (ledgerPhase i p fs fl s).host = s.host := by simp only [ledgerPhase, apply_ite State.host, ueFix_host, setEntry_host, ite_self]
@[simp] theorem ledgerPhase_leases (i p fs fl : Nat) (s : State) : (ledgerPhase i p fs fl s).leases = s.leases := by simp only [ledgerPhase, apply_ite State.leases, ueFix_leases, setEntry_leases, ite_self]
@[simp] theorem ledgerPhase_claims (i p fs fl : Nat) (s : State) : (ledgerPhase i p fs fl s).claims = s.claims := by simp only [ledgerPhase, apply_ite State.claims, ueFix_claims, setEntry_claims, ite_self]
@[simp] theorem ledgerPhase_journal (i p fs fl : Nat) (s : State) : (ledgerPhase i p fs fl s).journal = s.journal := by simp only [ledgerPhase, apply_ite State.journal, ueFix_journal, setEntry_journal, ite_self]
@[simp] theorem ledgerPhase_pvl (i p fs fl : Nat) (s : State) : (ledgerPhase i p fs fl s).pvl = s.pvl := by simp only [ledgerPhase, apply_ite State.pvl, ueFix_pvl, setEntry_pvl, ite_self]
@[simp] theorem ledgerPhase_onyx (i p fs fl : Nat) (s : State) : (ledgerPhase i p fs fl s).onyx = s.onyx := by simp only [ledgerPhase, apply_ite State.onyx, ueFix_onyx, setEntry_onyx, ite_self]
@[simp] theorem ledgerPhase_fab (i p fs fl : Nat) (s : State) : (ledgerPhase i p fs fl s).fab = s.fab := by simp only [ledgerPhase, apply_ite State.fab, ueFix_fab, setEntry_fab, ite_self]
@[simp] theorem ledgerPhase_gar (i p fs fl : Nat) (s : State) : (ledgerPhase i p fs fl s).gar = s.gar := by simp only [ledgerPhase, apply_ite State.gar, ueFix_gar, setEntry_gar, ite_self]
@[simp] theorem ledgerPhase_voice (i p fs fl : Nat) (s : State) : (ledgerPhase i p fs fl s).voice = s.voice := by simp only [ledgerPhase, apply_ite State.voice, ueFix_voice, setEntry_voice, ite_self]
@[simp] theorem ledgerPhase_net (i p fs fl : Nat) (s : State) : (ledgerPhase i p fs fl s).net = s.net := by simp only [ledgerPhase, apply_ite State.net, ueFix_net, setEntry_net, ite_self]
@[simp] theorem ledgerPhase_plc (i p fs fl : Nat) (s : State) : (ledgerPhase i p fs fl s).plc = s.plc := by simp only [ledgerPhase, apply_ite State.plc, ueFix_plc, setEntry_plc, ite_self]
@[simp] theorem ledgerPhase_opal (i p fs fl : Nat) (s : State) : (ledgerPhase i p fs fl s).opal = s.opal := by simp only [ledgerPhase, apply_ite State.opal, ueFix_opal, setEntry_opal, ite_self]
@[simp] theorem ledgerPhase_tdm (i p fs fl : Nat) (s : State) : (ledgerPhase i p fs fl s).tdm = s.tdm := by simp only [ledgerPhase, apply_ite State.tdm, ueFix_tdm, setEntry_tdm, ite_self]
@[simp] theorem ledgerPhase_tpz (i p fs fl : Nat) (s : State) : (ledgerPhase i p fs fl s).tpz = s.tpz := by simp only [ledgerPhase, apply_ite State.tpz, ueFix_tpz, setEntry_tpz, ite_self]
@[simp] theorem ledgerPhase_agt (i p fs fl : Nat) (s : State) : (ledgerPhase i p fs fl s).agt = s.agt := by simp only [ledgerPhase, apply_ite State.agt, ueFix_agt, setEntry_agt, ite_self]
@[simp] theorem ledgerPhase_hostMem (i p fs fl : Nat) (s : State) : (ledgerPhase i p fs fl s).hostMem = s.hostMem := by simp only [ledgerPhase, apply_ite State.hostMem, ueFix_hostMem, setEntry_hostMem, ite_self]
@[simp] theorem ledgerPhase_tap (i p fs fl : Nat) (s : State) : (ledgerPhase i p fs fl s).tap = s.tap := by simp only [ledgerPhase, apply_ite State.tap, ueFix_tap, setEntry_tap, ite_self]
@[simp] theorem ledgerPhase_shadow (i p fs fl : Nat) (s : State) : (ledgerPhase i p fs fl s).shadow = s.shadow := by simp only [ledgerPhase, apply_ite State.shadow, ueFix_shadow, setEntry_shadow, ite_self]

@[simp] theorem noteNow_pending (n : Notif) (s : State) : (noteNow n s).pending = s.pending := by unfold noteNow; (repeat split) <;> rfl
@[simp] theorem noteNow_free (n : Notif) (s : State) : (noteNow n s).free = s.free := by unfold noteNow; (repeat split) <;> rfl
@[simp] theorem noteNow_regs (n : Notif) (s : State) : (noteNow n s).regs = s.regs := by unfold noteNow; (repeat split) <;> rfl
@[simp] theorem noteNow_time (n : Notif) (s : State) : (noteNow n s).time = s.time := by unfold noteNow; (repeat split) <;> rfl
@[simp] theorem noteNow_pwr (n : Notif) (s : State) : (noteNow n s).pwr = s.pwr := by unfold noteNow; (repeat split) <;> rfl
@[simp] theorem noteNow_boot (n : Notif) (s : State) : (noteNow n s).boot = s.boot := by unfold noteNow; (repeat split) <;> rfl
@[simp] theorem noteNow_ledger (n : Notif) (s : State) : (noteNow n s).ledger = s.ledger := by unfold noteNow; (repeat split) <;> rfl
@[simp] theorem noteNow_leases (n : Notif) (s : State) : (noteNow n s).leases = s.leases := by unfold noteNow; (repeat split) <;> rfl
@[simp] theorem noteNow_claims (n : Notif) (s : State) : (noteNow n s).claims = s.claims := by unfold noteNow; (repeat split) <;> rfl
@[simp] theorem noteNow_journal (n : Notif) (s : State) : (noteNow n s).journal = s.journal := by unfold noteNow; (repeat split) <;> rfl
@[simp] theorem noteNow_pvl (n : Notif) (s : State) : (noteNow n s).pvl = s.pvl := by unfold noteNow; (repeat split) <;> rfl
@[simp] theorem noteNow_onyx (n : Notif) (s : State) : (noteNow n s).onyx = s.onyx := by unfold noteNow; (repeat split) <;> rfl
@[simp] theorem noteNow_fab (n : Notif) (s : State) : (noteNow n s).fab = s.fab := by unfold noteNow; (repeat split) <;> rfl
@[simp] theorem noteNow_gar (n : Notif) (s : State) : (noteNow n s).gar = s.gar := by unfold noteNow; (repeat split) <;> rfl
@[simp] theorem noteNow_voice (n : Notif) (s : State) : (noteNow n s).voice = s.voice := by unfold noteNow; (repeat split) <;> rfl
@[simp] theorem noteNow_net (n : Notif) (s : State) : (noteNow n s).net = s.net := by unfold noteNow; (repeat split) <;> rfl
@[simp] theorem noteNow_plc (n : Notif) (s : State) : (noteNow n s).plc = s.plc := by unfold noteNow; (repeat split) <;> rfl
@[simp] theorem noteNow_opal (n : Notif) (s : State) : (noteNow n s).opal = s.opal := by unfold noteNow; (repeat split) <;> rfl
@[simp] theorem noteNow_tdm (n : Notif) (s : State) : (noteNow n s).tdm = s.tdm := by unfold noteNow; (repeat split) <;> rfl
@[simp] theorem noteNow_tpz (n : Notif) (s : State) : (noteNow n s).tpz = s.tpz := by unfold noteNow; (repeat split) <;> rfl
@[simp] theorem noteNow_agt (n : Notif) (s : State) : (noteNow n s).agt = s.agt := by unfold noteNow; (repeat split) <;> rfl
@[simp] theorem noteNow_hostMem (n : Notif) (s : State) : (noteNow n s).hostMem = s.hostMem := by unfold noteNow; (repeat split) <;> rfl
@[simp] theorem noteNow_tap (n : Notif) (s : State) : (noteNow n s).tap = s.tap := by unfold noteNow; (repeat split) <;> rfl
@[simp] theorem noteNow_shadow (n : Notif) (s : State) : (noteNow n s).shadow = s.shadow := by unfold noteNow; (repeat split) <;> rfl

@[simp] theorem claim_pending (c i h o : Nat) (s : State) : (claim c i h o s).pending = s.pending := by unfold claim; split <;> first | rfl | (split <;> rfl)
@[simp] theorem claim_free (c i h o : Nat) (s : State) : (claim c i h o s).free = s.free := by unfold claim; split <;> first | rfl | (split <;> rfl)
@[simp] theorem claim_regs (c i h o : Nat) (s : State) : (claim c i h o s).regs = s.regs := by unfold claim; split <;> first | rfl | (split <;> rfl)
@[simp] theorem claim_time (c i h o : Nat) (s : State) : (claim c i h o s).time = s.time := by unfold claim; split <;> first | rfl | (split <;> rfl)
@[simp] theorem claim_pwr (c i h o : Nat) (s : State) : (claim c i h o s).pwr = s.pwr := by unfold claim; split <;> first | rfl | (split <;> rfl)
@[simp] theorem claim_boot (c i h o : Nat) (s : State) : (claim c i h o s).boot = s.boot := by unfold claim; split <;> first | rfl | (split <;> rfl)
@[simp] theorem claim_host (c i h o : Nat) (s : State) : (claim c i h o s).host = s.host := by unfold claim; split <;> first | rfl | (split <;> rfl)
@[simp] theorem claim_ledger (c i h o : Nat) (s : State) : (claim c i h o s).ledger = s.ledger := by unfold claim; split <;> first | rfl | (split <;> rfl)
@[simp] theorem claim_leases (c i h o : Nat) (s : State) : (claim c i h o s).leases = s.leases := by unfold claim; split <;> first | rfl | (split <;> rfl)
@[simp] theorem claim_journal (c i h o : Nat) (s : State) : (claim c i h o s).journal = s.journal := by unfold claim; split <;> first | rfl | (split <;> rfl)
@[simp] theorem claim_pvl (c i h o : Nat) (s : State) : (claim c i h o s).pvl = s.pvl := by unfold claim; split <;> first | rfl | (split <;> rfl)
@[simp] theorem claim_onyx (c i h o : Nat) (s : State) : (claim c i h o s).onyx = s.onyx := by unfold claim; split <;> first | rfl | (split <;> rfl)
@[simp] theorem claim_fab (c i h o : Nat) (s : State) : (claim c i h o s).fab = s.fab := by unfold claim; split <;> first | rfl | (split <;> rfl)
@[simp] theorem claim_gar (c i h o : Nat) (s : State) : (claim c i h o s).gar = s.gar := by unfold claim; split <;> first | rfl | (split <;> rfl)
@[simp] theorem claim_voice (c i h o : Nat) (s : State) : (claim c i h o s).voice = s.voice := by unfold claim; split <;> first | rfl | (split <;> rfl)
@[simp] theorem claim_net (c i h o : Nat) (s : State) : (claim c i h o s).net = s.net := by unfold claim; split <;> first | rfl | (split <;> rfl)
@[simp] theorem claim_plc (c i h o : Nat) (s : State) : (claim c i h o s).plc = s.plc := by unfold claim; split <;> first | rfl | (split <;> rfl)
@[simp] theorem claim_opal (c i h o : Nat) (s : State) : (claim c i h o s).opal = s.opal := by unfold claim; split <;> first | rfl | (split <;> rfl)
@[simp] theorem claim_tdm (c i h o : Nat) (s : State) : (claim c i h o s).tdm = s.tdm := by unfold claim; split <;> first | rfl | (split <;> rfl)
@[simp] theorem claim_tpz (c i h o : Nat) (s : State) : (claim c i h o s).tpz = s.tpz := by unfold claim; split <;> first | rfl | (split <;> rfl)
@[simp] theorem claim_agt (c i h o : Nat) (s : State) : (claim c i h o s).agt = s.agt := by unfold claim; split <;> first | rfl | (split <;> rfl)
@[simp] theorem claim_hostMem (c i h o : Nat) (s : State) : (claim c i h o s).hostMem = s.hostMem := by unfold claim; split <;> first | rfl | (split <;> rfl)
@[simp] theorem claim_tap (c i h o : Nat) (s : State) : (claim c i h o s).tap = s.tap := by unfold claim; split <;> first | rfl | (split <;> rfl)
@[simp] theorem claim_shadow (c i h o : Nat) (s : State) : (claim c i h o s).shadow = s.shadow := by unfold claim; split <;> first | rfl | (split <;> rfl)

end Sys2Proof.Machine
end

