-- ==== Sys2Proof/Laws/Regs.lean ====
section
/-! SUPPORT. Laws of the register file: a field reads as last stored, and storing one register leaves the others alone. -/

namespace Sys2Proof.Machine

@[simp] theorem rdW_wrW_same (k : Nat) (v : Word32) (s : State) : rdW (wrW k v s) k = v := by simp [rdW, wrW]

theorem rdW_wrW_other (k j : Nat) (v : Word32) (s : State) (h : j ≠ k) : rdW (wrW k v s) j = rdW s j := by
  simp [rdW, wrW, tblGet_set_other k j v _ _ h]

/-- A number of two digits is below the product of their bases. -/
theorem digit_lt {a b m n : Nat} (ha : a < m) (hb : b < n) : a + m * b < m * n :=
  calc a + m * b < m + m * b := Nat.add_lt_add_right ha _
    _ = m * (b + 1) := by ring
    _ ≤ m * n := Nat.mul_le_mul_left m hb

/-- Replacing a field leaves the bits below and above it as they are. -/
theorem fldPut_toNat (f : Fld) (v : Word32) (x : Nat) (h : f.lo + f.w ≤ 32) :
    (fldPut f v x).toNat = v.toNat % 2 ^ f.lo + 2 ^ f.lo * (x % 2 ^ f.w) + 2 ^ (f.lo + f.w) * (v.toNat / 2 ^ (f.lo + f.w)) := by
  have hv : v.toNat = v.toNat % 2 ^ f.lo + 2 ^ f.lo * (v.toNat / 2 ^ f.lo % 2 ^ f.w) + 2 ^ (f.lo + f.w) * (v.toNat / 2 ^ (f.lo + f.w)) := by
    have h1 := Nat.mod_add_div v.toNat (2 ^ f.lo)
    have h2 := Nat.mod_add_div (v.toNat / 2 ^ f.lo) (2 ^ f.w)
    rw [Nat.div_div_eq_div_mul, ← pow_add] at h2
    calc v.toNat = v.toNat % 2 ^ f.lo + 2 ^ f.lo * (v.toNat / 2 ^ f.lo) := h1.symm
      _ = v.toNat % 2 ^ f.lo + 2 ^ f.lo * (v.toNat / 2 ^ f.lo % 2 ^ f.w + 2 ^ f.w * (v.toNat / 2 ^ (f.lo + f.w))) := by rw [h2]
      _ = _ := by rw [pow_add]; ring
  have hx : x % 2 ^ f.w < 2 ^ f.w := Nat.mod_lt _ (by positivity)
  have ha : v.toNat % 2 ^ f.lo < 2 ^ f.lo := Nat.mod_lt _ (by positivity)
  have key : v.toNat - fldGet f v * 2 ^ f.lo + x % 2 ^ f.w * 2 ^ f.lo =
      v.toNat % 2 ^ f.lo + 2 ^ f.lo * (x % 2 ^ f.w) + 2 ^ (f.lo + f.w) * (v.toNat / 2 ^ (f.lo + f.w)) := by
    have : v.toNat - fldGet f v * 2 ^ f.lo = v.toNat % 2 ^ f.lo + 2 ^ (f.lo + f.w) * (v.toNat / 2 ^ (f.lo + f.w)) := by
      apply Nat.sub_eq_of_eq_add
      conv_lhs => rw [hv]
      simp only [fldGet]
      ring
    rw [this]
    ring
  have hlt : v.toNat % 2 ^ f.lo + 2 ^ f.lo * (x % 2 ^ f.w) + 2 ^ (f.lo + f.w) * (v.toNat / 2 ^ (f.lo + f.w)) < 2 ^ 32 := by
    have hq : v.toNat / 2 ^ (f.lo + f.w) < 2 ^ (32 - (f.lo + f.w)) := by
      apply Nat.div_lt_of_lt_mul
      rw [← pow_add]
      have : f.lo + f.w + (32 - (f.lo + f.w)) = 32 := by omega
      rw [this]
      exact v.isLt
    have e32 : 2 ^ 32 = 2 ^ (f.lo + f.w) * 2 ^ (32 - (f.lo + f.w)) := by
      rw [← pow_add]
      congr 1
      omega
    rw [e32]
    refine digit_lt ?_ hq
    rw [pow_add]
    exact digit_lt ha hx
  simp only [fldPut, BitVec.toNat_ofNat]
  rw [key]
  exact Nat.mod_eq_of_lt hlt

/-- A field reads as what was stored in it. -/
theorem fldGet_put_same (f : Fld) (v : Word32) (x : Nat) (h : f.lo + f.w ≤ 32) : fldGet f (fldPut f v x) = x % 2 ^ f.w := by
  have ha : v.toNat % 2 ^ f.lo < 2 ^ f.lo := Nat.mod_lt _ (by positivity)
  have hx : x % 2 ^ f.w < 2 ^ f.w := Nat.mod_lt _ (by positivity)
  unfold fldGet
  rw [fldPut_toNat f v x h]
  have e : v.toNat % 2 ^ f.lo + 2 ^ f.lo * (x % 2 ^ f.w) + 2 ^ (f.lo + f.w) * (v.toNat / 2 ^ (f.lo + f.w)) =
      v.toNat % 2 ^ f.lo + 2 ^ f.lo * (x % 2 ^ f.w + 2 ^ f.w * (v.toNat / 2 ^ (f.lo + f.w))) := by rw [pow_add]; ring
  rw [e, Nat.add_mul_div_left _ _ (by positivity), Nat.div_eq_of_lt ha, Nat.zero_add, Nat.add_mul_mod_self_left, Nat.mod_mod]

theorem rd_wr_same (f : Fld) (x : Nat) (s : State) (h : f.lo + f.w ≤ 32) : rd (wr f x s) f = x % 2 ^ f.w := by
  simp [rd, wr, fldGet_put_same f _ x h]

theorem rd_wr_other (f g : Fld) (x : Nat) (s : State) (h : g.key ≠ f.key) : rd (wr f x s) g = rd s g := by
  simp [rd, wr, rdW_wrW_other _ _ _ _ h]

/-- Reads of registers depend on the register file alone. -/
theorem rd_congr (s t : State) (f : Fld) (h : s.regs = t.regs) : rd s f = rd t f := by simp [rd, rdW, h]

end Sys2Proof.Machine
end

