-- ==== Sys2Proof/Laws/Scp.lean ====
section
/-! SUPPORT. Laws of the host command protocol: which parts of the state acceptance changes, and what a command that is admitted does. -/

namespace Sys2Proof.Machine

/-! ### What keeps the list of commands -/



@[simp] theorem leaseGrant_host (n o c i d : Nat) (s : State) : (leaseGrant n o c i d s).host = s.host := by
  unfold leaseGrant
  dsimp only
  split <;> simp

@[simp] theorem holdTail_host (s : State) : (holdTail s).host = s.host := by
  unfold holdTail
  dsimp only
  split
  · simp
  · split <;> simp

@[simp] theorem ledgerOpen_host (i k : Nat) (a b : Bool) (s : State) : (ledgerOpen i k a b s).host = s.host := rfl

@[simp] theorem ledgerFill_host (a b c d : Nat) (k : BitVec 32) (s : State) : (ledgerFill a b c d k s).host = s.host := by
  unfold ledgerFill; split <;> simp

@[simp] theorem ledgerCommit_host (s : State) : (ledgerCommit s).host = s.host := by
  unfold ledgerCommit; split <;> simp

@[simp] theorem ledgerAccept_host (k d o b j : Nat) (c : BitVec 32) (x y : Bool) (s : State) :
    (ledgerAccept k d o b j c x y s).2.host = s.host := by
  unfold ledgerAccept; split <;> simp

@[simp] theorem updQ_host (q : Nat) (s : State) : (updQ q s).host = s.host := rfl
@[simp] theorem pushCpl_cmds (q : Nat) (c : Cpl) (s : State) : (pushCpl q c s).host.cmds = s.host.cmds := rfl
@[simp] theorem takeSeq_cmds (q : Nat) (s : State) : (takeSeq q s).host.cmds = s.host.cmds := by
  unfold takeSeq
  dsimp only
  split <;> rfl
@[simp] theorem addCmd_cmds (c : Cmd) (s : State) : (addCmd c s).host.cmds = s.host.cmds ++ [c] := rfl

/-! ### Acceptance -/

/-- Acceptance settles claims and placement, and of the commands it changes at most the new one's notes (R513, R195). -/
def AccKeeps (acc : Cmd → State → State) : Prop :=
  ∀ c s, (acc c s).host.cmds = s.host.cmds ∨ ∃ e, (acc c s).host.cmds = (setCmd { c with early := e } s).host.cmds

theorem accKeeps_none : AccKeeps (fun _ s => s) := fun _ _ => .inl rfl

/-- The record that acceptance adds. -/
def IsNew (h : Hdr) (i : Instr) (sp : Spec) (c : Cmd) : Prop :=
  c.queue = h.queue.val ∧ c.seq = h.seq ∧ c.objs = sp.objs ∧ c.started = none ∧ c.fin = none ∧ c.instr = i ∧ c.idem = sp.info.idem ∧ c.emerg = h.emerg

theorem isNew_early {h : Hdr} {i : Instr} {sp : Spec} {c : Cmd} (hc : IsNew h i sp c) (e : List Nat) : IsNew h i sp { c with early := e } := hc

/-- Where `acc` keeps the commands, what it leaves is the old list with the new command at its end. -/
theorem acc_cmds {acc : Cmd → State → State} (ha : AccKeeps acc) (c : Cmd) (s : State) (l : List Cmd) (hs : s.host.cmds = l ++ [c])
    (hl : ∀ d ∈ l, ¬(d.queue = c.queue ∧ d.seq = c.seq)) : ∃ e, (acc c s).host.cmds = l ++ [{ c with early := e }] := by
  rcases ha c s with h | ⟨e, h⟩
  · exact ⟨c.early, by rw [h, hs]⟩
  · refine ⟨e, ?_⟩
    rw [h]
    have : l.map (fun d => if d.queue = c.queue ∧ d.seq = c.seq then ({ c with early := e } : Cmd) else d) = l := by
      conv_rhs => rw [← List.map_id l]
      apply List.map_congr_left
      intro d hd
      have := hl d hd
      simp only [this, if_false, id]
    simp [setCmd, hs, this]

/-- After acceptance the commands are those before it, and the new one. -/
theorem acceptCmd_cmds (h : Hdr) (i : Instr) (sp : Spec) (s : State) (ha : AccKeeps sp.acc)
    (hn : cmdAt s h.queue.val h.seq = none) :
    ∃ c, IsNew h i sp c ∧ (acceptCmd h i sp s).host.cmds = s.host.cmds ++ [c] := by
  have hl : ∀ d ∈ s.host.cmds, ¬(d.queue = h.queue.val ∧ d.seq = h.seq) := by
    intro d hd hk
    have := List.find?_eq_none.mp hn d hd
    simp [hk.1, hk.2] at this
  unfold acceptCmd
  dsimp only
  split
  · obtain ⟨e, he⟩ := acc_cmds ha (newCmd h i sp.info sp.objs h.seq) (addCmd (newCmd h i sp.info sp.objs h.seq) (takeSeq h.queue.val s))
      s.host.cmds (by simp) hl
    exact ⟨_, isNew_early (c := newCmd h i sp.info sp.objs h.seq) (by simp [IsNew, newCmd]) e, by simpa using he⟩
  · generalize hr : ledgerAccept _ _ _ _ _ _ _ _ _ = r
    have hh : r.2.host.cmds = s.host.cmds := by rw [← hr]; simp
    generalize hc : ({ newCmd h i sp.info sp.objs h.seq with lref := r.1, lsn := r.2.ledger.nextLsn.toNat - 1 } : Cmd) = c
    have hk : IsNew h i sp c := by rw [← hc]; simp [IsNew, newCmd]
    obtain ⟨e, he⟩ := acc_cmds ha c (addCmd c r.2) s.host.cmds (by simp [hh]) (by
      intro d hd
      rw [hk.1, hk.2.1]
      exact hl d hd)
    refine ⟨_, isNew_early hk e, ?_⟩
    split <;> simpa using he

/-- An admitted command begins at once, and does what its effect says. -/
theorem scp_admits (h : Hdr) (i : Instr) (sp : Spec) (s : State) (ha : AccKeeps sp.acc) (hs : admits h sp s = true) :
    scp h i sp s =
      match sp.eff (begun h i sp s) with
      | .done st r t => finish (begunCmd h i sp s) st r t
      | .wait w t => irrevPhase (begunCmd h i sp s) w (putWait (begunCmd h i sp s) w t) := by
  simp only [admits, Bool.and_eq_true, decide_eq_true_eq, Option.isNone_iff_eq_none] at hs
  obtain ⟨⟨⟨⟨⟨⟨h1, h2⟩, h3⟩, h4⟩, h5⟩, h6⟩, h7⟩ := hs
  obtain ⟨c, hc, hl⟩ := acceptCmd_cmds h i sp s ha h2
  have hfind : cmdAt (acceptCmd h i sp s) h.queue.val h.seq = some c := by
    unfold cmdAt at h2 ⊢
    rw [hl, List.find?_append, h2]
    simp [hc.1, hc.2.1]
  have hbef : before c (acceptCmd h i sp s) = s.host.cmds := by
    unfold before
    rw [hl, List.takeWhile_append_of_pos]
    · simp
    · intro d hd
      have := List.find?_eq_none.mp h2 d hd
      rw [hc.1, hc.2.1]
      simpa [imp_iff_not_or] using this
  have hblk : blocked c (acceptCmd h i sp s) = false := by
    unfold blocked
    rw [hbef, List.any_eq_false]
    intro d hd
    have := List.all_eq_true.mp h6 d hd
    rw [hc.2.2.1]
    revert this
    cases d.lref.isSome <;> cases d.fin.isNone <;> cases (d.objs.any fun o => sp.objs.contains o) <;> simp
  have htrn : inTurn c (acceptCmd h i sp s) = true := by
    unfold inTurn
    rw [hbef, Bool.not_eq_true', List.any_eq_false, hc.1]
    intro d hd
    have := List.all_eq_true.mp h7 d hd
    cases hst : d.started <;> cases hf : d.fin <;> simp_all
  have e : begunCmd h i sp s = { c with started := some (now (acceptCmd h i sp s)), deadline := sp.info.timeout.map (now (acceptCmd h i sp s) + ·) } := by
    simp [begunCmd, hfind]
  have h1' : (!served s) = false := by simp [h1]
  unfold scp
  simp only [h1', h2, h4, h3, h5, Bool.not_true, Bool.false_eq_true, if_false, ne_eq, not_true]
  unfold tryRun
  rw [hfind]
  simp only [hc.2.2.2.1, hc.2.2.2.2.1, hblk, htrn, Option.isNone_none, Bool.not_false, Bool.and_self, if_true]
  unfold runCmd
  have hb : begun h i sp s = setCmd (begunCmd h i sp s) (match c.lref with
      | some k => ledgerPhase k 1 0 0 (acceptCmd h i sp s) | none => acceptCmd h i sp s) := by
    unfold begun
    rw [e]
    try (cases c.lref <;> rfl)
  have hnow : ∀ k p, now (ledgerPhase k p 0 0 (acceptCmd h i sp s)) = now (acceptCmd h i sp s) := by
    intro k p
    unfold now ledgerPhase
    dsimp only
    split <;> rfl
  rw [hb, e]
  cases hr : c.lref with
  | none => rfl
  | some k =>
    simp only [hnow]
    try rfl

/-- The record of an admitted command, as its effect finds it. -/
theorem cmdAt_begun (h : Hdr) (i : Instr) (sp : Spec) (s : State) (ha : AccKeeps sp.acc) (hs : admits h sp s = true) :
    cmdAt (begun h i sp s) h.queue.val h.seq = some (begunCmd h i sp s) ∧ (begunCmd h i sp s).instr = i ∧
      (begunCmd h i sp s).emerg = h.emerg ∧ (begunCmd h i sp s).queue = h.queue.val ∧ (begunCmd h i sp s).seq = h.seq := by
  simp only [admits, Bool.and_eq_true, decide_eq_true_eq, Option.isNone_iff_eq_none] at hs
  obtain ⟨⟨⟨⟨⟨⟨-, h2⟩, -⟩, -⟩, -⟩, -⟩, -⟩ := hs
  obtain ⟨c, hc, hl⟩ := acceptCmd_cmds h i sp s ha h2
  have hfind : cmdAt (acceptCmd h i sp s) h.queue.val h.seq = some c := by
    unfold cmdAt at h2 ⊢
    rw [hl, List.find?_append, h2]
    simp [hc.1, hc.2.1]
  have e : begunCmd h i sp s = { c with started := some (now (acceptCmd h i sp s)), deadline := sp.info.timeout.map (now (acceptCmd h i sp s) + ·) } := by
    simp [begunCmd, hfind]
  have hq : (begunCmd h i sp s).queue = h.queue.val := by rw [e]; exact hc.1
  have hseq : (begunCmd h i sp s).seq = h.seq := by rw [e]; exact hc.2.1
  refine ⟨?_, by rw [e]; exact hc.2.2.2.2.2.1, by rw [e]; exact hc.2.2.2.2.2.2.2, hq, hseq⟩
  have hb : (begun h i sp s).host.cmds = (s.host.cmds ++ [c]).map
      (fun d => if d.queue == (begunCmd h i sp s).queue && d.seq == (begunCmd h i sp s).seq then begunCmd h i sp s else d) := by
    unfold begun
    dsimp only
    rw [← hl]
    generalize begunCmd h i sp s = x
    cases x.lref <;> simp [setCmd]
  have hl' : ∀ d ∈ s.host.cmds, ¬(d.queue = h.queue.val ∧ d.seq = h.seq) := by
    intro d hd hk
    have := List.find?_eq_none.mp h2 d hd
    simp [hk.1, hk.2] at this
  have hm : s.host.cmds.map (fun d => if d.queue == (begunCmd h i sp s).queue && d.seq == (begunCmd h i sp s).seq then begunCmd h i sp s else d) =
      s.host.cmds := by
    conv_rhs => rw [← List.map_id s.host.cmds]
    apply List.map_congr_left
    intro d hd
    have := hl' d hd
    simp only [hq, hseq, Bool.and_eq_true, beq_iff_eq, this, if_false, id]
  unfold cmdAt at h2 ⊢
  rw [hb, List.map_append, hm, List.find?_append, h2]
  simp [hq, hseq, hc.1, hc.2.1]

end Sys2Proof.Machine
end

