-- ==== Sys2Proof/Tests/Slice0.lean ====
section
/-! SUPPORT. Tests: the ill-formed terms that the well-formedness check refuses, and for each statement a state and operands that meet
its hypotheses, clause by clause, with the numbers of the manual's worked cases. -/

namespace Sys2Proof.Tests

open Sys2Proof Sys2Proof.Machine Sys2Proof.Obl

/-- Started and running: every domain ON, CORE_EN high, RUN set, the link up, lease 0 held by Onyx. -/
def up : State :=
  { State.reset with
    regs := [(rk 7 0, 0xAAAAA8), (rk 7 0x50, 2), (rk 10 0x1C, 1), (rk 11 4, 0x100006), (rk 11 0x50, 0x80000000)],
    boot := { bootReset with step := 13, lc := 7 }, onyx := { onyxReset with phase := .running },
    host := { hostReset with link := { up := true, aer := false } },
    leases := [(0, { leaseReset with owner := 0, rclass := 1, state := 1, duration := 25000 })],
    time := { timeReset with aoRun := true } }

/-- A header of queue 0 with the first sequence. -/
def h0 : Hdr := { queue := 0, seq := 0, emerg := false, noack := false, indirect := false, resultLen := 4096, check := 0 }

/-! ### Garnet cores -/

/-- A job, and a core that runs it; the state in which core 47 is `c`. -/
def jb : Job := { chan := 1, kind := .rx, seq := 0, urgent := false, entered := 0, aborted := false }
def cr : CoreSt := { coreInit with job := some jb, lists := [(0, listInit)] }
def co (c : CoreSt) : State := setCore 47 c up
def pm0 : PMove := { kind := 0, r := 0, pn := 0, inc := 0 }

theorem test_hyps_GarnetAlu :
    GReady 47 .plain (co cr) ∧ pmoves cr { kind := 1, r := 15, pn := 0, inc := 0 } { kind := 2, r := 0, pn := 1, inc := 1 } =
      .done { noWrites with regs := [(15, 0)], mem := [(0, 0)], post := [(0, 1), (1, 0)] } ∧
    modeGtrap (modeNow cr) = false ∧ (23#6).toNat ≤ 23 ∧ (55#6).toNat ≤ 55 := ⟨⟨by decide, by decide⟩, by decide⟩

theorem test_hyps_GarnetMac :
    let u : MacU := { acc := 0, xs := 7, ys := 7, pair := 3 }
    let f : MacF := { op := 3, acc := 3, xs := 0, ys := 0, pair := 0 }
    let c := { cr with hw := [(0x10, 0x1FFFE), (0x11, 0x1FFFF)] }
    GReady 47 .plain (co c) ∧ pmoves c pm0 pm0 = .done noWrites ∧ f.op ≠ 0 ∧ f.acc ≠ u.acc ∧
    stepPtr (ptr c 0) 1 (modReg c 0) (baseReg c 0) = some 0x1FFFF ∧ stepPtr (ptr c 0) (-1) (modReg c 0) (baseReg c 0) = some 0x1FFFD ∧
    stepPtr (ptr c 1) 1 (modReg c 1) (baseReg c 1) = some 0x20000 ∧ dmemOk c (ptr c 0).toNat = true ∧ dmemOk c (ptr c 1).toNat = true ∧
    dmemOk c 0x1FFFF = true := ⟨⟨by decide, by decide⟩, by decide⟩

theorem test_hyps_GarnetMove :
    let ea : EA := { pn := 0, am := 3, disp := 0x1FFFF }
    GReady 47 .plain (co cr) ∧ eaOf cr ea = some (0x1FFFF, []) ∧ dmemOk cr 0x1FFFF = true ∧ userMode cr = false ∧
    (15#6).toNat < 16 ∧ 16 ≤ (16#6).toNat ∧ 0x10 ≤ (0x1F#6).toNat ∧ (0x1F#6).toNat ≤ 0x1F := ⟨⟨by decide, by decide⟩, by decide⟩

theorem test_hyps_GarnetBranch :
    let c := { cr with h3 := cr.h3.set 0x17 0xFFFF }
    GReady 47 (.branch 0) (co c) ∧ condTest 0 (c.h3.get codeSTAT) (decide (ipend c ≠ 0)) = some false ∧ (c.h3.get 0x17).toNat < 65536 :=
  ⟨⟨by decide, by decide⟩, by decide⟩

theorem test_hyps_GarnetLoop :
    let c := { cr with hw := [(0x2B, 9), (0x2E, 2), (codeLDEPTH, 1)], pc := 9, h3 := cr.h3.set 0 1 }
    let d := { cr with hw := [(codeLDEPTH, 2)], pc := 5 }
    let e := { cr with hw := [(codeLDEPTH, 3)], pc := 5 }
    (GReady 47 (.startLoop 0 0) (co d) ∧ d.late = [] ∧ loopReg d codeLDEPTH < 3 ∧ d.pc.toNat + 1 ≤ (6#16).toNat) ∧
    (GReady 47 .leave (co e) ∧ 0 < loopReg e codeLDEPTH ∧ loopReg e codeLDEPTH ≤ 3) ∧
    (GReady 47 .plain (co c) ∧ atLoopEnd c = true ∧ (loopReg c 0x2E + 16777215) % 16777216 ≠ 0 ∧ (c.h3.get 0).extractLsb' 0 24 ≠ (0 : BitVec 24)) ∧
    atLoopEnd { c with hw := tblSet 0x2E 1 c.hw } = true ∧ (loopReg { c with hw := tblSet 0x2E 1 c.hw } 0x2E + 16777215) % 16777216 = 0 :=
  ⟨⟨⟨by decide, by decide⟩, by decide⟩, ⟨⟨by decide, by decide⟩, by decide⟩, ⟨⟨by decide, by decide⟩, by decide⟩, by decide⟩

theorem test_hyps_GarnetReturn : GReady 47 .rte (co cr) ∧ userMode cr = false := ⟨⟨by decide, by decide⟩, by decide⟩

/-- A kernel, and its core in user mode, fetching inside its window. -/
def krn0 : Kernel :=
  { win := { ibase := 0, isize := 16, dbase := 0, dsize := 16, ctx := 0 }, govq := false, ddata := [], dbss := 0, ctx := 0, entry := 0, wcet := 1, mode := 0,
    stages := 2, toolver := 0, code := [0], st := 1, faults := 0, cause := 0, core := 47 }
def usr : CoreSt := { cr with job := some { jb with kind := .krn 1 2 }, cur := cr.cur.set codeMODE 0x1000, h2 := cr.h2.set codeMODE 0x1000, win := some krn0.win }
def ks : State := { co usr with gar := { (co usr).gar with kernels := [(2, krn0)] } }

theorem test_hyps_GarnetSystem :
    let b := { cr with lists := [(3, { listInit with busy := true })] }
    (GReady 47 .plain (co cr) ∧ (∀ i ∈ [0, 1, 2, 3], (spList cr i).busy = false) ∧ (∀ i ∈ [0, 1, 2, 3], (spList cr i).unrep = false)) ∧
    (GReady 47 .plain (co b) ∧ (spList b 3).busy = true) ∧
    (GReady 47 .plain ks ∧ tblFind 2 ks.gar.kernels = some krn0 ∧ modeUsr (usr.cur.get codeMODE) = true ∧ usr.slot = none) ∧
    (GReady 47 .endJob (co cr) ∧ jb.urgent = false ∧ cr.queue = []) ∧ (GReady 47 .endJob (co b) ∧ (spList b 3).busy = true) :=
  ⟨⟨⟨by decide, by decide⟩, by decide⟩, ⟨⟨by decide, by decide⟩, by decide⟩, ⟨⟨by decide, by decide⟩, by decide⟩,
    ⟨⟨by decide, by decide⟩, by decide⟩, ⟨by decide, by decide⟩, by decide⟩

theorem test_hyps_GarnetCoreIo :
    let it : Item := itemAt cr 47 0
    (GReady 47 .plain (co cr) ∧ cr.fsend = none ∧ userMode cr = false ∧ (spList cr 3).busy = false) ∧
    (let c := { cr with tmrcmp := 0xFFFFFF, cycle := 0xFFFFFF }
     c.job.isSome = true ∧ c.tmrcmp ≠ 0 ∧ c.cycle = c.tmrcmp) ∧
    (({ cr with fsend := some it } : CoreSt).fsend = some it) ∧
    (∀ m ∈ [0x1, 0x2, 0x4],
      let c := { cr with cur := cr.cur.set codeMODE (0x100 + 0x200 * BitVec.ofNat 48 m), tmr := decide (m = 4), frx := if m = 2 then [0] else [],
                         lists := if m = 1 then [(3, { listInit with pend := true })] else [] }
      modeIe (c.cur.get codeMODE) = true ∧ (ipend c).toNat = m ∧ (modeImask (c.cur.get codeMODE)).toNat = m ∧ c.slot = none ∧ c.shadow = 0 ∧
        (m = 1 → (spList c 3).pend = true ∧ ∀ i, i < 3 → (spList c i).pend = false)) :=
  ⟨⟨⟨by decide, by decide⟩, by decide⟩, by decide⟩

theorem test_hyps_GarnetGuardTrap :
    let top : AccLane := 0x7FFFFFFFFFFFFF
    let c := { cr with cur := { cr.cur with a := [(0, top), (2, top)] }, h2 := cr.h2.set codeMODE 2 }
    GReady 47 .plain (co c) ∧ (∀ st k, jb.kind ≠ .krn st k) ∧
    modeGtrap (modeNow c) = true ∧
    (accLane ((c.cur.acc 0).toInt + (c.cur.acc 2).toInt)).gov = true ∧ c.slot = none ∧ atLoopEnd c = false ∧ c.inExc = false :=
  ⟨⟨by decide, by decide⟩, (by intro st k h; cases h), by decide⟩

theorem test_hyps_SpinelList :
    let l : SpList := { listInit with busy := true, addr := 0x1FFFC }
    let e : SpElem := { rspace := 1, raddr := 0, laddr := 0, form := 0, len := 1 }
    let c := { cr with order := [0], lists := [(0, l)], dmem := [(0x1FFFD, 0x400000000000)] }
    let v := { cr with order := [0], lists := [(0, { l with valid := true, elems := [e] })] }
    (c.order = [0] ∧ (spList c 0).valid = false ∧ (spList c 0).addr.toNat < 0x20000 ∧ spHeader (tblGet c.dmem 0x1FFFC 0) = some (false, 1, false, 0, false, 0) ∧
      spElems c false 0 0x1FFFC 0 1 = .inr [e]) ∧
    spHeader (tblGet { c with dmem := [(0x1FFFC, 0xFFFFFFFFFFFF)] }.dmem 0x1FFFC 0) = none ∧
    (spList v 0).valid = true ∧ (spList v 0).elems[(spList v 0).done]? = some e ∧ (spList v 0).lv = false := by decide

/-! ### Host commands -/

/-- The command is admitted, and begins in a state of which `p` holds. -/
abbrev starts (h : Hdr) (i : Instr) (sp : Spec) (s : State) (p : State → Bool) : Bool := admits h sp s && p (begun h i sp s)

def always (_ : State) : Bool := true

def hi : Hdr := { h0 with indirect := true }

theorem test_hyps_DeviceCommands :
    starts h0 (.nopCommand h0) specNop up always = true ∧
    starts h0 (.timeSet h0 0xFFFFFFFFFFFFFFFF 0) (specTimeSet 0xFFFFFFFFFFFFFFFF 0) up (fun b => rd b rtbSrc ≠ 3) = true ∧
    starts h0 (.timeSet h0 0 0) (specTimeSet 0 0) (wr rtbSrc 3 up) (fun b => rd b rtbSrc = 3) = true ∧
    starts h0 (.domainPower h0 11 1) (specDomainPower 11 1) up (fun b => domOn b 11 ∧ b.pwr.cur = none) = true ∧
    starts h0 (.domainPower h0 11 0) (specDomainPower 11 0) (wr (domStat 11) 0 up) (fun b => rd b (domStat 11) = 0) = true ∧
    starts h0 (.admitCfg h0 1) (specAdmitCfg 1) up always = true ∧
    starts h0 (.bootOptions h0 0xFF 0xF 2 1) (specBootOptions 0xFF 0xF 2 1) up always = true ∧
    starts h0 (.bootOptions h0 0 0 0 0) (specBootOptions 0 0 0 0) up always = true ∧
    starts h0 (.configCommit h0) specConfigCommit up always = true ∧ starts h0 (.devInfo h0) specDevInfo up always = true ∧
    starts h0 (.hibernate h0 0 2) (specHibernate h0 0 2) up always = true := by decide

theorem test_hyps_RtbCfg :
    let i (n : BitVec 8) : Instr := .rtbCfg h0 n 0 100 1 0 1 1
    let sp (n : BitVec 8) : Spec := specRtbCfg n 0 100 1 0 1 1
    starts h0 (i 0) (sp 0) up (fun b => rd b rtbState ≠ 4) = true ∧ starts h0 (i 0) (sp 0) (wr rtbState 4 up) (fun b => rd b rtbState = 4) = true ∧
    starts h0 (i 3) (sp 3) (wr rtbSrc 3 (wr rtbState 1 up)) (fun b => rd b rtbSrc = 3 ∧ rd b rtbState ≠ 0) = true ∧
    starts h0 (i 3) (sp 3) (wr rtbSrc 3 up) (fun b => rd b rtbState = 0) = true ∧
    starts h0 (i 3) (sp 3) (wr rtbState 1 up) (fun b => rd b rtbSrc ≠ 3 ∧ rd b rtbState ≠ 0) = true ∧
    starts h0 (i 3) (sp 3) up (fun b => rd b rtbSrc ≠ 3 ∧ rd b rtbState = 0) = true := by decide

theorem test_hyps_ImageSlots :
    let p : List Byte := [1]
    starts h0 (.imageSlotErase h0 1 0xFF0000 0) (specImageSlotErase 1 0xFF0000) up always = true ∧
    starts hi (.imageSlotWrite hi 1 0xFFFFFF 1 p) (specImageSlotWrite hi 1 0xFFFFFF 1 p) up always = true ∧
    starts h0 (.imageSlotVerify h0 0 0 0) (specImageSlotVerify 0 0 0) up always = true ∧
    starts h0 (.imageSlotSetActslot h0 1 0 0) (specImageSlotSetActslot 1 0 0) { up with boot := { up.boot with verified := [(1, true)] } }
      (fun b => tblGet b.boot.verified 1 false) = true := by decide

theorem test_hyps_Fuses :
    let p : State := { up with boot := { up.boot with lc := 3, secver := 64 } }
    let d : List Byte := List.replicate 48 1
    starts h0 (.secminRaise h0 64) (specSecminRaise 64) p
      (fun b => b.boot.fuses.secmin < 64 ∧ 64 ≤ b.boot.secver.toNat) = true ∧
    starts h0 (.keyRevoke h0 2) (specKeyRevoke 2) up (fun b => b.boot.fuses.revoked.getLsbD 1 = false) = true ∧
    starts hi (.fuseProg hi 1 d) (specFuseProg hi 1 d) p (fun b => customerSet b 1 = false) = true := by decide
theorem test_hyps_LifeCycle :
    let p : State := { up with boot := { up.boot with lc := 3, fuses := { fusesReset with lc3 := lcFuses 3 } } }
    starts h0 (.lifecycleToField h0 ⟨7, 0⟩) (specLifecycleToField 7 0) p always = true := by decide
theorem test_hyps_RepairFuse :
    let v : AgtResult := { target := 0, alg := 1, index := 0, outcome := 2, origin := 0, start := 0, active := 0, slices := 0, nfail := 1, fmacro := 0, falg := 0,
                           felem := 0, fword := 0, fbit := 0, plan := [5], mapped := 1, fused := 0, fuseused := 0 }
    starts h0 (.agtRepairFuse h0 1 []) (specAgtRepairFuse h0 1 []) { up with boot := { up.boot with lc := 15 }, agt := { up.agt with results := [(1, v)] } }
      (fun b => tblFind 1 b.agt.results = some v ∧ toFuse b v = [5]) = true := by decide
/-- The token's signature is an input of the model (log 2); where it is accepted the command is admitted. -/
theorem test_hyps_LifeCycleToReturn (tok : List Byte) (hl : tok.length = 224) :
    let up := { up with boot := { up.boot with lc := 3 } }
    returnTokenOk up tok = true → admits hi (specLifecycleToReturn hi 0 tok) up = true := by
  intro up ht
  have hn : tok ≠ [] := by rintro rfl; cases hl
  have hp : (specLifecycleToReturn hi 0 tok).par = none := by simp [specLifecycleToReturn, hl, hn, firstRej, hi]
  have hs : (specLifecycleToReturn hi 0 tok).st up = none := by
    simp [specLifecycleToReturn, firstRej, ht]; decide
  have h1 : (specLifecycleToReturn hi 0 tok).info = lcInfo := rfl
  have h2 : (specLifecycleToReturn hi 0 tok).objs = [.device] := rfl
  have hc : scpCheck hi (specLifecycleToReturn hi 0 tok) up = none := by
    simp only [scpCheck, hp, hs, h1]; decide
  simp only [admits, objsClear, hc, h2]; decide
theorem test_hyps_Resets :
    starts h0 (.devReset h0 1) (specDevReset 1) up (fun b => minimal b = false) = true ∧
    starts h0 (.devReset h0 1) (specDevReset 1) (wr hbMinimal 1 { up with boot := { up.boot with step := 4 } }) minimal = true ∧
    starts h0 (.timeSetWithWarmReset h0 5) (specTimeSetWithWarmReset 5) up always = true ∧
    (let t : State := { up with boot := { up.boot with resetReq := some (1, none) } }
     fuseBusy t = false ∧ romReplies t = false) ∧
    fuseBusy { up with boot := { up.boot with fuseOp := some (.secmin 1) } } = true := by decide
theorem test_hyps_DomainPower :
    let off : State := wr (domStat 7) 0 up
    starts h0 (.domainPower h0 7 1) (specDomainPower 7 1) (wr (pllEn (domPll 7)) 1 (wr (clkLock (domPll 7)) 1 off))
      (fun b => domOn b 7 = false ∧ pllReady b (domPll 7)) = true ∧
    starts h0 (.domainPower h0 7 1) (specDomainPower 7 1) off (fun b => domOn b 7 = false ∧ pllReady b (domPll 7) = false) = true ∧
    starts h0 (.domainPower h0 8 0) (specDomainPower 8 0) up (fun b => rd b (domStat 8) ≠ 0 ∧ rd b (domStat 8) ≠ 3) = true ∧
    starts h0 (.domainPower h0 7 0) (specDomainPower 7 0) up (fun b => rd b (domStat 7) ≠ 0 ∧ rd b (domStat 7) ≠ 3) = true := by decide

/-! ### Channels -/

def pA : ChParams := { codec := 0, ptime := 16, echoTail := 128, jbMode := 1, jbMin := 40, jbMax := 1000, prio := 7, flags := 0 }
def he : Hdr := { h0 with emerg := true }
/-- Two working cores of cluster 0; channel 8191 is CREATED, and in `vr` ACTIVE on core 0. -/
def v1 : State :=
  { up with voice := { up.voice with chans := [(8191, newChan pA false 0)] },
            gar := { up.gar with cores := [(0, { coreInit with st := 0 }), (1, { coreInit with st := 2 })],
                                 kernels := [(15, { krn0 with stages := 0x3F, st := 0 })] } }
def vr : State := { v1 with voice := { v1.voice with chans := [(8191, { newChan pA false 0 with st := 2 })],
                                                     groups := [(511, { maxl := 2, mix := 0, prio := 1, members := [] })] } }
def appl (h : Hdr) (i : Instr) (b : State) : Bool := voiceValid i (planOf h b)
def applNow (h : Hdr) (i : Instr) (b : State) : Bool := appl h i b && !hasFrames b 8191 && !placedOn 8191 b
def applRun (h : Hdr) (i : Instr) (b : State) : Bool := appl h i b && hasFrames b 8191
def tones : List Byte := le 4 1 ++ le 2 7900 ++ le 2 0 ++ [3, 0xC4, 15, 4] ++ List.replicate 16 0

theorem test_hyps_ChannelsEnd1 :
    let go (i : Instr) (sp : Spec) (p : State → Bool) : Bool := starts h0 i sp v1 p
    go (.chCreate h0 8190 pA) (specChCreate h0 8190 pA) (appl h0 (.chCreate h0 8190 pA)) = true ∧
    go (.chModify h0 8191 0xFF pA) (specChModify h0 8191 0xFF pA) (applNow h0 (.chModify h0 8191 0xFF pA)) = true ∧
    go (.chModify h0 8191 0 pA) (specChModify h0 8191 0 pA) (appl h0 (.chModify h0 8191 0 pA)) = true ∧
    go (.chDelete h0 8191) (specChDelete h0 8191) (applNow h0 (.chDelete h0 8191)) = true ∧
    go (.toneGen h0 8191 2 0x80 15 0xFFFF) (specToneGen h0 8191 2 0x80 15 0xFFFF) (applNow h0 (.toneGen h0 8191 2 0x80 15 0xFFFF)) = true := by decide

theorem test_hyps_ChannelsEnd2 :
    let b : State := { v1 with voice := { v1.voice with chans := [(8191, { newChan pA false 0 with binds := [(5, 15)] })] } }
    starts hi (.tonesetLoad hi 15 tones) (specTonesetLoad hi 15 tones) v1 (appl hi (.tonesetLoad hi 15 tones)) = true ∧
    starts h0 (.emergRule h0 63 3 7 511 1) (specEmergRule h0 63 3 7 511 1) v1 (appl h0 (.emergRule h0 63 3 7 511 1)) = true ∧
    starts h0 (.krnBind h0 15 8191 5) (specKrnBind h0 15 8191 5) v1 (applNow h0 (.krnBind h0 15 8191 5)) = true ∧
    starts h0 (.krnUnbind h0 15 8191) (specKrnUnbind h0 15 8191) b (applNow h0 (.krnUnbind h0 15 8191)) = true ∧
    starts h0 (.krnUnload h0 15) (specKrnUnload h0 15) v1 (appl h0 (.krnUnload h0 15)) = true := by decide

theorem test_hyps_ChannelsPlaced :
    let b : State := { vr with voice := { vr.voice with chans := [(8191, { newChan pA false 0 with st := 3, binds := [(5, 15)] })] } }
    let r : Recorder := { chan := 8191, queue := 0, segMs := 1000, bufaddr := 0, buflen := 4096, nbuf := 2, start := 0, nframes := 0, bytes := 0, drops := 0,
                          index := 0, body := [], spill := [], closed := [], bufLast := [], stopping := false, last := 0 }
    let rec' : State := { vr with voice := { vr.voice with recs := [(255, r)] } }
    let go (i : Instr) (sp : Spec) (p : State → Bool) : Bool := starts h0 i sp vr p
    go (.groupCreate h0 510 1024 1 7) (specGroupCreate h0 510 1024 1 7) (appl h0 (.groupCreate h0 510 1024 1 7)) = true ∧
    go (.groupJoin h0 511 8191 3 24) (specGroupJoin h0 511 8191 3 24) (appl h0 (.groupJoin h0 511 8191 3 24)) = true ∧
    go (.groupDelete h0 511) (specGroupDelete h0 511) (appl h0 (.groupDelete h0 511)) = true ∧
    go (.chModify h0 8191 64 pA) (specChModify h0 8191 64 pA) (applRun h0 (.chModify h0 8191 64 pA)) = true ∧
    go (.chDeactivate h0 8191) (specChDeactivate h0 8191) (applRun h0 (.chDeactivate h0 8191)) = true ∧
    go (.toneGen h0 8191 0 0 0xFF 0) (specToneGen h0 8191 0 0 0xFF 0) (applRun h0 (.toneGen h0 8191 0 0 0xFF 0)) = true ∧
    starts h0 (.recStop h0 255) (specRecStop h0 255) rec' (fun b => appl h0 (.recStop h0 255) b ∧ recChan b 255 = some 8191 ∧ hasFrames b 8191) = true ∧
    go (.krnBind h0 15 8191 0) (specKrnBind h0 15 8191 0) (applRun h0 (.krnBind h0 15 8191 0)) = true ∧
    starts h0 (.krnUnbind h0 15 8191) (specKrnUnbind h0 15 8191) b (applRun h0 (.krnUnbind h0 15 8191)) = true := by decide

theorem test_hyps_GroupLeave :
    let b : State := { vr with voice := { vr.voice with
      groups := [(511, { maxl := 2, mix := 0, prio := 1, members := [{ chan := 8191, talk := true, listen := true, gain := 0 }] })] } }
    starts h0 (.groupLeave h0 511 8191) (specGroupLeave h0 511 8191) b (appl h0 (.groupLeave h0 511 8191)) = true := by decide

/-- CH_ACTIVATE and REC_START are admitted and apply; acceptance notes the core, the phase or the recorder, which are free (log 2), and changes no channel. -/
theorem test_hyps_ActivateAndRecord :
    admits he (specChActivate he 8191 0 0) v1 = true ∧ voiceValid (.chActivate he 8191 0 0) v1 = true ∧
    admits he (specRecStart he 8191 3 2000 0 4096 2) vr = true ∧ voiceValid (.recStart he 8191 3 2000 0 4096 2) vr = true ∧ hasFrames vr 8191 = true := by
  decide

theorem test_hyps_PlacedTakeEffect :
    let g : Group := { maxl := 2, mix := 0, prio := 1, members := [] }
    let c : Cmd := { newCmd h0 (.chDeactivate h0 8191) (specChDeactivate h0 8191).info [.chan 8191] 0 with wait := .commit }
    let r : Recorder := { chan := 8191, queue := 0, segMs := 1000, bufaddr := 0, buflen := 4096, nbuf := 2, start := 0, nframes := 0, bytes := 0, drops := 0,
                          index := 0, body := [], spill := [], closed := [], bufLast := [], stopping := false, last := 0 }
    usableCore v1 1 = true ∧ tblFind 511 vr.voice.groups = some g ∧ (chan? vr 8191).isSome = true ∧
    cmdAt { vr with host := { vr.host with cmds := [c] } } 0 0 = some c ∧ c.fin = none ∧ c.wait = .commit ∧
    r.nframes = 0 ∧ r.spill = [] ∧ r.closed = [] := by decide

/-! ### Flows and ports -/

def fl (flags : Nat) : Flow :=
  { kind := 0, portIn := 7, vlan := 0xFFFF, chan := 0, linkchan := 0, prio := 0, egress := 0, flags := flags, mtch := List.replicate 12 0, template := none,
    tx := none, rx := none, rxOld := none, stopped := false, stats := [], rtpSeq := 0, rtpTs := 0, ssrc := none, nextSeq := 0, later := 0, out := [], txSeq := 0,
    credit := 16, misses := 0, fallen := none, falling := none, noPath := false, rtcpPort := none, rtcpAt := 0 }
def withFlow (f : Flow) (s : State) : State := setFlow 8191 f s
/-- Port 7 in this state. -/
def port7 (st : Nat) (s : State) : State := wr (ethState 7) st (wr (ethEn 7) 1 (wr (ethLink 7) 1 s))
def qi : QItem :=
  { item := mkItem 1 1 0x47 0 0 0 0 false false true [1], flow := none, voice := none, at' := 0, bytes := 64, cells := 1, inPort := none }

theorem test_hyps_EthPortCommands :
    let m : State := wr (ethMode 7) 3 up
    let s5 : State := port7 5 up
    let tx : State := setEth 7 { ethP up 7 with sending := some (1, qi) } (port7 1 up)
    starts h0 (.portCfg h0 7 3 9216 7 2000 5000 2000 1000) (specPortCfg 7 3 9216 7 2000 5000 2000 1000) m (fun b => rd b (ethMode 7) = 3) = true ∧
    starts h0 (.portCfg h0 7 5 1518 0 0 0 10 1) (specPortCfg 7 5 1518 0 0 0 10 1) m (fun b => rd b (ethMode 7) ≠ 5 ∧ flag b (ethEn 7) = false) = true ∧
    starts h0 (.portEnable h0 7) (specPortEnable 7) up (fun b => ethSt b 7 = 0) = true ∧
    starts h0 (.portReturn h0 7) (specPortReturn 7) s5 (fun b => ethSt b 7 = 5) = true ∧
    starts h0 (.portReturn h0 7) (specPortReturn 7) (port7 3 up) (fun b => ethSt b 7 = 3) = true ∧
    starts h0 (.portDisable h0 7) (specPortDisable 7) s5 (fun b => ethSt b 7 ≠ 0 ∧ disableRej 7 b = none ∧ (ethP b 7).sending = none) = true ∧
    starts h0 (.portDisable h0 7) (specPortDisable 7) tx (fun b => ethSt b 7 ≠ 0 ∧ disableRej 7 b = none ∧ (ethP b 7).sending = some (1, qi)) = true ∧
    starts h0 (.portOutOfService h0 7) (specPortOutOfService 7) tx (fun b => ethSt b 7 ≠ 0 ∧ ethSt b 7 ≠ 5) = true := by decide

theorem test_hyps_FlowCommands1 :
    let mt : List Byte := List.replicate 12 0
    let tp : List Byte := List.replicate 96 0
    let go (i : Instr) (sp : Spec) (f : Flow) : Bool := starts h0 i sp (withFlow f up) (fun b => flow? b 8191 = some f)
    starts h0 (.flowAdd h0 8191 0 7 4095 8191 8191 7 0x20 1 mt) (specFlowAdd h0 8191 0 7 4095 8191 8191 7 0x20 1 mt) up (fun b => flow? b 8191 = none) = true ∧
    go (.flowTx h0 8191 96 tp) (specFlowTx h0 8191 96 tp) (fl 0) = true ∧ go (.flowTx h0 8191 96 tp) (specFlowTx h0 8191 96 tp) (fl 4) = true ∧
    fRtp (fl 0) = false ∧ fRtp (fl 4) = true ∧
    go (.flowDel h0 8191) (specFlowDel 8191) (fl 0) = true ∧
    go (.srtpKey h0 8191 1 3 25 0 32 14 (List.replicate 46 1)) (specSrtpKey h0 8191 1 3 25 0 32 14 (List.replicate 46 1)) (fl 2) = true ∧
    go (.srtpKey h0 8191 0 0 0 0 16 14 (List.replicate 30 1)) (specSrtpKey h0 8191 0 0 0 0 16 14 (List.replicate 30 1)) (fl 2) = true := by decide

theorem test_hyps_FlowCommands2 :
    let as : State := withFlow (fl 8) up
    starts h0 (.prpPair h0 3 7 6 1000) (specPrpPair 3 7 6 1000) up (fun b => rd b (ethMode 7) = rd b (ethMode 6)) = true ∧
    starts h0 (.ptpCfg h0 7 1 127 0xF9) (specPtpCfg 7 1 127 0xF9) up always = true ∧
    starts h0 (.assuredSend h0 8191 1 [1]) (specAssuredSend h0 8191 1 [1]) as (fun b => flow? b 8191 = some (fl 8)) = true ∧ fAssured (fl 8) = true ∧
    starts h0 (.netStats h0 0xFF 8191 0) (specNetStats 0xFF 8191 0) as (fun b => (flow? b 8191).isSome) = true ∧
    starts h0 (.netStats h0 0xFF 8191 1) (specNetStats 0xFF 8191 1) as (fun b => (flow? b 8191).isSome) = true ∧
    starts h0 (.netStats h0 0xFE 3 1) (specNetStats 0xFE 3 1) up always = true ∧
    starts h0 (.netStats h0 7 0 1) (specNetStats 7 0 1) up always = true := by decide

/-! ### The powerline -/

/-- PLC port 3 enabled, in this state. -/
def plc3 (st : Nat) (s : State) : State := wr (plcEn 3) 1 (wr (plcState 3) st s)

theorem test_hyps_PowerlineCommands :
    let off : State := wr (plcRole 3) 1 up
    let conf : State := setPlc 3 { plcInit with conf := true } up
    let fall : State := setFall 7 { plc := 3, auto := true, autoReturn := true, active := true } (plc3 3 up)
    starts h0 (.plcPortCfg h0 3 1 1 0xFFFF 4094 4 317 332 0 16 0xFFFF 31) (specPlcPortCfg 3 1 1 0xFFFF 4094 4 317 332 0 16 0xFFFF 31) off
      (fun b => flag b (plcEn 3) = false) = true ∧
    starts h0 (.plcPortOutOfService h0 3) (specPlcPortOutOfService 3) up always = true ∧
    starts h0 (.plcPortInService h0 3) (specPlcPortInService 3) conf (fun b => flag b (plcEn 3) = false) = true ∧
    starts h0 (.plcJoin h0 3 0xFFFF 4094) (specPlcJoin h0 3 0xFFFF 4094) (plc3 1 up) (fun b => rd b (plcState 3) ≠ 0 ∧ flag b (plcRole 3) = false) = true ∧
    starts h0 (.plcLeave h0 3) (specPlcLeave 3) (plc3 3 up) (fun b => rd b (plcState 3) = 3 ∧ plcCoord b 3 = false) = true ∧
    starts h0 (.plcLeave h0 3) (specPlcLeave 3) (plc3 4 up) (fun b => rd b (plcState 3) ≠ 0 ∧ rd b (plcState 3) ≠ 3 ∧ plcCoord b 3 = false) = true ∧
    starts h0 (.plcRoute h0 3 4094 4 [1, 2, 3, 4094]) (specPlcRoute 3 4094 4 [1, 2, 3, 4094]) (plc3 5 up) always = true ∧
    starts h0 (.falloverCfg h0 7 3 2) (specFalloverCfg 7 3 2) up always = true ∧
    starts h0 (.falloverCfg h0 7 3 3) (specFalloverCfg 7 3 3) (port7 3 up)
      (fun b => ethSt (setFall 7 { plc := 3, auto := true, autoReturn := true, active := false } b) 7 = 3) = true ∧
    starts h0 (.falloverToPowerline h0 7) (specFalloverToPowerline 7) fall (fun b => (fallOf b 7).isSome) = true ∧
    starts h0 (.falloverBackToEthernet h0 7) (specFalloverBackToEthernet 7) fall (fun b => (fallOf b 7).isSome) = true ∧
    starts h0 (.plcStats h0 3 1) (specPlcStats 3 1) up always = true := by decide

/-- A beacon slot and an emergency slot, the least a map may hold. -/
def map2 : List Byte := le 1 2 ++ le 7 0 ++ le 2 0 ++ le 2 44 ++ le 4 0 ++ le 2 44 ++ le 2 282 ++ [1, 0] ++ le 2 0
theorem test_hyps_PlcSlotmap :
    starts hi (.plcSlotmap hi 3 map2) (specPlcSlotmap hi 3 map2) (wr (plcK 3) 15 (plc3 5 up)) (fun b => plcCoord b 3) = true := by decide

/-! ### Opal, TDM, Topaz, Agate and the diagnostics -/

theorem test_hyps_OpalCommands :
    let en : State := wr (sscEn 63) 1 (setSlot 63 { slotInit with conf := true, loaded := true } (wr (sscRcic 63) 1 (wr (sscD 63) 2 (wr (sscSrc 63) 28 up))))
    let off : State := wr (sscEn 63) 0 en
    let taps : List (BitVec 24) := [5]
    starts h0 (.sscSlotCfg h0 63 28 0 0x801 9 1 0 8191) (specSscSlotCfg 63 28 0 0x801 9 1 0 8191) en (fun b => flag b (sscEn 63)) = true ∧
    starts h0 (.sscSlotCfg h0 63 28 0 0x801 9 1 0 8191) (specSscSlotCfg 63 28 0 0x801 9 1 0 8191) off (fun b => flag b (sscEn 63) = false) = true ∧
    starts hi (.sscCoef hi 63 1 1000 0 taps) (specSscCoef hi 63 1 1000 0 taps) en (fun b => flag b (sscEn 63)) = true ∧
    starts hi (.sscCoef hi 63 1 0 0 taps) (specSscCoef hi 63 1 0 0 taps) off (fun b => flag b (sscEn 63) = false) = true ∧
    starts h0 (.sscThresh h0 63 3 0x800000 0x7FFFFF 7) (specSscThresh 63 3 0x800000 0x7FFFFF 7) up always = true ∧
    starts h0 (.sscSlotEnable h0 63) (specSscSlotEnable 63) en (fun b => flag b (sscEn 63)) = true ∧
    starts h0 (.sscSlotEnable h0 63) (specSscSlotEnable 63) off (fun b => flag b (sscEn 63) = false) = true ∧
    starts h0 (.sscSlotDisable h0 63) (specSscSlotDisable 63) en always = true ∧
    starts h0 (.sscStatus h0 0 63) (specSscStatus 0 63) up always = true ∧ starts h0 (.sscStatus h0 1 15) (specSscStatus 1 15) up always = true := by decide

/-- TDM port 15 configured, and enabled in `tdmOn`. -/
def tdmOff : State := setTdm 15 (tdmPort up 15) (wr (tdmSlots 15) 127 (wr (tdmRate 15) 2 up))
def tdmOn : State := wr (tdmEn 15) 1 tdmOff
theorem test_hyps_TdmCommands :
    starts h0 (.tdmPortCfg h0 15 2 127 128) (specTdmPortCfg 15 2 127 128) tdmOff (fun b => flag b (tdmEn 15) = false) = true ∧
    starts h0 (.tdmPortCfg h0 15 2 4 128) (specTdmPortCfg 15 2 4 128) tdmOn (fun b => flag b (tdmEn 15) ∧ inBand b 15 = false) = true ∧
    starts hi (.tdmSlotmap hi 15 1 [127]) (specTdmSlotmap hi 15 1 [127]) tdmOn always = true ∧
    starts h0 (.tdmPortEnable h0 15) (specTdmPortEnable 15) tdmOn (fun b => flag b (tdmEn 15)) = true ∧
    starts h0 (.tdmPortEnable h0 15) (specTdmPortEnable 15) tdmOff (fun b => flag b (tdmEn 15) = false) = true ∧
    starts h0 (.tdmPortDisable h0 15) (specTdmPortDisable 15) tdmOn always = true := by decide

/-- Context 63 is the host's. -/
def tpz63 : State := claim 4 63 1 0 up
theorem test_hyps_CompressionCommands :
    starts h0 (.tpzCtxAlloc h0 63) (specTpzCtxAlloc h0 63) up always = true ∧
    starts h0 (.tpzCtxFree h0 63) (specTpzCtxFree h0 63) tpz63 (fun b => hostCtx b 63) = true ∧
    starts h0 (.tpzCtxSave h0 63 0) (specTpzCtxSave h0 63 0) tpz63 (fun b => hostCtx b 63) = true ∧
    starts h0 (.tpzJobDeflate h0 63 2 8 15 0 268435456 0 1024) (specTpzJob h0 0 63 2 8 15 0 268435456 0 1024)
      { tpz63 with tpz := { tpz63.tpz with ctxs := [(63, { ctxIdle with st := 2, wrap := 2 })] } }
      (fun b => hostCtx b 63 ∧ contRej (ctxOf b 63) 0 2 = none) = true ∧
    starts h0 (.tpzJobInflate h0 63 0 0 0 0 0 0 1) (specTpzJob h0 1 63 0 0 0 0 0 0 1) tpz63 (fun b => hostCtx b 63) = true := by decide
/-- An export takes its free context when it is accepted: where two of them are free, either. -/
theorem test_hyps_LogExport :
    let i : Instr := .logExport h0 1 0 0 4096 2
    let one : State := { up with claims := ((fromN 0 63).map (fun x => ({ cls := 4, idx := x, holder := 0x00, obj := 0xFFFF } : Claim))) }
    starts h0 i (specLogExport h0 1 0 0 4096 2) one always = true ∧ (fromN 0 64).filter (fun x => (claimOf one 4 x).isNone) = [63] ∧
    starts h0 (.tpzCtxAlloc h0 0xFF) (specTpzCtxAlloc h0 0xFF) one always = true := by decide
theorem test_choose_one {α : Type} (x : α) (s : State) : choose [x] s = some x := by simp [choose, Nat.mod_one]
/-- A restore is admitted whatever its image holds, which the device reads later; one saved by this part is of its version. -/
theorem test_hyps_CtxRestore (img : Dma) : admits h0 (specTpzCtxRestore h0 63 img) tpz63 = true := by rfl
theorem test_hyps_CtxImage (b : List Byte) : imageVersion { tpz63 with hostMem := { tpz63.hostMem with images := [(b, ctxIdle)] } } b = true := by
  simp [imageVersion]

def res0 : AgtResult :=
  { target := 0, alg := 1, index := 0x1C0, outcome := 2, origin := 0, start := 0, active := 0, slices := 0, nfail := 1, fmacro := 0, falg := 0, felem := 0,
    fword := 0, fbit := 0, plan := [5], mapped := 0, fused := 0, fuseused := 0 }
theorem test_hyps_TestCommands :
    let c (st : Nat) : State := { up with gar := { up.gar with cores := [(0, { coreInit with st := 0 }), (1, { coreInit with st := 2 }), (47, { coreInit with st := st })] } }
    let r : State := { up with agt := { up.agt with results := [(0xFFFF, res0)] } }
    starts h0 (.agtRun h0 1 47 0x1F 16000) (specAgtRun h0 1 47 0x1F 16000) (c 5) always = true ∧
    starts h0 (.agtResults h0 0xFFFF) (specAgtResults 0xFFFF) r (fun b => tblFind 0xFFFF b.agt.results = some res0) = true ∧
    starts h0 (.agtRepairSoft h0 0xFFFF) (specAgtRepairSoft 0xFFFF) r (fun b => tblFind 0xFFFF b.agt.results = some res0 ∧ softRej b 0xFFFF = none) = true ∧
    starts h0 (.coreOutOfService h0 47) (specCoreOutOfService h0 47) (c 3) (fun b => 3 ≤ (Machine.core b 47).st) = true ∧
    starts h0 (.coreOutOfService h0 47) (specCoreOutOfService h0 47) (c 2)
      (fun b => (Machine.core b 47).st < 3 ∧ (planMoves (chansOn b 47) (siblings 47) 8192 b).2.1 = []) = true ∧
    starts h0 (.coreReturn h0 47) (specCoreReturn h0 47) (c 2) (fun b => (Machine.core b 47).st ≤ 2) = true ∧
    starts h0 (.coreReturn h0 47) (specCoreReturn h0 47) (returnRun 0 0 47 (c 5)) (fun b => 2 < (Machine.core b 47).st ∧ runOn b 47) = true ∧
    starts h0 (.coreReturn h0 47) (specCoreReturn h0 47) (c 5) (fun b => 2 < (Machine.core b 47).st ∧ runOn b 47 = false ∧ coreFit b 47 = false) = true ∧
    starts h0 (.coreReturn h0 47) (specCoreReturn h0 47)
      { c 5 with agt := { (c 5).agt with results := [(1, { res0 with target := 1, index := 47, outcome := 1 })] } }
      (fun b => 2 < (Machine.core b 47).st ∧ runOn b 47 = false ∧ coreFit b 47) = true ∧
    starts h0 (.coreRetire h0 47) (specCoreRetire 47) (c 7) (fun b => (Machine.core b 47).st = 7) = true ∧
    starts h0 (.rebalance h0 0 1 8192) (specRebalance h0 0 1 8192) (c 5) (fun b => rebalanceOk b 0 1) = true := by decide

theorem test_hyps_Diagnostics :
    let d : List Byte := List.replicate 40 1
    starts h0 (.echo h0 d) (specEcho d) up always = true ∧ starts h0 (.notifyCfg h0 0) (specNotifyCfg 0) up always = true ∧
    starts h0 (.counters h0 5 63 1) (specCounters 5 63 1) up always = true ∧ starts h0 (.regRead h0 9 1 0 1) (specRegRead 9 1 0 1) up always = true ∧
    starts h0 (.journalRead h0 0 0xFFFF) (specJournalRead 0 0xFFFF) up always = true ∧ starts h0 (.pvlRead h0 0 0) (specPvlRead 0 0) up always = true ∧
    starts h0 (.bootledgerRead h0) specBootledgerRead up always = true ∧
    starts h0 (.krnStatus h0 15) (specKrnStatus h0 15) v1 (fun b => (tblFind 15 b.gar.kernels).isSome) = true ∧
    starts h0 (.chStats h0 8191 0) (specChStats h0 8191 0) v1 (fun b => (chan? b 8191).isSome) = true ∧
    starts h0 (.chStats h0 8191 1) (specChStats h0 8191 1) v1 (fun b => (chan? b 8191).isSome) = true := by decide

/-- A kernel image of one instruction. What its signature says is an input of the model (log 2): where it is accepted, the command is admitted. -/
def img1 : List Byte := le 4 0x4B524E31 ++ le 2 1 ++ le 2 0 ++ le 4 1 ++ le 12 0 ++ le 4 0 ++ le 4 1 ++ List.replicate 134 0
def kl : State := { v1 with boot := { v1.boot with fuses := { fusesReset with kernelHash := some 0 } } }
set_option maxRecDepth 8000 in
theorem test_hyps_KrnLoad (ht : kernelSigOk kl img1 = true) : admits h0 (specKrnLoad h0 0 0 166 img1) kl = true := by
  have hs : (specKrnLoad h0 0 0 166 img1).st kl = none := by
    have h1 : kernelLcRej kl = none := by decide
    have h2 : (kernelHash kl).isNone = false := by decide
    have h3 : (decide ((166 : BitVec 32).toNat ≠ img1.length ∨ (166 : BitVec 32).toNat ≠ 64 + 6 * (imgIcode img1 + imgDdata img1) + 96)) = false := by decide
    have h4 : imgHeaderBad img1 = false := by decide
    have h5 : (voicePre (.krnLoad h0 0 0 166 (.data img1)) kl).isNone = true := by decide
    have h6 : ((iBases kl (imgIUnits img1)).isEmpty || (dBases kl (imgDUnits img1)).isEmpty) = false := by decide
    simp only [specKrnLoad, firstRej, ht, h1, h2, h3, h4, h5, h6]; rfl
  have hi' : (specKrnLoad h0 0 0 166 img1).info = chInfo 0x0901 1000000 false := rfl
  have hp : (specKrnLoad h0 0 0 166 img1).par = none := by decide
  have ho : (specKrnLoad h0 0 0 166 img1).objs = [.kernel 0] := rfl
  have hc : scpCheck h0 (specKrnLoad h0 0 0 166 img1) kl = none := by
    simp only [scpCheck, hp, hs, hi']; decide
  simp only [admits, objsClear, hc, ho]; decide

/-! ### The host interface -/

theorem test_hyps_Doorbell :
    let s : State := setQueue 3 { queue up 3 with tail := 5 } up
    pcieUp s = true ∧ mspiOwned s 3 = false ∧ cmpOf s 3 = 0xFFFF ∧ ownerEpoch s 3 = 0 ∧ rd s hbRun = 1 ∧ rd s (qErr 3) = 0 ∧
    (let v : BitVec 32 := 256; epochOk s 3 v ∧ ¬(1 ≤ ((5 : BitVec 16) - v.extractLsb' 0 16).toNat ∧ ((5 : BitVec 16) - v.extractLsb' 0 16).toNat ≤ 32767) ∧
      (v.extractLsb' 0 16 - (cmpOf s 3 + 1)).toNat ≤ 256) ∧
    ¬epochOk s 3 0x10000 ∧ (epochOk s 3 257 ∧ 256 < ((257 : BitVec 16) - (cmpOf s 3 + 1)).toNat) ∧
    (epochOk s 3 4 ∧ 1 ≤ ((5 : BitVec 16) - 4).toNat) ∧ rd (wr hbRun 0 s) hbRun ≠ 1 ∧ rd (wr (qErr 3) 3 s) (qErr 3) ≠ 0 ∧
    (let m : State := { up with host := { up.host with owner := 8 } }; pcieUp m = true ∧ mspiOwned m 3 = true) ∧
    (let n : State := { s with boot := { s.boot with step := 12 } }; pcieUp n = true ∧ served n = false) ∧
    (served (setQueue 3 { queue up 3 with tail := 1 } up) = true ∧ nextQueue (setQueue 3 { queue up 3 with tail := 1 } up) = some 3) := by
  unfold epochOk; decide

theorem test_hyps_HostWrites :
    let h : State := { up with host := { up.host with absent := true, segLast := 5 } }
    pcieUp up = true ∧ epochOk up 3 0 ∧ mspiOwned up 3 = false ∧ ¬epochOk up 3 0x00FF0000 ∧
    (pcieUp h = true ∧ rd h hbHeartbeat ≠ 1 ∧ h.host.absent = true ∧ onyxUp h = true) ∧ up.host.absent = false ∧
    later32 5 h.host.segLast = false ∧ later32 6 h.host.segLast = true ∧ flag up (cqEn 3) = false ∧ (0x80000000#32).getLsbD 31 = true ∧
    (let z : State := wr hbRun 0 up; pcieUp z = true ∧ rd z hbRun = 0 ∧ (1#32).getLsbD 0 = true) ∧
    minimal up = false ∧ (pcieUp (wr hbMinimal 1 up) = true ∧ minimal (wr hbMinimal 1 up) = true) := by
  unfold epochOk; decide

theorem test_hyps_RegisterAccess :
    pcieUp up = true ∧ ((4 : Nat) ≠ 4 ∨ (2#16).toNat % 4 ≠ 0) ∧ domOn up 1 = true ∧ regRow 8 0xFFC = none ∧ (regRow 1 0x100).isSome = true ∧
    (0x100#16).toNat % 4 = 0 ∧ pcieUp State.reset = false ∧ domOn State.reset 1 = false ∧ hostLinkUp up = true ∧ 5 ≤ up.boot.step ∧
    writeActs 1 0x100 = false ∧ writeActs 8 0xFFC = false ∧ (regRow 10 0x1C).isSome = true ∧ regRow 10 0xFFC = none ∧ booted up = true ∧ up.pwr.hib = .awake ∧
    booted State.reset = false ∧ (∀ n, n < 4 → (0x74#16) ≠ BitVec.ofNat 16 (0x8C + 0x20 * n)) := by decide

theorem test_hyps_RingService :
    let f : State := setQueue 3 { queue up 3 with tail := 1 } up
    let c : Cpl := acceptedCpl (newCmd h0 (.nopCommand h0) specNop.info [] 0) stAccepted 0
    let ring (tail : Nat) : State := wr (cqTail 3) tail (wr (cqEn 3) 1 (setQueue 3 { queue up 3 with held := [c], head := 5 } up))
    (served f = true ∧ pcieUp f = true ∧ nextQueue f = some 3 ∧ rd f (sqBaseLo 3) % 4096 = 0) ∧
    ((padTo 64 [0, 0, 0, 0, 4]).getD 4 0).getLsbD 2 = true ∧ ((padTo 64 []).getD 4 0).getLsbD 2 = false ∧
    ((ring 255).boot.resetReq = none ∧ ringOpen (ring 255) 3 = true ∧ rd (ring 255) (cqBaseLo 3) % 4096 = 0 ∧ (nextCpl 3 (ring 255)).isSome = true ∧
      (rd (ring 255) (cqTail 3) + 1) % ringSize (ring 255) 3 = 0) ∧
    (mspiOwned up 3 = false ∧ flag (wr cfgBme 0 up) cfgBme = false) ∧
    (let m : State := wr hbRun 0 (wr cfgBme 0 { ring 254 with host := { (ring 254).host with owner := 8 } });
      ringOpen m 3 = true ∧ mspiOwned m 3 = true ∧ (nextCpl 3 m).isSome = true) ∧
    (ringOpen (ring 254) 3 = true ∧ (nextCpl 3 (ring 254)).isSome = true ∧ (rd (ring 254) (cqTail 3) + 1) % ringSize (ring 254) 3 ≠ 0) ∧
    (setQueue 3 { queue up 3 with sigBy := some 0 } up |> fun s => (queue s 3).sigBy = some 0 ∧ 0 ≤ now s) := by decide

theorem test_hyps_HostLinkReset :
    let a (n : Nat) : State := { up with boot := { up.boot with step := n } }
    let m : State := { a 11 with host := { (a 11).host with owner := 8 } }
    let w : State := { a 11 with boot := { (a 11).boot with resetReq := some (1, none) } }
    let d : State := wr cfgPower 3 (a 11)
    let c : Cmd := { newCmd h0 (.nopCommand h0) specNop.info [] 0 with lref := some 0 }
    let k : State := { a 11 with host := { (a 11).host with cmds := [c] } }
    domOn (a 11) 2 = true ∧ (a 11).boot.resetReq = none ∧ earlyBoot (a 11) = false ∧ mspiOwned (a 11) 3 = false ∧ mspiOwned m 3 = true ∧ domOn m 2 = true ∧
    domOn (a 10) 2 = true ∧ earlyBoot (a 10) = true ∧ earlyBoot (wr hbMinimal 1 (a 10)) = false ∧ (domOn w 2 = true ∧ w.boot.resetReq ≠ none) ∧
    (domOn d 2 = true ∧ inD3 d = true ∧ inD3 (a 11) = false) ∧ (domOn k 2 = true ∧ c ∈ k.host.cmds ∧ c.lref.isSome = true) ∧
    (1 ≤ 63 ∧ (lease (a 11) 63).owner ≠ 1) ∧ 5 ≤ (a 5).boot.step ∧ (a 5).boot.cfg.hostif ≠ 1 := by decide

theorem test_hyps_Heartbeat :
    let s (beat prev misses : Nat) : State := wr hbMiss 3 (wr hbHeartbeat beat { up with host := { up.host with hbPrev := BitVec.ofNat 32 prev, hbMisses := misses } })
    (s 1 0 0).host.hbPeriodEnd ≤ now (s 1 0 0) ∧ rd (s 1 0 0) hbHeartbeat ≠ (s 1 0 0).host.hbPrev.toNat ∧
    (rd (s 1 1 1) hbHeartbeat = (s 1 1 1).host.hbPrev.toNat ∧ (s 1 1 1).host.hbMisses + 1 < rd (s 1 1 1) hbMiss) ∧
    (rd (s 1 1 2) hbHeartbeat = (s 1 1 2).host.hbPrev.toNat ∧ rd (s 1 1 2) hbMiss ≤ (s 1 1 2).host.hbMisses + 1) ∧
    up.onyx.phase = .running ∧ up.host.devbeatAt ≤ now up := by decide

theorem test_hyps_Mspi :
    let e : State := { up with boot := { up.boot with step := 4 } }
    let c : Cpl := acceptedCpl (newCmd h0 (.nopCommand h0) specNop.info [] 0) stAccepted 0
    let m : State := setQueue 3 { queue up 3 with written := [(0, c)] } { up with host := { up.host with owner := 8 } }
    mspiOn up = true ∧ (mspiOn e = true ∧ e.boot.step ≤ 4 ∧ minimal e = false) ∧
    (mspiOn m = true ∧ 4 < m.boot.step ∧ (3#8).toNat < 4 ∧ mspiOwned m 3 = true ∧ (List.replicate 64 (0 : Byte)).length = 64 ∧
      inWindow 3 (BitVec.ofNat 16 (rd m (sqFetch 3))) m = true ∧
      (queue m 3).written.find? (fun x => x.1 == (queue m 3).cursor) = some (0, c)) ∧
    (let n : State := setQueue 3 { queue m 3 with written := [] } m; (queue n 3).written.find? (fun x => x.1 == (queue n 3).cursor) = none ∧ mspiOwned n 3 = true) ∧
    (submitLen (List.replicate 64 0) [] = true ∧ submitLen (List.replicate 64 0) [1] = false ∧ submitLen [] [] = false) ∧
    (served m = true ∧ served { m with boot := { m.boot with step := 12 } } = false) ∧ 4 ≤ (4#8).toNat ∧ mspiOwned up 3 = false ∧
    inWindow 3 (BitVec.ofNat 16 (rd (wr (sqFetch 3) 300 m) (sqFetch 3))) (wr (sqFetch 3) 300 m) = false ∧ (0x104#16).toNat % 4 = 0 ∧ (0x106#16).toNat % 4 ≠ 0 ∧
    (mspiOn (wr hbMinimal 1 e) = true ∧ minimal (wr hbMinimal 1 e) = true) := by decide

/-- A fetched entry of this sequence and opcode whose CHECK is right. -/
def entry0 (seq op plen : Nat) (chk : Nat) (par : List Byte) : List Byte := padTo 64 (le 2 seq ++ le 2 op ++ [0, 1] ++ le 2 plen ++ le 4 chk ++ le 12 0 ++ par)
def fetched0 (seq op plen : Nat) (par : List Byte) : Fetched :=
  { slotSeq := 0, entry := entry0 seq op plen (crc32c (entry0 seq op plen 0 par)).toNat par, params := [] }
def fq (f : Fetched) : State := setQueue 0 { queue up 0 with fetched := [f] } up

set_option maxRecDepth 10000 in
theorem test_hyps_CommandAccept :
    let ok := fetched0 0 0x0105 2 [4, 1]
    let bad : Fetched := { ok with entry := entry0 0 0x0105 2 0 [4, 1] }
    let seq := fetched0 1 0x0105 2 [4, 1]
    let none' := fetched0 0 0x0FFF 0 []
    (served (fq ok) = true ∧ (queue (fq ok) 0).fetched = [ok] ∧ (cmdAt (fq ok) 0 (queue (fq ok) 0).exp).isNone = true ∧
      entryCheck ok = (entryHdr 0 ok 0).check ∧ par2 ok.entry 0 = 0 ∧ ok.entry.getD 5 0 = 1 ∧ fixedSizes 0x0105 = some [1, 1] ∧ entryReserved ok 2 = true ∧
      (∃ r sp, readCmd 0x0105 (entryHdr 0 ok 0) (padTo 2 (ok.entry.drop 24)) = some r ∧ r.bad = none ∧ specOf r.instr = some sp ∧
        parCheck 0x0105 (padTo 2 (ok.entry.drop 24)) r sp.par = none)) ∧
    entryCheck bad ≠ (entryHdr 0 bad 0).check ∧
    (entryCheck seq = (entryHdr 0 seq 0).check ∧ par2 seq.entry 0 ≠ 0) ∧
    (entryCheck none' = (entryHdr 0 none' 0).check ∧ fixedSizes 0x0FFF = none) := by
  refine ⟨⟨by decide, by decide, by decide, by decide, by decide, by decide, by decide, by decide, ?_⟩, by decide, by decide, by decide⟩
  exact ⟨_, _, rfl, rfl, rfl, rfl⟩

/-! ### The block, accepted work and leases -/

theorem test_hyps_Block :
    up.pending = [] ∧ up.time.refRun = true ∧ up.pwr.hib = .awake ∧ { timeReset with refRun := false }.refRun = false ∧ State.memWf State.reset = true ∧
    noWrites.io = [] ∧ noWrites.gov = 0 := by decide

theorem test_hyps_Admission :
    let c : Cmd := { newCmd h0 (.nopCommand h0) specNop.info [.device] 0 with lref := some 5, lsn := 0 }
    let w : State := { setQueue 0 { queue up 0 with exp := 1 } up with host := { (setQueue 0 { queue up 0 with exp := 1 } up).host with cmds := [c] } }
    let h1 : Hdr := { h0 with seq := 1 }
    exec (.nopCommand h0) up = .next (scp h0 (.nopCommand h0) specNop up) ∧ served State.reset = false ∧
    (served up = true ∧ (cmdAt up 0 9).isNone = true ∧ inWindow 0 (queue up 0).exp up = true ∧ (queue up 0).exp ≠ 9) ∧
    (∃ r, scpCheck h0 specNop { up with pwr := { up.pwr with safe := true } } = some r) ∧
    ((queue w 0).exp = h1.seq ∧ (cmdAt w 0 1).isNone = true ∧ inWindow 0 1 w = true ∧ scpCheck h1 (specAdmitCfg 1) w = none ∧
      ∃ d, cmdAt (acceptCmd h1 (.admitCfg h1 1) (specAdmitCfg 1) w) 0 1 = some d ∧ blocked d (acceptCmd h1 (.admitCfg h1 1) (specAdmitCfg 1) w) = true) ∧
    (∃ r, (specAdmitCfg 513).par = some r) ∧ (specAdmitCfg 512).par = none := by
  refine ⟨rfl, by decide, by decide, ⟨_, rfl⟩, ⟨by decide, by decide, by decide, by decide, _, rfl, by decide⟩, ⟨_, rfl⟩, by decide⟩

theorem test_hyps_RoundTrip :
    let i : Instr := .plcRoute { h0 with queue := 3, seq := 0xFFFF } 255 0xFFFF 2 [1, 0xFFFF]
    canonical i = true ∧ (pack i).isSome = true := by decide

set_option maxRecDepth 10000 in
theorem test_hyps_Leases :
    let l (st : Nat) (e : BitVec 24) : Lease := { leaseReset with owner := 0x3F, state := st, epoch := e, rclass := 7, duration := 100 }
    let s (st : Nat) (e : BitVec 24) : State := setLease 63 (l st e) up
    ((lease (s 1 1) 63).state = 1 ∧ (lease (s 2 0xFFFFFF) 63).state = 2 ∧ (lease (s 2 0xFFFFFF) 63).owner = 0x3F ∧ (lease (s 2 0xFFFFFF) 63).epoch = 0xFFFFFF) ∧
    onyxUp (s 2 1) = true ∧ ((lease up 0).owner = 0 ∧ (lease (setLease 0 { lease up 0 with state := 2 } up) 0).state = 2) ∧
    ((lease up 63).state = 0 ∧ onyxUp up = true ∧ 100 ≤ (100#20).toNat ∧ (1000000#20).toNat ≤ 1000000 ∧ ((63 : Nat) = 0 ↔ (7#8) = 1)) ∧
    (lease (setLease 0 leaseReset up) 0).state = 0 ∧ (lease (s 1 1) 63).epoch ≠ 2 ∧
    (let x : State := setLease 63 { l 1 1 with deadline := 1 } up
     (lease x 63).deadline ≠ BitVec.ofNat 44 (now x) ∧ ((lease x 63).deadline - BitVec.ofNat 44 (now x)).toNat < 2 ^ 43) ∧
    (lease (s 1 1) 63).deadline = BitVec.ofNat 44 (now (s 1 1)) := by decide

set_option maxRecDepth 10000 in
theorem test_hyps_Ledger :
    let e (st : BitVec 8) : State := { up with ledger := { up.ledger with entries := [(16383, { entryFree with state := st })] } }
    let t : State := { up with ledger := { up.ledger with tail := some { index := 16383, lsn := 1, mask := 15 } } }
    gateOk up 0 0 2 = false ∧ gateOk up 0 0 1 = true ∧ up.ledger.tail = none ∧ (entry up 16383).state = 0 ∧
    admitted 1 1 up = true ∧ admitted 0 1 up = true ∧ gateOk t 0 0 1 = true ∧ t.ledger.tail = some { index := 16383, lsn := 1, mask := 15 } ∧
    (gateOk (e 0xE1) 0 0 1 = true ∧ (entry (e 0xE1) 16383).state = 0xE1 ∧ (entry (e 0xE1) 16383).phase.toNat ≤ (5#8).toNat) ∧
    (entry (e 0x78) 16383).state = 0x78 ∧
    { entryFree with idem := 2 }.idem = 2 := by decide

set_option maxRecDepth 10000 in
theorem test_hyps_Sealer :
    let z : LEntry := { entryFree with state := 0x1E, lsn := 1 }
    let s (e : LEntry) : State := { up with onyx := { up.onyx with phase := .rom },
                                            ledger := { up.ledger with tail := some { index := 0, lsn := 1, mask := 15 }, entries := [(0, e)] } }
    let w : State := s { z with bchk := crc32c (entryBody z) }
    (w.onyx.phase = .rom ∧ (lease w 0).owner = 0 ∧ entryUe w 0 = false ∧ crc32c (entryBody (entry w 0)) = (entry w 0).bchk ∧ (entry w 0).state = 0x1E) ∧
    (lease (setLease 0 { lease up 0 with state := 2 } up) 0).state = 2 ∧ up.ledger.tail = none ∧
    crc32c (entryBody (entry (s z) 0)) ≠ (entry (s z) 0).bchk := by decide

/-! ### Resets, the start and power -/

/-- In step `n` of the start, begun, with its watchdog set. -/
def atS (n : Nat) : State :=
  { up with boot := { up.boot with step := n, started := true, wdog := some 0, lc := 7 }, pwr := { up.pwr with faultN := false },
            onyx := { up.onyx with phase := if n < 5 then .off else if n = 5 then .rom else .replay } }
theorem test_hyps_Resets2 :
    State.reset.boot.fuseOp = none ∧ domOn up 1 = true ∧ 3 ≤ up.boot.step ∧ up.pwr.safeStuck = false ∧ up.pwr.safe = false ∧ up.boot.resetReq = none ∧
    fuseBusy up = false ∧ romReplies up = false ∧ fuseBusy { up with boot := { up.boot with fuseOp := some (.secmin 1) } } = true ∧
    (booted up = true ∧ onyxUp up = true ∧ minimal up = false) ∧ minimal (wr hbMinimal 1 up) = true ∧ { up.pwr with safe := true }.safeStuck = false ∧
    { up.boot with started := true }.started = true ∧ { up.boot with resetReq := some (1, none) }.resetReq ≠ none ∧ 4 ≤ (11 : Fin 12).val ∧ (3 : Fin 12).val = 3 := by decide

theorem test_hyps_BootSteps :
    (State.reset.boot.step = 0 ∧ State.reset.boot.aoGood = false ∧ State.reset.boot.tapHold = false ∧ rd State.reset (domStat 1) = 0) ∧
    (∀ n ∈ [1, 2, 3, 4, 5, 6, 7, 8, 9, 10, 11, 12], atStep n (atS n) = true) ∧ lcValid (lcMajority { fusesReset with lc3 := lcFuses 7 }.lc3) = true ∧ (atS 2).agt.rows = [] ∧
    ((atS 4).boot.lc ≠ 0 ∧ (atS 4).boot.hdr.mode ≠ 1) ∧ imageCause (atS 5) { slotImage (atS 5) 0 with readOk := false } ≠ 0 ∧ (atS 5).boot.attempt < attempts (atS 5) ∧ (atS 7).boot.cfg.retired = 0 ∧
    { (atS 9).boot.cfg with plcEn := 15 }.plcEn ≠ 0 ∧ onyxUp (atS 10) = true ∧ (∀ n ∈ [7, 8, 9, 10], bootPowered (atS n) n = true) ∧ clusterOn (atS 7) 3 = true ∧
    { (atS 10).boot with replaying := some [] }.replaying = some [] ∧ { (atS 10).boot with replaying := some [5] }.replaying = some [5] ∧ domOn (atS 4) 2 = true ∧ hostSeen (atS 11) = true ∧
    (let s : State := { atS 11 with host := hostReset }; hostSeen s = false ∧ due s s.boot.wdog = true) ∧ (onyxUp (atS 12) = true ∧ (atS 12).host.cmds = []) := by decide

theorem test_unLe_le (n v : Nat) : unLe (le n v) = v % 256 ^ n := by
  induction n generalizing v with
  | zero => simp [le, unLe, Nat.mod_one]
  | succ n ih => rw [le, unLe, ih, Nat.pow_succ', Nat.mod_mul]; simp

theorem test_le_length (n v : Nat) : (le n v).length = n := by
  induction n generalizing v with
  | zero => rfl
  | succ n ih => simp [le, ih]

theorem test_digest0 : BitVec.ofNat 384 (unBe (be 48 (Config.sha384 []).toNat)) = Config.sha384 [] := by
  simp only [unBe, be, List.reverse_reverse, test_unLe_le]
  apply BitVec.eq_of_toNat_eq
  rw [BitVec.toNat_ofNat, show (256 : Nat) ^ 48 = 2 ^ 384 by decide, Nat.mod_mod, Nat.mod_eq_of_lt (Config.sha384 []).isLt]

/-- The header of an image of no parts, by key 1, with the digest of its core part. -/
def head0 : List Byte := [0x38, 0x34, 0x50, 0x53, 1, 0, 1] ++ List.replicate 25 0 ++ be 48 (Config.sha384 []).toNat ++ List.replicate 432 0
theorem test_head0_length : head0.length = 512 := by unfold head0; simp [-List.reduceReplicate, be, test_le_length]
/-- At S5 with the key of that image in its fuses, and this flash. -/
def imgOf (f : Tbl Byte) : State :=
  { atS 5 with boot := { (atS 5).boot with fuses := { fusesReset with keyHash := [(1, Config.sha384 (List.replicate 97 0))] }, flash := f } }
theorem test_imgOf_flash (f : Tbl Byte) : (imgOf f).boot.flash = f := rfl
def imgS : State := imgOf (cellsPut 0xFF [] 0x100000 head0)
theorem test_imgS_head : flashGet imgS 0 0 512 = head0 := by
  have b : slotBase 0 + 0 = 0x100000 := rfl
  have h := cellsGet_put 0xFF [] 0x100000 head0
  rw [test_head0_length] at h
  rw [flashGet, imgS, test_imgOf_flash, b, h]

theorem test_head0_digest : (head0.drop 0x20).take 48 = be 48 (Config.sha384 []).toNat := by
  have h : (be 48 (Config.sha384 []).toNat).length = 48 := by simp [be, test_le_length]
  generalize hb : be 48 (Config.sha384 []).toNat = b at h
  unfold head0; simp [-List.reduceReplicate, hb, h, List.drop_append, List.take_append]
theorem test_head0_lo (k n : Nat) (h : k + n ≤ 32) : leAt head0 k n = leAt (head0.take 32) k n := by
  simp [leAt, List.drop_take, List.take_take]; congr 2; omega
theorem test_head0_take : head0.take 32 = [0x38, 0x34, 0x50, 0x53, 1, 0, 1] ++ List.replicate 25 0 := by
  unfold head0; simp [-List.reduceReplicate, List.take_append]
theorem test_head0_key : (head0.drop 0x80).take 97 = List.replicate 97 0 := by
  have h : (be 48 (Config.sha384 []).toNat).length = 48 := by simp [be, test_le_length]
  generalize hb : be 48 (Config.sha384 []).toNat = b at h
  unfold head0; simp [-List.reduceReplicate, hb, h, List.drop_append, List.take_append]
/-- What a signature says is an input of the model (log 2): where it verifies, an image in the flash passes. -/
theorem test_hyps_ImagePasses (hv : ∀ a b c, Config.ecdsaVerify a b c = true) :
    atStep 5 imgS = true ∧ (attemptSlot imgS imgS.boot.attempt).1 = 0 ∧ imageCause imgS { slotImage imgS 0 with readOk := true } = 0 := by
  refine ⟨rfl, rfl, ?_⟩
  have e := test_digest0
  have l : ∀ k n v, k + n ≤ 32 → leAt ([0x38, 0x34, 0x50, 0x53, 1, 0, 1] ++ List.replicate 25 0) k n = v → leAt head0 k n = v := fun k n v h hv => by
    rw [test_head0_lo k n h, test_head0_take, hv]
  simp only [imageCause, slotImage, test_imgS_head, test_head0_digest, e, test_head0_key, l 0 4 0x53503438 (by decide) (by decide), l 4 2 1 (by decide) (by decide),
    l 6 1 1 (by decide) (by decide), l 8 4 0 (by decide) (by decide), l 12 4 0 (by decide) (by decide), l 16 4 0 (by decide) (by decide),
    l 20 4 0 (by decide) (by decide), hv]
  simp [imgS, imgOf, slotPart, flashGet, cellsGet, slotBytes, keyAllowed, atS, up, fusesReset, tblGet, tblFind]
/-- At S6 the extension part of an image that has none is digested. -/
def ext0 : List Byte := List.replicate 80 0 ++ be 48 (Config.sha384 []).toNat
theorem test_hyps_DdrTraining :
    let s : State := wr (pllEn 6) 1 (wr (clkLock 6) 1 { atS 6 with boot := { (atS 6).boot with image := ext0 } })
    atStep 6 s = true ∧ bootPowered s 6 = true ∧ pllReady s 6 = true ∧ extMatches s = true := by
  refine ⟨by decide, by decide, by decide, ?_⟩
  have h : (be 48 (Config.sha384 []).toNat).length = 48 := by simp [be, test_le_length]
  have k : ((wr (pllEn 6) 1 (wr (clkLock 6) 1 { atS 6 with boot := { (atS 6).boot with image := ext0 } })).boot.image) = ext0 := rfl
  have z : ∀ o n, o + n ≤ 80 → leAt ext0 o n = leAt (List.replicate 80 0) o n := fun o n h => by
    unfold ext0; simp only [leAt, List.drop_append, List.take_append]; simp [-List.reduceReplicate]; rw [show n - (80 - o) = 0 by omega]; simp
  simp only [extMatches, extPart, k, z 8 4 (by decide), z 16 4 (by decide), decide_eq_true_eq]
  have d : (ext0.drop 0x50).take 48 = be 48 (Config.sha384 []).toNat := by
    unfold ext0; simp [-List.reduceReplicate, List.drop_append, h]
  rw [d]
  have e : leAt (List.replicate 80 0) 16 4 = 0 := by decide
  have e8 : leAt (List.replicate 80 0) 8 4 = 0 := by decide
  rw [e, e8, test_digest0]; rfl

theorem test_hyps_BootWatchdog :
    ∀ n ∈ [1, 3, 4, 7, 8, 9, 10, 11, 12], (atS n).boot.started = true ∧ (atS n).boot.wdog = some 0 ∧ 0 ≤ now (atS n) ∧ (atS n).boot.resetReq = none ∧
      (atS n).pwr.safe = false ∧ (atS n).boot.step = n := by decide

theorem test_hyps_Power :
    let sw (on seen failed : Bool) : Switch := { dom := 11, on := on, pgBy := 0, pgSeen := seen, failed := failed }
    (domOn up 1 = true ∧ up.pwr.cur = none ∧ up.pwr.queue = [] ∧ rd up (domStat 11) = 2 ∧ rd (wr (domStat 11) 3 up) (domStat 11) ≠ 2) ∧
    (sw true false false).pgBy ≤ now up ∧ (sw true true false).pgSeen = true ∧ (sw false false false).on = false ∧ (sw true false true).failed = true ∧
    2 ≤ (sw true false false).dom ∧ (sw true false false).dom < 12 := by decide

theorem test_hyps_Hibernate :
    let h (p : HibPhase) : State := { wr hibTimerEn 1 (wr hibWakeNEn 1 up) with pwr := { up.pwr with hib := p } }
    (domOn (h .awake) 1 = true ∧ (h .awake).pwr.hib = .awake ∧ booted (h .awake) = true ∧ (7#32).getLsbD 0 = true) ∧
    ({ (h .asleep).pwr with armN := true, armT := true, armAt := 0 }.armN = true ∧ (0 : Nat) ≤ (h .asleep).time.ao.toNat) ∧ ((h .armed).pwr.hib = .armed ∧ onyxUp (h .armed) = true) ∧ (flag (h .asleep) hibWakeNEn = true ∧ (h .asleep).time.aoRun = true) ∧
    (flag (h .asleep) hibTimerEn = true ∧ rd (h .asleep) wakeAtLo + rd (h .asleep) wakeAtHi * 2 ^ 32 ≤ (h .asleep).time.ao.toNat) ∧
    (let s (w : Nat) : State := { wr scrubEn 1 up with pwr := { up.pwr with scrubPos := w } }
     flag (s 0) scrubEn = true ∧ (s 131070).pwr.scrubPos < 131071 ∧ (131070 ∉ (s 131070).pwr.ueWords) ∧ (s 131071).pwr.scrubPos = 131071) := by decide

theorem test_hyps_FuseDone (o : FuseOp) :
    let f : State := { up with boot := { up.boot with fuseOp := some o } }
    f.boot.resetReq = none ∧ f.boot.fuseOp = some o := ⟨rfl, rfl⟩

/-! ### Time, the fabric and the dispatcher -/

theorem test_hyps_TimeBase :
    let s (ao : Nat) (held : Bool) : State := { up with time := { up.time with ao := BitVec.ofNat 48 ao, anchorHeld := held } }
    (s 32768 false).time.ao.toNat % 32768 = 0 ∧ (s 32768 true).time.anchorHeld = true ∧ (domOn (s 32768 false) 1 = true ∧ (s 32768 false).pwr.hib = .awake) ∧
    (slewEnds { up with time := { up.time with slew := -1 } } = true ∧ slewEnds up = false) ∧
    (let v : BitVec 32 := 1; 4290672329 ≤ v.toNat % 256 * 4294967296 + (rdW up (rk 9 0x18)).toNat ∧
      v.toNat % 256 * 4294967296 + (rdW up (rk 9 0x18)).toNat ≤ 4299262263) ∧
    (0 : BitVec 32).toNat % 256 * 4294967296 + (rdW up (rk 9 0x18)).toNat < 4290672329 := by decide

theorem test_hyps_Clocks :
    (refMonitor up = true ∧ up.time.refTrip = false ∧ up.time.refRun = true ∧ hibHeld up = false) ∧
    (let s : State := { up with time := { up.time with refRun := false } }; refMonitor s = true ∧ s.time.refTrip = false ∧ s.time.refRun = false ∧ hibHeld s = false) ∧
    (let s : State := wr rtbSrc 1 (wr rtbState 2 (wr rtbSrcto 0 up)); rd s rtbSrc ≠ 0 ∧ rd s rtbState = 2 ∧ s.time.servo.lastAt + rd s rtbSrcto * 1000 ≤ now s) ∧
    (let s : State := wr rtbState 3 (wr rtbHoldover 0 up); rd s rtbState = 3 ∧ s.time.servo.holdAt + rd s rtbHoldover * 1000000 ≤ now s) ∧
    (let s : State := wr audSrc 1 (wr audAuto 1 (wr audActive 1 up)); rd s audSrc = 1 ∧ rd s audAuto = 1 ∧ rd s audActive = 1) := by decide

theorem test_hyps_Discipline :
    let s (st : Nat) : State := wr rtbSrc 3 (wr rtbState st (wr rtbLockthr 100 (wr rtbStepthr 1 up)))
    (rd (s 1) rtbSrc = 3 ∧ rd (s 1) ppsEdge = b2n (!true) ∧ rd (s 1) ppsEdge ≠ b2n (!false)) ∧ onyxUp (s 1) = true ∧ (s 1).time.refRun = true ∧
    (rd (s 1) rtbState = 1 ∧ (s 1).time.servo.fresh = false ∧ (-99 : Int).natAbs < rd (s 1) rtbLockthr ∧ rd (s 1) rtbLockthr ≤ (100 : Int).natAbs) ∧
    (rd (s 2) rtbState = 2 ∧ (399 : Int).natAbs < 4 * rd (s 2) rtbLockthr ∧ (s 2).time.servo.nInt + 1 < 16) ∧
    (∀ k ∈ [0, 3, 4], rd (s k) rtbState = k ∧ rd (s k) rtbStepthr ≠ 0 ∧ rd (s k) rtbStepthr * 1000 < (-1001 : Int).natAbs ∧ (1001 : Int).natAbs < 549755813888) := by decide

theorem test_hyps_ZeroCrossing :
    let z : Zc := { zcInit with prev := some 0, last := 0 }
    let s (st md : Nat) : State := setZc 3 z (wr (zcPeriod 3) 20000000 (wr (zcEn 3) 1 (wr (zcState 3) st (wr (zcMode 3) md up))))
    flag (s 1 0) (zcEn 3) = true ∧ (zcCounts (s 1 0) 3 true (rd (s 1 0) (zcFilt 3)) = true ∧ zcCounts (s 0 0) 3 true (rd (s 0 0) (zcFilt 3)) = true) ∧
    (0 < rd (s 1 0) (zcFilt 3) ∧ rd (s 1 0) (zcEdge 3) ≠ b2n (!false)) ∧ (rd (s 1 0) (zcMode 3) ≠ 3 ∧ rd (s 1 0) (zcState 3) = 1) ∧
    ((20000000 - 20000000 + (20000000 - 20000000) : Nat) * 100 ≤ zcNominal (rd (s 1 0) (zcMode 3))) ∧
    (zcNominal (rd (s 1 0) (zcMode 3)) < (30000000 - 20000000 + (20000000 - 30000000) : Nat) * 100) ∧
    (rd (s 0 0) (zcState 3) ≠ 1 ∧ (zcOf up 3).prev = none ∧ (zcOf (s 0 0) 3).prev = some 0 ∧ (zcOf (s 0 0) 3).good + 1 < 4 ∧
      zcWithin (zcNominal (rd (s 0 0) (zcMode 3))) 2 5 = false ∧ zcWithin (zcNominal (rd (s 0 0) (zcMode 3))) 2 (zcNominal (rd (s 0 0) (zcMode 3))) = true) ∧
    rd (s 3 3) (zcMode 3) = 3 ∧
    (let t : State := wr (zcPeriod 3) 0 (s 1 0); (zcOf t 3).last + BitVec.ofNat 64 (rd t (zcPeriod 3)) = 0 ∧ 0 ≤ (rtbNs t).toNat) := by decide

def wh0 : WH :=
  { wclass := 1, prio := 1, assured := false, dest := 0x10, src := 0x3F, chan := 0, seq := 0, len := 1, lref := 0, rsvd := 0, settle := false, err := false, last := true,
    stamp := 0 }
def it0 : Item := { wh := wh0, payload := [1] }
theorem test_hyps_Fabric :
    let big : WH := { wh0 with dest := 0x6F }
    let fl (i : Item) : State := { up with fab := { up.fab with flight := [i] } }
    let mine (i : Item) : Bool := i.wh.dest == 0x10 && i.wh.src == 0x3F && i.wh.prio == 1
    unitDomain 0x3F = some 11 ∧ domOn up 11 = true ∧ up.fab.wait = [] ∧ sendCause up wh0 = none ∧ mayEnter up 0x3F it0 = true ∧
    (let w := present it0 up; firstWaiting w it0 = true ∧ laneServed w it0 = true ∧ sendCause w wh0 = none ∧ mayEnter w 0x3F it0 = true) ∧
    (let lo : Item := { it0 with wh := { wh0 with prio := 0 } }; laneServed (present it0 (offer lo up)) it0 = false) ∧
    portServes (fl it0) 0x10 0x3F 1 = true ∧ portServes (fl it0) 0x10 0x3F 2 = false ∧
    (sendCause up big).isSome = true ∧ (fl it0).fab.flight.find? mine = some it0 ∧
    (fl it0).net.rx.find? (fun r => r.item == it0) = none ∧ (0x3F#8).toNat ≥ 0x10 ∧ (0x40#8).toNat > 0x3F := by decide
theorem test_hyps_Fabric2 :
    let full : State := { up with fab := { up.fab with flight := List.replicate 16 it0 } }
    mayEnter full 0x3F it0 = false ∧ destCause up it0 = none ∧ destCause up { it0 with payload := [] } = some 4 ∧
    onyxUp State.reset = false ∧ (rejPort State.reset 0).buf.length < 16 ∧ senderKernel State.reset it0 = none ∧
    (let k : State := { up with fab := { up.fab with kern := [(it0, some 5)] } }; senderKernel k it0 = some 5) := by decide

theorem test_hyps_Ticks :
    let s (n : Nat) : State := { up with time := { up.time with rtb := BitVec.ofNat 96 (n * 4294967296) } }
    dispAlive up = true ∧ (rtbNs (s 0) - (s 0).time.tickRtb).toNat < tickLen (s 0) ∧
    tickLen (s 10000000) ≤ (rtbNs (s 10000000) - (s 10000000).time.tickRtb).toNat := by decide

theorem test_hyps_Schedule :
    let s (mf fz : Nat) (run : Bool) : State := { v1 with voice := { v1.voice with sched := { v1.voice.sched with tick := 4, mf := mf, frozen := fz, running := run } } }
    let on (t : State) : State := { t with onyx := { t.onyx with phase := .rom } }
    mayCommit (s 0 0 true) = true ∧ dispAlive (s 0 0 true) = true ∧ (s 1 0 true).voice.sched.mf ≤ (s 1 0 true).voice.sched.tick / 4 ∧
    ((on (s 1 0 true)).voice.sched.next = none ∧ (on (s 1 0 true)).voice.sched.running = true ∧ onyxUp (on (s 1 0 true)) = false ∧ dispAlive (on (s 1 0 true)) = true) ∧
    ({ (s 1 0 true).voice.sched with next := some [] }.next = some []) ∧ (s 2 0 true).voice.sched.tick / 4 < (s 2 0 true).voice.sched.mf ∧
    64 ≤ (s 0 64 true).voice.sched.frozen ∧ (s 0 63 true).voice.sched.frozen < 64 := by decide

theorem test_hyps_JobLane :
    let p : ChParams := { pA with codec := 1, ptime := 1, prio := 0, flags := 1 }
    let c : Chan := { newChan p false 0 with st := 2, core := 0 }
    let s : State := { v1 with voice := { v1.voice with chans := [(8191, c)], sched := { v1.voice.sched with running := true } } }
    (chan? s 8191 = some c ∧ s.voice.sched.running = true ∧ c.core = 0) ∧ (Machine.core (co cr) 47).job = some jb ∧ now (co cr) < jb.entered + 250 ∧
    (let t : State := { co cr with time := { (co cr).time with usec := 250 } }; (Machine.core t 47).job = some jb ∧ jb.entered + 250 ≤ now t ∧ jb.kind = .rx) ∧
    (let t : State := { ks with time := { ks.time with usec := 250 } }; (Machine.core t 47).job = usr.job ∧ (usr.job.map (·.kind)) = some (.krn 1 2) ∧ 250 ≤ now t) := by decide

/-! ### Faults -/

theorem test_hyps_OnyxRestart :
    let x (f : OnyxSt → OnyxSt) : State := { up with onyx := f up.onyx }
    let ck : State := x (fun o => { o with checking := true, masked := false })
    let l (s : State) : List Nat := s.onyx.mismatches.filter (fun t => decide (now s < t + 60000000)) ++ [now s]
    let late (t : Nat) (s : State) : State := { s with time := { s.time with usec := BitVec.ofNat 64 t } }
    (loaded ck = true ∧ ck.pwr.safe = false ∧ ck.onyx.persistentDone = none ∧ (l ck).length < 3) ∧
    (let s := x (fun o => { o with checking := true, masked := false, persistentDone := some 0 }); loaded s = true ∧ now (late 60000000 s) ≤ 0 + 60000000) ∧
    (let s := x (fun o => { o with checking := true, masked := false, mismatches := [1, 2] });
      loaded s = true ∧ 3 ≤ (l (late 59999999 s)).length ∧ (l (late 60000001 s)).length < 3) ∧
    (let s := x (fun o => { o with checking := true, checkers := [0, 0] }); loaded s = true ∧
      3 ≤ (s.onyx.checkers.filter (fun t => decide (now s < t + 60000000)) ++ [now s]).length) ∧
    (onyxUp ck = true ∧ onyxUp (x (fun o => { o with checking := true, phase := .rom })) = false ∧ loaded (x (fun o => { o with checking := true, phase := .rom })) = true) ∧
    (let s := x (fun o => { o with phase := .rebuild }); loaded s = true ∧ s.onyx.events = [] ∧ s.fab.rej = [] ∧ s.onyx.lateDegraded = none) := by decide

theorem test_hyps_FaultAnswers :
    let on (p : Nat) : State := wr (pllEn p) 1 (wr (clkLock p) 1 up)
    let lost (p : Nat) : State := wr (pllEn p) 1 (wr (clkLock p) 0 up)
    let off (d p : Nat) : State := wr (domStat d) 0 (on p)
    let tried : State := { lost 5 with pwr := { up.pwr with pllLost := [(5, 0)] }, time := { up.time with usec := 1000000 } }
    let th (k : Nat) : State := { up with onyx := { up.onyx with thermal := k } }
    (domOn up 1 = true ∧ flag (lost 9) (pllEn 9) = true ∧ flag (lost 9) (clkLock 9) = false ∧ tblFind 9 (lost 9).pwr.pllLost = none) ∧
    flag (on 1) (clkLock 1) = true ∧
    (flag (on 5) (clkLock 5) = true ∧ clusterOn (wr (clkLock 5) 0 (on 5)) 3 = true) ∧ flag (on 6) (clkLock 6) = true ∧
    (flag (on 9) (clkLock 9) = true ∧ domOn (wr (clkLock 9) 0 (on 9)) 4 = true) ∧
    (flag (off 6 7) (clkLock 7) = true ∧ domOn (wr (clkLock 7) 0 (off 6 7)) 6 = false ∧ domOn (off 6 7) 1 = true) ∧
    (flag (off 5 8) (clkLock 8) = true ∧ domOn (wr (clkLock 8) 0 (off 5 8)) 5 = false ∧ domOn (off 5 8) 1 = true) ∧
    (tblFind 5 tried.pwr.pllLost = some 0 ∧ 0 + 1000000 ≤ now tried ∧ domOn tried 1 = true) ∧
    ((th 0).onyx.thermal = 0 ∧ (th 1).onyx.thermal = 1 ∧ (th 2).onyx.thermal = 2 ∧ domOn (th 2) 1 = true) ∧
    (let s := [7, 8, 9, 10, 11].foldl (fun s d => wr (domStat d) 0 s) (th 2); domOn s 1 = true ∧ s.agt.runs = [] ∧ rd s (domStat 7) ≠ 2 ∧ rd s (domStat 8) ≠ 2 ∧
      rd s (domStat 9) ≠ 2 ∧ rd s (domStat 10) ≠ 2 ∧ rd s (domStat 11) ≠ 2) ∧
    (let s : State := { up with time := { up.time with usec := 60000000 } }; onyxUp s = true ∧ s.pvl.since + 60000000 ≤ now s) ∧
    (let s := port7 1 up; domOn s 4 = true ∧ ethSt s 7 ≠ 0 ∧ ethSt s 7 ≠ 5) := by decide

/-! ### Ethernet events -/

def ef : EthFrame :=
  { fcsOk := true, length := 64, srcMac := 1, dst := .own, tags := [], etherType := 0x88F7, ip := none, sport := 0, dport := 0, udpSum := .good, rtp := none,
    srtp := none, prpSeq := none, payload := [] }
theorem test_hyps_EthReception :
    let s : State := wr (ethPauseRx 7) 1 (wr (ethMaxframe 7) 1518 (port7 1 up))
    let pr : State := wr (prpA 3) 7 (wr (prpB 3) 6 (wr (prpEn 3) 1 s))
    let again : State := (prpRx 6 1 5 pr).getD pr
    let later (t : Nat) (s : State) : State := { s with time := { s.time with usec := BitVec.ofNat 64 t } }
    linkOn s 7 = true ∧ tagsOrdered 0 (parsed s 7 ef.tags) = true ∧ flag (port7 1 up) (ethPauseRx 7) = false ∧ linkOn (port7 1 up) 7 = true ∧ 64 ≤ ef.length ∧ ef.length ≤ rd s (ethMaxframe 7) ∧ rd s (ethMaxframe 7) < 1519 ∧
    tagsOrdered 0 (parsed s 7 [.cTag 2, .sTag 1]) = false ∧ (prpRx 7 1 5 pr).isSome = true ∧ (pairOf pr 7).isSome = true ∧ prpRx 7 1 5 again = none ∧ (pairOf again 7).isSome = true ∧
    linkOn again 7 = true ∧ flag s (ethPauseRx 7) = true ∧ (ethP s 7).holdoff = none ∧
    (let t : State := later 100 (setEth 7 { ethP s 7 with pauseUntil := some 100, holdoff := some 100 } s);
      (ethP t 7).pauseUntil = some 100 ∧ (ethP t 7).holdoff = some 100 ∧ 100 ≤ now t) ∧
    (let t : State := later 5000 (wr (ethPauseWd 7) 5 (wr (ethPaused 7) 1 (setEth 7 { ethP s 7 with wdSince := some 0 } s)));
      flag t (ethPaused 7) = true ∧ (ethP t 7).wdSince = some 0 ∧ 0 + rd t (ethPauseWd 7) * 1000 ≤ now t) ∧
    (let t : State := later 100 (setEth 7 { ethP s 7 with xoff := some 100 } (wr (ethXon 7) 0 (wr (ethPauseTx 7) 1 s)));
      (ethP (pauseTxUpd 7 t) 7).xoff = some 100 ∧ 100 ≤ now t) := by decide

theorem test_hyps_EthLink :
    let dn (st : Nat) : State := wr (ethLink 7) 0 (port7 st up)
    let later (t : Nat) (s : State) : State := { s with time := { s.time with usec := BitVec.ofNat 64 t } }
    let pre (s : State) : Bool := domOn s 4 && flag s (ethEn 7) && !flag s (ethForceDown 7) && !flag s (ethLink 7)
    let upOf (s : State) : State := notify 3 (7 + 0x1000000) 0 (wr (ethSpeed 7) 0 (wr (ethLink 7) 1 s))
    let vq : QItem := { qi with voice := some 5 }
    let qa : QItem := { qi with inPort := some 6, item := { qi.item with wh := { qi.item.wh with assured := true } } }
    up.onyx.degraded.contains (0x31, 9) = false ∧ (pre (dn 2) = true ∧ ethSt (upOf (dn 2)) 7 = 2) ∧ (pre (dn 0) = true ∧ ethSt (upOf (dn 0)) 7 = 0) ∧ (pre (dn 5) = true ∧ ethSt (upOf (dn 5)) 7 = 5) ∧
    (pre (dn 3) = true ∧ ethSt (upOf (dn 3)) 7 = 3) ∧ flag (port7 1 up) (ethLink 7) = true ∧
    (let s := later 9 (setEth 7 { ethP up 7 with holdUntil := some 9 } (port7 2 up)); ethSt s 7 = 2 ∧ (ethP s 7).holdUntil = some 9 ∧ 9 ≤ now s ∧ onyxUp s = true) ∧
    (let s : State := { port7 2 up with onyx := { up.onyx with phase := .rom } }; ethSt s 7 = 2 ∧ onyxUp s = false) ∧
    (let s := later 9 (setEth 7 { ethP up 7 with settleUntil := some 9 } (port7 4 up)); ethSt s 7 = 4 ∧ (ethP s 7).settleUntil = some 9 ∧ 9 ≤ now s ∧ onyxUp s = true) ∧
    (let s := wr (ethAge 7) 1 (setEth 7 { ethP up 7 with q := [(0, [vq])] } (port7 1 up)); vq.voice.isSome = true ∧ now s < vq.at' + rd s (ethAge 7) * 1000 ∧ flag s (ethPauseTx 7) = false) ∧
    (let s := port7 1 (setEth 7 { ethP up 7 with held := [(1, [qi])], q := [(0, [vq])] } up);
      let t := port7 1 (setEth 7 { ethP up 7 with q := [(0, [vq])] } up);
      domOn s 4 = true ∧ s.pwr.safe = false ∧ ethSt s 7 = 1 ∧ (ethP s 7).sending = none ∧ flag s (ethPaused 7) = false ∧ firstClass (ethP s 7).held = some (1, qi) ∧
      firstClass (ethP t 7).held = none ∧ firstClass (ethP t 7).q = some (0, vq) ∧ ethSt t 7 = 1 ∧ flag t (ethPaused 7) = false) ∧
    flag (wr (ethPaused 7) 1 up) (ethPaused 7) = true ∧
    (let s (q : QItem) : State := setEth 7 { ethP up 7 with sending := some (1, q) } (port7 1 up);
      (ethP (s qi) 7).sending = some (1, qi) ∧ flag (s qi) (ethPaused 7) = false ∧ qi.inPort = none ∧ qi.flow = none ∧
      (ethP (s { qi with flow := some 8191 }) 7).sending = some (1, { qi with flow := some 8191 }) ∧ qi.item.wh.assured = false ∧
      (ethP (s { qa with flow := some 8191 }) 7).sending = some (1, { qa with flow := some 8191 }) ∧ qa.item.wh.assured = true ∧ qa.inPort = some 6) := by decide

def msg0 : AMsg := { seq := 0, lref := 0, prio := 1, payload := [1], sent := true, sentAt := 0 }
/-- Flow 8191 between powerline-like link channel 9 and port 7, in this state. -/
def netFlow (flags : Nat) : Flow := { fl flags with kind := 2, linkchan := 9, egress := 7, prio := 1 }
def key0 : SrtpKey := { suite := 1, kdr := 0, roc := 0, key := [], salt := [], count := 0, top := none, seen := [], ctl := 2147483646 }
theorem test_hyps_FlowEvents :
    let s (f : Flow) : State := withFlow f up
    let full (f : Flow) : State := { s f with ledger := { up.ledger with recKib := 1000000000 } }
    let as : Flow := netFlow 8
    let sst (s : State) : State := port7 1 (wr (ethSst 7) 1 s)
    let tag (seq : BitVec 16) : Sst := { ver := 1, prio := 1, assured := true, rsvd1 := 0, chan := 9, seq := seq, settle := false, err := false, last := true, rsvd2 := 0 }
    let later (t : Nat) (s : State) : State := { s with time := { s.time with usec := BitVec.ofNat 64 t } }
    let ou (m : Nat) : Flow := { as with out := [msg0], misses := m }
    (flow? (s as) 8191 = some as ∧ onyxUp (s as) = true ∧ (s as).pwr.hib = .awake ∧ fAssured as = true ∧ (0xFFFF#16 ≠ as.nextSeq) ∧ later16 0xFFFF as.nextSeq = false) ∧
    (admitted 1 1 (full as) = false ∧ flow? (full as) 8191 = some as) ∧
    (admitted 1 1 (s as) = true ∧ (ledgerAccept 3 0xFF (0x47 + 8191 * 0x100) 1 8191 (crc32c [1]) false false (s as)).1.isSome = true) ∧
    (linkOn (sst (s as)) 7 = true ∧ flag (sst (s as)) (ethSst 7) = true ∧ tagSst [.sst (tag 3)] = some (tag 3) ∧ (tag 3).ver = 1 ∧ (tag 3).rsvd1 = 0 ∧ (tag 3).rsvd2 = 0 ∧
      tblFirst (fun _ f => ackFor (sst (s as)) 7 (tagVid [.sst (tag 3)]) 9 f) (sst (s as)).net.flows = some (8191, as)) ∧
    ((s as).ledger.tail = none ∧ later16 1 as.nextSeq = true ∧ as.later + 1 < 64 ∧ as.nextSeq = 0) ∧
    (let t := later 40000 (wr netAretry 40 (sst (s (ou 2))));
      (ou 2).out.filter (·.sent) ≠ [] ∧ (ou 2).fallen = none ∧ (ou 2).noPath = false ∧ egressPorts t 7 = [7] ∧ ethSt t 7 = 1 ∧
      0 + rd t netAretry * 1000 ≤ now t ∧ flow? t 8191 = some (ou 2) ∧ (ou 2).misses + 1 < 4 ∧ 4 ≤ (ou 3).misses + 1 ∧ up.plc.fall = []) ∧
    (fRtp (fl 4) = true ∧ fSrtp (fl 4) = false ∧ fSrtp (fl 6) = true ∧ fRtp (fl 6) = true ∧ { fl 6 with rx := some key0 }.rx = some key0 ∧ key0.ctl + 1 < 2147483648 ∧
      2147483648 ≤ { key0 with ctl := 2147483647 }.ctl + 1 ∧ { fl 6 with stopped := true }.stopped = true ∧ linkOn (port7 1 (s (fl 6))) 7 = true) ∧
    (let f : Flow := { fl 4 with template := some [1], rtcpAt := 9 }; f.rtcpAt ≤ now (later 9 (s f)) ∧ f.stopped = false) ∧
    (let f : Flow := { fl 6 with rxOld := some (key0, 9) }; f.rxOld = some (key0, 9) ∧ 9 ≤ now (later 9 (s f)) ∧ now (later 8 (s f)) < 9) ∧
    (let t : State := wr (prpEn 3) 1 (s as); flag t (prpEn 3) = true ∧ (tblGet t.net.pairs 3 pairInit).supAt ≤ now t) := by decide

/-! ### The powerline: reception and superframes -/

/-- PLC port 3 with STATE `st`, node address 9 and network 0. -/
def pn (st : Nat) (f : PlcPort → PlcPort) (s : State) : State := setPlc 3 (f plcInit) (wr (plcNode 3) 9 (wr (plcNetid 3) 0 (plc3 st s)))
def lh0 : LinkHdr :=
  { netid := 0, txa := 5, rxa := 9, orig := 5, ttl := 3, final := 9, prio := 1, assured := false, lchan := 9, last := true, err := false, settle := false, seq := 0 }
def pf (k : SlotKind) : PlcFrame := { hdr := lh0, bad := false, slot := k, owner := 5, enclosed := false }
def rtbAt (n : Nat) (s : State) : State := { s with time := { s.time with rtb := BitVec.ofNat 96 (n * 4294967296) } }

theorem test_hyps_PlcReception :
    let s (f : PlcPort → PlcPort) : State := pn 3 f up
    let srch : State := s (fun v => { v with pga := 1, rejected := [1000] })
    let cand : State := s (fun v => { v with rx := .cand 1 2 })
    let fr : State := s (fun v => { v with rx := .frame 64 9 2 3 })
    (plcOn srch 3 = true ∧ (plcP srch 3).rx = .search ∧ (plcP srch 3).sending = none ∧ 0 < (plcP srch 3).pga ∧ (plcP srch 3).pga < 7 ∧ rd srch (plcDetthr 3) ≤ (255#8).toNat) ∧
    ((plcP srch 3).rejected = [1000] ∧ 1000 + 128 < 1129 ∧ 1000 ≤ 1128 + 128 ∧ 1128 ≤ 1000 + 128) ∧
    (plcOn cand 3 = true ∧ (plcP cand 3).rx = .cand 1 2 ∧ hdrValid cand 3 (1 + 15 * 524288) = true ∧ hdrValid cand 3 (1 + 14 * 524288) = false) ∧
    (plcOn fr 3 = true ∧ (plcP fr 3).rx = .frame 64 9 2 3) ∧
    ((plcP srch 3).searched ≤ 1129 ∧ sampleNow srch ≤ 1128 + 131072 ∧ (plcP srch 3).deafTo ≤ (5#64).toNat ∧ (s (fun v => { v with deafTo := 9 }) |> fun t => (5#64).toNat < (plcP t 3).deafTo) ∧
      (s (fun v => { v with searched := 9 }) |> fun t => 8 < (plcP t 3).searched)) ∧
    ((plcP (s (fun v => { v with rx := .frame 64 9 5 3 })) 3).rx = .frame 64 9 5 3 ∧ leAt ([1] : List Byte) 0 1 = 1 ∧ 12 < leAt ([13] : List Byte) 0 1) := by decide

def unit5 : Machine.PUnit :=
  { ft := 5, flow := none, voice := none, at' := 0, final := some 9, prio := 4, assured := false, lchan := 0, seq := 0, segidx := 0, last := true, body := [9], tries := 0,
    wait := 0 }
def mapOf (len : Nat) : SMap := { vmode := 0, enrmax := 0, entries := [{ start := 0, len := len, kind := 5, mode := 0, tmi := 0, owner := 9 }] }
/-- Ready to send its management unit in a slot of `len` symbols, under lease 5. -/
def mayTx (len : Nat) (ep : BitVec 24) : State :=
  { pn 3 (fun v => { v with txq := [unit5], map := some (mapOf len), tsf := some 0, lease := some 5 }) up with
    leases := [(5, { leaseReset with owner := 0x53, state := 1, epoch := ep })] }
theorem test_hyps_PlcFrameTx :
    let ok (s : State) (len : Nat) : Prop := plcOn s 3 = true ∧ s.pwr.safe = false ∧ (plcP s 3).tsf = some 0 ∧ (plcP s 3).sending = none ∧ (plcP s 3).map = some (mapOf len) ∧
      (mapOf len).entries[0]? = some { start := 0, len := len, kind := 5, mode := 0, tmi := 0, owner := 9 } ∧ (plcP s 3).lease = some 5 ∧ rd s (plcState 3) = 3 ∧
      mayUse s 3 5 (some { start := 0, len := len, kind := 5, mode := 0, tmi := 0, owner := 9 }) 0 0 = true ∧
      0 ≤ (rtbNs s).toNat + 20000 + rd s (plcTxdly 3) ∧ (rtbNs s).toNat < 0 + len * 750000
    let free : State := { mayTx 2000 7 with leases := [(5, { leaseReset with owner := 0x53, state := 0 })] }
    ok (mayTx 2000 7) 2000 ∧ ok (mayTx 1 7) 1 ∧ ok free 2000 ∧ gateOk (mayTx 2000 7) 5 0x53 (lease (mayTx 2000 7) 5).epoch = true ∧
    gateOk free 5 0x53 (lease free 5).epoch = false := by decide
theorem test_hyps_PlcFrameTx2 :
    let s := mayTx 2000 7
    let e : MapEntry := { start := 0, len := 2000, kind := 5, mode := 0, tmi := 0, owner := 9 }
    let h := unitHdr s 3 [unit5] lh0
    let p := linkPayload h [9]
    let codes := (mapCodes s 3 0).getD []
    let len := frameLen 0 (bandN s 3) (sumOf id codes) p.length
    (mapCodes s 3 0).isSome = true ∧ frameUnits s 3 5 lh0 [9] 0 0 (contPlace (plcP s 3) 0) = some ([unit5], [9]) ∧ 16 ≤ p.length ∧ p.length ≤ 2048 ∧
    modeOk s 3 (some e) h.rxa.toNat 0 0 = true ∧ placeOk s 3 (some e) len (regionNeed s 3 5 0 (sumOf id codes) len [9]) = true ∧
    placeOk s 3 (some { e with len := 1 }) len (regionNeed s 3 5 0 (sumOf id codes) len [9]) = false := by decide

theorem test_hyps_PlcSuperframe :
    let sent (ft : Nat) : PlcPort → PlcPort :=
      fun v => { v with sending := some { ft := ft, entry := 0, units := [], rxa := 5, len := 9, hdr := lh0, cont := false, level := 12, pre := [], ref := [], hdrSyms := [], paySyms := [] } }
    let co5 (f : PlcPort → PlcPort) : State := rtbAt 1000000000 (setZc 3 { zcInit with last := 1 } (pn 5 f up))
    let nx := co5 (fun v => { v with next := some (1, 1, mapOf 9) })
    let b : Beacon := { txrtb := 0, sfno := 0, sfcfg := 0, smgen := 0, hops := 255, cost := 255, flags := 0, emown := 0, empeer := 0, enr := 0, erelay := [] }
    let near (s : State) (tx : Nat) (b : Beacon) : State :=
      let u := hear 3 tx s
      let w := plcP u 3
      setPlc 3 { w with nbrs := tblSet tx { tblGet w.nbrs tx nbrInit with bcost := some b.cost.toNat, bfrom := sfno u 3, hops := b.hops.toNat } w.nbrs } u
    let far : State := pn 1 (fun v => { v with nbrs := [(4, { nbrInit with bcost := some 0 })] }) up
    (plcP (pn 3 (fun v => { v with calibrating := true }) up) 3).calibrating = true ∧ flag (pn 3 id up) (plcEn 3) = true ∧
    (plcOn (co5 id) 3 = true ∧ rd (co5 id) (plcState 3) ≠ 0 ∧ (sfStart (co5 id) 3).isSome = true ∧ (plcP (co5 id) 3).next = none) ∧
    ((sfStart nx 3).isSome = true ∧ (plcP nx 3).next = some (1, 1, mapOf 9) ∧ plcCoord nx 3 = true ∧ 1 ≤ (sfno nx 3 + 1) % 4294967296) ∧
    (plcOn (pn 5 id up) 3 = true ∧ sfStart (pn 5 id up) 3 = none) ∧
    (((plcP (pn 3 (sent 1) up) 3).sending.map (·.ft)) = some 1 ∧ ((plcP (pn 3 (sent 2) up) 3).sending.map (·.ft)) = some 2) ∧
    (plcOn (pn 1 id up) 3 = true ∧ rd (pn 1 id up) (plcState 3) = 1 ∧ lh0.netid.toNat = plcMyNet (pn 1 id up) 3 ∧ plcCoord (near (pn 1 id up) 5 b) 3 = false ∧
      pickParent (plcP (near (pn 1 id up) 5 b) 3) = some 5) ∧
    (plcOn far 3 = true ∧ plcCoord (near far 4095 b) 3 = false ∧ pickParent (plcP (near far 4095 b) 3) = some 4) ∧
    { lh0 with netid := 7 }.netid.toNat ≠ plcMyNet (pn 1 id up) 3 := by decide

/-! ### The powerline: data, management and timers -/

set_option maxRecDepth 10000 in
theorem test_hyps_PlcData :
    let s (st : Nat) (f : PlcPort → PlcPort) (fw : Flow) : State := wr (plcPolled 3) 1 (pn st f (withFlow fw vr))
    let vf : Flow := { netFlow 0 with chan := 8191 }
    let af : Flow := netFlow 8
    let inn (ft : Nat) (k : SlotKind) (s : State) : Option Bool := (linkIn 3 ft (pf k) s).1
    let t (ft : Nat) (k : SlotKind) (s : State) : State := (linkIn 3 ft (pf k) s).2
    let away : PlcFrame := { pf .contention with hdr := { lh0 with final := 8 } }
    let em (v : PlcPort) : PlcPort := { v with empeer := 5 }
    (inn 2 .voice (s 3 id vf) = some true ∧ flowOfLink (t 2 .voice (s 3 id vf)) 9 false = some (8191, vf) ∧ chanCore (t 2 .voice (s 3 id vf)) 8191 = some 0x10 ∧
      1 ≤ plcNb (t 2 .voice (s 3 id vf)) 3 ∧ plcNb (t 2 .voice (s 3 id vf)) 3 < 400) ∧
    (inn 1 .emergency (s 3 em vf) = some true ∧ (5 ≠ (plcP (s 3 em vf) 3).emown) ∧ plcMe (t 1 .emergency (s 3 em vf)) 3 ∉ (plcP (t 1 .emergency (s 3 em vf)) 3).erelay ∧
      flowOfLink (t 1 .emergency (s 3 em vf)) 9 false = some (8191, vf) ∧ chanCore (t 1 .emergency (s 3 em vf)) 8191 = some 0x10) ∧
    (inn 3 .assured (s 3 id af) = some true ∧ onyxUp (t 3 .assured (s 3 id af)) = true ∧ flowOfLink (t 3 .assured (s 3 id af)) 9 true = some (8191, af) ∧
      (t 3 .assured (s 3 id af)).pwr.hib = .awake ∧
      (assuredIn 8191 0x53 { seq := 0, stamp := 0, settle := false, err := false, last := true } [1] 2 3 0x020B (modPlc 3 (fun v => { v with segs := tblDel 8191 v.segs }) (t 3 .assured (s 3 id af)))).1 = some 0) ∧
    (inn 4 .contention (s 3 id af) = some true ∧ flowOfLink (t 4 .contention (s 3 id af)) 9 true = some (8191, af) ∧
      af.out.find? (fun m => !m.sent && !af.noPath) = none ∧ later16 0xFFFF af.txSeq = false ∧ later16 1 af.txSeq = true) ∧
    (inn 6 .contention (s 3 id af) = some true ∧ (tblFirst (fun _ f => f.kind == 2 && f.linkchan == 9) (t 6 .contention (s 3 id af)).net.flows) = some (8191, af) ∧
      tblFirst (fun _ f => f.kind == 2 && f.linkchan == 9) (t 6 .contention (s 3 id (fl 0))).net.flows = none) ∧
    ((linkIn 3 6 away (s 3 id af)).1 = some false) ∧
    (inn 7 .polling (s 3 id af) = some true ∧ lh0.final.toNat = plcMe (t 7 .polling (s 3 id af)) 3 ∧ toEnclose (t 7 .polling (s 3 id af)) 3 5 4000 = none) ∧
    (let q (v : PlcPort) : PlcPort := { v with txq := [{ unit5 with final := some 5 }] };
      inn 7 .polling (s 3 q af) = some true ∧ (toEnclose (t 7 .polling (s 3 q af)) 3 5 4000).isSome = true) ∧
    ((linkIn 3 7 { pf .polling with hdr := { lh0 with final := 8 } } (s 3 id af)).1 = some false) ∧ (t 3 .assured (s 3 id af)).ledger.tail = none := by decide

def node0 : PNode := { uid := 7, reportAt := 0, missed := 0, nbrs := [], polledAt := 0, misses := 0, chain := [], excluded := [], poll := none }
theorem test_hyps_PlcPolls :
    let s (f : PlcPort → PlcPort) : State := wr (plcPollmiss 3) 2 (wr (plcPollper 3) 1 (wr (plcSfno 3) 1 (wr (plcPolled 3) 1 (pn 5 f up))))
    let out : State := s (fun v => { v with nodes := [(5, { node0 with poll := some 1 })] })
    let idle : State := s (fun v => { v with nodes := [(5, node0)], fixed := [(5, [5])] })
    let t := (linkIn 3 8 (pf .polling) out).2
    ((linkIn 3 8 (pf .polling) out).1 = some true ∧ plcCoord t 3 = true ∧ tblFind 5 (plcP t 3).nodes = some { node0 with poll := some 1 }) ∧
    (plcOn idle 3 = true ∧ plcCoord idle 3 = true ∧ flag idle (plcPolled 3) = true ∧ onyxUp idle = true ∧ tblFind 5 (plcP idle 3).nodes = some node0 ∧
      0 + (if slaveVoice idle 3 5 then 1 else rd idle (plcPollper 3)) ≤ sfno idle 3 ∧ bestChain idle 3 5 [] = some [5]) ∧
    (plcOn out 3 = true ∧ tblFind 5 (plcP out 3).nodes = some { node0 with poll := some 1 } ∧ 0 + 1 < rd out (plcPollmiss 3)) := by decide

set_option maxRecDepth 10000 in
theorem test_hyps_PlcJoinReq :
    let t (st : Nat) (f : PlcPort → PlcPort) : State := (linkInOf true 3 5 (pf .management) (pn st f up)).2
    let i (st : Nat) (f : PlcPort → PlcPort) : Option Bool := (linkInOf true 3 5 (pf .management) (pn st f up)).1
    let r := fun (v : PlcPort) => { v with resignLeft := some 1 }
    let full := fun (v : PlcPort) => { v with nodes := (fromN 10 256).map (fun k => (k, node0)) }
    let taken := fun (v : PlcPort) => { v with nodes := [(6, node0)] }
    (i 5 r = some true ∧ onyxUp (t 5 r) = true ∧ plcCoord (t 5 r) 3 = true ∧ (plcP (t 5 r) 3).resignLeft.isSome = true) ∧
    (i 5 full = some true ∧ (plcP (t 5 full) 3).resignLeft = none ∧ (tblFirst (fun _ p => p.uid == 8) (plcP (t 5 full) 3).nodes).isNone = true ∧
      256 ≤ (plcP (t 5 full) 3).nodes.length) ∧
    (i 5 taken = some true ∧ (plcP (t 5 taken) 3).resignLeft = none ∧ (tblFirst (fun _ p => p.uid == 8) (plcP (t 5 taken) 3).nodes).isNone = true ∧
      (plcP (t 5 taken) 3).nodes.length < 256 ∧ joinAddr (plcP (t 5 taken) 3) (plcMe (t 5 taken) 3) 8 6 = none ∧
      joinAddr (plcP (t 5 taken) 3) (plcMe (t 5 taken) 3) 8 7 = some 7) ∧
    (i 3 id = some true ∧ plcCoord (t 3 id) 3 = false ∧ rd (t 3 id) (plcState 3) = 3) := by decide

set_option maxRecDepth 10000 in
theorem test_hyps_PlcManagement :
    let t (st : Nat) (f : PlcPort → PlcPort) : State := (linkInOf false 3 5 (pf .management) (pn st f up)).2
    let i (st : Nat) (f : PlcPort → PlcPort) : Option Bool := (linkInOf false 3 5 (pf .management) (pn st f up)).1
    let asked := fun (v : PlcPort) => { v with join := .asked 2 }
    let held := fun (v : PlcPort) => { v with nodes := [(5, node0)], emown := 5 }
    let none5 := fun (v : PlcPort) => { v with nodes := [(5, node0)] }
    let tone : List Byte := [15, 0, 0, 0] ++ List.replicate 5 0 ++ List.replicate 4 0x55 ++ List.replicate 73 0
    (i 2 asked = some true ∧ onyxUp (t 2 asked) = true ∧ (plcP (t 2 asked) 3).join = .asked 2 ∧ (BitVec.ofNat 64 (myUid (t 2 asked))).toNat = myUid (t 2 asked)) ∧
    (i 5 held = some true ∧ plcCoord (t 5 held) 3 = true ∧ (plcP (t 5 held) 3).emown = lh0.orig.toNat) ∧
    (i 5 none5 = some true ∧ tblFind 5 (plcP (t 5 none5) 3).nodes = some node0 ∧ reportMoved node0.nbrs [] = false ∧ (plcP (t 5 none5) 3).emown ≠ lh0.orig.toNat) ∧
    (i 3 id = some true ∧ plcCoord (t 3 id) 3 = false ∧ joinParts [(1, 0, 2, map2)] 1 2 = none ∧ joinParts [(1, 0, 1, map2)] 1 1 = some map2 ∧ mapHdrBad map2 = none ∧
      map2.length = 8 + 8 * leAt map2 0 1 ∧ (plcP (t 3 id) 3).smgen ≠ 1 ∧ tone.length = 86 ∧ tone.take 1 = [15]) ∧
    (7 ≠ rd (t 5 held) (plcNetid 3) ∧ 0 = rd (t 5 held) (plcNetid 3)) := by decide
set_option maxRecDepth 20000 in
theorem test_hyps_PlcTonemap :
    toneValid ([15, 0, 0, 0] ++ List.replicate 5 0 ++ List.replicate 4 0x55 ++ List.replicate 73 0) (bandLo (pn 3 id up) 3) (bandHi (pn 3 id up) 3) = true := by decide

theorem test_hyps_PlcTimers :
    let s (st : Nat) (f : PlcPort → PlcPort) : State :=
      wr (plcNbrper 3) 16 (wr (plcBloss 3) 3 (wr (plcAretry 3) 2 (wr (plcAloss 3) 4 (wr (plcEmidle 3) 8 (wr (plcVage 3) 30 (wr (plcSfno 3) 64 (pn st f up)))))))
    let v (st : Nat) (f : PlcPort → PlcPort) : PlcPort := plcP (s st f) 3
    let lost := fun (v : PlcPort) => { v with silent := 3, sinceRep := 16 }
    let known := fun (v : PlcPort) => { v with nodes := [(5, node0), (6, { node0 with reportAt := 1 })], nbrs := [(5, nbrInit), (6, { nbrInit with heardAt := 1 })] }
    let out (m : Nat) : Flow := { netFlow 8 with out := [msg0], fallen := some 3, misses := m }
    (rd (s 3 lost) (plcState 3) = 3 ∧ rd (s 3 lost) (plcBloss 3) ≤ (v 3 lost).silent ∧ (v 3 id).silent < rd (s 3 id) (plcBloss 3) ∧
      (v 3 id).sinceRep < rd (s 3 id) (plcNbrper 3) ∧ rd (s 3 lost) (plcNbrper 3) ≤ (v 3 lost).sinceRep ∧ onyxUp (s 3 lost) = true) ∧
    ((v 1 (fun v => { v with join := .listen 0, parent := some 5, bflags := 1 })).bflags % 2 = 1 ∧ rd (s 1 id) (plcState 3) ≠ 4) ∧
    (plcCoord (s 5 known) 3 = true ∧ tblFind 5 (v 5 known).nodes = some node0 ∧ 0 + 4 * rd (s 5 known) (plcNbrper 3) ≤ sfno (s 5 known) 3 ∧
      sfno (s 5 known) 3 < 1 + 4 * rd (s 5 known) (plcNbrper 3)) ∧
    (plcCoord (s 3 known) 3 = false ∧ tblFind 5 (v 3 known).nbrs = some nbrInit ∧ 0 + 64 ≤ sfno (s 3 known) 3 ∧ sfno (s 3 known) 3 < 1 + 64) ∧
    (let t (m : Nat) : State := withFlow (out m) (s 3 id);
      flow? (t 3) 8191 = some (out 3) ∧ (out 3).out.any (·.sent) = true ∧ plcReady (t 3) 3 = true ∧ tblGet (plcP (t 3) 3).sentSf 8191 0 + rd (t 3) (plcAretry 3) ≤ sfno (t 3) 3 ∧
      rd (t 3) (plcAloss 3) ≤ (out 3).misses + 1 ∧ (out 2).misses + 1 < rd (t 2) (plcAloss 3)) ∧
    (let g (k : Nat) : PlcPort → PlcPort := fun v => { v with emown := 5, emIdle := k };
      plcCoord (s 5 (g 8)) 3 = true ∧ (v 5 (g 8)).emown ≠ 0 ∧ rd (s 5 (g 8)) (plcEmidle 3) ≤ (v 5 (g 8)).emIdle ∧ (v 5 (g 7)).emIdle < rd (s 5 (g 7)) (plcEmidle 3)) ∧
    (v 5 (fun v => { v with resignLeft := some 0 })).resignLeft = some 0 ∧
    (let r := fun (v : PlcPort) => { v with resigned := true, quiet := 3 };
      (v 6 r).resigned = true ∧ rd (s 6 r) (plcBloss 3) ≤ (v 6 r).quiet ∧ flag (s 6 r) (plcEn 3) = true) := by decide

/-! ### The worked cases of the manual, by their numbers -/

/-- The emergency frame of HR-17: its header in 32-bit groups, and its first and last byte in memory (chapter 2). -/
theorem test_worked_header :
    let w : WH := { wclass := 0, prio := 0, assured := false, dest := 0x48, src := 0x15, chan := 37, seq := 258, len := 160, lref := 0, rsvd := 0, settle := false,
                    err := false, last := true, stamp := 0x071E6C8A40 }
    whNat w = 0x0048150128081005000001071E6C8A40 ∧ (whBytes w).take 1 = [0x40] ∧ (whBytes w).drop 15 = [0x00] := by decide

/-- The S5 FAIL record of HR-09 (chapter 5). -/
theorem test_worked_boot_record :
    bootRecBytes { bootno := 1, step := 5, kind := kFail, attempt := 2, cause := 7, detail := 0x100, timeMs := 412 } =
      [0x01, 0, 0, 0, 0x05, 0x03, 0x02, 0x07, 0x00, 0x01, 0, 0, 0x9C, 0x01, 0, 0] := by decide

/-- The refused slot 61 of HR-05 (chapter 7). -/
theorem test_worked_conflict : (conflictDetail State.reset { cls := 1, idx := 61, holder := 0x51, obj := 1 }).take 8 = [0x01, 0, 0x3D, 0, 0x51, 0, 0x01, 0] := by decide

/-- CLK_ZC0_STAT locked with three rejections (chapter 7). -/
theorem test_worked_reg_read : regView (wr (zcState 0) 1 (wr (zcRej 0) 3 up)) (rk 8 0x84) = 0x00030001 := by decide

/-- The level kernel: the sum of 320 wraps with GOV set; stores with SSH −9 and 0 (chapter 9). -/
theorem test_worked_level :
    let one : Int := 2 ^ 47
    let a := accLane (160 * one + 160 * one)
    let l := accLane (40 * one + 40 * one)
    product true 0x800000 0x800000 = one ∧ (accLane (160 * one)).v = 0x50000000000000 ∧ (accLane (40 * one)).v = 0x14000000000000 ∧ a.v = 0xA0000000000000 ∧ l.v = 0x28000000000000 ∧
    (accLane (160 * one)).gov = false ∧ a.gov = true ∧ l.gov = false ∧ (storeHigh true (-9) a.v).v = 0xD00000 ∧ (storeHigh true (-9) a.v).sov = false ∧
    (storeHigh true (-9) l.v).v = 0x140000 ∧ (storeHigh true 0 a.v).v = 0x800000 ∧ (storeHigh true 0 a.v).sov = true := by decide

/-- The ring of five from 0x010203 by +2 and −1, and the same ring where it has no alignment (chapter 10). -/
theorem test_worked_modulo :
    stepPtr 0x010203 2 0x400005 0x010200 = some 0x010200 ∧ stepPtr 0x010200 2 0x400005 0x010200 = some 0x010202 ∧
    stepPtr 0x010204 2 0x400005 0x010200 = some 0x010201 ∧ stepPtr 0x010200 (-1) 0x400005 0x010200 = some 0x010204 ∧
    stepPtr 0x010207 2 0x400005 0x010203 = some 0x010204 := by decide

/-- The reorder of eight: offsets 0, 4, 2, 6, 1, 5, 3, 7 and back to 0 (chapter 10). -/
theorem test_worked_bit_reversed :
    [0x010400, 0x010404, 0x010402, 0x010406, 0x010401, 0x010405, 0x010403, 0x010407].map (fun p => stepPtr p 4 0x800003 0) =
      [some 0x010404, some 0x010402, some 0x010406, some 0x010401, some 0x010405, some 0x010403, some 0x010407, some 0x010400] := by decide

/-- List 2 of core 7: its header, element 4, and what SPN_STAT reads (chapter 10, part 2). -/
theorem test_worked_spinel :
    (spHeader 0x3C0000000000).map (fun x => (x.1, x.2.1)) = some (false, 16) ∧
    spElem 0x000240000400 0x0081A0000027 = some { rspace := 0, raddr := 0x0240000400, laddr := 0x0081A0, form := 0, len := 40 } ∧
    spnStat { listInit with endB := true, fault := true, done := 4, fidx := 4, cause := 5 } = 0x540406 ∧ spnStat { listInit with endB := true, done := 16 } = 0x1002 := by decide

/-- The costs behind Marrow Fen's 37 and 101 further channels (chapter 11). -/
theorem test_worked_capacity :
    1200 * codecCost 0x50 64 + 400 * codecCost 0x6C 0 + 1000 * codecCost 0x00 64 = 398000000 ∧ (24400000 - 64 * codecCost 0x50 64) / codecCost 0x50 64 = 37 ∧
    24400000 / codecCost 0x50 64 = 101 := by decide

/-- Forty bytes in Sturdy-4 on 233 carriers, in DQPSK, and the header word (chapter 13); message 88 in DQPSK (chapter 14). -/
theorem test_worked_powerline_frame :
    codewords 40 = 1 ∧ codedBits 40 = 908 ∧ paySymbols 1 233 233 40 = 16 ∧ frameLen 1 233 233 40 = 21 ∧ paySymbols 0 233 466 40 = 2 ∧ frameLen 0 233 466 40 = 7 ∧
    hdrWord 1 0 1 15 39 = 0x0139E205 ∧ codedBits 60 = 1228 ∧ frameLen 0 233 466 60 = 8 := by decide

/-- 8.4 dB, kept as 8.0, and six repeats of forty: a link cost of 7; N_MIN 77 and NB 4 at 16.7 Hz (chapter 14). -/
theorem test_worked_link :
    linkCost { nbrInit with margin := 16, sent := List.replicate 6 true ++ List.replicate 34 false } = 7 ∧ nMin (wr (zcMode 3) 2 up) 3 = 77 ∧
    plcNb (wr (zcMode 3) 2 up) 3 = 4 := by decide

/-- The cab microphone: 40 settling outputs, GDELAY and the costs around its fade (chapter 15). -/
theorem test_worked_opal :
    nSettle 128 4 5 = 40 ∧ gdelay 3072000 48 5 (firDelay2 0 0 128 none) = 1061686 ∧ filtCost 3072000 48 4 128 false false = 2048000 ∧
    filtCost 3072000 48 4 128 false true = 4096000 := by decide

set_option maxRecDepth 10000 in
/-- Row 1,679 of macro 0x1056 takes spare row 0 (chapter 17). -/
theorem test_worked_repair :
    allocMacro (fun _ => true) (macroRows 0x1056) (macroCols 0x1056) [(1679, 1), (1679, 2), (1679, 5)] [] = some [(1, 1679)] ∧
    (entryMake 0x1056 1 1679).toNat / 65536 = 0x1056468F0000 := by decide

/-! ### Opal, TDM, Topaz, Agate, the TAP and timeouts -/

theorem test_hyps_OpalTdmEvents :
    let lat (t : Nat) (s : State) : State := { s with time := { s.time with usec := BitVec.ofNat 64 t } }
    let o : State := wr (sscSrc 63) 0 (wr (sscD 63) 2 (wr (sscRcic 63) 4 (wr (sscEn 63) 1 up)))
    let l : State := wr (sscSdmLost 63) 1 o
    let h : State := lat 9 (setSlot 63 { slotInit with thr := [(3, { armed := true, hold := some 9 })] } up)
    let td (st fl : Nat) (v : TdmPort) : State := setTdm 15 v (wr (tdmFlags 15) fl (wr (tdmState 15) st (wr (tdmEn 15) 1 up)))
    (let u : State := wr (sscSrc 63) 28 o; domOn u 6 = true ∧ rd (applyPend 63 u) (sscSrc 63) = 28 ∧ (slot (applyPend 63 u) 63).loop.length < 8 ∧
      (let w : State := setSlot 63 { slot u 63 with loop := List.replicate 8 (1, 2) } u; 8 ≤ (slot (applyPend 63 w) 63).loop.length ∧
        ((slot (applyPend 63 w) 63).loop.take 8).getLast?.isSome = true)) ∧
    (domOn o 6 = true ∧ flag o (sscEn 63) = true ∧ flag o (sscSdmLost 63) = false ∧ rd (applyPend 63 o) (sscSrc 63) ≠ 28 ∧
      [1, 2, 3, 4, 5, 6, 7, (8 : Int)].length = rd (applyPend 63 o) (sscRcic 63) * rd (applyPend 63 o) (sscD 63)) ∧
    (let t := tblGet (slot h 63).thr 3 { armed := true, hold := none }; t.hold = some 9 ∧ 9 ≤ now h) ∧
    rd o (sscSrc 63) < 24 ∧ flag l (sscSdmLost 63) = true ∧
    (domOn (td 2 2 portInit) 6 = true ∧ flag (td 2 2 portInit) (tdmEn 15) = true ∧ rd (td 2 2 portInit) (tdmState 15) = 2 ∧ inBand (td 2 2 portInit) 15 = false ∧
      intFs (td 2 2 portInit) 15 = true ∧ rd (td 0 2 portInit) (tdmState 15) = 0) ∧
    (intFs (td 0 0 { portInit with prevFs := some 5 }) 15 = false ∧ (tdmPort (td 0 0 { portInit with prevFs := some 5 }) 15).prevFs = some (5#10).toNat ∧
      (tdmPort (td 0 0 { portInit with prevFs := some 5 }) 15).prevFs ≠ some (6#10).toNat) ∧
    (rd (td 2 0 { portInit with miss := 7 }) (tdmState 15) = 2 ∧ (tdmPort (td 2 0 { portInit with miss := 7 }) 15).miss = 7) ∧
    (intClk (td 2 2 portInit) 15 = false ∧ rd (td 3 0 portInit) (tdmState 15) = 3) ∧
    (let s := lat 9 (td 2 0 { portInit with settleAt := some 9 }); (tdmPort s 15).settleAt = some 9 ∧ 9 ≤ now s) := by decide

def tj : TpzJob :=
  { wh := jobWh 4 63 0 none up, ctx := 63, op := 1, wrap := 0, effort := 0, flags := 0, src := 0, srclen := 2, chain := 0, nchain := 1, inline := [], data := none,
    prio := 4, lsn := 1, cmd := (0, 0), forLog := false, lease := some (5, 7), eng := none, ents := none, saved := ctxIdle }
def tq (st : Nat) (js : List TpzJob) : State :=
  { up with tpz := { up.tpz with jobs := js }, leases := [(5, { leaseReset with owner := 0x60, state := st, epoch := 7 })] }
theorem test_hyps_Topaz :
    let run : TpzJob := { tj with eng := some 3, ents := some [(0, 64)] }
    let one : List Byte := le 8 0 ++ le 4 64 ++ le 4 0
    let own : TpzJob := { tj with inline := one }
    (domOn (tq 1 []) 7 = true ∧ up.pwr.safe = false ∧ jobOn (tq 1 []) 3 = none ∧ nextJob (tq 1 []) 3 = none) ∧
    (jobOn (tq 1 [tj]) 3 = none ∧ nextJob (tq 1 [tj]) 3 = some tj ∧ jobGate (tq 1 [tj]) tj = true ∧ jobGate (tq 0 [tj]) tj = false ∧ nextJob (tq 0 [tj]) 3 = some tj) ∧
    (nextJob (tq 1 [{ tj with ents := some [(0, 64)] }]) 3 = some { tj with ents := some [(0, 64)] } ∧ chainEnts 1 (padTo 16 one) = some [(0, 64)] ∧
      chainEnts 1 (padTo 16 []) = none) ∧
    (nextJob (tq 1 [own]) 3 = some own ∧ own.inline ≠ [] ∧ chainEnts 1 (padTo 16 own.inline) = some [(0, 64)]) ∧
    (jobOn (tq 1 [run]) 3 = some run ∧ jobGate (tq 1 [run]) run = true ∧ jobGate (tq 0 [run]) run = false ∧ jobData run (.data [3, 0]) = some [3, 0] ∧
      jobData run .error = none ∧ run.op ≠ 0 ∧ (tq 1 [run]).onyx.thermal < 2) ∧
    (jobOn (tq 1 [{ tj with ctx := 62, prio := 3 }, run]) 3 = some run ∧ { tj with ctx := 62, prio := 3 } ∈ (tq 1 [{ tj with ctx := 62, prio := 3 }, run]).tpz.jobs) := by decide

def rec63 : Recorder :=
  { chan := 8191, queue := 0, segMs := 1000, bufaddr := 0, buflen := 4096, nbuf := 2, start := 0, nframes := 0, bytes := 0, drops := 0, index := 0, body := [],
    spill := [[1]], closed := [], bufLast := [], stopping := false, last := 0 }
def seg0 : Seg := { num := 1, recorder := 63, queue := 0, lref := 0, addr := 0, len := 64, rtb := 0, data := [], written := false }
/-- A commit answers the lowest free entry. -/
theorem test_ledgerAccept_entry (kind idem origin kib object : Nat) (check : BitVec 32) (noack emerg : Bool) (s : State) :
    (ledgerAccept kind idem origin kib object check noack emerg s).1 = lowestFree s := by unfold ledgerAccept; split <;> simp [*]
theorem test_hyps_Segments :
    let s : State := { up with voice := { up.voice with recs := [(63, rec63)] } }
    let w : State := wr (cqEn 0) 1 { s with host := { s.host with segs := [seg0] } }
    let busy : State := { w with voice := { w.voice with recs := [(63, { rec63 with bufLast := [(0, 2)] })] } }
    (tblFind 63 s.voice.recs = some rec63 ∧ onyxUp s = true ∧ domOn s 7 = true ∧ segDue s rec63 = true ∧ rec63.closed.length < 4 ∧ admitted 1 1 s = true ∧
      s.pwr.safe = false ∧ s.onyx.thermal < 2 ∧ (retakeCtx s).voice.recCtx.isSome = true ∧ s.ledger.tail = none) ∧
    (lowestFree (tookFree (tookFree (retakeCtx s))) = some 0 ∧ s.host.segNum + 1 = 1) ∧
    (w.host.segs.find? (fun g => !g.written) = some seg0 ∧ onyxUp w = true ∧ ringOpen w 0 = true ∧ bufFree w seg0 = true) ∧
    (busy.host.segs.find? (fun g => !g.written) = some seg0 ∧ bufFree busy seg0 = false) ∧ ringOpen { w with regs := s.regs } 0 = false := by decide

def run0 : AgtRun :=
  { result := some 5, cmd := none, target := 0, index := 0x1C0, alg := 9, slice := 0, since := none, pauseEnd := none, notBefore := 8000, cells := [], logicFail := false,
    prev := 0 }
theorem test_hyps_Agate :
    let lat (t : Nat) (s : State) : State := { s with time := { s.time with usec := BitVec.ofNat 64 t } }
    let s (r : AgtRun) : State := lat 8000 { up with agt := { up.agt with runs := [r] } }
    let row (n c : Nat) (s : State) : State := wr agtCethr 3 { s with agt := { s.agt with rows := List.replicate n { mac := 0x1C0, row := 9, count := c, pending := false } } }
    (run0.since = none ∧ run0.pauseEnd = none ∧ run0.notBefore ≤ now (s run0) ∧ (s run0).onyx.thermal < 2 ∧ (s run0).pwr.safe = false ∧ (s run0).pwr.hib = .awake ∧
      run0.result = some 5 ∧ { run0 with result := none }.result = none ∧ onyxUp (s run0) = true ∧ now (lat 7999 (s run0)) < run0.notBefore) ∧
    (let r (alg k sl : Nat) : AgtRun := { run0 with alg := alg, phase := k, slice := sl, since := some 0 };
      (s (r 9 0 0)).agt.runs = [r 9 0 0] ∧ ((sliceOf (s (r 9 0 0)) (r 9 0 0)).fin = false ∧ (sliceOf (s (r 9 0 0)) (r 9 0 0)).pause = true ∧
        sliceEnds 0 (sliceOf (s (r 9 0 0)) (r 9 0 0)) ≤ now (s (r 9 0 0)) ∧ now (lat 1 (s (r 9 0 0))) < sliceEnds 0 (sliceOf (s (r 9 0 0)) (r 9 0 0))) ∧
      (sliceOf (s (r 2 0 100)) (r 2 0 100)).fin = false ∧ (sliceOf (s (r 2 0 100)) (r 2 0 100)).pause = false ∧ (sliceOf (s (r 2 0 0)) (r 2 0 0)).fin = true) ∧
    (s { run0 with pauseEnd := some 8000 }).agt.runs = [{ run0 with pauseEnd := some 8000 }] ∧
    (macroDomain 0x1C0 = some 7 ∧ domOn up 7 = true ∧ (up.agt.rows.find? (fun r => r.mac == 0x1C0 && r.row == 8)) = none ∧
      ((row 64 1 up).agt.rows.find? (fun r => r.mac == 0x1C0 && r.row == 8)) = none ∧ 64 ≤ (row 64 1 up).agt.rows.length ∧
      ((row 1 1 up).agt.rows.find? (fun r => r.mac == 0x1C0 && r.row == 9)) = some { mac := 0x1C0, row := 9, count := 1, pending := false } ∧
      1 + 1 < rd (row 1 1 up) agtCethr ∧ rd (row 1 2 up) agtCethr ≤ 2 + 1 ∧ 1 < rd (row 0 1 up) agtCethr) := by decide

theorem test_hyps_Timeout :
    let c : Cmd := { newCmd h0 (.nopCommand h0) specNop.info [.device] 0 with started := some 0, deadline := some 9 }
    let s (c : Cmd) (t : Nat) : State := { up with host := { up.host with cmds := [c] }, time := { up.time with usec := BitVec.ofNat 64 t } }
    cmdAt (s c 9) 0 0 = some c ∧ c.started.isSome = true ∧ c.fin = none ∧ c.deadline = some 9 ∧ 9 ≤ now (s c 9) ∧ c.idem ≠ .oo ∧ onyxUp (s c 9) = true ∧ now (s c 8) < 9 ∧
    { c with idem := .oo }.idem = .oo ∧ { c with idem := .oo, wait := .fuse }.wait = .fuse := by decide

/-! ### Decoding and well-formedness -/

/-- No row of the table gives bits, so no word spells a command. -/
theorem test_decode_none : decodeTableWord 16 0 = none ∧ decodeTableWord 64 0xFFFFFFFFFFFFFFFF = none := by decide

/-- `n` bytes of parameters. -/
def zs (n : Nat) : List Byte := List.replicate n 0
theorem test_wf_parameters :
    (Instr.imageSlotWrite h0 0 0 0 (zs 4070)).wf = true ∧ (Instr.imageSlotWrite h0 0 0 0 (zs 4071)).wf = false ∧
    (Instr.lifecycleToReturn h0 0 (zs 4076)).wf = false ∧ (Instr.fuseProg h0 0 (zs 4080)).wf = false ∧ (Instr.tonesetLoad h0 0 (zs 4080)).wf = false ∧
    (Instr.flowAdd h0 0 0 0 0 0 0 0 0 0 (zs 4068)).wf = false ∧ (Instr.flowTx h0 0 96 (zs 4078)).wf = false ∧ (Instr.srtpKey h0 0 0 0 0 0 16 14 (zs 4070)).wf = false ∧
    (Instr.assuredSend h0 0 0 (zs 4077)).wf = false ∧ (Instr.plcSlotmap h0 0 (zs 4080)).wf = false ∧
    (Instr.plcRoute h0 0 0 0 (List.replicate 2039 0)).wf = false ∧ (Instr.sscCoef h0 0 0 0 0 (List.replicate 1359 0)).wf = false ∧
    (Instr.tdmSlotmap h0 0 0 (List.replicate 1020 0)).wf = false ∧ (Instr.agtRepairFuse h0 0 (zs 4079)).wf = false ∧ (Instr.echo h0 (zs 4080)).wf = true ∧
    (Instr.echo h0 (zs 4081)).wf = false := by
  simp only [Instr.wf, parFits, zs, List.length_replicate]; decide
theorem test_wf_entries :
    (Instr.submissionFetch 0 (.data (zs 64)) (.data (zs 4080))).wf = true ∧ (Instr.submissionFetch 0 (.data (zs 63)) (.data [])).wf = false ∧
    (Instr.submissionFetch 0 (.data (zs 64)) (.data (zs 4081))).wf = false ∧ (Instr.submissionFetch 0 .error .error).wf = true ∧
    (Instr.plcPoll 0 (pf .polling) 0 (List.replicate 5 0) []).wf = false ∧ (Instr.plcPoll 0 (pf .polling) 0 (List.replicate 4 0) []).wf = true := by
  simp only [Instr.wf, Dma.wf, zs, List.length_replicate]; decide

end Sys2Proof.Tests
end

section
/-! PROOFS. Scope: every command, and every step, ends in a next state. -/

namespace Sys2Proof.Machine

/-- The meaning of each row of the table is written as a next state: whatever it tests, it tests to choose that state (R9, R174, log 27). -/
theorem exec_goes (i : Instr) (s : State) : Goes (exec i s) := by
  cases i <;> exact ⟨_, rfl⟩

theorem step_of_pending_nil {s : State} (h : s.pending = []) : step s = .next (idleTick s) := by
  simp only [step, h]

theorem step_of_pending_cons {s : State} {c : Instr} {rest : List Instr} (h : s.pending = c :: rest) :
    step s = exec c { s with pending := rest } := by
  simp only [step, h]

/-- A step runs the command at the front of the queue, or lets a microsecond pass; both end in a next state (log 11). -/
theorem step_goes (s : State) : Goes (step s) := by
  cases h : s.pending with
  | nil => exact ⟨idleTick s, step_of_pending_nil h⟩
  | cons c rest => exact step_of_pending_cons h ▸ exec_goes c { s with pending := rest }

/-- Settles O60, which says that `exec` and `step` are total: by the rows of the table, and by what stands at the front of the queue. -/
theorem everyCommandAnswersNext : Obligations.EveryCommandAnswersNext :=
  ⟨exec_goes, step_goes⟩

end Sys2Proof.Machine
end

section
/-! PROOFS. The sending port (R34): it writes SRC, and an item that waits there alone, with token and credit, takes its lane under that SRC. -/

namespace Sys2Proof.Machine

/-! ### What offering an item, and paying for it, leave alone -/

@[simp] theorem offer_wait (i : Item) (s : State) : (offer i s).fab.wait = s.fab.wait ++ [i] := rfl
@[simp] theorem offer_flight (i : Item) (s : State) : (offer i s).fab.flight = s.fab.flight := rfl
@[simp] theorem sendCause_offer (i : Item) (w : WH) (s : State) : sendCause (offer i s) w = sendCause s w := rfl
@[simp] theorem mayEnter_offer (i x : Item) (p : Nat) (s : State) : mayEnter (offer i s) p x = mayEnter s p x := rfl

@[simp] theorem takeTokens_flight (p : Nat) (i : Item) (s : State) : (takeTokens p i s).fab.flight = s.fab.flight := by
  simp only [takeTokens]
  split <;> rfl

theorem present_of_wait_nil {s : State} (i : Item) (h : s.fab.wait = []) : present i s = offer i s := by
  simp [present, h]

/-! ### An item that waits alone has its turn and its lane (R37, R39) -/

theorem firstWaiting_of_alone {s : State} {i : Item} (h : s.fab.wait = [i]) : firstWaiting s i = true := by
  simp [firstWaiting, h, sameWay]

theorem laneServed_of_alone {s : State} {i : Item} (h : s.fab.wait = [i]) : laneServed s i = true := by
  simp [laneServed, h]

/-! ### ITEM_ENTERS_FABRIC -/

/-- The item as port `port` sends it: the unit's header with the port's SRC (R34). -/
def sentItem (port : BitVec 8) (wh : WH) (payload : List Byte) : Item := { wh := { wh with src := port }, payload := payload }

/-- The item leaves port `p` for its lane: it waits no more, its tokens are taken, and it is under way (R38, R40). -/
def takeLane (p : Nat) (i : Item) (s : State) : State :=
  let paid := takeTokens p i { s with fab := { s.fab with wait := removeFirst i s.fab.wait } }
  { paid with fab := { paid.fab with flight := paid.fab.flight ++ [i] } }

@[simp] theorem takeLane_flight (p : Nat) (i : Item) (s : State) : (takeLane p i s).fab.flight = s.fab.flight ++ [i] := by
  simp [takeLane]

/-- The row reads the supplied header only after the port has written SRC over it. -/
theorem exec_itemEntersFabric_supplied_src (port x : BitVec 8) (wh : WH) (payload : List Byte) (s : State) :
    exec (.itemEntersFabric port { wh with src := x } payload) s = exec (.itemEntersFabric port wh payload) s := rfl

/-- An item whose turn it is, that passes its port's check and has token and credit, takes its lane. -/
theorem exec_itemEntersFabric_takeLane {port : BitVec 8} {wh : WH} {payload : List Byte} {s w : State} {i : Item} {d : Nat}
    (hi : sentItem port wh payload = i) (hw : present i s = w) (hd : unitDomain port.toNat = some d) (hon : domOn s d = true)
    (hfirst : firstWaiting w i = true) (hlane : laneServed w i = true) (hcause : sendCause w i.wh = none)
    (henter : mayEnter w port.toNat i = true) : exec (.itemEntersFabric port wh payload) s = .next (takeLane port.toNat i w) := by
  subst hi hw
  change execItemEntersFabric port wh payload s = _
  simp only [sentItem] at hfirst hlane hcause henter
  simp [execItemEntersFabric, hd, hon, hfirst, hlane, hcause, henter, takeLane, sentItem]

/-- The cores are units 0x10 to 0x3F, twelve to each of the domains from 8 (Tables 1.5 and 4.1). -/
theorem unitDomain_core {u : Nat} (hlo : 0x10 ≤ u) (hhi : u ≤ 0x3F) : unitDomain u = some (8 + (u - 0x10) / 12) := by
  have h0 : u ≠ 0x00 ∧ u ≠ 0x01 ∧ u ≠ 0x02 ∧ u ≠ 0x03 := by omega
  simp [unitDomain, h0, hlo, hhi]

/-- Settles O44: an item alone at its port has its turn and its lane, so it goes with the port's SRC. -/
theorem portWritesSource : Obligations.PortWritesSource := by
  intro port x wh payload s
  refine ⟨exec_itemEntersFabric_supplied_src port x wh payload s, ?_, ?_⟩
  · intro d hd hon hwait i hcause henter
    have halone : (offer i s).fab.wait = [i] := by simp [hwait]
    have hgoes : Obl.Runs (.itemEntersFabric port { wh with src := x } payload) s (takeLane port.toNat i (offer i s)) :=
      exec_itemEntersFabric_takeLane rfl (present_of_wait_nil i hwait) hd hon (firstWaiting_of_alone halone)
        (laneServed_of_alone halone) ((sendCause_offer i i.wh s).trans hcause) ((mayEnter_offer i i port.toNat s).trans henter)
    exact ⟨_, hgoes, by rw [takeLane_flight, offer_flight]⟩
  · intro n
    rw [unitDomain_core (by omega) (by omega), Nat.add_sub_cancel_left]

end Sys2Proof.Machine
end

section
/-! PROOFS. Doorbells and fetching (R144, R145): what a doorbell does in each of its cases, and the entry that a queue's turn fetches. -/

namespace Sys2Proof.Machine

/-! ### Counters (R557) -/

/-- A counter counts one event up to its greatest value. -/
theorem rd_bump_same {f : Fld} (s : State) (h : f.lo + f.w ≤ 32) : rd (bump f s) f = min (rd s f + 1) (2 ^ f.w - 1) := by
  have hpos := Nat.two_pow_pos f.w
  simp only [bump, bumpN, satAdd, rd_wr_same f _ s h]
  exact Nat.mod_eq_of_lt (by omega)

theorem rd_bump_other {f g : Fld} (s : State) (h : g.key ≠ f.key) : rd (bump f s) g = rd s g := rd_wr_other f g _ s h

/-! ### Interrupts, and a queue that stops (R155, Table 6.2) -/

@[simp] theorem signal_queues (v : Nat) (s : State) : (signal v s).host.queues = s.host.queues := by
  unfold signal
  split
  · rfl
  · split <;> rfl

@[simp] theorem signal_cmds (v : Nat) (s : State) : (signal v s).host.cmds = s.host.cmds := by
  unfold signal
  split
  · rfl
  · split <;> rfl

/-- Signalling a vector writes no register but the PBA. -/
theorem rd_signal {f : Fld} (v : Nat) (s : State) (h : f.key ≠ rk 10 0x3000) : rd (signal v s) f = rd s f := by
  unfold signal
  split
  · exact rd_wr_other (msixPba v) f 1 s h
  · split <;> rfl

@[simp] theorem irq_queues (f : Fld) (s : State) : (irq f s).host.queues = s.host.queues := by simp [irq]
@[simp] theorem irq_cmds (f : Fld) (s : State) : (irq f s).host.cmds = s.host.cmds := by simp [irq]

theorem rd_irq_same {f : Fld} (s : State) (h : f.lo + f.w ≤ 32) (hk : f.key ≠ rk 10 0x3000) : rd (irq f s) f = 1 % 2 ^ f.w := by
  rw [irq, rd_signal 0 _ hk, rd_wr_same f 1 s h]

theorem rd_irq_other {f g : Fld} (s : State) (hk : g.key ≠ rk 10 0x3000) (h : g.key ≠ f.key) : rd (irq f s) g = rd s g := by
  rw [irq, rd_signal 0 _ hk, rd_wr_other f g 1 s h]

/-- HB_QERR_n lies with the registers of the queues, apart from every register below 0x100 and from the PBA (Table 6.2). -/
theorem qErr_key (q : Nat) : (qErr q).key = rk 10 (0x12C + 0x40 * q) := by
  simp only [qErr, hbq, rk]
  omega

theorem qErr_key_ne {q : Nat} (hq : q < 4) {k : Nat} (hk : k < rk 10 0x100 ∨ rk 10 0x200 ≤ k) : (qErr q).key ≠ k := by
  rw [qErr_key]
  simp only [rk] at hk ⊢
  omega

@[simp] theorem stopQueue_queues (q c : Nat) (s : State) : (stopQueue q c s).host.queues = s.host.queues := by simp [stopQueue]
@[simp] theorem stopQueue_cmds (q c : Nat) (s : State) : (stopQueue q c s).host.cmds = s.host.cmds := by simp [stopQueue]

theorem rd_stopQueue_qErr {q : Nat} (c : Nat) (s : State) (hq : q < 4) : rd (stopQueue q c s) (qErr q) = c % 256 := by
  rw [stopQueue, rd_irq_other _ (qErr_key_ne hq (by decide)) (qErr_key_ne hq (by decide)), rd_wr_same _ _ _ (by decide : 0 + 8 ≤ 32)]
  rfl

theorem rd_stopQueue_irqQerr (q c : Nat) (s : State) : rd (stopQueue q c s) irqQerr = 1 := rd_irq_same _ (by decide) (by decide)

/-! ### The cases of a doorbell (R144) -/

theorem later16_iff (a b : BitVec 16) : later16 a b = true ↔ 1 ≤ (a - b).toNat ∧ (a - b).toNat ≤ 32767 := by simp [later16]

theorem doorbell_of_mspiOwned {q : Nat} {s : State} (v : BitVec 32) (h : mspiOwned s q = true) : doorbell q v s = bump badAcc s := by
  simp [doorbell, h]

section
variable {q : Nat} {v : BitVec 32} {s : State} (hown : mspiOwned s q = false)
include hown

theorem doorbell_of_stale (he : ¬Obl.epochOk s q v) : doorbell q v s = bump badAcc (irq irqDbstale s) := by
  unfold Obl.epochOk at he
  simp only [doorbell, hown, Bool.false_eq_true, if_false, ne_eq, if_pos he]

theorem doorbell_of_not_live (he : Obl.epochOk s q v) (hl : rd s hbRun ≠ 1 ∨ rd s (qErr q) ≠ 0) : doorbell q v s = s := by
  unfold Obl.epochOk at he
  simp only [doorbell, hown, Bool.false_eq_true, if_false, if_neg (not_not_intro he), if_pos hl]

/-- A live queue judges the tail: one that is earlier, or too far beyond CMP + 1, stops it; any other is taken. -/
theorem doorbell_of_live (he : Obl.epochOk s q v) (hl : rd s hbRun = 1 ∧ rd s (qErr q) = 0) :
    doorbell q v s =
      if later16 (queue s q).tail (v.extractLsb' 0 16) ∨ 256 < (v.extractLsb' 0 16 - (Obl.cmpOf s q + 1)).toNat then stopQueue q 3 s
      else setQueue q { queue s q with tail := v.extractLsb' 0 16 } s := by
  have hlive : ¬(rd s hbRun ≠ 1 ∨ rd s (qErr q) ≠ 0) := by simp [hl]
  unfold Obl.epochOk at he
  simp only [doorbell, hown, Bool.false_eq_true, if_false, if_neg (not_not_intro he), if_neg hlive]
  rfl

end

theorem exec_hbSqdb {s : State} (q : Fin 4) (v : BitVec 32) (hup : pcieUp s = true) :
    exec (.hbSqdb q v) s = .next (doorbell q.val v s) := by
  change execHbSqdb q v s = _
  simp [execHbSqdb, hup]

/-- An interface reaches none but its own queues: the doorbell of a queue that MSPI owns is counted, and changes no queue and no command. -/
theorem hbSqdb_of_mspiOwned {s : State} (q : Fin 4) (v : BitVec 32) (hup : pcieUp s = true) (hown : mspiOwned s q.val = true) :
    ∃ u, Obl.Runs (.hbSqdb q v) s u ∧ u.host.queues = s.host.queues ∧ u.host.cmds = s.host.cmds ∧
      ∀ n, n < 4 → rd u (qErr n) = rd s (qErr n) := by
  refine ⟨bump badAcc s, ?_, rfl, rfl, fun n hn => rd_bump_other s (qErr_key_ne hn (by decide))⟩
  rw [Obl.Runs, exec_hbSqdb q v hup, doorbell_of_mspiOwned v hown]

/-- A stale doorbell is flagged and counted. -/
theorem hbSqdb_of_stale {s : State} {q : Fin 4} {v : BitVec 32} (hup : pcieUp s = true) (hown : mspiOwned s q.val = false)
    (he : ¬Obl.epochOk s q.val v) :
    ∃ u, Obl.Runs (.hbSqdb q v) s u ∧ rd u irqDbstale = 1 ∧ rd u badAcc = min (rd s badAcc + 1) 65535 ∧
      u.host.queues = s.host.queues ∧ u.host.cmds = s.host.cmds := by
  refine ⟨bump badAcc (irq irqDbstale s), ?_, ?_, ?_, by simp, by simp⟩
  · rw [Obl.Runs, exec_hbSqdb q v hup, doorbell_of_stale hown he]
  · rw [rd_bump_other _ (by decide), rd_irq_same s (by decide) (by decide)]
    rfl
  · rw [rd_bump_same _ (by decide), rd_irq_other s (by decide) (by decide)]
    rfl

/-- A tail that is earlier, or too far, stops the queue with CAUSE 3. -/
theorem hbSqdb_of_bad_tail {s : State} {q : Fin 4} {v : BitVec 32} (hup : pcieUp s = true) (hown : mspiOwned s q.val = false)
    (he : Obl.epochOk s q.val v) (hl : rd s hbRun = 1 ∧ rd s (qErr q.val) = 0)
    (hbad : later16 (queue s q.val).tail (v.extractLsb' 0 16) ∨ 256 < (v.extractLsb' 0 16 - (Obl.cmpOf s q.val + 1)).toNat) :
    ∃ u, Obl.Runs (.hbSqdb q v) s u ∧ rd u (qErr q.val) = 3 ∧ rd u irqQerr = 1 ∧
      u.host.queues = s.host.queues ∧ u.host.cmds = s.host.cmds := by
  refine ⟨stopQueue q.val 3 s, ?_, rd_stopQueue_qErr 3 s q.isLt, rd_stopQueue_irqQerr q.val 3 s, by simp, by simp⟩
  rw [Obl.Runs, exec_hbSqdb q v hup, doorbell_of_live hown he hl, if_pos hbad]

/-! ### SUBMISSION_FETCH (R144, R145) -/

theorem exec_submissionFetch_of_not_served {s : State} (q : Fin 4) (e p : Dma) (h : served s = false) :
    exec (.submissionFetch q e p) s = .next s := by
  change execSubmissionFetch q e p s = _
  simp [execSubmissionFetch, h]

/-- A queue's entry has been fetched with its parameters, and queues 1 to 3 take their turns from this one on (R145). -/
def fetchTurn (n : Nat) (b p : List Byte) (s : State) : State :=
  let t := fetchPut n (BitVec.ofNat 16 (rd s (sqFetch n))) b p s
  if n = 0 then t else { t with host := { t.host with rr := n } }

@[simp] theorem rd_fetchTurn_sqFetch (n : Nat) (b p : List Byte) (s : State) :
    rd (fetchTurn n b p s) (sqFetch n) = (rd s (sqFetch n) + 1) % 65536 := by
  have hput (f : BitVec 16) : rd (fetchPut n f b p s) (sqFetch n) = (f + 1).toNat := by
    exact (rd_wr_same (sqFetch n) _ _ (by decide : 0 + 16 ≤ 32)).trans (Nat.mod_eq_of_lt (f + 1).isLt)
  have hturn : rd (fetchTurn n b p s) (sqFetch n) = rd (fetchPut n (BitVec.ofNat 16 (rd s (sqFetch n))) b p s) (sqFetch n) := by
    unfold fetchTurn
    dsimp only
    split <;> rfl
  rw [hturn, hput]
  simp [BitVec.toNat_add]

/-- The queue whose turn it is fetches its entry, with the parameters that the entry's INDIRECT flag asks for. -/
theorem exec_submissionFetch_data {s : State} {q : Fin 4} (b p : List Byte) (hserved : served s = true)
    (hown : mspiOwned s q.val = false) (hturn : nextQueue s = some q.val) (hbase : rd s (sqBaseLo q.val) % 4096 = 0) :
    exec (.submissionFetch q (.data b) (.data p)) s =
      .next (fetchTurn q.val (padTo 64 b) (if ((padTo 64 b).getD 4 0).getLsbD 2 then p else []) s) := by
  change execSubmissionFetch q (.data b) (.data p) s = _
  cases hi : ((padTo 64 b).getD 4 0).getLsbD 2 <;>
    simp only [execSubmissionFetch, fetchTurn, hserved, hown, hturn, hbase, hi, Bool.not_true, Bool.not_false, Bool.false_eq_true,
      bne_self_eq_false, ne_eq, not_true_eq_false, if_true, if_false]

/-- Settles O14: the cases of `doorbell`, one lemma each, and the turn of a queue at SUBMISSION_FETCH. -/
theorem doorbellRule : Obligations.DoorbellRule := by
  intro q v s hup
  refine ⟨hbSqdb_of_mspiOwned q v hup, ?_, ?_, ?_⟩
  · intro hserved e p
    exact exec_submissionFetch_of_not_served q e p hserved
  · intro hown hserved hturn hbase b p
    exact ⟨_, exec_submissionFetch_data b p hserved hown hturn hbase, rd_fetchTurn_sqFetch _ _ _ _⟩
  · intro hown
    refine ⟨?_, hbSqdb_of_stale hup hown, ?_, ?_⟩
    · intro he hl hearly hfar
      rw [Obl.Runs, exec_hbSqdb q v hup, doorbell_of_live hown he hl, if_neg]
      rw [later16_iff, not_or, Nat.not_lt]
      exact ⟨hearly, hfar⟩
    · intro he hl hbad
      exact hbSqdb_of_bad_tail hup hown he hl (by rwa [later16_iff])
    · intro he hrun
      rw [Obl.Runs, exec_hbSqdb q v hup, doorbell_of_not_live hown he (.inl hrun)]

end Sys2Proof.Machine
end

section
/-! PROOFS. Completion rings under a waiting warm reset (R136, R148, R174): the reset that an entry's write lets go takes the ring with it. -/

namespace Sys2Proof.Machine

/-! ### What a warm reset leaves of the completion rings (Table 5.2, R160) -/

theorem queue_congr {s t : State} (h : s.host.queues = t.host.queues) (q : Nat) : queue s q = queue t q := by simp [queue, h]

theorem resetQueue_queues (k : Nat) (s : State) :
    (resetQueue k s).host.queues =
      tblSet k { queueReset with exp := Obl.cmpOf s k + 1, tail := Obl.cmpOf s k + 1 } s.host.queues := by
  simp only [resetQueue, List.foldl_cons, List.foldl_nil, wr_host, wrW_host, setQueue, Obl.cmpOf]

/-- R160 empties the ring of its own queue and leaves the others. -/
theorem written_resetQueue (k q : Nat) (s : State) :
    (queue (resetQueue k s) q).written = if q = k then [] else (queue s q).written := by
  split
  case isTrue h => simp [queue, resetQueue_queues, h, queueReset]
  case isFalse h => simp only [queue, resetQueue_queues, tblGet_set_other k q _ _ _ h]

/-- With PD_CTRL every queue loses what stands in its ring. -/
theorem written_ctrlLost {q : Nat} (s : State) (hq : q < 4) : (queue (ctrlLost s) q).written = [] := by
  have hkeep : (ctrlLost s).host.queues = (resetQueue 3 (resetQueue 2 (resetQueue 1 (resetQueue 0 s)))).host.queues := by
    simp only [ctrlLost, seqUpd, startOwner, wr_host, wrW_host, fromN, List.foldl_cons, List.foldl_nil]
  rw [queue_congr hkeep]
  interval_cases q <;> simp [written_resetQueue]

theorem written_warmNow {q : Nat} (c : Nat) (d : Bool) (s : State) (hq : q < 4) : (queue (warmNow c d s) q).written = [] := by
  obtain ⟨x, hx⟩ : ∃ x, (warmNow c d s).host.queues = (ctrlLost x).host.queues := by
    simp only [warmNow, seqUpd, wr_host]
    exact ⟨_, rfl⟩
  rw [queue_congr hx, written_ctrlLost x hq]

/-- A waiting reset that nothing holds back any more empties the rings. -/
theorem written_resetDue {q : Nat} {s : State} {r : Nat × Option Bool} (hreq : s.boot.resetReq = some r) (hfuse : fuseBusy s = false)
    (hrom : romReplies s = false) (hq : q < 4) : (queue (resetDue s) q).written = [] := by
  obtain ⟨c, d⟩ := r
  cases d <;> simp [resetDue, hreq, hfuse, hrom, written_warmNow _ _ _ hq]

theorem exec_completionWrite (q : Fin 4) (wrote : Bool) (s : State) :
    exec (.completionWrite q wrote) s = .next (resetDue (completionWrite q.val wrote s)) := rfl

/-! ### The boot ROM's answer to DEV_RESET -/

/-- The FINAL entry that the boot ROM holds for a DEV_RESET, without a ledger entry (R174). -/
def romReply : Cpl :=
  { typ := 2, seq := 0, status := stOk, orig := 0, opcode := 0x0102, trunc := false, replayed := false, w8 := 0xFFFFFFFF, w12 := 0,
    payload := [], room := 0, urgent := true }

/-- Minimal mode on a device whose host is MSPI: the ring of queue 0 is enabled, the boot ROM has executed DEV_RESET, and the warm reset waits
for the one entry held, the command's answer. -/
def romAnswers : State :=
  wr hbMinimal 1 (wr (cqEn 0) 1 (wr (domStat 2) 2 { State.reset with
    boot := { bootReset with step := 4, resetReq := some (4, none) },
    host := { hostReset with owner := 0xF, ownP := 0xF, ownM := 0xF, queues := [(0, { queueReset with exp := 1, tail := 1, held := [romReply] })] } }))

/-- The ring takes the answer: the premises of the completion clause hold of `romAnswers`. -/
theorem romAnswers_writes :
    ringOpen romAnswers 0 = true ∧ mspiOwned romAnswers 0 = true ∧ (nextCpl 0 romAnswers).isSome = true := by decide

/-- Once the answer is written nothing holds the reset back. -/
theorem romAnswers_written_unblocked :
    (completionWrite 0 true romAnswers).boot.resetReq = some (4, none) ∧ fuseBusy (completionWrite 0 true romAnswers) = false ∧
      romReplies (completionWrite 0 true romAnswers) = false := by decide

/-- Refutes O17: in minimal mode COMPLETION_WRITE of the boot ROM's answer to DEV_RESET starts the warm reset that waited for it (R174), and the
state after it has an empty ring, where the statement, which does not ask that no reset waits, has the entry at its end. -/
theorem not_ringServiceCompletes : ¬ Obligations.RingServiceCompletes := by
  intro h
  obtain ⟨hopen, hown, hnext⟩ := romAnswers_writes
  obtain ⟨hreq, hfuse, hrom⟩ := romAnswers_written_unblocked
  obtain ⟨⟨c, s'⟩, hc⟩ := Option.isSome_iff_exists.mp hnext
  obtain ⟨-, -, hwrite, -⟩ := h 0 romAnswers
  obtain ⟨⟨t, hrun, hentry, -⟩, -⟩ := hwrite hopen (.inl hown) c s' hc
  have ht : resetDue (completionWrite 0 true romAnswers) = t := Host.Outcome.next.inj ((exec_completionWrite 0 true romAnswers).symm.trans hrun)
  have hempty : (queue t 0).written = [] := ht ▸ written_resetDue hreq hfuse hrom (by decide)
  exact List.append_ne_nil_of_right_ne_nil _ (List.cons_ne_nil _ _) (hentry.symm.trans hempty)

end Sys2Proof.Machine
end

section
/-! PROOFS. The commands of flows, keys, PRP pairs, PTP and network statistics (Table 7.9): what the effect of each is in the state that it
finds, and with it how the admitted command ends or goes on. -/

namespace Sys2Proof.Machine

/-! ### From the effect of an admitted command to its completion (R146 to R151) -/

/-- A command whose effect is done with OK wherever `p` holds ends at once. -/
theorem endsIf_of_eff {h : Hdr} {i : Instr} {sp : Spec} {p : State → Prop} {res : State → List Byte} {f : State → State} {s : State}
    (hrun : exec i s = .next (scp h i sp s)) (hacc : AccKeeps sp.acc) (heff : ∀ b, p b → sp.eff b = .done stOk (res b) (f b)) :
    Obl.EndsIf h i sp p res f s := by
  intro hadm hp
  rw [hrun, scp_admits h i sp s hacc hadm, heff _ hp]

/-- A command whose effect waits for `w` in the state in which it has begun goes on until `w`. -/
theorem waitsIf_of_eff {h : Hdr} {i : Instr} {sp : Spec} {p : State → Prop} {w : Wait} {f : State → State} {s : State}
    (hrun : exec i s = .next (scp h i sp s)) (hacc : AccKeeps sp.acc)
    (heff : admits h sp s = true → p (begun h i sp s) → sp.eff (begun h i sp s) = .wait w (f (begun h i sp s))) :
    Obl.WaitsIf h i sp p w f s := by
  intro hadm hp
  rw [hrun, scp_admits h i sp s hacc hadm, heff hadm hp]

/-! ### Claims at acceptance (R513) -/

/-- Acceptance that leaves the host's side alone keeps the list of commands. -/
theorem accKeeps_of_host {acc : Cmd → State → State} (h : ∀ c s, (acc c s).host = s.host) : AccKeeps acc :=
  fun c s => .inl (by rw [h c s])

/-! ### Effects on flows (R176, R320, R328, R329) -/

/-- With EMERG the flow has PRIO 0, and is otherwise as it was given (R176). -/
theorem flowPrio_eq (h : Hdr) (f : Flow) : flowPrio h f = { f with prio := if h.emerg then 0 else f.prio } := by
  unfold flowPrio
  cases h.emerg <;> rfl

section Flows

variable {h : Hdr} {flow : BitVec 16} {b : State} {f : Flow}

theorem specFlowAdd_eff {kind portIn prio egress flags : BitVec 8} {vlan chan linkchan : BitVec 16} {mtch : List Byte}
    (hfree : flow? b flow.toNat = none) :
    (specFlowAdd h flow kind portIn vlan chan linkchan prio egress flags mtch).eff b =
      ok (setFlow flow.toNat { newFlow kind portIn vlan chan linkchan prio egress flags mtch with
        prio := if h.emerg then 0 else prio.toNat } b) := by
  simp only [specFlowAdd, hfree, flowPrio_eq, newFlow]

/-- Without RTP the sequence number, the timestamp and the time of the next RTCP packet stand at 0. -/
theorem specFlowTx_eff_of_not_rtp {tlen : BitVec 8} {template : List Byte} (hf : flow? b flow.toNat = some f) (hrtp : fRtp f = false) :
    (specFlowTx h flow tlen template).eff b =
      ok (setFlow flow.toNat { f with template := some template, rtpSeq := 0, rtpTs := 0, rtcpAt := 0,
                                      prio := if h.emerg then 0 else f.prio } (tookFree b)) := by
  simp [specFlowTx, hf, flowPrio_eq, hrtp]

/-- With RTP the sequence number and the timestamp start from the template's (R320), and the first RTCP packet from a free time (log 2). -/
theorem specFlowTx_eff_of_rtp {tlen : BitVec 8} {template : List Byte} (hf : flow? b flow.toNat = some f) (hrtp : fRtp f = true) :
    (specFlowTx h flow tlen template).eff b =
      ok (setFlow flow.toNat { f with template := some template,
                                      rtpSeq := BitVec.ofNat 16 (unBe ((template.drop (tplHeaders f template - 12 + 2)).take 2)),
                                      rtpTs := BitVec.ofNat 32 (unBe ((template.drop (tplHeaders f template - 12 + 4)).take 4)),
                                      rtcpAt := now b + 2500000 + Config.freeNat b.free % 5000001,
                                      prio := if h.emerg then 0 else f.prio } (tookFree b)) := by
  simp [specFlowTx, hf, flowPrio_eq, hrtp]

theorem specFlowDel_eff (hf : flow? b flow.toNat = some f) :
    (specFlowDel flow).eff b = ok (unclaim 12 flow.toNat { b with net := { b.net with flows := tblDel flow.toNat b.net.flows } }) := by
  simp only [specFlowDel, hf]

/-- The key that the parameters of SRTP_KEY spell, with nothing sent or received under it yet. -/
def srtpKeyOf (suite kdr : BitVec 8) (roc : BitVec 32) (keylen : BitVec 8) (key : List Byte) : SrtpKey :=
  { suite := suite.toNat, kdr := kdr.toNat, roc := roc, key := key.take keylen.toNat, salt := key.drop keylen.toNat, count := 0,
    top := none, seen := [], ctl := 0 }

theorem specSrtpKey_eff_of_send {suite kdr keylen saltlen : BitVec 8} {roc : BitVec 32} {key : List Byte}
    (hf : flow? b flow.toNat = some f) :
    (specSrtpKey h flow 1 suite kdr roc keylen saltlen key).eff b =
      ok (setFlow flow.toNat { f with tx := some (srtpKeyOf suite kdr roc keylen key), stopped := false,
                                      prio := if h.emerg then 0 else f.prio } b) := by
  simp [specSrtpKey, hf, flowPrio_eq, srtpKeyOf]

/-- The old receiving key stands for 2 s beside the new one (R329). -/
theorem specSrtpKey_eff_of_receive {suite kdr keylen saltlen : BitVec 8} {roc : BitVec 32} {key : List Byte}
    (hf : flow? b flow.toNat = some f) :
    (specSrtpKey h flow 0 suite kdr roc keylen saltlen key).eff b =
      ok (setFlow flow.toNat { f with rx := some (srtpKeyOf suite kdr roc keylen key),
                                      rxOld := f.rx.map (fun o => (o, now b + 2000000)), stopped := false,
                                      prio := if h.emerg then 0 else f.prio } b) := by
  simp [specSrtpKey, hf, flowPrio_eq, srtpKeyOf]

/-- ASSURED_SEND stamps its message, puts it into the flow's window under the ledger entry of its own command, and waits for the message's
acknowledgement (R183, R202). -/
theorem specAssuredSend_eff {len : BitVec 16} {payload : List Byte} {c : Cmd} (hf : flow? b flow.toNat = some f)
    (hassured : fAssured f = true) (hcmd : cmdAt b h.queue.val h.seq = some c) :
    (specAssuredSend h flow len payload).eff b =
      .wait (.assured flow.toNat f.txSeq) (addMsg flow.toNat (c.lref.getD 0)
        { seq := f.txSeq, stamp := (rtbNs b).extractLsb' 0 40, settle := false, err := false, last := true } payload
        (setFlow flow.toNat { f with prio := if h.emerg then 0 else f.prio } b)) := by
  simp [specAssuredSend, hf, hassured, hcmd, flowPrio_eq]

end Flows

/-! ### Effects on pairs and statistics (R332, R342) -/

theorem specPrpPair_eff {pair portA portB : BitVec 8} {window : BitVec 16} {b : State}
    (hmode : rd b (ethMode portA.toNat) = rd b (ethMode portB.toNat)) :
    (specPrpPair pair portA portB window).eff b =
      let t := wr (prpA pair.toNat) portA.toNat (wr (prpB pair.toNat) portB.toNat
        (wr (prpWindow pair.toNat) window.toNat (wr (prpEn pair.toNat) 1 b)))
      ok { t with net := { t.net with pairs := tblSet pair.toNat { pairInit with supAt := now b + 2000000 } t.net.pairs } } := by
  simp only [specPrpPair, hmode, ne_eq, not_true, if_false]
  rfl

section Stats

variable {port flags : BitVec 8} {flow : BitVec 16} {b : State}

/-- Without FLAGS 1 a statistics read changes nothing. -/
theorem specNetStats_eff_of_keep (hflow : port = 0xFF → (flow? b flow.toNat).isSome = true) (hkeep : flags ≠ 1) :
    (specNetStats port flow flags).eff b = okRes (netStatsBytes b port.toNat flow.toNat) b := by
  have hthere : ¬(port = 0xFF ∧ (flow? b flow.toNat).isNone = true) := by
    rintro ⟨hp, hn⟩
    exact absurd (hflow hp) (by simpa using hn)
  simp only [specNetStats, hthere, hkeep, if_false, ne_eq, not_false_eq_true, if_true]

theorem specNetStats_eff_of_flow (hflow : (flow? b flow.toNat).isSome = true) :
    (specNetStats 0xFF flow 1).eff b =
      okRes (netStatsBytes b 0xFF flow.toNat) (modFlow flow.toNat (fun f => { f with stats := [] }) b) := by
  obtain ⟨f, hf⟩ := Option.isSome_iff_exists.mp hflow
  simp [specNetStats, hf]

theorem specNetStats_eff_of_pair :
    (specNetStats 0xFE flow 1).eff b =
      okRes (le 4 (rd b (prpDup flow.toNat)) ++ le 4 (rd b (prpEvict flow.toNat)))
        (wr (prpDup flow.toNat) 0 (wr (prpEvict flow.toNat) 0 b)) := by
  simp [specNetStats, netStatsBytes]

/-- The eleven counters of an Ethernet port stand from 0x140 on, each port's in a window of 0x80 bytes; a read clears them by their register
rules (R342). -/
theorem specNetStats_eff_of_port (hflow : port ≠ 0xFF) (hpair : port ≠ 0xFE) :
    (specNetStats port flow 1).eff b =
      okRes (regWords b 1 (0x140 + 0x80 * port.toNat) 11)
        ((fromN 0 11).foldl (fun t k => regClear (rk 1 (0x140 + 0x80 * port.toNat + 4 * k)) t) b) := by
  have hflow' : port.toNat ≠ 0xFF := fun e => hflow (BitVec.eq_of_toNat_eq e)
  have hpair' : port.toNat ≠ 0xFE := fun e => hpair (BitVec.eq_of_toNat_eq e)
  have hbase : 0x100 + 0x80 * port.toNat + 0x40 = 0x140 + 0x80 * port.toNat := by omega
  simp only [specNetStats, netStatsBytes, hflow, hpair, hflow', hpair', hbase, false_and, if_false, ne_eq, not_true]

end Stats

/-! ### The commands -/

/-- Settles O9: each command ends, or goes on, with the effect that its lemma above gives it; FLOW_ADD and PRP_PAIR claim at acceptance, which
leaves the list of commands as it is. -/
theorem flowCommandsComplete : Obligations.FlowCommandsComplete := by
  unfold Obligations.FlowCommandsComplete
  intro h flow s
  refine ⟨?flowAdd, ?flowTx, ?flowTxRtp, ?flowDel, ?srtpKey, ?prpPair, ?ptpCfg, ?assuredSend, ?statsKept, ?flowStats, ?pairStats, ?portStats⟩
  case flowAdd =>
    exact fun _ _ _ _ _ _ _ _ _ => endsIf_of_eff rfl (accKeeps_of_host fun _ s => claim_host _ _ _ _ s) fun b hfree => specFlowAdd_eff hfree
  case flowTx => exact fun _ _ _ hrtp => endsIf_of_eff rfl accKeeps_none fun b hf => specFlowTx_eff_of_not_rtp hf hrtp
  case flowTxRtp => exact fun _ _ _ hrtp => endsIf_of_eff rfl accKeeps_none fun b hf => specFlowTx_eff_of_rtp hf hrtp
  case flowDel => exact fun _ => endsIf_of_eff rfl accKeeps_none fun b hf => specFlowDel_eff hf
  case srtpKey =>
    exact fun _ _ _ _ _ _ _ => ⟨endsIf_of_eff rfl accKeeps_none fun b hf => specSrtpKey_eff_of_send hf,
      endsIf_of_eff rfl accKeeps_none fun b hf => specSrtpKey_eff_of_receive hf⟩
  case prpPair =>
    exact fun _ _ _ _ => endsIf_of_eff rfl (accKeeps_of_host fun _ s => by simp [specPrpPair]) fun b hmode => specPrpPair_eff hmode
  case ptpCfg => exact fun _ _ _ _ => endsIf_of_eff rfl accKeeps_none fun b _ => rfl
  case assuredSend =>
    intro len pay f hassured
    refine waitsIf_of_eff rfl accKeeps_none fun hadm hf => ?_
    obtain ⟨hcmd, -⟩ := cmdAt_begun h (.assuredSend h flow len pay) (specAssuredSend h flow len pay) s accKeeps_none hadm
    exact specAssuredSend_eff hf hassured hcmd
  case statsKept => exact fun _ _ hkeep => endsIf_of_eff rfl accKeeps_none fun b hflow => specNetStats_eff_of_keep hflow hkeep
  case flowStats => exact endsIf_of_eff rfl accKeeps_none fun b hflow => specNetStats_eff_of_flow hflow
  case pairStats => exact endsIf_of_eff rfl accKeeps_none fun b _ => specNetStats_eff_of_pair
  case portStats => exact fun _ hflow hpair => endsIf_of_eff rfl accKeeps_none fun b _ => specNetStats_eff_of_port hflow hpair

end Sys2Proof.Machine
end

section
/-! PROOFS. Entries of host commands (R142, R169): the fields that packing lays out are read back from their offsets. -/

namespace Sys2Proof.Machine

/-! ### Fields of parameter bytes (R6, R169) -/

@[simp] theorem le_length (n v : Nat) : (le n v).length = n := by
  induction n generalizing v with
  | zero => rfl
  | succ n ih => simp [le, ih]

/-- The bytes of a number give its low bytes back. -/
theorem unLe_le (n v : Nat) : unLe (le n v) = v % 256 ^ n := by
  induction n generalizing v with
  | zero => simp [le, unLe, Nat.mod_one]
  | succ n ih =>
    have hbyte : (BitVec.ofNat 8 v).toNat = v % 256 := BitVec.toNat_ofNat v 8
    rw [le, unLe, ih, hbyte, pow_succ', Nat.mod_mul]

theorem leAt_append_here (n v : Nat) (r : List Byte) : leAt (le n v ++ r) 0 n = v % 256 ^ n := by
  rw [leAt, List.drop_zero, List.take_left' (le_length n v), unLe_le]

theorem leAt_here (n v : Nat) : leAt (le n v) 0 n = v % 256 ^ n := by
  simpa using leAt_append_here n v []

/-- Of what stands before a field, its size alone matters. -/
theorem leAt_append_skip {a : List Byte} {o : Nat} (n : Nat) (r : List Byte) (h : a.length ≤ o) :
    leAt (a ++ r) o n = leAt r (o - a.length) n := by
  simp [leAt, List.drop_append, List.drop_eq_nil_of_le h]

theorem drop_append_skip {a : List Byte} {o : Nat} (r : List Byte) (h : a.length ≤ o) : (a ++ r).drop o = r.drop (o - a.length) := by
  simp [List.drop_append, List.drop_eq_nil_of_le h]

/-- The parameter of `n` bytes at `o` as `w` bits: what `par1` to `par8` are. -/
def parAt (w n : Nat) (p : List Byte) (o : Nat) : BitVec w := BitVec.ofNat w (leAt p o n)

theorem par1_eq (p : List Byte) (o : Nat) : par1 p o = parAt 8 1 p o := rfl
theorem par2_eq (p : List Byte) (o : Nat) : par2 p o = parAt 16 2 p o := rfl
theorem par3_eq (p : List Byte) (o : Nat) : par3 p o = parAt 24 3 p o := rfl
theorem par4_eq (p : List Byte) (o : Nat) : par4 p o = parAt 32 4 p o := rfl
theorem par8_eq (p : List Byte) (o : Nat) : par8 p o = parAt 64 8 p o := rfl

/-- A parameter that fills its bytes reads as it was packed. -/
theorem parAt_append_here {w n : Nat} (v : BitVec w) (r : List Byte) (h : 2 ^ w = 256 ^ n) : parAt w n (le n v.toNat ++ r) 0 = v := by
  rw [parAt, leAt_append_here, ← h, Nat.mod_eq_of_lt v.isLt, BitVec.ofNat_toNat, BitVec.setWidth_eq]

theorem parAt_here {w n : Nat} (v : BitVec w) (h : 2 ^ w = 256 ^ n) : parAt w n (le n v.toNat) 0 = v := by
  simpa using parAt_append_here v [] h

theorem parAt_append_skip {a : List Byte} {w n o : Nat} (r : List Byte) (h : a.length ≤ o) :
    parAt w n (a ++ r) o = parAt w n r (o - a.length) := by
  rw [parAt, leAt_append_skip n r h, parAt]

/-! ### Entries of one size (Tables 7.10, 7.11) -/

theorem fromN_eq_range' (lo n : Nat) : fromN lo n = List.range' lo n := by
  induction n generalizing lo with
  | zero => rfl
  | succ n ih => rw [fromN, ih, List.range'_succ]

theorem entries_length {w : Nat} (n : Nat) (l : List (BitVec w)) : (l.flatMap fun x => le n x.toNat).length = n * l.length := by
  simp [List.length_flatMap, Nat.mul_comm]

/-- Where every entry stands whole, as many are read as there are. -/
theorem groups_mul {n : Nat} (want k : Nat) (h : 0 < n) : groups n want (n * k) = k := by
  simp [groups, Nat.mul_div_cancel_left k h]

/-- Entries of `n` bytes after a fixed part `a` are read back one after another. -/
theorem map_parAt_entries {w n : Nat} (a : List Byte) (l : List (BitVec w)) (h : 2 ^ w = 256 ^ n) :
    (fromN 0 l.length).map (fun k => parAt w n (a ++ l.flatMap fun x => le n x.toNat) (a.length + n * k)) = l := by
  induction l generalizing a with
  | nil => rfl
  | cons x l ih =>
    have hhead : parAt w n (a ++ (x :: l).flatMap fun x => le n x.toNat) (a.length + n * 0) = x := by
      rw [parAt_append_skip _ (by omega), List.flatMap_cons]
      simpa using parAt_append_here x _ h
    have htail := ih (a ++ le n x.toNat)
    rw [List.length_append, le_length, List.append_assoc] at htail
    rw [List.length_cons, fromN_eq_range', List.range'_succ, List.map_cons, hhead, List.range'_eq_map_range, List.map_map]
    rw [fromN_eq_range', ← List.range_eq_range'] at htail
    refine congrArg (x :: ·) (Eq.trans (List.map_congr_left fun k _ => ?_) htail)
    simp only [Function.comp, List.flatMap_cons]
    congr 1
    ring

/-- The variable part behind a fixed part of `m` bytes is read as the entries that stand there, whatever number the fixed part gives. -/
theorem read_entries {w n m : Nat} {a : List Byte} (want : Nat) (l : List (BitVec w)) (hm : a.length = m) (hn : 0 < n) (h : 2 ^ w = 256 ^ n) :
    (fromN 0 (groups n want ((a ++ l.flatMap fun x => le n x.toNat).length - m))).map
      (fun k => parAt w n (a ++ l.flatMap fun x => le n x.toNat) (m + n * k)) = l := by
  rw [List.length_append, hm, Nat.add_sub_cancel_left, entries_length, groups_mul _ _ hn, ← hm, map_parAt_entries a l h]

/-! ### CH_MODIFY (R181) -/

/-- The bytes of field `k` of CH_MODIFY: none where MASK leaves it out. -/
def modifyField (mask : Nat) (p : ChParams) (k : Nat) : List Byte := if mask / 2 ^ k % 2 = 1 then (chFields p).getD k [] else []

theorem chFields_length (p : ChParams) {k : Nat} (hk : k < 8) : ((chFields p).getD k []).length = fieldSize k := by
  interval_cases k <;> rfl

theorem modifyField_length (mask : Nat) (p : ChParams) {k : Nat} (hk : k < 8) :
    (modifyField mask p k).length = if mask / 2 ^ k % 2 = 1 then fieldSize k else 0 := by
  unfold modifyField
  split
  · exact chFields_length p hk
  · rfl

theorem sumOf_eq_sum_map {α : Type} (f : α → Nat) (l : List α) : sumOf f l = (l.map f).sum := by
  induction l with
  | nil => rfl
  | cons x l ih => simp [sumOf, ih]

/-- Field `k` stands behind the fields before it. -/
theorem modifyOff_eq (mask : Nat) (p : ChParams) {k : Nat} (hk : k ≤ 8) :
    modifyOff mask k = 4 + ((fromN 0 k).flatMap (modifyField mask p)).length := by
  rw [modifyOff, sumOf_eq_sum_map, List.length_flatMap]
  congr 2
  refine List.map_congr_left fun j hj => (modifyField_length mask p ?_).symm
  rw [fromN_eq_range', List.mem_range'_1] at hj
  omega

/-- A field that MASK selects is read back from its place. -/
theorem leAt_modifyBytes {a : List Byte} (ha : a.length = 4) {mask : Nat} (p : ChParams) {k : Nat} (hk : k < 8) (hsel : mask / 2 ^ k % 2 = 1) :
    leAt (a ++ modifyBytes mask p) (modifyOff mask k) (fieldSize k) = unLe ((chFields p).getD k []) := by
  have hsplit : modifyBytes mask p = (fromN 0 k).flatMap (modifyField mask p) ++
      (modifyField mask p k ++ (fromN (k + 1) (7 - k)).flatMap (modifyField mask p)) := by
    rw [show modifyBytes mask p = (fromN 0 8).flatMap (modifyField mask p) from rfl, ← List.flatMap_cons, ← List.flatMap_append]
    congr 1
    interval_cases k <;> rfl
  have hfield : modifyField mask p k = (chFields p).getD k [] := if_pos hsel
  rw [leAt_append_skip _ _ (by rw [modifyOff_eq mask p hk.le]; omega), hsplit,
    leAt_append_skip _ _ (by rw [modifyOff_eq mask p hk.le]; omega), modifyOff_eq mask p hk.le, ha, Nat.add_sub_cancel_left, Nat.sub_self,
    leAt, List.drop_zero, hfield, List.take_left' (chFields_length p hk)]

/-- The fields that MASK selects are read back, and the others are read as zero, as they stand. -/
theorem modifyPar_modifyBytes {a : List Byte} (ha : a.length = 4) {mask : Nat} {p : ChParams} (h : modifyOnly mask p = true) :
    modifyPar mask (a ++ modifyBytes mask p) = p := by
  obtain ⟨codec, ptime, echoTail, jbMode, jbMin, jbMax, prio, flags⟩ := p
  simp only [modifyOnly, Bool.and_eq_true, Bool.or_eq_true, Bool.not_eq_true', bne_eq_false_iff_eq, beq_iff_eq] at h
  obtain ⟨⟨⟨⟨⟨⟨⟨h0, h1⟩, h2⟩, h3⟩, h4⟩, h5⟩, h6⟩, h7⟩ := h
  have field {w : Nat} {v : BitVec w} {k n : Nat} (hk : k < 8) (hv : mask / 2 ^ k % 2 = 1 ∨ v = 0) (hw : 2 ^ w = 256 ^ n)
    (hf : (chFields ⟨codec, ptime, echoTail, jbMode, jbMin, jbMax, prio, flags⟩).getD k [] = le n v.toNat) :
    BitVec.ofNat w (if mask / 2 ^ k % 2 = 1 then leAt (a ++ modifyBytes mask ⟨codec, ptime, echoTail, jbMode, jbMin, jbMax, prio, flags⟩)
      (modifyOff mask k) (fieldSize k) else 0) = v := by
    split
    case isTrue hsel => rw [leAt_modifyBytes ha _ hk hsel, hf, unLe_le, ← hw, Nat.mod_eq_of_lt v.isLt, BitVec.ofNat_toNat, BitVec.setWidth_eq]
    case isFalse hsel => exact (hv.resolve_left hsel).symm
  simp only [modifyPar]
  rw [field (by decide) h0 (by decide) rfl, field (by decide) h1 (by decide) rfl, field (by decide) h2 (by decide) rfl,
    field (by decide) h3 (by decide) rfl, field (by decide) h4 (by decide) rfl, field (by decide) h5 (by decide) rfl,
    field (by decide) h6 (by decide) rfl, field (by decide) h7 (by decide) rfl]

/-! ### Every host command -/

/-- Settles O46: each field is read from the place where packing puts it. -/
theorem hostCommandsRoundTrip : Obligations.HostCommandsRoundTrip := by
  intro i p hcan hp
  cases i
  all_goals cases hp
  case timeSet h timeNs flags =>
    have hflags : ¬flags = 1#8 := by simpa [canonical] using hcan
    refine ⟨_, by dsimp only; rfl, ?_⟩
    simp [par1_eq, par8_eq, parAt_append_here, parAt_here, parAt_append_skip, hflags]
  case timeSetWithWarmReset h timeNs =>
    have hflags : parAt 8 1 (le 1 1) 0 = 1 := parAt_here (1 : BitVec 8) (by decide)
    refine ⟨_, by dsimp only; rfl, ?_⟩
    simp [par1_eq, par8_eq, parAt_append_here, parAt_append_skip, hflags]
  case lifecycleToField h m =>
    have htarget : m.target.toNat ≠ 15 := fun e => by simp [canonical, BitVec.eq_of_toNat_eq (y := 15#8) e] at hcan
    refine ⟨_, by dsimp only; rfl, ?_⟩
    simp [par1_eq, par4_eq, parAt_append_here, parAt_here, parAt_append_skip, leAt_append_here, Nat.mod_eq_of_lt m.target.isLt, htarget]
  case chCreate h chan p =>
    refine ⟨_, by dsimp only; rfl, ?_⟩
    simp [par1_eq, par2_eq, parAt_append_here, parAt_here, parAt_append_skip, createBytes, chFields]
  case chModify h chan mask p =>
    have hmask : leAt (le 2 mask.toNat ++ modifyBytes mask.toNat p) 0 2 = mask.toNat := by
      rw [leAt_append_here]; exact Nat.mod_eq_of_lt mask.isLt
    have hfields := modifyPar_modifyBytes (a := le 2 chan.toNat ++ le 2 mask.toNat) (by simp) hcan
    rw [List.append_assoc] at hfields
    refine ⟨_, by dsimp only; rfl, ?_⟩
    simp [par2_eq, parAt_append_here, parAt_append_skip, leAt_append_skip, hmask, hfields]
  case plcRoute h port dest nrelay relays =>
    have hlen : (le 1 port.toNat ++ le 2 dest.toNat ++ le 1 nrelay.toNat).length = 4 := by simp
    refine ⟨_, by dsimp only; rfl, ?_⟩
    simp only [par1_eq, par2_eq, read_entries _ relays hlen (n := 2) (by decide) (by decide)]
    simp [parAt_append_here, parAt_append_skip]
  case sscCoef h slot taps fade flags coefs =>
    have hlen : (le 1 slot.toNat ++ le 2 taps.toNat ++ le 2 fade.toNat ++ le 1 flags.toNat).length = 6 := by simp
    refine ⟨_, by dsimp only; rfl, ?_⟩
    simp only [par1_eq, par2_eq, par3_eq, read_entries _ coefs hlen (n := 3) (by decide) (by decide)]
    simp [parAt_append_here, parAt_append_skip]
  case tdmSlotmap h port n entries =>
    have hlen : (le 1 port.toNat ++ le 1 n.toNat).length = 2 := by simp
    refine ⟨_, by dsimp only; rfl, ?_⟩
    simp only [par1_eq, par4_eq, read_entries _ entries hlen (n := 4) (by decide) (by decide)]
    simp [parAt_append_here, parAt_append_skip]
  all_goals
    refine ⟨_, by dsimp only; rfl, ?_⟩
    simp [par1_eq, par2_eq, par3_eq, par4_eq, par8_eq, parAt_append_here, parAt_here, parAt_append_skip,
      leAt_here, leAt_append_here, leAt_append_skip, drop_append_skip]

end Sys2Proof.Machine
end

section
/-! PROOFS. Garnet instructions that retire (R238 to R246, R255 to R259): from the way an instruction comes out to its retirement, with its
parallel moves; and the register ALU instructions. -/

namespace Sys2Proof.Machine

/-! ### From the body of an instruction to its retirement -/

/-- An instruction whose body lets it complete with `w`, and that calls for no GOV trap, retires with `w`. -/
theorem completes_of_done {n : Nat} {i : Instr} {body : CoreSt → GRes} {w : GWrites} {s : State} (hrun : exec i s = .next (garnet n .plain body s))
    (hready : GReady n .plain s) (hbody : body (core s n) = .done w) (hctl : w.ctl = .plain) (hio : w.io = [])
    (hpost : ∀ e ∈ w.post, e.1 < 8) (htrap : modeGtrap (modeNow (core s n)) = false ∨ w.gov = 0) : Obl.Completes n i w s :=
  ⟨complete n w s, by rw [hrun, garnet_done n .plain body w s hready hbody], complete_retires n w s hctl hio hpost htrap⟩

/-- A main operation that writes `w` with two parallel moves that write `m`, no register twice. -/
theorem completes_withMoves {n : Nat} {i : Instr} {body : CoreSt → GRes} {p q : PMove} {w m : GWrites} {s : State}
    (hrun : exec i s = .next (garnet n .plain body s)) (hready : GReady n .plain s) (hmoves : pmoves (core s n) p q = .done m)
    (hbody : body (core s n) = withMoves (core s n) p q (.done w)) (hregs : ∀ e ∈ w.regs, ∀ v, (e.1, v) ∉ m.regs)
    (htwice : regTwice w.regs = false) (hctl : w.ctl = .plain) (hio : w.io = []) (hpost : w.post = [])
    (htrap : modeGtrap (modeNow (core s n)) = false ∨ w.gov = 0) : Obl.Completes n i (w.and m) s := by
  obtain ⟨mpost, mio, mctl, mgov, -⟩ := pmoves_done (core s n) p q m hmoves
  refine completes_of_done hrun hready (hbody.trans (withMoves_done _ p q w m hmoves hregs htwice)) ?_ ?_ ?_ (htrap.imp_right fun h => ?_)
  · simp [GWrites.and, hctl, mctl]
  · simp [GWrites.and, hio, mio]
  · simpa [GWrites.and, hpost] using mpost
  · simp [GWrites.and, h, mgov]

/-! ### Shifts (Table 10.4) -/

theorem shiftBy_natCast (x : Int) (k : Nat) : shiftBy x k = x * (2 ^ k : Nat) := by
  simp [shiftBy]

theorem shiftBy_neg_natCast (x : Int) (k : Nat) : shiftBy x (-(k : Int)) = x / (2 ^ k : Nat) := by
  rcases Nat.eq_zero_or_pos k with rfl | hk
  · simp [shiftBy]
  · rw [shiftBy, if_neg (by omega), neg_neg, Int.toNat_natCast]

/-! ### Register ALU instructions (R244) -/

section
variable {n : Nat} {i : Instr} {body : CoreSt → GRes} {p q : PMove} {m : GWrites} {s : State}

/-- An operation that puts two lanes into register `r` with its parallel moves. -/
theorem completes_putXy {r : BitVec 4} {h l : LaneRes 24} {f : Bool} (hrun : exec i s = .next (garnet n .plain body s))
    (hready : GReady n .plain s) (hmoves : pmoves (core s n) p q = .done m) (hr : ∀ v, (r.toNat, v) ∉ m.regs)
    (hbody : body (core s n) = withMoves (core s n) p q (putXy r h l f)) : Obl.Completes n i (Obl.raWrites r h l f m) s :=
  completes_withMoves hrun hready hmoves hbody (by simpa using hr) rfl rfl rfl rfl (.inr rfl)

end

/-- Settles O1: each instruction puts its two lanes into RD, and CMP keeps their flags alone. -/
theorem garnetRegisterAluCompletes : Obligations.GarnetRegisterAluCompletes := by
  intro n rd a b k p q m s hready hmoves hrd c sat al un lo mv
  have put {i : Instr} {body : CoreSt → GRes} {h l : LaneRes 24} {f : Bool} (hrun : exec i s = .next (garnet n.val .plain body s))
      (hbody : body (core s n.val) = withMoves (core s n.val) p q (putXy rd h l f)) :=
    completes_putXy hrun hready hmoves hrd hbody
  refine ⟨put rfl rfl, put rfl rfl, put rfl rfl, put rfl rfl, put rfl rfl, put rfl rfl, put rfl rfl, put rfl rfl, put rfl rfl, put rfl rfl,
    fun hk => put rfl ?asl, fun hk => put rfl ?asr, fun hk => put rfl ?lsr, put rfl rfl, put rfl rfl, put rfl rfl, put rfl rfl, put rfl rfl,
    ?cmp⟩
  case asl => rw [if_neg (Nat.not_lt.mpr hk)]; simp only [aluOp, shiftBy_natCast]; rfl
  case asr => rw [if_neg (Nat.not_lt.mpr hk)]; simp only [aluOp, shiftBy_neg_natCast]; rfl
  case lsr => rw [if_neg (Nat.not_lt.mpr hk)]; rfl
  case cmp => exact completes_withMoves rfl hready hmoves rfl (by simp [noWrites]) rfl rfl rfl rfl (.inr rfl)

end Sys2Proof.Machine
end

section
/-! PROOFS. Garnet accumulator instructions, the MAC issue and the filter taps (R242, R243, R245, R256, R262), where no GOV trap is due. -/

namespace Sys2Proof.Machine

/-! ### Accumulator instructions (R242, R243, R245) -/

section
variable {n : Nat} {i : Instr} {body : CoreSt → GRes} {p q : PMove} {m : GWrites} {s : State}

/-- An operation that puts two lanes into accumulator `d` with its parallel moves. -/
theorem completes_putAcc {d : BitVec 2} {h l : LaneRes 56} {f : Bool} (hrun : exec i s = .next (garnet n .plain body s))
    (hready : GReady n .plain s) (hmoves : pmoves (core s n) p q = .done m) (hg : modeGtrap (modeNow (core s n)) = false)
    (hbody : body (core s n) = withMoves (core s n) p q (putAcc d h l f)) : Obl.Completes n i (Obl.aaWrites d h l f m) s :=
  completes_withMoves hrun hready hmoves hbody (by simp [noWrites]) rfl rfl rfl rfl (.inl hg)

/-- An operation that keeps nothing of its two lanes but Z and N. -/
theorem completes_flags {z : Nat} (hrun : exec i s = .next (garnet n .plain body s)) (hready : GReady n .plain s)
    (hmoves : pmoves (core s n) p q = .done m) (hbody : body (core s n) = withMoves (core s n) p q (.done { noWrites with zn := some z })) :
    Obl.Completes n i (({ noWrites with zn := some z } : GWrites).and m) s :=
  completes_withMoves hrun hready hmoves hbody (by simp [noWrites]) rfl rfl rfl rfl (.inr rfl)

end

theorem garnetAccumulatorCompletes : Obl.GarnetAccumulatorCompletes := by
  intro n d a r k p q m s hready hmoves hr hg c sat ssh x o rH rL aa st fl
  have acc {i : Instr} {body : CoreSt → GRes} {h l : LaneRes 56} {f : Bool} (hrun : exec i s = .next (garnet n.val .plain body s))
      (hbody : body (core s n.val) = withMoves (core s n.val) p q (putAcc d h l f)) :=
    completes_putAcc hrun hready hmoves hg hbody
  have store {i : Instr} {body : CoreSt → GRes} {h l : LaneRes 24} {f : Bool} (hrun : exec i s = .next (garnet n.val .plain body s))
      (hbody : body (core s n.val) = withMoves (core s n.val) p q (putXy r h l f)) :=
    completes_putXy hrun hready hmoves hr hbody
  refine ⟨acc rfl rfl, acc rfl rfl, acc rfl rfl, acc rfl rfl, acc rfl rfl, acc rfl rfl, completes_flags rfl hready hmoves rfl,
    completes_flags rfl hready hmoves rfl, acc rfl rfl, acc rfl rfl, fun hk => acc rfl ?asla, fun hk => acc rfl ?asra, acc rfl rfl,
    acc rfl rfl, acc rfl rfl, acc rfl rfl, store rfl rfl, store rfl rfl, acc rfl rfl, store rfl rfl⟩
  case asla => rw [if_neg (Nat.not_lt.mpr hk)]; simp only [accOp, shiftBy_natCast]; rfl
  case asra => rw [if_neg (Nat.not_lt.mpr hk)]; simp only [accOp, shiftBy_neg_natCast]; rfl

/-! ### The MAC issue and the filter taps (R256, R262) -/

/-- What one MAC unit writes: OP 1 MPY, 2 MAC, 3 MSU into both lanes of `acc`. -/
def macWrites (c : CoreSt) (op : Nat) (acc : BitVec 2) (x y : Word48) (pair : BitVec 2) : GWrites :=
  let fr := modeFrac (modeNow c)
  let h := macLane op (c.cur.acc (2 * acc.toNat)) (product fr (pairing pair x y).1.1 (pairing pair x y).1.2)
  let l := macLane op (c.cur.acc (2 * acc.toNat + 1)) (product fr (pairing pair x y).2.1 (pairing pair x y).2.2)
  { noWrites with acc := [(2 * acc.toNat, h.v), (2 * acc.toNat + 1, l.v)], gov := govBits h l, sov := sovBits h l }

theorem macUnit_eq (c : CoreSt) (op : Nat) (acc : BitVec 2) (x y : Word48) (pair : BitVec 2) :
    macUnit c op acc x y pair = .done (macWrites c op acc x y pair) := rfl

theorem and_noWrites (w : GWrites) : w.and noWrites = w := by
  obtain ⟨regs, acc, post, mem, io, zn, gov, sov, ctl⟩ := w
  cases ctl <;> cases zn <;> simp [GWrites.and, noWrites]

/-- Two MAC units write no register. -/
theorem both_macWrites (c : CoreSt) (op : Nat) (acc : BitVec 2) (x y : Word48) (pair : BitVec 2) {w : GWrites} (hw : w.regs = []) :
    both (.done (macWrites c op acc x y pair)) (.done w) = .done ((macWrites c op acc x y pair).and w) := by
  simp [both, macWrites, noWrites, hw, regTwice]

/-- A field with an OP is its unit at work. -/
theorem macField_of_op {f : MacF} (c : CoreSt) (h : f.op ≠ 0) :
    macField c f = .done (macWrites c f.op.toNat f.acc (xy c f.xs.toNat) (xy c (8 + f.ys.toNat)) f.pair) := by
  rw [macField, if_neg h, macUnit_eq]

section
variable {n : Fin 48} {i : Instr} {op : BitVec 2} {u : MacU} {u1 : MacF} {p q : PMove} {m : GWrites} {s : State}
  (hready : GReady n.val .plain s) (hg : modeGtrap (modeNow (core s n.val)) = false) (hmoves : pmoves (core s n.val) p q = .done m)
include hready hg hmoves

theorem completes_macInU1 (hop : op ≠ 0) (hrun : exec i s = .next (garnet n.val .plain (macRes op u .inU1 p q) s)) :
    Obl.Completes n.val i ((macWrites (core s n.val) op.toNat u.acc (xy (core s n.val) u.xs.toNat) (xy (core s n.val) (8 + u.ys.toNat)) u.pair).and m)
      s :=
  completes_withMoves hrun hready hmoves (congrArg (withMoves _ p q) (macField_of_op (f := ⟨op, u.acc, u.xs, u.ys, u.pair⟩) _ hop))
    (by simp [macWrites, noWrites]) rfl rfl rfl rfl (.inl hg)

/-- Unit 1 idle, or at work on another accumulator. -/
theorem completes_macInU0 (hop : op ≠ 0) (hidle : u1.op = 0 → u1 = { op := 0, acc := 0, xs := 0, ys := 0, pair := 0 })
    (hacc : u1.op ≠ 0 → u1.acc ≠ u.acc) (hrun : exec i s = .next (garnet n.val .plain (macRes op u (.inU0 u1) p q) s)) :
    let c := core s n.val
    let w0 := macWrites c op.toNat u.acc (xy c u.xs.toNat) (xy c (8 + u.ys.toNat)) u.pair
    let w1 := macWrites c u1.op.toNat u1.acc (xy c u1.xs.toNat) (xy c (8 + u1.ys.toNat)) u1.pair
    Obl.Completes n.val i (if u1.op = 0 then w0.and m else (w0.and w1).and m) s := by
  intro c w0 w1
  have h0 : macField c { op := op, acc := u.acc, xs := u.xs, ys := u.ys, pair := u.pair } = .done w0 := macField_of_op _ hop
  have hbody : macRes op u (.inU0 u1) p q c = withMoves c p q (both (.done w0) (macField c u1)) := by
    simp only [macRes, h0]
    rw [if_neg fun h => hacc h.1 h.2]
  split
  case isTrue h1 =>
    have hf : macField c u1 = .done noWrites := by rw [hidle h1]; rfl
    refine completes_withMoves hrun hready hmoves ?_ (by simp [w0, macWrites, noWrites]) rfl rfl rfl rfl (.inl hg)
    rw [hbody, hf, both_macWrites _ _ _ _ _ _ rfl, and_noWrites]
  case isFalse h1 =>
    refine completes_withMoves hrun hready hmoves ?_ (by simp [w0, w1, macWrites, noWrites, GWrites.and]) rfl rfl rfl rfl (.inl hg)
    rw [hbody, macField_of_op c h1, both_macWrites _ _ _ _ _ _ rfl]

end

/-- A filter tap multiplies the two words its pointers give, and moves the first one on by one place. -/
theorem completes_ftap {n : Fin 48} {i : Instr} {op : Nat} {g pair : BitVec 2} {pd pc : BitVec 3} {wa pd' pc' : Lane} {s : State}
    (hready : GReady n.val .plain s) (hg : modeGtrap (modeNow (core s n.val)) = false)
    (hrun : exec i s = .next (garnet n.val .plain (ftapRes op g pair pd pc) s)) (hne : pd ≠ pc)
    (hwa : stepPtr (ptr (core s n.val) pd.toNat) 1 (modReg (core s n.val) pd.toNat) (baseReg (core s n.val) pd.toNat) = some wa)
    (hpd : stepPtr (ptr (core s n.val) pd.toNat) (-1) (modReg (core s n.val) pd.toNat) (baseReg (core s n.val) pd.toNat) = some pd')
    (hpc : stepPtr (ptr (core s n.val) pc.toNat) 1 (modReg (core s n.val) pc.toNat) (baseReg (core s n.val) pc.toNat) = some pc')
    (hdat : dmemOk (core s n.val) (ptr (core s n.val) pd.toNat).toNat = true) (hcof : dmemOk (core s n.val) (ptr (core s n.val) pc.toNat).toNat = true)
    (hto : dmemOk (core s n.val) wa.toNat = true) :
    let c := core s n.val
    let x := dmemRead c (ptr c pd.toNat).toNat
    Obl.Completes n.val i ((macWrites c op g x (dmemRead c (ptr c pc.toNat).toNat) pair).and
      { noWrites with mem := [(wa.toNat, x)], post := [(pd.toNat, pd'), (pc.toNat, pc')] }) s := by
  intro c x
  refine completes_of_done hrun hready ?_ rfl rfl (by simp [GWrites.and, macWrites, noWrites]; omega) (.inl hg)
  simp only [ftapRes, if_neg hne, hwa, hpd, hpc, hdat, hcof, hto, Bool.not_true, Bool.or_self, Bool.false_eq_true, if_false, macUnit_eq]
  exact both_macWrites _ _ _ _ _ _ rfl

theorem garnetMacCompletes : Obl.GarnetMacCompletes := by
  intro n u u1 p q m g pair pd pc s hready hg c fr mac one two
  have htwo (op : Nat) : two op m = if u1.op = 0 then (macWrites c op u.acc (xy c u.xs.toNat) (xy c (8 + u.ys.toNat)) u.pair).and m else
      ((macWrites c op u.acc (xy c u.xs.toNat) (xy c (8 + u.ys.toNat)) u.pair).and
        (macWrites c u1.op.toNat u1.acc (xy c u1.xs.toNat) (xy c (8 + u1.ys.toNat)) u1.pair)).and m := by
    rw [← and_noWrites (macWrites c u1.op.toNat _ _ _ _)]
    rfl
  refine ⟨fun hmoves => ⟨?movp, ?_, ?_, ?_, fun hidle hacc => ⟨?_, ?_, ?_⟩⟩, fun wa pd' pc' hne hwa hpd hpc hdat hcof hto => ⟨?_, ?_, ?_⟩⟩
  case movp =>
    obtain ⟨mpost, mio, mctl, mgov, -⟩ := pmoves_done c p q m hmoves
    exact completes_of_done rfl hready hmoves mctl mio mpost (.inr mgov)
  · exact completes_macInU1 hready hg hmoves (op := 1) (by decide) rfl
  · exact completes_macInU1 hready hg hmoves (op := 2) (by decide) rfl
  · exact completes_macInU1 hready hg hmoves (op := 3) (by decide) rfl
  · exact htwo 1 ▸ completes_macInU0 hready hg hmoves (op := 1) (by decide) hidle hacc rfl
  · exact htwo 2 ▸ completes_macInU0 hready hg hmoves (op := 2) (by decide) hidle hacc rfl
  · exact htwo 3 ▸ completes_macInU0 hready hg hmoves (op := 3) (by decide) hidle hacc rfl
  · exact completes_ftap hready hg rfl hne hwa hpd hpc hdat hcof hto
  · exact completes_ftap hready hg rfl hne hwa hpd hpc hdat hcof hto
  · exact completes_ftap hready hg rfl hne hwa hpd hpc hdat hcof hto

/-- Settles O47: the accumulator instructions, and the MAC issue with the filter taps. -/
theorem garnetAccumulatorAndMacComplete : Obligations.GarnetAccumulatorAndMacComplete :=
  ⟨garnetAccumulatorCompletes, garnetMacCompletes⟩

end Sys2Proof.Machine
end

section
/-! PROOFS. Garnet loads, stores, immediates and moves that raise nothing (R225, R255, R257, R260). -/

namespace Sys2Proof.Machine

/-! ### Registers and words as destinations -/

/-- The writes of a move of `v` to register `r`. -/
def regWrite (r : Nat) (v : Word48) : GWrites := { noWrites with regs := [(r, narrow r v)] }

/-- A move to a register that exists and that user mode may write so. -/
theorem regDst_done {c : CoreSt} {r : Nat} {v : Word48} (hr : r ≠ 0x3F)
    (hfree : ¬(r = codeMODE ∧ userMode c = true ∧ (narrow r v ^^^ c.cur.get codeMODE) &&& 0x1F00 ≠ 0)) :
    regDst c r v = .done (regWrite r v) := by
  simp only [regDst, if_neg hr, if_neg hfree, regWrite]

theorem regDst_done_of_not_mode {c : CoreSt} {r : Nat} (v : Word48) (hr : r ≠ 0x3F) (hmode : r ≠ codeMODE) :
    regDst c r v = .done (regWrite r v) :=
  regDst_done hr fun h => hmode h.1

theorem both_posted {w : GWrites} (post : List (Nat × Lane)) (h : regTwice w.regs = false) :
    both (.done w) (posted post) = .done (w.and { noWrites with post := post }) := by
  simp [both, posted, noWrites, h]

/-- Address generation modifies the pointer that the mode names, if any. -/
theorem eaOf_post {c : CoreSt} {ea : EA} {a : Lane} {post : List (Nat × Lane)} (h : eaOf c ea = some (a, post)) : ∀ e ∈ post, e.1 < 8 := by
  have hp : ea.pn.toNat < 8 := ea.pn.isLt
  unfold eaOf at h
  dsimp only at h
  split at h
  · obtain ⟨-, rfl⟩ : _ ∧ [] = post := by simpa using h
    simp
  · obtain ⟨-, q, -, -, rfl⟩ : _ ∧ ∃ q, _ ∧ _ ∧ [(ea.pn.toNat, q)] = post := by simpa using h
    simp [hp]
  · obtain ⟨-, q, -, -, rfl⟩ : _ ∧ ∃ q, _ ∧ _ ∧ [(ea.pn.toNat, q)] = post := by simpa using h
    simp [hp]
  · obtain ⟨-, -, rfl⟩ : _ ∧ _ ∧ [] = post := by simpa using h
    simp

theorem toNat_ne_3F {r : BitVec 6} (h : r ≠ 0x3F) : r.toNat ≠ 0x3F := fun e => h (BitVec.eq_of_toNat_eq e)

/-- A word of the three-word form fills accumulator lanes, and nothing else. -/
theorem ldawRes_done (c : CoreSt) (g : BitVec 2) {w : BitVec 2} (v : Word48) (hw : w ≠ 3) :
    ∃ l, ldawRes c g w v = .done { noWrites with acc := l } := by
  have hcases : w = 0 ∨ w = 1 ∨ w = 2 := by revert w; decide
  rcases hcases with rfl | rfl | rfl <;> exact ⟨_, rfl⟩

/-! ### Loads and stores -/

section
variable {n : Fin 48} {i : Instr} {body : CoreSt → GRes} {s : State} (hready : GReady n.val .plain s)
include hready

/-- A plain instruction that writes registers, accumulators and DMEM words alone, with a post-modify. -/
theorem completes_posted {w : GWrites} {post : List (Nat × Lane)} (hrun : exec i s = .next (garnet n.val .plain body s))
    (hbody : body (core s n.val) = both (.done w) (posted post)) (hpost : ∀ e ∈ post, e.1 < 8) (htwice : regTwice w.regs = false)
    (hctl : w.ctl = .plain) (hio : w.io = []) (hw : w.post = []) (hgov : w.gov = 0) :
    Obl.Completes n.val i (w.and { noWrites with post := post }) s :=
  completes_of_done hrun hready (hbody.trans (both_posted post htwice)) (by simp [GWrites.and, hctl, noWrites])
    (by simp [GWrites.and, hio, noWrites]) (by simpa [GWrites.and, hw, noWrites] using hpost) (.inr (by simp [GWrites.and, hgov, noWrites]))

/-- A move to one register. -/
theorem completes_regWrite {r : Nat} {v : Word48} (hrun : exec i s = .next (garnet n.val .plain body s))
    (hbody : body (core s n.val) = .done (regWrite r v)) : Obl.Completes n.val i ((regWrite r v).and noWrites) s := by
  rw [and_noWrites]
  exact completes_of_done hrun hready hbody rfl rfl (by simp [regWrite, noWrites]) (.inr rfl)

end

/-- Settles O2: what each instruction writes to its destination, with the post-modify of its address. -/
theorem garnetMoveCompletes : Obligations.GarnetMoveCompletes := by
  intro n reg rd g w ea imm s hready hreg hrd c put free
  have hr := toNat_ne_3F hreg
  refine ⟨fun a post hea ha hok => ?_, fun h16 => ?_, fun h16 hfree => ?_, fun hlo hhi => ?_, fun hfree => ?_⟩
  · have hpost := eaOf_post hea
    have hload : loadWord s n.val c a.toNat false = .inr (dmemRead c a.toNat) := by simp [loadWord, ha, hok]
    have hstore (v : Word48) : storeWord s n.val c a.toNat v = .done { noWrites with mem := [(a.toNat, v)] } := by simp [storeWord, ha, hok]
    refine ⟨fun hfree => ?ld, ?st, fun hw => ?staw, fun hw => ?ldaw⟩
    case ld =>
      refine completes_posted hready rfl (w := regWrite reg.toNat (dmemRead c a.toNat)) ?_ hpost rfl rfl rfl rfl rfl
      simp only [c, hea, if_neg hreg, hload, regDst_done hr hfree]
    case st =>
      refine completes_posted hready rfl (w := { noWrites with mem := [(a.toNat, regSrc c reg.toNat)] }) ?_ hpost rfl rfl rfl rfl rfl
      simp only [c, hea, if_neg hreg, hstore]
    case staw =>
      refine completes_posted hready rfl (w := { noWrites with mem := [(a.toNat, stawWord c g w)] }) ?_ hpost rfl rfl rfl rfl rfl
      simp only [c, hea, if_neg hw, hstore]
    case ldaw =>
      obtain ⟨l, hl⟩ := ldawRes_done c g (dmemRead c a.toNat) hw
      refine ⟨_, hl, completes_posted hready rfl ?_ hpost rfl rfl rfl rfl rfl⟩
      simp only [c, hea, if_neg hw, hload, hl]
  · have hmode : reg.toNat ≠ codeMODE := by unfold codeMODE; omega
    have hwrite (v : Word48) := regDst_done_of_not_mode (c := c) v hr hmode
    refine ⟨completes_regWrite hready rfl ?_, completes_regWrite hready rfl ?_, completes_regWrite hready rfl ?_,
      completes_of_done rfl hready ?_ rfl rfl (by simp [noWrites]) (.inr rfl)⟩
    · simp [c, Nat.not_le.mpr h16, hwrite]
    · simp [c, Nat.not_le.mpr h16, hwrite]
    · simp [c, Nat.not_le.mpr h16, hwrite]
    · exact if_neg (Nat.not_le.mpr h16)
  · exact completes_regWrite hready rfl (by simp [c, h16, regDst_done hr hfree])
  · have hmode : reg.toNat ≠ codeMODE := by unfold codeMODE; omega
    exact completes_regWrite hready rfl (by simp [c, hlo, hhi, regDst_done_of_not_mode _ hr hmode])
  · exact completes_regWrite hready rfl ((if_neg hreg).trans (regDst_done (toNat_ne_3F hrd) hfree))

end Sys2Proof.Machine
end

section
/-! PROOFS. Handler entry (R269, R270), and the GOV trap of an accumulation under GTRAP (R246). -/

namespace Sys2Proof.Machine

/-! ### What an entry leaves (R269, R270) -/

section
variable (c : CoreSt) (code detail : Nat) (async bds msh : Bool) (epc pc : BitVec 16)

@[simp] theorem enterHandler_pc : (enterHandler c code detail async bds msh epc pc).pc = pc := rfl
@[simp] theorem enterHandler_inExc : (enterHandler c code detail async bds msh epc pc).inExc = true := rfl
@[simp] theorem enterHandler_dmem : (enterHandler c code detail async bds msh epc pc).dmem = c.dmem := rfl
@[simp] theorem enterHandler_job : (enterHandler c code detail async bds msh epc pc).job = c.job := rfl
@[simp] theorem enterHandler_acc (k : Nat) : (enterHandler c code detail async bds msh epc pc).cur.acc k = c.cur.acc k := rfl

theorem enterHandler_mode : (enterHandler c code detail async bds msh epc pc).cur.get codeMODE = c.cur.get codeMODE &&& ~~~(0x1100 : Word48) := by
  simp only [enterHandler, collapse, Arch.get_set, if_true]

theorem enterHandler_epc : (enterHandler c code detail async bds msh epc pc).cur.get codeEPC = epc.zeroExtend 48 := by
  simp [enterHandler, collapse, Arch.get_set, codeEPC, codeMODE]

theorem enterHandler_ecause : (enterHandler c code detail async bds msh epc pc).cur.get codeECAUSE =
    BitVec.ofNat 48 (code + 256 * b2n async + 65536 * detail) := by
  simp [enterHandler, collapse, Arch.get_set, codeECAUSE, codeEPC, codeMODE]

theorem enterHandler_estat : (enterHandler c code detail async bds msh epc pc).cur.get codeESTAT =
    BitVec.ofNat 48 (b2n bds + 2 * b2n msh + 4 * b2n (modeIe (c.cur.get codeMODE)) + 8 * b2n (modeUsr (c.cur.get codeMODE))) := by
  simp [enterHandler, collapse, Arch.get_set, codeESTAT, codeECAUSE, codeEPC, codeMODE]

theorem enterHandler_get_other {r : Nat} (h1 : r ≠ codeEPC) (h2 : r ≠ codeECAUSE) (h3 : r ≠ codeESTAT) (h4 : r ≠ codeMODE) :
    (enterHandler c code detail async bds msh epc pc).cur.get r = c.cur.get r := by
  simp only [enterHandler, collapse, Arch.get_set, h1, h2, h3, h4, if_false]

/-- All consumers see MODE as it is, with IE and USR clear. -/
theorem modeNow_enterHandler : modeNow (enterHandler c code detail async bds msh epc pc) = c.cur.get codeMODE &&& ~~~(0x1100 : Word48) :=
  enterHandler_mode c code detail async bds msh epc pc

theorem modeIe_enterHandler : modeIe (modeNow (enterHandler c code detail async bds msh epc pc)) = false := by
  simp [modeNow_enterHandler, modeIe]

theorem userMode_enterHandler : userMode (enterHandler c code detail async bds msh epc pc) = false := by
  simp [userMode, modeNow_enterHandler, modeUsr]

end

/-! ### What an instruction's writes leave of the core -/

theorem written_slot (w : GWrites) (c : CoreSt) : (written w c).slot = c.slot := by rw [(written_fields w c).1]
theorem written_inExc (w : GWrites) (c : CoreSt) : (written w c).inExc = c.inExc := by rw [(written_fields w c).1]
theorem written_job (w : GWrites) (c : CoreSt) : (written w c).job = c.job := by rw [(written_fields w c).1]
theorem goOn_inExc {c d : CoreSt} (h : d.slot = c.slot) : (goOn c d).inExc = d.inExc := by rw [(goOn_fields c d h).1]
theorem goOn_job {c d : CoreSt} (h : d.slot = c.slot) : (goOn c d).job = d.job := by rw [(goOn_fields c d h).1]

/-! ### The GOV trap (R246) -/

/-- An instruction whose accumulation overflows under GTRAP writes what it writes, goes on, and traps. -/
theorem complete_trap {n : Nat} {w : GWrites} {s : State} (hctl : w.ctl = .plain) (hio : w.io = [])
    (hg : modeGtrap (modeNow (core s n)) = true) (hgov : w.gov ≠ 0) :
    complete n w s = govTrap n w.gov (decide (0 < (core s n).shadow)) (setCore n (goOn (core s n) (written w (core s n))) s) := by
  simp [complete, hctl, hio, hg, hgov, goTo]

/-- Outside an exception the trap enters the handler; nothing more follows for firmware. -/
theorem govTrap_of_firmware {n d : Nat} {msh : Bool} {s : State} (hexc : (core s n).inExc = false) (hjob : jobKernel (core s n) = none) :
    govTrap n d msh s = setCore n (enterHandler (core s n) 7 d false false msh (core s n).pc 0x0010) s := by
  have hk : jobKernel (enterHandler (core s n) 7 d false false msh (core s n).pc 0x0010) = none := hjob
  simp only [govTrap, hexc, Bool.false_eq_true, false_and, if_false, classResponse, core_setCore, hk, Nat.reduceEqDiff, or_self, if_true]

theorem jobKernel_of_firmware {c : CoreSt} {j : Job} (hj : c.job = some j) (hfw : ∀ st k, j.kind ≠ .krn st k) : jobKernel c = none := by
  obtain ⟨chan, kind, seq, urgent, entered, aborted⟩ := j
  cases kind <;> simp_all [jobKernel, kernelOf]

/-- Bits 8 and 9 of STAT are GOV of lanes H and L: they keep what they hold, and take what the instruction sets (Table 9.6). -/
theorem stat_gov (v : Word48) {z : Nat} (hz : z < 16) (h l : Bool) :
    let st := BitVec.ofNat 48 (v.toNat / 16 * 16 + z ||| (b2n h + 2 * b2n l) * 256 ||| 0 * 1024)
    st.getLsbD 8 = (v.getLsbD 8 || h) ∧ st.getLsbD 9 = (v.getLsbD 9 || l) := by
  have hkeep (k : Nat) (hk : 4 ≤ k) : (v.toNat / 16 * 16 + z).testBit k = v.getLsbD k := by
    have hsum : v.toNat / 16 * 16 + z = 2 ^ 4 * (v.toNat / 2 ^ 4) + z := by omega
    rw [hsum, Nat.testBit_two_pow_mul_add _ hz, if_neg (by omega), Nat.testBit_div_two_pow, BitVec.testBit_toNat]
    congr 1
    omega
  have hset : ((b2n h + 2 * b2n l) * 256).testBit 8 = h ∧ ((b2n h + 2 * b2n l) * 256).testBit 9 = l := by cases h <;> cases l <;> decide
  simp only [BitVec.getLsbD_ofNat, Nat.testBit_or, hkeep 8 (by decide), hkeep 9 (by decide), hset]
  simp

theorem znBits_lt {w : Nat} (h l : LaneRes w) : znBits h l < 16 := by
  have hb (b : Bool) : b2n b ≤ 1 := by cases b <;> decide
  have h1 := hb h.z
  have h2 := hb h.n
  have h3 := hb l.z
  have h4 := hb l.n
  simp only [znBits]
  omega

theorem govBits_ne_zero {w : Nat} {h l : LaneRes w} (hg : h.gov = true ∨ l.gov = true) : govBits h l ≠ 0 := by
  rcases hg with hg | hg <;> simp [govBits, hg, b2n]

/-- What an accumulation without moves writes, before the trap. -/
def accWrites (d : BitVec 2) (h l : LaneRes 56) : GWrites :=
  { noWrites with acc := [(2 * d.toNat, h.v), (2 * d.toNat + 1, l.v)], zn := some (znBits h l), gov := govBits h l, sov := sovBits h l }

/-- Settles O3: ADDA completes as it does without GTRAP, and the trap at its retirement enters the handler. -/
theorem garnetGuardTrap : Obligations.GarnetGuardTrap := by
  intro n d a j s c z h l hready hj hfw hg hgov hslot hend hexc
  have hbody : accOp d true z z (fun x k => accLane (accI x d k + accI x a k)) c = .done (accWrites d h l) := by
    rw [show accWrites d h l = (accWrites d h l).and noWrites from (and_noWrites _).symm]
    exact withMoves_done c z z (accWrites d h l) noWrites rfl (by simp [accWrites, noWrites]) rfl
  have hrun : exec (.adda n d a z z) s = .next (complete n.val (accWrites d h l) s) :=
    congrArg Host.Outcome.next (garnet_done n.val .plain _ _ s hready hbody)
  have hcur := (written_fields (accWrites d h l) c).2.1
  have hws := written_slot (accWrites d h l) c
  have hxexc := (goOn_inExc hws).trans (written_inExc _ c)
  have hxjob := (goOn_job hws).trans (written_job _ c)
  obtain ⟨-, hacc, hget, -, -, hpc⟩ := goOn_fields c (written (accWrites d h l) c) hws
  generalize hx : goOn c (written (accWrites d h l) c) = x at hacc hget hpc hxexc hxjob
  have hxacc (k : Nat) : x.cur.acc k = lastOf k (accWrites d h l).acc (c.cur.acc k) := by
    rw [hacc, hcur, afterWrites_acc]; rfl
  have hxstat : x.cur.get codeSTAT = BitVec.ofNat 48 ((c.cur.get codeSTAT).toNat / 16 * 16 + znBits h l ||| govBits h l * 256 ||| 0 * 1024) := by
    rw [hget codeSTAT (fun hl => absurd hl.2 (by decide)), hcur, afterWrites_stat]; rfl
  obtain ⟨hbit8, hbit9⟩ := stat_gov (c.cur.get codeSTAT) (znBits_lt h l) h.gov l.gov
  have htrap : complete n.val (accWrites d h l) s =
      setCore n.val (enterHandler x 7 (govBits h l) false false (decide (0 < c.shadow)) x.pc 0x0010) s := by
    rw [complete_trap rfl rfl hg (govBits_ne_zero hgov), hx, govTrap_of_firmware, core_setCore, setCore_setCore]
    · rfl
    · rw [core_setCore, hxexc, hexc]
    · rw [core_setCore]
      exact jobKernel_of_firmware (hxjob.trans hj) hfw
  refine ⟨_, hrun, ?_⟩
  rw [htrap, core_setCore]
  refine ⟨rfl, ?_, ?_, ?_, ?_, ?_, rfl, ?_, modeIe_enterHandler .., userMode_enterHandler ..⟩
  · simp [hxacc, accWrites, lastOf]
  · simp [hxacc, accWrites, lastOf]
  · rw [enterHandler_get_other _ _ _ _ _ _ _ _ (by decide) (by decide) (by decide) (by decide), hxstat]
    exact hbit8
  · rw [enterHandler_get_other _ _ _ _ _ _ _ _ (by decide) (by decide) (by decide) (by decide), hxstat]
    exact hbit9
  · rw [enterHandler_epc, hpc hslot hend]
  · rw [enterHandler_ecause]; rfl

end Sys2Proof.Machine
end

section
/-! PROOFS. Garnet branches, hardware loops and RTE (R263 to R268, R271). -/

namespace Sys2Proof.Machine

/-! ### An instruction that goes elsewhere -/

/-- An instruction of any kind that calls for no trap and stores to no core I/O location. -/
theorem complete_goTo {n : Nat} {w : GWrites} {s : State} (hio : w.io = []) (hgov : w.gov = 0) :
    complete n w s = setCore n (goTo w.ctl (core s n) (written w (core s n))) s := by
  simp [complete, hio, hgov]

theorem applyWrites_shadow (w : GWrites) (c : CoreSt) : (applyWrites w c).shadow = c.shadow := by
  rw [(applyWrites_fields w c (fun _ => True) (fun _ _ => trivial)).1]

theorem written_shadow {w : GWrites} {c : CoreSt} (h : writesMode w = false) : (written w c).shadow = c.shadow - 1 := by
  simp only [written, addCycles, h, Bool.false_eq_true, if_false, applyWrites_shadow]

/-- Writing STAT back as it stands changes no register. -/
theorem afterWrites_get_of_no_flags {w : GWrites} (a : Arch) (hzn : w.zn = none) (hgov : w.gov = 0) (hsov : w.sov = 0) (r : Nat) :
    (afterWrites w a).get r = (w.regs.foldl (fun a e => regPut e.1 e.2 a) a).get r := by
  by_cases hr : r = codeSTAT
  · subst hr
    rw [afterWrites_stat, hzn, hgov, hsov]
    simp
  · rw [afterWrites_get _ _ _ hr]

/-! ### Branches (R263, R264) -/

/-- A branch that writes at most a register retires into its slot. -/
theorem branches_of_done {n : Nat} {i : Instr} {body : CoreSt → GRes} {w : GWrites} {target : BitVec 16} {a : Arch} {s : State}
    (hrun : exec i s = .next (garnet n (.branch 0) body s)) (hready : GReady n (.branch 0) s) (hbody : body (core s n) = .done w)
    (hw : w = { noWrites with regs := w.regs, ctl := .branch target }) (hmode : writesMode w = false)
    (hregs : ∀ r, (w.regs.foldl (fun a e => regPut e.1 e.2 a) (core s n).cur).get r = a.get r) (hacc : ∀ k, a.acc k = (core s n).cur.acc k) :
    ∃ t, exec i s = .next t ∧ Obl.Branches n target a s t := by
  have hpost : w.post = [] := by rw [hw]; rfl
  have hmem : w.mem = [] := by rw [hw]; rfl
  have hctl : w.ctl = .branch target := by rw [hw]
  have hnoacc : w.acc = [] := by rw [hw]; rfl
  have hnoflags : w.zn = none ∧ w.gov = 0 ∧ w.sov = 0 := by rw [hw]; exact ⟨rfl, rfl, rfl⟩
  obtain ⟨hfields, hcur, hdmem, -⟩ := written_fields w (core s n)
  have hshadow := written_shadow (c := core s n) hmode
  have hsame : (afterPost w (core s n)).cur = (core s n).cur := by rw [afterPost, hpost]; rfl
  refine ⟨complete n w s, by rw [hrun, garnet_done n _ body w s hready hbody], ?_⟩
  rw [complete_goTo (by rw [hw]; rfl) (by rw [hw]; rfl), hctl, Obl.Branches, core_setCore]
  refine ⟨rfl, ?_, fun r => ?_, fun k => ?_⟩
  · rw [hmem] at hdmem
    simp only [goTo]
    rw [hfields, hdmem, hshadow]
    rfl
  · rw [goTo, hcur, hsame, ← hregs r]
    exact afterWrites_get_of_no_flags _ hnoflags.1 hnoflags.2.1 hnoflags.2.2 r
  · rw [goTo, hcur, hsame, afterWrites_acc, hnoacc, hacc]
    rfl

/-- A pointer takes the low 24 bits of what is written. -/
theorem regPut_pointer {r : Nat} (v : Word48) (a : Arch) (hlo : 0x10 ≤ r) (hhi : r < 0x18) : regPut r v a = a.set r (narrow r v) := by
  have h1 : r ≠ codeSTAT ∧ r ≠ codeMODE ∧ r ≠ codeESTAT ∧ r ≠ codeECAUSE := by unfold codeSTAT codeMODE codeESTAT codeECAUSE; omega
  simp only [regPut, h1, if_false]

theorem narrow_pointer {r : Nat} {v : Word48} (hlo : 0x10 ≤ r) (hhi : r < 0x18) (hv : v.toNat < 2 ^ 24) : narrow r v = v := by
  have hw : regWidth r = 24 := by
    unfold regWidth codeEPC codeLDEPTH
    rw [if_neg (by omega), if_neg (by omega), if_neg (by omega), if_neg (by omega)]
  rw [narrow, hw, Nat.mod_eq_of_lt hv, BitVec.ofNat_toNat, BitVec.setWidth_eq]

theorem garnetBranchCompletes : Obl.GarnetBranchCompletes := by
  intro n tgt cond pn s hready c
  have hpn : pn.toNat < 8 := pn.isLt
  refine ⟨?bra, fun b hb => ?bcc, ?brl, fun hp => ?jmp⟩
  case bra => exact branches_of_done rfl hready rfl rfl rfl (fun _ => rfl) (fun _ => rfl)
  case bcc =>
    refine branches_of_done (w := { noWrites with ctl := .branch (if b then tgt else c.pc + 2) }) rfl hready ?_ rfl rfl (fun _ => rfl) (fun _ => rfl)
    simp only [c] at hb
    simp only [hb]
    rfl
  case brl =>
    refine branches_of_done rfl hready rfl rfl (by simp [writesMode, codeMODE]; omega) (fun r => ?_) (fun _ => rfl)
    have hput : regPut (0x10 + pn.toNat) ((c.pc + 2).zeroExtend 48) c.cur = c.cur.set (0x10 + pn.toNat) ((c.pc + 2).zeroExtend 48) := by
      rw [regPut_pointer _ _ (by omega) (by omega), narrow_pointer (by omega) (by omega)]
      have := (c.pc + 2).isLt
      rw [BitVec.toNat_setWidth]
      omega
    exact congrArg (Arch.get · r) hput
  case jmp =>
    refine branches_of_done (w := { noWrites with ctl := .branch (BitVec.ofNat 16 (c.h3.get (0x10 + pn.toNat)).toNat) }) rfl hready ?_ rfl rfl
      (fun _ => rfl) (fun _ => rfl)
    have hq : ¬(c.h3.get (0x10 + pn.toNat)).toNat / 65536 ≠ 0 := by omega
    exact if_neg hq

/-! ### Loop registers (R266, R267) -/

/-- The loop hardware sees at once what it writes. -/
theorem loopReg_hwPut (k j : Nat) (v : Word48) (c : CoreSt) :
    loopReg (hwPut k v c) j = if j = k then v.toNat % 2 ^ regWidth k else loopReg c j := by
  have hhw : (hwPut k v c).hw = tblSet k v c.hw := by simp only [hwPut]; split <;> rfl
  unfold loopReg
  rw [hhw]
  split
  case isTrue h => subst h; rw [tblGet_set_same]
  case isFalse h => rw [tblGet_set_other _ _ _ _ _ h]

/-- An instruction that writes nothing of its own: where it goes, as `ctl` says. -/
def goes (ctl : Ctl) : GWrites := { noWrites with ctl := ctl }

section
variable (ctl : Ctl) (c : CoreSt)

theorem written_goes_get (r : Nat) : (written (goes ctl) c).cur.get r = c.cur.get r := by
  rw [(written_fields (goes ctl) c).2.1]
  exact afterWrites_get_of_no_flags _ rfl rfl rfl r

theorem written_goes_acc (k : Nat) : (written (goes ctl) c).cur.acc k = c.cur.acc k := by
  rw [(written_fields (goes ctl) c).2.1, afterWrites_acc]
  rfl

theorem written_goes_dmem : (written (goes ctl) c).dmem = c.dmem := (written_fields (goes ctl) c).2.2.1

theorem loopReg_written_goes {c : CoreSt} (hlate : c.late = []) (k : Nat) : loopReg (written (goes ctl) c) k = loopReg c k := by
  unfold loopReg
  rw [(written_fields (goes ctl) c).2.2.2, applyWrites_hw _ _ hlate]
  rfl

theorem written_lists (w : GWrites) : (written w c).lists = c.lists := by rw [(written_fields w c).1]

end

theorem HwOnly.slot {P : Nat → Prop} {c d : CoreSt} (h : HwOnly P c d) : d.slot = c.slot := by rw [h.1]
theorem HwOnly.dmem {P : Nat → Prop} {c d : CoreSt} (h : HwOnly P c d) : d.dmem = c.dmem := by rw [h.1]
theorem HwOnly.lists {P : Nat → Prop} {c d : CoreSt} (h : HwOnly P c d) : d.lists = c.lists := by rw [h.1]
theorem HwOnly.job {P : Nat → Prop} {c d : CoreSt} (h : HwOnly P c d) : d.job = c.job := by rw [h.1]

/-- The registers of the loop hardware. -/
def IsLoopReg (r : Nat) : Prop := 0x28 ≤ r ∧ r ≤ 0x31

/-- A loop instruction changes loop registers, and the next one follows. -/
theorem loops_of_hwOnly {n : Nat} {ctl : Ctl} {s : State} {d : CoreSt} (hslot : (core s n).slot = none)
    (hd : HwOnly IsLoopReg (written (goes ctl) (core s n)) d) (hgo : goTo ctl (core s n) (written (goes ctl) (core s n)) = { d with pc := (core s n).pc + 1 }) :
    complete n (goes ctl) s = setCore n { d with pc := (core s n).pc + 1 } s ∧ Obl.Loops n s (complete n (goes ctl) s) := by
  have hrun : complete n (goes ctl) s = setCore n { d with pc := (core s n).pc + 1 } s :=
    (complete_goTo rfl rfl).trans (congrArg (setCore n · s) hgo)
  refine ⟨hrun, ?_⟩
  rw [hrun, Obl.Loops, core_setCore]
  refine ⟨rfl, rfl, ?_, ?_, ?_, ?_, fun k => ?_, fun r hr => ?_⟩
  · exact hd.slot.trans ((written_slot _ _).trans hslot)
  · exact hd.dmem.trans (written_goes_dmem ctl _)
  · exact hd.lists.trans (written_lists _ _)
  · exact hd.job.trans (written_job _ _)
  · exact (hd.2.1 k).trans (written_goes_acc ctl _ k)
  · exact (hd.2.2.1 r (by unfold IsLoopReg; omega)).trans (written_goes_get ctl _ r)

/-- An instruction that may not stand in a delay slot does not. -/
theorem slot_none_of_ready {n : Nat} {ctl : Ctl} {s : State} (hready : GReady n ctl s) (hctl : slotOk ctl = false) : (core s n).slot = none := by
  have hplace := hready.2
  unfold misplaced at hplace
  cases hs : (core s n).slot with
  | none => rfl
  | some x =>
    simp only [hs, hctl, Option.isSome_some, Bool.not_false, Bool.and_self, if_true] at hplace
    split at hplace <;> cases hplace

/-- The loop registers of level `k` are apart from one another and from LDEPTH, and of their widths (Table 9.3). -/
theorem loopReg_startLoop (c d : CoreSt) {le : BitVec 16} {cnt : BitVec 24} {k : Nat} (hk : loopReg c codeLDEPTH = k) (hlt : k < 3)
    (hpc : c.pc.toNat + 1 ≤ le.toNat) :
    let e := goTo (.startLoop le cnt) c d
    loopReg e codeLDEPTH = k + 1 ∧ loopReg e (0x28 + k) = c.pc.toNat + 1 ∧ loopReg e (0x2B + k) = le.toNat ∧ loopReg e (0x2E + k) = cnt.toNat := by
  have hgo (j : Nat) : loopReg (goTo (.startLoop le cnt) c d) j = loopReg (hwPut codeLDEPTH (BitVec.ofNat 48 (k + 1))
      (hwPut (0x2E + k) (cnt.zeroExtend 48) (hwPut (0x2B + k) (le.zeroExtend 48) (hwPut (0x28 + k) ((c.pc + 1).zeroExtend 48) d)))) j := by
    rw [← hk]; rfl
  have hle := le.isLt
  have hcnt := cnt.isLt
  have hnext : (c.pc + 1#16).toNat = c.pc.toNat + 1 := by
    rw [BitVec.toNat_add]
    exact Nat.mod_eq_of_lt (Nat.lt_of_le_of_lt hpc hle)
  simp only [hgo, loopReg_hwPut]
  have hcases : k = 0 ∨ k = 1 ∨ k = 2 := by omega
  rcases hcases with rfl | rfl | rfl <;> simp [codeLDEPTH, codeEPC, regWidth, hnext, -BitVec.toNat_add] <;> omega

/-- A loop has started: the next level holds its bounds and its count. -/
theorem startLoop_done {n : Nat} {i : Instr} {body : CoreSt → GRes} {le : BitVec 16} {cnt : BitVec 24} {s : State}
    (hrun : exec i s = .next (garnet n (.startLoop 0 0) body s)) (hready : GReady n (.startLoop 0 0) s)
    (hdepth : loopReg (core s n) codeLDEPTH < 3) (hpc : (core s n).pc.toNat + 1 ≤ le.toNat)
    (hbody : body (core s n) = doRes (core s n) cnt le) (hcnt : cnt ≠ 0) :
    let k := loopReg (core s n) codeLDEPTH
    ∃ t, exec i s = .next t ∧ Obl.Loops n s t ∧ loopReg (core t n) codeLDEPTH = k + 1 ∧ loopReg (core t n) (0x28 + k) = (core s n).pc.toNat + 1 ∧
      loopReg (core t n) (0x2B + k) = le.toNat ∧ loopReg (core t n) (0x2E + k) = cnt.toNat := by
  intro k
  have hdone : body (core s n) = .done (goes (.startLoop le cnt)) := by
    rw [hbody, doRes, if_neg (by simp only [not_or]; exact ⟨hcnt, by omega, by omega⟩)]
    rfl
  have only (j : Nat) (v : Word48) (c : CoreSt) (hj : IsLoopReg j) := hwPut_only IsLoopReg j v c hj
  obtain ⟨hcomp, hloops⟩ := loops_of_hwOnly (slot_none_of_ready hready rfl)
    ((((only (0x28 + k) _ _ (by unfold IsLoopReg; omega)).trans (only (0x2B + k) _ _ (by unfold IsLoopReg; omega))).trans
      (only (0x2E + k) _ _ (by unfold IsLoopReg; omega))).trans (only codeLDEPTH _ _ (by unfold IsLoopReg; decide))) (rfl : goTo (.startLoop le cnt) _ _ = _)
  refine ⟨_, by rw [hrun, garnet_done n _ body _ s hready hdone], hloops, ?_⟩
  rw [hcomp, core_setCore]
  exact loopReg_startLoop (core s n) _ rfl hdepth hpc

/-! ### The loop-back decision (R267) -/

/-- The counter of the innermost loop after one more pass. -/
def nextCount (c : CoreSt) : Nat := (loopReg c (0x2E + (loopReg c codeLDEPTH - 1)) + 16777215) % 16777216

/-- The core with the counter of its innermost loop counted down. -/
def counted (c : CoreSt) : CoreSt := hwPut (0x2E + (loopReg c codeLDEPTH - 1)) (BitVec.ofNat 48 (nextCount c)) c

/-- ... and with that loop left. -/
def loopLeft (c : CoreSt) : CoreSt := hwPut codeLDEPTH (BitVec.ofNat 48 (loopReg c codeLDEPTH - 1)) (counted c)

theorem loopBack_again (m : Nat) {c : CoreSt} (h : nextCount c ≠ 0) :
    loopBack (m + 1) c = (counted c, BitVec.ofNat 16 (loopReg (counted c) (0x28 + (loopReg c codeLDEPTH - 1)))) := by
  rw [loopBack]
  exact if_pos h

theorem loopBack_over (m : Nat) {c : CoreSt} (h : nextCount c = 0) :
    loopBack (m + 1) c =
      if 0 < loopReg c codeLDEPTH - 1 ∧ loopReg (loopLeft c) (0x2B + (loopReg c codeLDEPTH - 1 - 1)) = loopReg c (0x2B + (loopReg c codeLDEPTH - 1))
      then loopBack m (loopLeft c) else (loopLeft c, BitVec.ofNat 16 (loopReg c (0x2B + (loopReg c codeLDEPTH - 1)) + 1)) := by
  rw [loopBack]
  exact if_neg (not_not_intro h)

theorem regWidth_counter {i : Nat} (h : i < 3) : regWidth (0x2E + i) = 24 := by
  interval_cases i <;> rfl

/-- Counting down touches the innermost counter alone. -/
theorem loopReg_counted {c : CoreSt} (hd : 0 < loopReg c codeLDEPTH) (j : Nat) :
    loopReg (counted c) j = if j = 0x2E + (loopReg c codeLDEPTH - 1) then nextCount c else loopReg c j := by
  have hlt := loopReg_depth c
  have hn : nextCount c % 2 ^ 24 = nextCount c := Nat.mod_eq_of_lt (Nat.mod_lt _ (by decide))
  rw [counted, loopReg_hwPut, regWidth_counter (by omega), BitVec.toNat_ofNat, Nat.mod_mod_of_dvd _ (by decide), hn]

theorem loopReg_loopLeft {c : CoreSt} (hd : 0 < loopReg c codeLDEPTH) (j : Nat) :
    loopReg (loopLeft c) j = if j = codeLDEPTH then loopReg c codeLDEPTH - 1 else loopReg (counted c) j := by
  have hlt := loopReg_depth c
  rw [loopLeft, loopReg_hwPut, BitVec.toNat_ofNat]
  congr 1
  have hw : regWidth codeLDEPTH = 2 := by decide
  rw [hw]
  omega

/-- The decision of the levels inside level `i` leaves the counter of level `i` as it is. -/
theorem loopReg_loopBack (m : Nat) {i : Nat} {c : CoreSt} (hd : 0 < loopReg c codeLDEPTH) (hi : loopReg c codeLDEPTH ≤ i) (h2 : i < 3) :
    loopReg (loopBack m c).1 (0x2E + i) = loopReg c (0x2E + i) := by
  have hi' : 0x2E + i ≠ codeLDEPTH := by unfold codeLDEPTH; omega
  induction m generalizing c with
  | zero => rfl
  | succ m ih =>
    have hcounted : loopReg (counted c) (0x2E + i) = loopReg c (0x2E + i) := by rw [loopReg_counted hd, if_neg (by omega)]
    have hleft : loopReg (loopLeft c) (0x2E + i) = loopReg c (0x2E + i) := by rw [loopReg_loopLeft hd, if_neg hi', hcounted]
    by_cases hn : nextCount c = 0
    · rw [loopBack_over m hn]
      split
      case isTrue h =>
        have hdl : loopReg (loopLeft c) codeLDEPTH = loopReg c codeLDEPTH - 1 := by rw [loopReg_loopLeft hd, if_pos rfl]
        rw [ih (by omega) (by omega), hleft]
      case isFalse h => exact hleft
    · rw [loopBack_again m hn]
      exact hcounted

/-- The core that the decision gives goes where the decision says. -/
theorem loopStep_of_loopBack {c : CoreSt} {r : CoreSt × BitVec 16} (h : loopBack 3 c = r) :
    (∀ j, loopReg (loopStep c) j = loopReg r.1 j) ∧ (loopStep c).pc = r.2 := by
  have hstep : loopStep c = { r.1 with pc := r.2 } := by rw [loopStep, h]
  rw [hstep]
  exact ⟨fun _ => rfl, rfl⟩

/-- The retirement of an instruction at the end of a loop. -/
theorem loopStep_spec {c : CoreSt} {k : Nat} (hk : loopReg c codeLDEPTH = k) (hpos : 0 < k) :
    let d := loopStep c
    loopReg d (0x2E + (k - 1)) = nextCount c ∧
    (nextCount c ≠ 0 → loopReg d codeLDEPTH = k ∧ d.pc = BitVec.ofNat 16 (loopReg c (0x28 + (k - 1)))) ∧
    (nextCount c = 0 → (k - 1 = 0 ∨ loopReg c (0x2B + (k - 1 - 1)) ≠ loopReg c (0x2B + (k - 1))) →
      loopReg d codeLDEPTH = k - 1 ∧ d.pc = BitVec.ofNat 16 (loopReg c (0x2B + (k - 1)) + 1)) := by
  subst hk
  have hlt := loopReg_depth c
  have hcode : 0x2E + (loopReg c codeLDEPTH - 1) ≠ codeLDEPTH := Nat.ne_of_lt (b := codeLDEPTH) (show _ < 0x31 by omega)
  have hcount := loopReg_counted hpos (0x2E + (loopReg c codeLDEPTH - 1))
  rw [if_pos rfl] at hcount
  have hleft : loopReg (loopLeft c) (0x2E + (loopReg c codeLDEPTH - 1)) = nextCount c := by rw [loopReg_loopLeft hpos, if_neg hcode, hcount]
  have hdl : loopReg (loopLeft c) codeLDEPTH = loopReg c codeLDEPTH - 1 := by rw [loopReg_loopLeft hpos, if_pos rfl]
  by_cases hn : nextCount c = 0
  · obtain ⟨hreg, hpc⟩ := loopStep_of_loopBack (loopBack_over 2 hn)
    refine ⟨?_, fun h => absurd hn h, fun _ hout => ?_⟩
    · rw [hreg]
      split
      case isTrue h => rw [loopReg_loopBack 2 (by omega) (by omega) (by omega), hleft]
      case isFalse h => exact hleft
    · have hbound : loopReg (loopLeft c) (0x2B + (loopReg c codeLDEPTH - 1 - 1)) = loopReg c (0x2B + (loopReg c codeLDEPTH - 1 - 1)) := by
        have hne : 0x2B + (loopReg c codeLDEPTH - 1 - 1) ≠ codeLDEPTH := Nat.ne_of_lt (b := codeLDEPTH) (show _ < 0x31 by omega)
        rw [loopReg_loopLeft hpos, if_neg hne, loopReg_counted hpos, if_neg (by omega)]
      have hstay : ¬(0 < loopReg c codeLDEPTH - 1 ∧
          loopReg c (0x2B + (loopReg c codeLDEPTH - 1 - 1)) = loopReg c (0x2B + (loopReg c codeLDEPTH - 1))) :=
        fun h => hout.elim (fun h0 => absurd h.1 (by omega)) (fun hne => hne h.2)
      rw [hbound, if_neg hstay] at hreg hpc
      exact ⟨(hreg _).trans hdl, hpc⟩
  · obtain ⟨hreg, hpc⟩ := loopStep_of_loopBack (loopBack_again 2 hn)
    refine ⟨(hreg _).trans hcount, fun _ => ⟨?_, ?_⟩, fun h => absurd h hn⟩
    · rw [hreg, loopReg_counted hpos, if_neg (Ne.symm hcode)]
    · rw [hpc, loopReg_counted hpos, if_neg (by omega)]

theorem garnetLoopCompletes : Obl.GarnetLoopCompletes := by
  intro n reg cnt le s c k hlate
  refine ⟨fun hready hdepth hpc => ⟨fun hcnt => startLoop_done rfl hready hdepth hpc rfl hcnt,
    fun hreg hcnt => startLoop_done rfl hready hdepth hpc (if_neg hreg) hcnt⟩, fun hready hpos hdepth => ?leave, fun hready hend => ?loopEnd⟩
  case leave =>
    obtain ⟨hcomp, hloops⟩ := loops_of_hwOnly (n := n.val) (ctl := .leave) (slot_none_of_ready hready rfl)
      (hwPut_only IsLoopReg codeLDEPTH (BitVec.ofNat 48 (k - 1)) _ (by unfold IsLoopReg; decide)) rfl
    refine ⟨_, congrArg Host.Outcome.next (garnet_done n.val .leave _ _ s hready (if_neg (Nat.pos_iff_ne_zero.mp hpos))), hloops, ?_⟩
    have hreg : loopReg (hwPut codeLDEPTH (BitVec.ofNat 48 (k - 1)) (written (goes .leave) c)) codeLDEPTH = k - 1 := by
      rw [loopReg_hwPut, if_pos rfl, BitVec.toNat_ofNat, show regWidth codeLDEPTH = 2 by decide]
      omega
    change loopReg (core (complete n.val (goes .leave) s) n.val) codeLDEPTH = k - 1
    rw [hcomp, core_setCore]
    exact hreg
  case loopEnd =>
    have hpos : 0 < k := by
      unfold atLoopEnd at hend
      simp only [Bool.and_eq_true, decide_eq_true_eq] at hend
      exact hend.1.1
    have hslot : c.slot = none := by
      have hplace := hready.2
      cases hs : c.slot with
      | none => rfl
      | some x =>
        simp only [misplaced, hend, c, hs, Option.isSome_some, Bool.or_true, Bool.and_self, if_true] at hplace
        repeat' split at hplace
        all_goals cases hplace
    have hsame (j : Nat) := loopReg_written_goes .plain hlate j
    have hcomp : complete n.val noWrites s = setCore n.val (loopStep (written (goes .plain) c)) s := by
      rw [complete_goTo rfl rfl]
      show setCore n.val (goOn c (written (goes .plain) c)) s = _
      rw [goOn, hslot]
      simp only [hend, if_true]
    refine ⟨_, congrArg Host.Outcome.next (garnet_done n.val .plain _ _ s hready rfl), ?_⟩
    rw [hcomp, core_setCore]
    have hspec := loopStep_spec (hsame codeLDEPTH) hpos
    simp only [nextCount, hsame] at hspec
    exact hspec

/-! ### RTE (R271) -/

/-- IE and USR of MODE come from ESTAT, and every other bit stays. -/
theorem rteCore_mode (c : CoreSt) :
    (rteCore c).cur.get codeMODE = (c.cur.get codeMODE &&& ~~~(0x1100 : Word48)) ||| (if (c.h3.get codeESTAT).getLsbD 2 then 0x100 else 0) |||
      (if (c.h3.get codeESTAT).getLsbD 3 then 0x1000 else 0) := by
  simp [rteCore, ageLate, Arch.get_set]

theorem modeNow_rteCore (c : CoreSt) : modeNow (rteCore c) = (rteCore c).cur.get codeMODE := by
  simp [modeNow, rteCore, ageLate, Arch.get_set]

theorem rteCore_get_other (c : CoreSt) {r : Nat} (h : r ≠ codeMODE) : (rteCore c).cur.get r = c.cur.get r := by
  simp [rteCore, ageLate, Arch.get_set, h]

/-- Bits 8 and 12 of a MODE word put together again. -/
theorem mode_bits (m : Word48) (ie usr : Bool) :
    let v := (m &&& ~~~(0x1100 : Word48)) ||| (if ie then 0x100 else 0) ||| (if usr then 0x1000 else 0)
    v.getLsbD 8 = ie ∧ v.getLsbD 12 = usr ∧ ∀ b, b < 48 → b ≠ 8 → b ≠ 12 → v.getLsbD b = m.getLsbD b := by
  have hclear : ∀ b, b < 48 → b ≠ 8 → b ≠ 12 → (0x1100 : Word48).getLsbD b = false ∧ (0x100 : Word48).getLsbD b = false ∧
    (0x1000 : Word48).getLsbD b = false ∧ (0 : Word48).getLsbD b = false := by decide
  refine ⟨?_, ?_, fun b hb h8 h12 => ?_⟩
  · cases ie <;> cases usr <;> simp
  · cases ie <;> cases usr <;> simp
  · obtain ⟨h1, h2, h3, h4⟩ := hclear b hb h8 h12
    cases ie <;> cases usr <;> simp only [BitVec.getLsbD_or, BitVec.getLsbD_and, BitVec.getLsbD_not, hb, h1, h2, h3, h4, if_true,
      Bool.false_eq_true, if_false, decide_true, Bool.not_false, Bool.and_true, Bool.or_false]

theorem garnetReturnCompletes : Obl.GarnetReturnCompletes := by
  intro n s hready huser
  obtain ⟨hjob, hplace⟩ := hready
  obtain ⟨j, hj⟩ := Option.isSome_iff_exists.mp hjob
  have hout : outcome .rte (fun x => if userMode x then excPriv else .done noWrites) (core s n.val) = .done noWrites := by
    simp [outcome, hplace, huser]
  have hrun : exec (.rte n) s = .next (setCore n.val (addCycles 2 (rteCore (core s n.val))) s) := by
    change execRte n s = _
    simp only [execRte, hj, hout]
  obtain ⟨hie, husr, hbits⟩ := mode_bits ((core s n.val).cur.get codeMODE) ((core s n.val).h3.get codeESTAT |>.getLsbD 2)
    ((core s n.val).h3.get codeESTAT |>.getLsbD 3)
  have hmode : (addCycles 2 (rteCore (core s n.val))).cur.get codeMODE = _ := rteCore_mode (core s n.val)
  have hnow : modeNow (addCycles 2 (rteCore (core s n.val))) = _ := (modeNow_rteCore (core s n.val)).trans (rteCore_mode _)
  refine ⟨_, hrun, ?_⟩
  dsimp only
  rw [core_setCore]
  refine ⟨rfl, rfl, rfl, rfl, rfl, ?_, ?_, rfl, rfl, rfl, fun k => rfl, fun r hr => rteCore_get_other _ hr, fun b hb h8 h12 => ?_⟩
  · rw [modeIe, hnow]; exact hie
  · rw [modeUsr, hnow]; exact husr
  · rw [hmode]; exact hbits b hb h8 h12

/-- Settles O48: branches, loops and the return. -/
theorem garnetControlFlowCompletes : Obligations.GarnetControlFlowCompletes :=
  ⟨garnetBranchCompletes, garnetLoopCompletes, garnetReturnCompletes⟩

end Sys2Proof.Machine
end

section
/-! PROOFS. What the event operations and the channel operations leave unchanged (R42, R499, R502, R296). -/

namespace Sys2Proof.Machine

/-! ### Records and notifications -/

/-- An event that Onyx acts on or that waits for it changes the journal, what the host is told, the event list, and nothing else. -/
theorem post_eq (d : Deferred) (s : State) : post d s =
    { s with journal := (post d s).journal, pwr := (post d s).pwr, regs := (post d s).regs, onyx := (post d s).onyx, host := (post d s).host } := by
  unfold post
  split
  · rfl
  · cases d with
    | note n => simp only [noteNow]; (repeat split) <;> rfl
    | jour c u r a b ev => simp only [journalNow]; split <;> rfl
    | rule => rfl
    | ack => rfl
    | mgmt => rfl

@[simp] theorem post_pending (d : Deferred) (s : State) : (post d s).pending = s.pending := by rw [post_eq]
@[simp] theorem post_free (d : Deferred) (s : State) : (post d s).free = s.free := by rw [post_eq]
@[simp] theorem post_time (d : Deferred) (s : State) : (post d s).time = s.time := by rw [post_eq]
@[simp] theorem post_boot (d : Deferred) (s : State) : (post d s).boot = s.boot := by rw [post_eq]
@[simp] theorem post_ledger (d : Deferred) (s : State) : (post d s).ledger = s.ledger := by rw [post_eq]
@[simp] theorem post_leases (d : Deferred) (s : State) : (post d s).leases = s.leases := by rw [post_eq]
@[simp] theorem post_claims (d : Deferred) (s : State) : (post d s).claims = s.claims := by rw [post_eq]
@[simp] theorem post_pvl (d : Deferred) (s : State) : (post d s).pvl = s.pvl := by rw [post_eq]
@[simp] theorem post_fab (d : Deferred) (s : State) : (post d s).fab = s.fab := by rw [post_eq]
@[simp] theorem post_gar (d : Deferred) (s : State) : (post d s).gar = s.gar := by rw [post_eq]
@[simp] theorem post_voice (d : Deferred) (s : State) : (post d s).voice = s.voice := by rw [post_eq]
@[simp] theorem post_net (d : Deferred) (s : State) : (post d s).net = s.net := by rw [post_eq]
@[simp] theorem post_plc (d : Deferred) (s : State) : (post d s).plc = s.plc := by rw [post_eq]
@[simp] theorem post_opal (d : Deferred) (s : State) : (post d s).opal = s.opal := by rw [post_eq]
@[simp] theorem post_tdm (d : Deferred) (s : State) : (post d s).tdm = s.tdm := by rw [post_eq]
@[simp] theorem post_tpz (d : Deferred) (s : State) : (post d s).tpz = s.tpz := by rw [post_eq]
@[simp] theorem post_hostMem (d : Deferred) (s : State) : (post d s).hostMem = s.hostMem := by rw [post_eq]
@[simp] theorem post_agt (d : Deferred) (s : State) : (post d s).agt = s.agt := by rw [post_eq]
@[simp] theorem post_tap (d : Deferred) (s : State) : (post d s).tap = s.tap := by rw [post_eq]
@[simp] theorem post_shadow (d : Deferred) (s : State) : (post d s).shadow = s.shadow := by rw [post_eq]

@[simp] theorem journal_pending (c u r a b : Nat) (ev : List Byte) (s : State) : (journal c u r a b ev s).pending = s.pending := post_pending _ s
@[simp] theorem journal_free (c u r a b : Nat) (ev : List Byte) (s : State) : (journal c u r a b ev s).free = s.free := post_free _ s
@[simp] theorem journal_time (c u r a b : Nat) (ev : List Byte) (s : State) : (journal c u r a b ev s).time = s.time := post_time _ s
@[simp] theorem journal_boot (c u r a b : Nat) (ev : List Byte) (s : State) : (journal c u r a b ev s).boot = s.boot := post_boot _ s
@[simp] theorem journal_ledger (c u r a b : Nat) (ev : List Byte) (s : State) : (journal c u r a b ev s).ledger = s.ledger := post_ledger _ s
@[simp] theorem journal_leases (c u r a b : Nat) (ev : List Byte) (s : State) : (journal c u r a b ev s).leases = s.leases := post_leases _ s
@[simp] theorem journal_claims (c u r a b : Nat) (ev : List Byte) (s : State) : (journal c u r a b ev s).claims = s.claims := post_claims _ s
@[simp] theorem journal_pvl (c u r a b : Nat) (ev : List Byte) (s : State) : (journal c u r a b ev s).pvl = s.pvl := post_pvl _ s
@[simp] theorem journal_fab (c u r a b : Nat) (ev : List Byte) (s : State) : (journal c u r a b ev s).fab = s.fab := post_fab _ s
@[simp] theorem journal_gar (c u r a b : Nat) (ev : List Byte) (s : State) : (journal c u r a b ev s).gar = s.gar := post_gar _ s
@[simp] theorem journal_voice (c u r a b : Nat) (ev : List Byte) (s : State) : (journal c u r a b ev s).voice = s.voice := post_voice _ s
@[simp] theorem journal_net (c u r a b : Nat) (ev : List Byte) (s : State) : (journal c u r a b ev s).net = s.net := post_net _ s
@[simp] theorem journal_plc (c u r a b : Nat) (ev : List Byte) (s : State) : (journal c u r a b ev s).plc = s.plc := post_plc _ s
@[simp] theorem journal_opal (c u r a b : Nat) (ev : List Byte) (s : State) : (journal c u r a b ev s).opal = s.opal := post_opal _ s
@[simp] theorem journal_tdm (c u r a b : Nat) (ev : List Byte) (s : State) : (journal c u r a b ev s).tdm = s.tdm := post_tdm _ s
@[simp] theorem journal_tpz (c u r a b : Nat) (ev : List Byte) (s : State) : (journal c u r a b ev s).tpz = s.tpz := post_tpz _ s
@[simp] theorem journal_hostMem (c u r a b : Nat) (ev : List Byte) (s : State) : (journal c u r a b ev s).hostMem = s.hostMem := post_hostMem _ s
@[simp] theorem journal_agt (c u r a b : Nat) (ev : List Byte) (s : State) : (journal c u r a b ev s).agt = s.agt := post_agt _ s
@[simp] theorem journal_tap (c u r a b : Nat) (ev : List Byte) (s : State) : (journal c u r a b ev s).tap = s.tap := post_tap _ s
@[simp] theorem journal_shadow (c u r a b : Nat) (ev : List Byte) (s : State) : (journal c u r a b ev s).shadow = s.shadow := post_shadow _ s

@[simp] theorem notify_pending (c d w : Nat) (s : State) : (notify c d w s).pending = s.pending := post_pending _ s
@[simp] theorem notify_free (c d w : Nat) (s : State) : (notify c d w s).free = s.free := post_free _ s
@[simp] theorem notify_time (c d w : Nat) (s : State) : (notify c d w s).time = s.time := post_time _ s
@[simp] theorem notify_boot (c d w : Nat) (s : State) : (notify c d w s).boot = s.boot := post_boot _ s
@[simp] theorem notify_ledger (c d w : Nat) (s : State) : (notify c d w s).ledger = s.ledger := post_ledger _ s
@[simp] theorem notify_leases (c d w : Nat) (s : State) : (notify c d w s).leases = s.leases := post_leases _ s
@[simp] theorem notify_claims (c d w : Nat) (s : State) : (notify c d w s).claims = s.claims := post_claims _ s
@[simp] theorem notify_pvl (c d w : Nat) (s : State) : (notify c d w s).pvl = s.pvl := post_pvl _ s
@[simp] theorem notify_fab (c d w : Nat) (s : State) : (notify c d w s).fab = s.fab := post_fab _ s
@[simp] theorem notify_gar (c d w : Nat) (s : State) : (notify c d w s).gar = s.gar := post_gar _ s
@[simp] theorem notify_voice (c d w : Nat) (s : State) : (notify c d w s).voice = s.voice := post_voice _ s
@[simp] theorem notify_net (c d w : Nat) (s : State) : (notify c d w s).net = s.net := post_net _ s
@[simp] theorem notify_plc (c d w : Nat) (s : State) : (notify c d w s).plc = s.plc := post_plc _ s
@[simp] theorem notify_opal (c d w : Nat) (s : State) : (notify c d w s).opal = s.opal := post_opal _ s
@[simp] theorem notify_tdm (c d w : Nat) (s : State) : (notify c d w s).tdm = s.tdm := post_tdm _ s
@[simp] theorem notify_tpz (c d w : Nat) (s : State) : (notify c d w s).tpz = s.tpz := post_tpz _ s
@[simp] theorem notify_hostMem (c d w : Nat) (s : State) : (notify c d w s).hostMem = s.hostMem := post_hostMem _ s
@[simp] theorem notify_agt (c d w : Nat) (s : State) : (notify c d w s).agt = s.agt := post_agt _ s
@[simp] theorem notify_tap (c d w : Nat) (s : State) : (notify c d w s).tap = s.tap := post_tap _ s
@[simp] theorem notify_shadow (c d w : Nat) (s : State) : (notify c d w s).shadow = s.shadow := post_shadow _ s

/-! ### Channels -/

/-- A change of a channel changes the voice plane alone. -/
theorem modChan_eq (n : Nat) (f : Chan → Chan) (s : State) : modChan n f s = { s with voice := (modChan n f s).voice } := by
  unfold modChan
  split <;> rfl

@[simp] theorem modChan_pending (n : Nat) (f : Chan → Chan) (s : State) : (modChan n f s).pending = s.pending := by rw [modChan_eq]
@[simp] theorem modChan_free (n : Nat) (f : Chan → Chan) (s : State) : (modChan n f s).free = s.free := by rw [modChan_eq]
@[simp] theorem modChan_regs (n : Nat) (f : Chan → Chan) (s : State) : (modChan n f s).regs = s.regs := by rw [modChan_eq]
@[simp] theorem modChan_time (n : Nat) (f : Chan → Chan) (s : State) : (modChan n f s).time = s.time := by rw [modChan_eq]
@[simp] theorem modChan_pwr (n : Nat) (f : Chan → Chan) (s : State) : (modChan n f s).pwr = s.pwr := by rw [modChan_eq]
@[simp] theorem modChan_boot (n : Nat) (f : Chan → Chan) (s : State) : (modChan n f s).boot = s.boot := by rw [modChan_eq]
@[simp] theorem modChan_host (n : Nat) (f : Chan → Chan) (s : State) : (modChan n f s).host = s.host := by rw [modChan_eq]
@[simp] theorem modChan_ledger (n : Nat) (f : Chan → Chan) (s : State) : (modChan n f s).ledger = s.ledger := by rw [modChan_eq]
@[simp] theorem modChan_leases (n : Nat) (f : Chan → Chan) (s : State) : (modChan n f s).leases = s.leases := by rw [modChan_eq]
@[simp] theorem modChan_claims (n : Nat) (f : Chan → Chan) (s : State) : (modChan n f s).claims = s.claims := by rw [modChan_eq]
@[simp] theorem modChan_journal (n : Nat) (f : Chan → Chan) (s : State) : (modChan n f s).journal = s.journal := by rw [modChan_eq]
@[simp] theorem modChan_pvl (n : Nat) (f : Chan → Chan) (s : State) : (modChan n f s).pvl = s.pvl := by rw [modChan_eq]
@[simp] theorem modChan_onyx (n : Nat) (f : Chan → Chan) (s : State) : (modChan n f s).onyx = s.onyx := by rw [modChan_eq]
@[simp] theorem modChan_fab (n : Nat) (f : Chan → Chan) (s : State) : (modChan n f s).fab = s.fab := by rw [modChan_eq]
@[simp] theorem modChan_gar (n : Nat) (f : Chan → Chan) (s : State) : (modChan n f s).gar = s.gar := by rw [modChan_eq]
@[simp] theorem modChan_net (n : Nat) (f : Chan → Chan) (s : State) : (modChan n f s).net = s.net := by rw [modChan_eq]
@[simp] theorem modChan_plc (n : Nat) (f : Chan → Chan) (s : State) : (modChan n f s).plc = s.plc := by rw [modChan_eq]
@[simp] theorem modChan_opal (n : Nat) (f : Chan → Chan) (s : State) : (modChan n f s).opal = s.opal := by rw [modChan_eq]
@[simp] theorem modChan_tdm (n : Nat) (f : Chan → Chan) (s : State) : (modChan n f s).tdm = s.tdm := by rw [modChan_eq]
@[simp] theorem modChan_tpz (n : Nat) (f : Chan → Chan) (s : State) : (modChan n f s).tpz = s.tpz := by rw [modChan_eq]
@[simp] theorem modChan_hostMem (n : Nat) (f : Chan → Chan) (s : State) : (modChan n f s).hostMem = s.hostMem := by rw [modChan_eq]
@[simp] theorem modChan_agt (n : Nat) (f : Chan → Chan) (s : State) : (modChan n f s).agt = s.agt := by rw [modChan_eq]
@[simp] theorem modChan_tap (n : Nat) (f : Chan → Chan) (s : State) : (modChan n f s).tap = s.tap := by rw [modChan_eq]
@[simp] theorem modChan_shadow (n : Nat) (f : Chan → Chan) (s : State) : (modChan n f s).shadow = s.shadow := by rw [modChan_eq]

@[simp] theorem modFrame_pending (n : Nat) (q : BitVec 16) (f : VFrame → VFrame) (s : State) : (modFrame n q f s).pending = s.pending := modChan_pending _ _ s
@[simp] theorem modFrame_free (n : Nat) (q : BitVec 16) (f : VFrame → VFrame) (s : State) : (modFrame n q f s).free = s.free := modChan_free _ _ s
@[simp] theorem modFrame_regs (n : Nat) (q : BitVec 16) (f : VFrame → VFrame) (s : State) : (modFrame n q f s).regs = s.regs := modChan_regs _ _ s
@[simp] theorem modFrame_time (n : Nat) (q : BitVec 16) (f : VFrame → VFrame) (s : State) : (modFrame n q f s).time = s.time := modChan_time _ _ s
@[simp] theorem modFrame_pwr (n : Nat) (q : BitVec 16) (f : VFrame → VFrame) (s : State) : (modFrame n q f s).pwr = s.pwr := modChan_pwr _ _ s
@[simp] theorem modFrame_boot (n : Nat) (q : BitVec 16) (f : VFrame → VFrame) (s : State) : (modFrame n q f s).boot = s.boot := modChan_boot _ _ s
@[simp] theorem modFrame_host (n : Nat) (q : BitVec 16) (f : VFrame → VFrame) (s : State) : (modFrame n q f s).host = s.host := modChan_host _ _ s
@[simp] theorem modFrame_ledger (n : Nat) (q : BitVec 16) (f : VFrame → VFrame) (s : State) : (modFrame n q f s).ledger = s.ledger := modChan_ledger _ _ s
@[simp] theorem modFrame_leases (n : Nat) (q : BitVec 16) (f : VFrame → VFrame) (s : State) : (modFrame n q f s).leases = s.leases := modChan_leases _ _ s
@[simp] theorem modFrame_claims (n : Nat) (q : BitVec 16) (f : VFrame → VFrame) (s : State) : (modFrame n q f s).claims = s.claims := modChan_claims _ _ s
@[simp] theorem modFrame_journal (n : Nat) (q : BitVec 16) (f : VFrame → VFrame) (s : State) : (modFrame n q f s).journal = s.journal := modChan_journal _ _ s
@[simp] theorem modFrame_pvl (n : Nat) (q : BitVec 16) (f : VFrame → VFrame) (s : State) : (modFrame n q f s).pvl = s.pvl := modChan_pvl _ _ s
@[simp] theorem modFrame_onyx (n : Nat) (q : BitVec 16) (f : VFrame → VFrame) (s : State) : (modFrame n q f s).onyx = s.onyx := modChan_onyx _ _ s
@[simp] theorem modFrame_fab (n : Nat) (q : BitVec 16) (f : VFrame → VFrame) (s : State) : (modFrame n q f s).fab = s.fab := modChan_fab _ _ s
@[simp] theorem modFrame_gar (n : Nat) (q : BitVec 16) (f : VFrame → VFrame) (s : State) : (modFrame n q f s).gar = s.gar := modChan_gar _ _ s
@[simp] theorem modFrame_net (n : Nat) (q : BitVec 16) (f : VFrame → VFrame) (s : State) : (modFrame n q f s).net = s.net := modChan_net _ _ s
@[simp] theorem modFrame_plc (n : Nat) (q : BitVec 16) (f : VFrame → VFrame) (s : State) : (modFrame n q f s).plc = s.plc := modChan_plc _ _ s
@[simp] theorem modFrame_opal (n : Nat) (q : BitVec 16) (f : VFrame → VFrame) (s : State) : (modFrame n q f s).opal = s.opal := modChan_opal _ _ s
@[simp] theorem modFrame_tdm (n : Nat) (q : BitVec 16) (f : VFrame → VFrame) (s : State) : (modFrame n q f s).tdm = s.tdm := modChan_tdm _ _ s
@[simp] theorem modFrame_tpz (n : Nat) (q : BitVec 16) (f : VFrame → VFrame) (s : State) : (modFrame n q f s).tpz = s.tpz := modChan_tpz _ _ s
@[simp] theorem modFrame_hostMem (n : Nat) (q : BitVec 16) (f : VFrame → VFrame) (s : State) : (modFrame n q f s).hostMem = s.hostMem := modChan_hostMem _ _ s
@[simp] theorem modFrame_agt (n : Nat) (q : BitVec 16) (f : VFrame → VFrame) (s : State) : (modFrame n q f s).agt = s.agt := modChan_agt _ _ s
@[simp] theorem modFrame_tap (n : Nat) (q : BitVec 16) (f : VFrame → VFrame) (s : State) : (modFrame n q f s).tap = s.tap := modChan_tap _ _ s
@[simp] theorem modFrame_shadow (n : Nat) (q : BitVec 16) (f : VFrame → VFrame) (s : State) : (modFrame n q f s).shadow = s.shadow := modChan_shadow _ _ s

end Sys2Proof.Machine
end

section
/-! PROOFS. Garnet system instructions, core I/O and interrupts (R236, R257, R268, R269, R272, R276, R279). -/

namespace Sys2Proof.Machine

/-! ### How an instruction comes out on a core that is ready -/

theorem outcome_of_ready {n : Nat} {ctl : Ctl} {body : CoreSt → GRes} {s : State} (hready : GReady n ctl s) :
    outcome ctl body (core s n) = body (core s n) := by
  simp only [outcome, hready.2]

theorem exists_job_of_ready {n : Nat} {ctl : Ctl} {s : State} (hready : GReady n ctl s) : ∃ j, (core s n).job = some j :=
  Option.isSome_iff_exists.mp hready.1

theorem garnet_wait {n : Nat} {ctl : Ctl} {body : CoreSt → GRes} {s : State} (hready : GReady n ctl s) (hbody : body (core s n) = .wait) :
    garnet n ctl body s = setCore n (addCycles 1 (core s n)) s := by
  obtain ⟨j, hj⟩ := exists_job_of_ready hready
  simp [garnet, hj, outcome_of_ready hready, hbody]

theorem garnet_exc {n : Nat} {ctl : Ctl} {body : CoreSt → GRes} {s : State} {code detail : Nat} (hready : GReady n ctl s)
    (hbody : body (core s n) = .exc code detail) : garnet n ctl body s = raise n code detail s := by
  obtain ⟨j, hj⟩ := exists_job_of_ready hready
  simp [garnet, hj, outcome_of_ready hready, hbody]

/-! ### Waits for Spinel lists (R279) -/

section
variable {n : Nat} {ctl : Ctl} {ks : List Nat} {c : CoreSt} {k : GRes} {s : State}

theorem spWait_still (hbusy : ∀ i ∈ ks, (spList c i).busy = false) (hrep : ∀ i ∈ ks, (spList c i).unrep = false) : spWait ks c k = k := by
  have hany : ks.any (fun i => (spList c i).busy) = false := by
    rw [List.any_eq_false]
    exact fun i hi => by simp [hbusy i hi]
  have hfind : ks.find? (fun i => (spList c i).unrep) = none := by
    rw [List.find?_eq_none]
    exact fun i hi => by simp [hrep i hi]
  simp only [spWait, hany, hfind, Bool.false_eq_true, if_false]

theorem spWait_busy (hbusy : ∃ i ∈ ks, (spList c i).busy = true) : spWait ks c k = .wait := by
  simp only [spWait, List.any_eq_true.mpr hbusy, if_true]

theorem spwRow_eq_garnet (hready : GReady n .plain s) (h : ∀ d, spWait ks (core s n) (.done noWrites) ≠ .exc 9 d) :
    spwRow n ks s = garnet n .plain (fun x => spWait ks x (.done noWrites)) s := by
  simp only [spwRow, outcome_of_ready hready]
  split
  · rename_i heq
    exact absurd heq (h _)
  · rfl

theorem spwRow_still (hready : GReady n .plain s) (hbusy : ∀ i ∈ ks, (spList (core s n) i).busy = false)
    (hrep : ∀ i ∈ ks, (spList (core s n) i).unrep = false) : spwRow n ks s = garnet n .plain (fun _ => .done noWrites) s := by
  have hbody : spWait ks (core s n) (.done noWrites) = .done noWrites := spWait_still hbusy hrep
  rw [spwRow_eq_garnet hready (by simp [hbody]), garnet_done n .plain (fun _ => .done noWrites) noWrites s hready rfl]
  exact garnet_done n .plain _ noWrites s hready hbody

theorem spwRow_busy (hready : GReady n .plain s) (hbusy : ∃ i ∈ ks, (spList (core s n) i).busy = true) :
    spwRow n ks s = setCore n (addCycles 1 (core s n)) s := by
  have hbody : spWait ks (core s n) (.done noWrites) = .wait := spWait_busy hbusy
  rw [spwRow_eq_garnet hready (by simp [hbody])]
  exact garnet_wait hready hbody

end

theorem exists_mem_four {P : Nat → Prop} (h : ∃ i, i < 4 ∧ P i) : ∃ i ∈ [0, 1, 2, 3], P i := by
  obtain ⟨i, hi, hp⟩ := h
  exact ⟨i, by simp; omega, hp⟩

/-! ### A kernel in quarantine (R308) -/

theorem tblFind_tblMap {α β : Type} (f : Nat → α → β) (k : Nat) (l : Tbl α) : tblFind k (tblMap f l) = (tblFind k l).map (f k) := by
  induction l with
  | nil => rfl
  | cons e l ih =>
    obtain ⟨j, v⟩ := e
    by_cases h : j = k
    · subst h; simp [tblMap, tblFind]
    · simp [tblMap, tblFind, h, ih]

/-- Frames that wait for one job less. -/
theorem foldl_modFrame_gar (js : List Job) (f : VFrame → VFrame) (s : State) :
    (js.foldl (fun s j => modFrame j.chan j.seq f s) s).gar = s.gar := by
  induction js generalizing s with
  | nil => rfl
  | cons j js ih => simp [ih]

/-- A job of the customer kernel `kid`. -/
def isKernelJob (kid : Nat) (j : Job) : Bool := match j.kind with | .krn _ k => k == kid | _ => false

/-- The kernel's jobs go from the queues of the cores; nothing else of Garnet changes. -/
theorem dropKernelJobs_gar (kid : Nat) (s : State) : (dropKernelJobs kid s).gar =
    { s.gar with cores := tblMap (fun _ c => { c with queue := c.queue.filter (fun j => !isKernelJob kid j) }) s.gar.cores } := by
  have hfold : ∀ (l : Tbl CoreSt) (s : State), (l.foldl (fun s e => (e.2.queue.filter (isKernelJob kid)).foldl
      (fun s j => modFrame j.chan j.seq (fun f => { f with left := f.left - 1 }) s) s) s).gar = s.gar := by
    intro l
    induction l with
    | nil => exact fun _ => rfl
    | cons e l ih => exact fun s => (ih _).trans (foldl_modFrame_gar _ _ s)
  exact congrArg (fun g : GarnetSt =>
    ({ g with cores := tblMap (fun _ c => { c with queue := c.queue.filter (fun j => !isKernelJob kid j) }) g.cores } : GarnetSt)) (hfold s.gar.cores s)

/-- What a quarantine leaves of a core: the job it runs is aborted where it is the kernel's; registers and memories stand. -/
theorem core_dropKernelJobs (kid n : Nat) (s : State) :
    core (dropKernelJobs kid s) n = { core s n with queue := (core (dropKernelJobs kid s) n).queue } := by
  simp only [core, tblGet, dropKernelJobs_gar, tblFind_tblMap]
  cases tblFind n s.gar.cores <;> rfl

theorem kernels_dropKernelJobs (kid : Nat) (s : State) : (dropKernelJobs kid s).gar.kernels = s.gar.kernels := by
  rw [dropKernelJobs_gar]

/-- The state with the kernel as a quarantine on core `n` records it. -/
def quarantined (n kid : Nat) (cause : BitVec 24) (k : Kernel) (s : State) : State :=
  let k' : Kernel := { k with st := 2, faults := satAdd 16 k.faults 1, cause := cause.toNat % 256, core := n }
  { s with gar := { s.gar with kernels := tblSet kid k' s.gar.kernels } }

/-- KERNEL_QUARANTINE on the core that runs the kernel's job: registers and memories of the core stand, and the kernel is quarantined. -/
theorem quarantine_spec {n kid : Nat} {cause : BitVec 24} {j : Job} {k : Kernel} {s : State} (hj : (core s n).job = some j)
    (hkid : kernelOf j = some kid) (hk : tblFind kid s.gar.kernels = some k) :
    let t := quarantine n kid cause s
    core t n = { core s n with job := (core t n).job, queue := (core t n).queue, held := (core t n).held } ∧
    t.gar.kernels = (quarantined n kid cause k s).gar.kernels := by
  have hcore := core_dropKernelJobs kid n (quarantined n kid cause k s)
  have hkern := kernels_dropKernelJobs kid (quarantined n kid cause k s)
  have hrun : quarantine n kid cause s = (let d := dropKernelJobs kid (quarantined n kid cause k s)
      let c := core d n
      notify 11 kid (cause.toNat % 256) (journal 0x11 (0x10 + n) 6 kid cause.toNat []
        (modFrame j.chan j.seq (fun f => { f with loss := if f.loss = 0 then 10 else f.loss })
          (setCore n { c with job := some { j with aborted := true }, held := c.held.filter (fun e => !heldOf j.chan j.seq e.1) } d)))) := by
    have hjob : (core (dropKernelJobs kid (quarantined n kid cause k s)) n).job = some j := by rw [hcore]; exact hj
    simp only [quarantined] at hjob
    simp only [quarantine, quarantined, hk, hjob, hkid, ne_eq, not_true_eq_false, if_false]
  intro t
  have hgar : t.gar = _ := congrArg State.gar hrun
  simp only [notify_gar, journal_gar, modFrame_gar] at hgar
  have hcores (d : CoreSt) (u : State) (h : t.gar = (setCore n d u).gar) : core t n = d := by
    rw [core, h]
    exact core_setCore ..
  have hc := hcores _ _ hgar
  refine ⟨?_, hgar ▸ hkern⟩
  rw [hc, hcore]
  rfl

/-! ### Breakpoints and the end of a job (R248, R257, R268, R269) -/

theorem classResponse_break {n imm kid : Nat} {s : State} (hkid : jobKernel (core s n) = some kid) :
    classResponse n 0xA imm true s = quarantine n kid (ecauseOf 0xA imm) s := by
  simp [classResponse, hkid]

/-- BREAK of a customer kernel in user mode: the handler is entered and the kernel quarantined. -/
theorem raise_break {n imm kid : Nat} {j : Job} {s : State} (hj : (core s n).job = some j) (hkid : kernelOf j = some kid)
    (husr : modeUsr ((core s n).cur.get codeMODE) = true) (hslot : (core s n).slot = none) :
    raise n 0xA imm s = quarantine n kid (ecauseOf 0xA imm) (setCore n (addCycles 1
      (enterHandler (core s n) 0xA imm false false (decide (0 < (core s n).shadow)) (core s n).pc 0x0010)) s) := by
  simp only [raise, husr, hslot, Bool.not_true, Bool.false_eq_true, and_false, if_false]
  refine classResponse_break ?_
  rw [core_setCore, jobKernel, enterHandler_job, hj]
  exact hkid

theorem modFrame_eq (n : Nat) (q : BitVec 16) (f : VFrame → VFrame) (s : State) : modFrame n q f s = { s with voice := (modFrame n q f s).voice } :=
  modChan_eq ..

/-- The end of a job on a core where none waits. -/
theorem jobOver_last {n loss : Nat} {j : Job} {s : State} (hj : (core s n).job = some j) (hq : (core s n).queue = []) :
    ∃ v, jobOver n loss s = setCore n { core s n with job := none, fsend := none } { s with voice := v } := by
  have hnext (v : VoiceSt) : jobNext n (setCore n { core s n with job := none, fsend := none } { s with voice := v }) =
      setCore n { core s n with job := none, fsend := none } { s with voice := v } := by
    simp only [jobNext, core_setCore, hq]
  simp only [jobOver, hj]
  rw [modChan_eq]
  split
  · exact ⟨_, hnext _⟩
  · rw [modFrame_eq]
    exact ⟨_, hnext _⟩

theorem execEndJob_done {n : Fin 48} {j : Job} {s : State} (hready : GReady n.val .endJob s) (hj : (core s n.val).job = some j)
    (hbusy : ∀ i ∈ [0, 1, 2, 3], (spList (core s n.val) i).busy = false) (hrep : ∀ i ∈ [0, 1, 2, 3], (spList (core s n.val) i).unrep = false)
    (hkeep : j.urgent = false ∨ j.aborted = true) : exec (.endJob n) s = .next (jobOver n.val 0 s) := by
  have hbody : outcome .endJob (fun x => spWait [0, 1, 2, 3] x (.done noWrites)) (core s n.val) = .done noWrites :=
    (outcome_of_ready hready).trans (spWait_still hbusy hrep)
  have hheld : (j.urgent && !j.aborted) = false := by rcases hkeep with h | h <;> simp [h]
  change execEndJob n s = _
  simp only [execEndJob, hj, hbody, hheld, Bool.false_eq_true, if_false]

theorem execEndJob_busy {n : Fin 48} {s : State} (hready : GReady n.val .endJob s) (hbusy : ∃ i ∈ [0, 1, 2, 3], (spList (core s n.val) i).busy = true) :
    exec (.endJob n) s = .next (setCore n.val (addCycles 1 (core s n.val)) s) := by
  have hbody : spWait [0, 1, 2, 3] (core s n.val) (.done noWrites) = .wait := spWait_busy hbusy
  have hout : outcome .endJob (fun x => spWait [0, 1, 2, 3] x (.done noWrites)) (core s n.val) = .wait := (outcome_of_ready hready).trans hbody
  obtain ⟨j, hj⟩ := exists_job_of_ready hready
  change execEndJob n s = _
  simp only [execEndJob, hj, hout]
  exact congrArg Host.Outcome.next (garnet_wait hready hbody)

theorem completes_noWrites {n : Nat} {i : Instr} {s : State} (hready : GReady n .plain s)
    (hrun : exec i s = .next (garnet n .plain (fun _ => .done noWrites) s)) : Obl.Completes n i noWrites s :=
  completes_of_done hrun hready rfl rfl rfl (by simp [noWrites]) (.inr rfl)

theorem garnetSystemCompletes : Obl.GarnetSystemCompletes := by
  intro n k imm s c still waits
  refine ⟨fun hready => ⟨?_, ?_, ?_, ?_, ?_, ?_⟩, fun hready => ⟨?_, ?_⟩⟩
  case refine_1 => exact completes_noWrites hready rfl
  case refine_2 =>
    intro ⟨hbusy, hrep⟩
    exact completes_noWrites hready (congrArg Host.Outcome.next (spwRow_still hready hbusy hrep))
  case refine_3 =>
    intro hbusy
    exact congrArg Host.Outcome.next (spwRow_busy hready ⟨_, List.mem_singleton_self _, hbusy⟩)
  case refine_4 =>
    intro ⟨hbusy, hrep⟩
    exact completes_noWrites hready (congrArg Host.Outcome.next (spwRow_still hready hbusy hrep))
  case refine_5 =>
    intro hbusy
    exact congrArg Host.Outcome.next (spwRow_busy hready (exists_mem_four hbusy))
  case refine_6 =>
    intro j kid krn stage hj hkind hk husr hslot
    have hkid : kernelOf j = some kid := by rw [kernelOf, hkind]
    have hrun : exec (.brk n imm) s = _ := congrArg Host.Outcome.next ((garnet_exc hready rfl).trans (raise_break hj hkid husr hslot))
    refine ⟨_, hrun, ?_⟩
    generalize hx : addCycles 1 (enterHandler c 0xA imm.toNat false false (decide (0 < c.shadow)) c.pc 0x0010) = x
    have hxjob : (core (setCore n.val x s) n.val).job = some j := by rw [core_setCore, ← hx]; exact hj
    obtain ⟨hcore, hkern⟩ := quarantine_spec (cause := ecauseOf 0xA imm.toNat) hxjob hkid hk
    rw [core_setCore] at hcore
    refine ⟨?_, ?_, ?_, ?_, ?_⟩
    · rw [hcore, ← hx]; rfl
    · rw [hcore, ← hx]; exact enterHandler_epc (pc := 0x0010) ..
    · rw [hcore, ← hx]; exact enterHandler_ecause (pc := 0x0010) ..
    · rw [hcore, ← hx]; exact userMode_enterHandler (pc := 0x0010) ..
    · refine ⟨_, by rw [hkern]; exact tblFind_set_same .., rfl, ?_⟩
      have := imm.isLt
      simp only [ecauseOf, BitVec.toNat_ofNat]
      omega
  case refine_7 => exact fun hbusy => execEndJob_busy hready (exists_mem_four hbusy)
  case refine_8 =>
    intro ⟨hbusy, hrep⟩ j hj hkeep hq
    obtain ⟨v, hover⟩ := jobOver_last (loss := 0) hj hq
    refine ⟨_, execEndJob_done hready hj hbusy hrep hkeep, ?_⟩
    rw [hover, core_setCore]
    exact ⟨rfl, rfl, rfl, rfl, rfl⟩

/-! ### Core I/O (R236, R272, R276) -/

/-- The core differs from `c` in what an instruction that writes nothing changes: where it stands, and the pipeline. -/
def Passed (c d : CoreSt) : Prop :=
  d = { c with cur := d.cur, h1 := d.h1, h2 := d.h2, h3 := d.h3, hw := d.hw, late := d.late, mlate := d.mlate, pc := d.pc, slot := d.slot,
               shadow := d.shadow, cycle := d.cycle }

theorem passed_noWrites (c : CoreSt) : Passed c (goOn c (written noWrites c)) := by
  obtain ⟨hfields, -, hdmem, -⟩ := written_fields noWrites c
  obtain ⟨hgoes, -⟩ := goOn_fields c (written noWrites c) (written_slot ..)
  have hdmem : (written noWrites c).dmem = c.dmem := hdmem
  rw [hdmem] at hfields
  generalize goOn c (written noWrites c) = e at hgoes ⊢
  generalize written noWrites c = d at hgoes hfields
  rw [hfields] at hgoes
  exact hgoes ▸ rfl

theorem written_io (io : List (Nat × Word48)) (c : CoreSt) : written { noWrites with io := io } c = written noWrites c := rfl

theorem complete_io {n : Nat} {w : GWrites} {s : State} (hgov : w.gov = 0) : complete n w s =
    w.io.foldl (fun t e => ioStore (userMode (core s n)) n e.1 e.2 t) (setCore n (goTo w.ctl (core s n) (written w (core s n))) s) := by
  simp [complete, hgov]

/-- An instruction whose one write is to the core I/O location `a`: the core retires, and then the location acts. -/
theorem ioRow_done {n : Nat} {a : Nat} {v : BitVec 24} {s : State} (hready : GReady n .plain s)
    (hres : ioStoreRes s n a (v.zeroExtend 48) = .done { noWrites with io := [(a, v.zeroExtend 48)] }) :
    ∃ d, Retires n noWrites s (setCore n d s) ∧ Passed (core s n) d ∧
      ioRow n a v s = ioStore (userMode (core s n)) n a (v.zeroExtend 48) (setCore n d s) := by
  have hplain := complete_retires n noWrites s rfl rfl (by simp [noWrites]) (.inr rfl)
  have hgo : complete n noWrites s = setCore n (goOn (core s n) (written noWrites (core s n))) s := complete_goTo rfl rfl
  refine ⟨goOn (core s n) (written noWrites (core s n)), by rw [← hgo]; exact hplain, passed_noWrites _, ?_⟩
  rw [ioRow, garnet_done n .plain (fun _ => ioStoreRes s n a (v.zeroExtend 48)) _ s hready hres]
  have hgoes : goTo ({ noWrites with io := [(a, v.zeroExtend 48)] } : GWrites).ctl = goOn := rfl
  rw [complete_io rfl, written_io, hgoes, List.foldl_cons, List.foldl_nil]

/-- As `ioRow_done`, where what the location does is the change `f` of the core. -/
theorem ioRow_ends {n : Nat} {a : Nat} {v : BitVec 24} {f : CoreSt → CoreSt} {s : State} {i : Instr} (hrun : exec i s = .next (ioRow n a v s))
    (hready : GReady n .plain s) (hres : ioStoreRes s n a (v.zeroExtend 48) = .done { noWrites with io := [(a, v.zeroExtend 48)] })
    (hstore : ∀ d, Passed (core s n) d → ioStore (userMode (core s n)) n a (v.zeroExtend 48) (setCore n d s) = setCore n (f d) s) :
    ∃ t, exec i s = .next t ∧ t = setCore n (core t n) s ∧ ∃ d, Retires n noWrites s (setCore n d s) ∧ core t n = f d := by
  obtain ⟨d, hretires, hpassed, hrow⟩ := ioRow_done hready hres
  rw [hstore d hpassed] at hrow
  refine ⟨_, hrow ▸ hrun, ?_⟩
  rw [core_setCore]
  exact ⟨rfl, d, hretires, rfl⟩

theorem low24_zeroExtend (v : BitVec 24) : (v.zeroExtend 48 : Word48).extractLsb' 0 24 = v := by
  apply BitVec.eq_of_toNat_eq
  have := v.isLt
  simp [BitVec.extractLsb'_toNat]
  omega

theorem ioStore_tmrcmp (usr : Bool) (n : Nat) (v : BitVec 24) (d : CoreSt) (s : State) :
    ioStore usr n 0xFF0003 (v.zeroExtend 48) (setCore n d s) = setCore n { d with tmrcmp := v, tmr := false } s := by
  simp [ioStore, low24_zeroExtend]

theorem ioStore_frxpop (usr : Bool) (n : Nat) (v : BitVec 24) (d : CoreSt) (s : State) :
    ioStore usr n 0xFF000B (v.zeroExtend 48) (setCore n d s) = setCore n { d with frx := d.frx.drop 1 } s := by
  simp [ioStore]

theorem ioStore_fsend (usr : Bool) (n : Nat) (v : BitVec 24) (d : CoreSt) (s : State) :
    ioStore usr n 0xFF0008 (v.zeroExtend 48) (setCore n d s) = setCore n { d with fsend := some (itemAt d n v.toNat) } s := by
  simp [ioStore, low24_zeroExtend]

/-- The list as a GO starts it (Table 9.9). -/
def listGo (usr : Bool) (addr : BitVec 24) (l : SpList) : SpList :=
  { l with busy := true, addr := addr, first := l.start.toNat, start := 0, usr := usr, valid := false, endB := false, fault := false,
           done := 0, fidx := 0, cause := 0, pend := false, unrep := false }

/-- The list as an ACK leaves it. -/
def listAck (l : SpList) : SpList :=
  { l with endB := false, fault := false, done := 0, fidx := 0, cause := 0, pend := false, unrep := false }

theorem ioStore_go (usr : Bool) (n k : Nat) (v : BitVec 24) (d : CoreSt) (s : State) :
    ioStore usr n (0xFF0040 + 16 * k) (v.zeroExtend 48) (setCore n d s) =
      setCore n { d with lists := tblSet k (listGo usr v (spList d k)) d.lists, order := d.order ++ [k] } s := by
  have hoff : 0xFF0040 + 16 * k - 0xFF0000 = 64 + 16 * k := by omega
  have hk : (64 + 16 * k - 64) / 16 = k := by omega
  have hne : 64 + 16 * k ≠ 3 ∧ 64 + 16 * k ≠ 8 ∧ 64 + 16 * k ≠ 0xB ∧ 64 ≤ 64 + 16 * k ∧ (64 + 16 * k) % 16 = 0 := by omega
  simp only [ioStore, hoff, hk, hne, if_true, if_false, low24_zeroExtend, core_setCore, setCore_setCore]
  rfl

theorem ioStore_ack (usr : Bool) (n k : Nat) (v : BitVec 24) (d : CoreSt) (s : State) :
    ioStore usr n (0xFF0043 + 16 * k) (v.zeroExtend 48) (setCore n d s) =
      setCore n { d with lists := tblSet k (listAck (spList d k)) d.lists } s := by
  have hoff : 0xFF0043 + 16 * k - 0xFF0000 = 67 + 16 * k := by omega
  have hk : (67 + 16 * k - 64) / 16 = k := by omega
  have hne : 67 + 16 * k ≠ 3 ∧ 67 + 16 * k ≠ 8 ∧ 67 + 16 * k ≠ 0xB ∧ 64 ≤ 67 + 16 * k ∧ (67 + 16 * k) % 16 = 3 := by omega
  simp [ioStore, hoff, hk, hne, setCore_setCore, listAck]

/-- A location other than FSEND and GO takes any store. -/
theorem ioStoreRes_done {s : State} {n a : Nat} {v : Word48} (hsend : a - 0xFF0000 ≠ 8) (hgo : (a - 0xFF0000) % 16 ≠ 0) :
    ioStoreRes s n a v = .done { noWrites with io := [(a, v)] } := by
  simp only [ioStoreRes, hsend, hgo, if_false, false_and, and_false]

theorem ioStoreRes_go {s : State} {n k : Nat} {v : Word48} (hidle : (spList (core s n) k).busy = false) :
    ioStoreRes s n (0xFF0040 + 16 * k) v = .done { noWrites with io := [(0xFF0040 + 16 * k, v)] } := by
  have hoff : 0xFF0040 + 16 * k - 0xFF0000 = 64 + 16 * k := by omega
  have hk : (64 + 16 * k - 64) / 16 = k := by omega
  have hne : 64 + 16 * k ≠ 8 := by omega
  simp only [ioStoreRes, hoff, hk, hne, hidle, if_false, and_false, Bool.false_eq_true]

theorem ioStoreRes_fsend {s : State} {n : Nat} {v : BitVec 24} (hfree : (core s n).fsend = none)
    (huser : userMode (core s n) = true → fsendBarred (itemAt (core s n) n v.toNat).wh.dest = false) :
    ioStoreRes s n 0xFF0008 (v.zeroExtend 48) = .done { noWrites with io := [(0xFF0008, v.zeroExtend 48)] } := by
  have hv : (v.zeroExtend 48 : Word48).toNat % 16777216 = v.toNat := by have := v.isLt; simp; omega
  have hbar : ¬(userMode (core s n) = true ∧ fsendBarred (itemAt (core s n) n v.toNat).wh.dest = true) := fun ⟨hu, hb⟩ => by
    simp [huser hu] at hb
  simp only [ioStoreRes, hfree, hv, hbar, Option.isSome_none, Bool.false_eq_true, if_false, if_true, Nat.reduceSub]

/-! ### Interrupts (R272) -/

theorem find?_fromN_four {p : Nat → Bool} {d : Nat} (hd : d < 4) (hp : p d = true) (hbefore : ∀ i, i < d → p i = false) :
    (fromN 0 4).find? p = some d := by
  rw [fromN_eq_range', List.find?_range'_eq_some]
  exact ⟨hp, List.mem_range'_1.mpr (by omega), fun j _ hj => by simp [hbefore j hj]⟩

/-- The first of the enabled causes that is pending. -/
theorem interruptCause_eq {c : CoreSt} {code detail : Nat} (h : let p := (ipend c).toNat
      let e := (modeImask (c.cur.get codeMODE)).toNat
      (p % 2 = 1 ∧ e % 2 = 1 ∧ code = 0x10 ∧ (spList c detail).pend = true ∧ detail < 4 ∧ (∀ i, i < detail → (spList c i).pend = false)) ∨
          (¬(p % 2 = 1 ∧ e % 2 = 1) ∧ p / 2 % 2 = 1 ∧ e / 2 % 2 = 1 ∧ code = 0x11 ∧ detail = 0) ∨
          (¬(p % 2 = 1 ∧ e % 2 = 1) ∧ ¬(p / 2 % 2 = 1 ∧ e / 2 % 2 = 1) ∧ p / 4 % 2 = 1 ∧ e / 4 % 2 = 1 ∧ code = 0x12 ∧ detail = 0)) :
    interruptCause c = some (code, detail) := by
  rcases h with ⟨hp, he, rfl, hpend, hlt, hfirst⟩ | ⟨hnot, hp, he, rfl, rfl⟩ | ⟨hnot, hnot', hp, he, rfl, rfl⟩
  · have hd := find?_fromN_four hlt hpend hfirst
    simp only [interruptCause, hp, he, and_self, if_true, hd, Option.getD_some]
  · simp only [interruptCause, hnot, hp, he, and_self, if_true, if_false]
  · simp only [interruptCause, hnot, hnot', hp, he, and_self, if_true, if_false]

theorem garnetCoreIoCompletes : Obl.GarnetCoreIoCompletes := by
  intro n addr l s c ends
  refine ⟨fun hready => ⟨?_, ?_, ?_, ?_, ?_⟩, ?_, ?_, ?_⟩
  case refine_1 =>
    intro hfree huser
    refine ioRow_ends rfl hready (ioStoreRes_fsend hfree huser) fun d hd => ?_
    have hdmem : d.dmem = c.dmem := by rw [hd]
    rw [ioStore_fsend, itemAt, hdmem]
    rfl
  case refine_2 =>
    refine ioRow_ends rfl hready (ioStoreRes_done (by decide) (by decide)) fun d hd => ?_
    have hfrx : d.frx = c.frx := by rw [hd]
    rw [ioStore_frxpop, hfrx]
  case refine_3 =>
    exact ioRow_ends rfl hready (ioStoreRes_done (by decide) (by decide)) fun d _ => ioStore_tmrcmp ..
  case refine_4 =>
    intro hidle
    refine ioRow_ends rfl hready (ioStoreRes_go hidle) fun d hd => ?_
    have hlists : d.lists = c.lists := by rw [hd]
    have horder : d.order = c.order := by rw [hd]
    rw [ioStore_go, spList, hlists, horder]
    rfl
  case refine_5 =>
    refine ioRow_ends rfl hready (ioStoreRes_done (by omega) (by omega)) fun d hd => ?_
    have hlists : d.lists = c.lists := by rw [hd]
    rw [ioStore_ack, spList, hlists]
    rfl
  case refine_6 =>
    intro hjob hne heq
    have hdue : ((core s n.val).job.isSome && (core s n.val).tmrcmp != 0 && (core s n.val).cycle == (core s n.val).tmrcmp) = true := by
      simp only [Bool.and_eq_true, bne_iff_ne, beq_iff_eq]
      exact ⟨⟨hjob, hne⟩, heq⟩
    change execTmrCompare n s = _
    simp only [execTmrCompare, hdue, if_true]
    rfl
  case refine_7 =>
    intro i j hi hj
    change execFsendTaken n s = _
    have hi : (core s n.val).fsend = some i := hi
    have hj : (core s n.val).job = some j := hj
    simp only [execFsendTaken, hi, hj, c]
  case refine_8 =>
    intro hjob hie hslot hshadow p e code detail hcause
    have hcause : interruptCause (core s n.val) = some (code, detail) := interruptCause_eq hcause
    have hopen : ((core s n.val).job.isSome && modeIe ((core s n.val).cur.get codeMODE) && (core s n.val).slot.isNone && (core s n.val).shadow == 0) =
        true := by
      simp only [Bool.and_eq_true, beq_iff_eq, Option.isNone_iff_eq_none]
      exact ⟨⟨⟨hjob, hie⟩, hslot⟩, hshadow⟩
    have hrun : exec (.interruptEntry n) s = .next (setCore n.val (enterHandler c code detail true false false c.pc 0x0020) s) := by
      change execInterruptEntry n s = _
      simp only [execInterruptEntry, hopen, hcause, if_true]
      rfl
    refine ⟨_, hrun, ?_⟩
    rw [core_setCore]
    refine ⟨rfl, rfl, enterHandler_epc .., ?_, ?_, modeIe_enterHandler .., userMode_enterHandler .., rfl, rfl, fun _ => rfl, ?_⟩
    · rw [enterHandler_ecause]; rfl
    · rw [enterHandler_estat, hie]; simp [b2n]
    · intro r hepc hecause hestat hmode
      exact enterHandler_get_other _ _ _ _ _ _ _ _ hepc hecause hestat hmode

/-- Settles O49: waits and ends by what is BUSY, BREAK through its handler entry and the quarantine, and each core I/O location by what its store does. -/
theorem garnetSystemAndIoComplete : Obligations.GarnetSystemAndIoComplete :=
  ⟨garnetSystemCompletes, garnetCoreIoCompletes⟩

end Sys2Proof.Machine
end

section
/-! PROOFS. Spinel lists: validation, the transfer of an element, and failure (R274 to R280). -/

namespace Sys2Proof.Machine

/-! ### What the transfer of an element changes -/

/-- Of core `n`, `t` differs from `s` at most in DMEM. -/
def SameButDmem (n : Nat) (s t : State) : Prop := core t n = { core s n with dmem := (core t n).dmem }

theorem SameButDmem.refl (n : Nat) (s : State) : SameButDmem n s s := rfl

theorem SameButDmem.trans {n : Nat} {s t u : State} (h : SameButDmem n s t) (g : SameButDmem n t u) : SameButDmem n s u := by
  unfold SameButDmem at *
  rw [g, h]

theorem SameButDmem.of_cores {n : Nat} {s t : State} (h : t.gar.cores = s.gar.cores) : SameButDmem n s t := by
  simp only [SameButDmem, core, h]

theorem SameButDmem.lists {n : Nat} {s t : State} (h : SameButDmem n s t) : (core t n).lists = (core s n).lists := by rw [h]
theorem SameButDmem.spList {n : Nat} {s t : State} (h : SameButDmem n s t) (k : Nat) : spList (core t n) k = spList (core s n) k := by
  simp only [Machine.spList, h.lists]
theorem SameButDmem.order {n : Nat} {s t : State} (h : SameButDmem n s t) : (core t n).order = (core s n).order := by rw [h]

theorem SameButDmem.foldl {α : Type} {n : Nat} {f : State → α → State} (hf : ∀ s a, SameButDmem n s (f s a)) (l : List α) (s : State) :
    SameButDmem n s (l.foldl f s) := by
  induction l generalizing s with
  | nil => exact .refl n s
  | cons a l ih => exact (hf s a).trans (ih _)

theorem sameButDmem_dmemPut (n a : Nat) (w : Word48) (s : State) : SameButDmem n s (dmemPut n a w s) := by
  simp only [SameButDmem, dmemPut, core_setCore]

theorem cores_remotePut (cl space a : Nat) (b : List Byte) (s : State) : (remotePut cl space a b s).gar.cores = s.gar.cores := by
  unfold remotePut
  split <;> rfl

theorem sameButDmem_spWord (n : Nat) (scatter mixed : Bool) (e : SpElem) (k : Nat) (s : State) : SameButDmem n s (spWord n scatter mixed e k s) := by
  unfold spWord
  dsimp only
  split
  · split
    · exact (sameButDmem_dmemPut ..).trans (.of_cores (by rw [tookFree_gar]))
    · exact sameButDmem_dmemPut ..
  · split
    · exact .foldl (fun s j => .of_cores (by rw [tookFree_gar, cores_remotePut])) _ s
    · exact .of_cores (cores_remotePut ..)

theorem sameButDmem_spMove (n : Nat) (scatter mixed : Bool) (e : SpElem) (s : State) : SameButDmem n s (spMove n scatter mixed e s) :=
  .foldl (fun s k => sameButDmem_spWord n scatter mixed e k s) _ s

theorem eventNow_gar (src kind a b : Nat) (s : State) : (eventNow src kind a b s).gar = s.gar := rfl

theorem leaseDenied_gar (n : Nat) (s : State) : (leaseDenied n s).gar = s.gar := by rw [leaseDenied, eventNow_gar, leaseStale, setLease_gar]

/-! ### The list under transfer -/

section
variable {n k cause : Nat} {rest : List Nat} {e : SpElem} {s : State}

theorem spNow_of {c : CoreSt} (horder : c.order = k :: rest) (hvalid : (spList c k).valid = true) (helem : (spList c k).elems[(spList c k).done]? = some e) :
    spNow c = some (k, spList c k, e) := by
  simp only [spNow, horder, hvalid, helem, if_true, Option.map_some]

theorem spNow_congr {c d : CoreSt} (horder : d.order = c.order) (hlists : d.lists = c.lists) : spNow d = spNow c := by
  simp only [spNow, spList, horder, hlists]
  rfl

/-- The list as `spEnd` leaves it. -/
theorem spList_spEnd (n k : Nat) (fault : Bool) (done fidx cause : Nat) (s : State) :
    spList (core (spEnd n k fault done fidx cause s) n) k = { spList (core s n) k with
      busy := false, valid := false, endB := true, fault := fault, done := done, fidx := fidx, cause := cause,
      pend := (spList (core s n) k).irqOn, unrep := fault && decide (cause ≤ 4) } := by
  simp [spEnd, spList, tblGet, tblFind_set_same]

theorem spEnd_eq (n k : Nat) (fault : Bool) (done fidx cause : Nat) (s : State) :
    spEnd n k fault done fidx cause s = setCore n (core (spEnd n k fault done fidx cause s) n) s := by
  simp [spEnd]

theorem spList_spFail (horder : (core s n).order = k :: rest) (hvalid : (spList (core s n) k).valid = true)
    (helem : (spList (core s n) k).elems[(spList (core s n) k).done]? = some e) :
    let x := spList (core (spFail n cause s) n) k
    x.endB = true ∧ x.fault = true ∧ x.busy = false ∧ x.done = (spList (core s n) k).done ∧ x.fidx = (spList (core s n) k).done ∧ x.cause = cause := by
  simp only [spFail, spNow_of horder hvalid helem, spList_spEnd, (sameButDmem_spMove n _ true e s).spList]
  trivial

/-- The present element has moved: the list ends with it, or the next one is the present one. -/
theorem execSpinelElementDone_of {n : Fin 48} {l : SpList} (hnow : spNow (core s n.val) = some (k, l, e))
    (hopen : (l.lv && !gateOk s l.lidx (0x10 + n.val) l.lepoch) = false) :
    let t := spMove n.val l.scatter false e s
    exec (.spinelElementDone n) s = .next (if l.done + 1 = l.elems.length then spEnd n.val k false l.elems.length 0 0 t
      else setCore n.val { core t n.val with lists := tblSet k { l with done := l.done + 1 } (core t n.val).lists } t) := by
  change execSpinelElementDone n s = _
  simp only [execSpinelElementDone, hnow, hopen, Bool.false_eq_true, if_false]

end

/-- The list as its validation leaves it. -/
def listRead (l : SpList) (sc : Bool) (lv : Bool) (li : Nat) (irq : Bool) (ep : BitVec 24) (es : List SpElem) : SpList :=
  { l with scatter := sc, lv := lv, lidx := li, irqOn := irq, lepoch := ep, valid := true, done := l.first,
           elems := List.replicate l.first { rspace := 0, raddr := 0, laddr := 0, form := 0, len := 0 } ++ es }

theorem spList_set (c : CoreSt) (k : Nat) (l : SpList) : spList { c with lists := tblSet k l c.lists } k = l := by
  simp only [spList, tblGet, tblFind_set_same, Option.getD_some]

/-- Settles O4: a list that fails its validation ends with its cause, one that passes it holds its elements; the present element moves, or the list
ends there. -/
theorem spinelListCompletes : Obligations.SpinelListCompletes := by
  intro n k rest s c l horder
  have horder' : (core s n.val).order = k :: rest := horder
  refine ⟨?_, ?_, fun e hvalid helem => ⟨?_, ?_⟩⟩
  case refine_1 =>
    intro hvalid haddr hheader
    have hrun : exec (.spinelListStart n) s = .next (spEnd n.val k true l.first 0 1 s) := by
      change execSpinelListStart n s = _
      have hvalid' : (spList (core s n.val) k).valid = false := hvalid
      have haddr' : ¬0x20000 ≤ (spList (core s n.val) k).addr.toNat := Nat.not_le.mpr haddr
      have hheader' : spHeader (tblGet (core s n.val).dmem (spList (core s n.val) k).addr.toNat 0) = none := hheader
      simp only [execSpinelListStart, horder', hvalid', haddr', hheader', if_false, Bool.false_eq_true]
      rfl
    refine ⟨_, hrun, spEnd_eq .., ?_⟩
    rw [spList_spEnd]
    refine ⟨rfl, rfl, rfl, rfl, rfl, rfl, ?_⟩
    rw [spEnd, core_setCore]
  case refine_2 =>
    intro sc cnt lv li irq ep es hvalid haddr hheader hfirst helems
    have hvalid' : (spList (core s n.val) k).valid = false := hvalid
    have haddr' : ¬0x20000 ≤ (spList (core s n.val) k).addr.toNat := Nat.not_le.mpr haddr
    have hfirst' : ¬cnt ≤ (spList (core s n.val) k).first := Nat.not_le.mpr hfirst
    refine ⟨setCore n.val { c with lists := tblSet k (listRead l sc lv li irq ep es) c.lists } s, ?_, ?_⟩
    · change execSpinelListStart n s = _
      simp only [execSpinelListStart, horder', hvalid', haddr', if_false, Bool.false_eq_true]
      simp only [c, l] at hheader helems
      simp only [hheader, helems, core_setCore, setCore_setCore, hfirst', if_false, listRead, c, l, horder']
    · rw [core_setCore]
      refine ⟨rfl, ?_⟩
      rw [spList_set]
      refine ⟨rfl, rfl, rfl, rfl, rfl, rfl, rfl, ?_, rfl⟩
      simp [listRead]
  case refine_3 =>
    intro hgate
    have hnow : spNow (core s n.val) = some (k, l, e) := spNow_of horder hvalid helem
    have hmove := sameButDmem_spMove n.val l.scatter false e s
    have hopen : (l.lv && !gateOk s l.lidx (0x10 + n.val) l.lepoch) = false := by
      cases hlv : l.lv <;> simp
      exact hgate hlv
    have hlt : l.done < l.elems.length := (List.getElem?_eq_some_iff.mp helem).1
    refine ⟨_, execSpinelElementDone_of hnow hopen, ?_⟩
    split
    · next hlast =>
      have hend : decide (l.done + 1 < l.elems.length) = false := decide_eq_false (by omega)
      rw [spList_spEnd, hend, ← hlast]
      refine ⟨rfl, rfl, ?_, rfl, rfl, rfl⟩
      rw [spEnd, core_setCore]
    · next hmore =>
      have hgo : decide (l.done + 1 < l.elems.length) = true := decide_eq_true (by omega)
      rw [core_setCore, spList_set, hgo, Bool.true_and, Bool.true_and]
      exact ⟨rfl, rfl, rfl, rfl, rfl, rfl⟩
  case refine_4 =>
    intro lease
    have hnow : spNow (core s n.val) = some (k, l, e) := spNow_of horder hvalid helem
    cases lease with
    | true =>
      have hrun : exec (.spinelTransferFault n true) s = .next (spFail n.val 4 (if l.lv then leaseDenied l.lidx s else s)) := by
        change execSpinelTransferFault n true s = _
        simp only [execSpinelTransferFault, hnow, if_true]
      have hsame : core (if l.lv then leaseDenied l.lidx s else s) n.val = core s n.val := by
        split
        · rw [core, leaseDenied_gar]; rfl
        · rfl
      refine ⟨_, hrun, ?_⟩
      have := spList_spFail (cause := 4) (s := if l.lv then leaseDenied l.lidx s else s) (by rw [hsame]; exact horder) (by rw [hsame]; exact hvalid)
        (by rw [hsame]; exact helem)
      rw [hsame] at this
      exact this
    | false =>
      have hrun : exec (.spinelTransferFault n false) s = .next (spUeCount n.val (spFail n.val 5 s)) := by
        change execSpinelTransferFault n false s = _
        simp only [execSpinelTransferFault, hnow, Bool.false_eq_true, if_false]
      have hlists : spList (core (spUeCount n.val (spFail n.val 5 s)) n.val) k = spList (core (spFail n.val 5 s) n.val) k := by
        rw [spUeCount, core_setCore]; rfl
      refine ⟨_, hrun, ?_⟩
      rw [hlists]
      exact spList_spFail horder hvalid helem

end Sys2Proof.Machine
end

section
/-! PROOFS. Device commands: those that end at once, RTB_CFG, image slots, fuses, resets and domain switching (R123 to R132, R168, R178, R179). -/

namespace Sys2Proof.Machine

/-- A command whose effect, wherever `p` holds, waits for `w`, goes on until `w`. -/
theorem waitsIf_of_eff_all {h : Hdr} {i : Instr} {sp : Spec} {p : State → Prop} {w : Wait} {f : State → State} {s : State}
    (hrun : exec i s = .next (scp h i sp s)) (hacc : AccKeeps sp.acc) (heff : ∀ b, p b → sp.eff b = .wait w (f b)) : Obl.WaitsIf h i sp p w f s :=
  waitsIf_of_eff hrun hacc fun _ hp => heff _ hp

/-! ### Commands that end at once, and image slots -/

theorem specTimeSet_eff_of_ok {t : BitVec 64} {fl : BitVec 8} {b : State} (h : timeSetBad b = false) : (specTimeSet t fl).eff b =
    .done stOk [] (rtbStep ((if rd b rtbSrc = 3 then ((t.toNat / 1000000000 * 1000000000 + (rtbNs b).toNat % 1000000000 : Nat) : Int) else t.toNat) -
      (rtbNs b).toNat) b) := by
  simp only [specTimeSet, h, Bool.false_eq_true, if_false]
  rfl

theorem specDomainPower_acc (dom on : BitVec 8) : AccKeeps (specDomainPower dom on).acc :=
  accKeeps_of_host fun _ s => by
    simp only [specDomainPower]
    split <;> rfl

theorem specDomainPower_on_eff (dom : BitVec 8) (b : State) : (specDomainPower dom 1).eff b =
    if domOn b dom.toNat ∧ b.pwr.cur.isNone then ok b
    else .wait (.domain dom.toNat) (if pllReady b (domPll dom.toNat) then domReq dom.toNat true b else wr (pllEn (domPll dom.toNat)) 1 b) := rfl

theorem specDomainPower_off_eff (dom : BitVec 8) (b : State) : (specDomainPower dom 0).eff b =
    if rd b (domStat dom.toNat) = 0 ∨ rd b (domStat dom.toNat) = 3 then ok b
    else if 8 ≤ dom.toNat then .wait (.domain dom.toNat) { b with pwr := { b.pwr with offAtMf := b.pwr.offAtMf ++ [dom.toNat] } }
    else .wait (.domain dom.toNat) (domReq dom.toNat false b) := rfl

theorem specBootOptions_eff_of_ddr {e p k d : BitVec 8} (hd : d ≠ 0) (b : State) : (specBootOptions e p k d).eff b =
    ok { b with boot := { b.boot with cfg := { b.boot.cfg with ethEn := e, plcEn := p.truncate 4, hostif := k.toNat, ddrspeed := d.toNat } } } := by
  simp only [specBootOptions, hd, if_false]

theorem deviceCommandsEnd : Obl.DeviceCommandsEnd := by
  intro h s
  refine ⟨?nop, ?timeSet, ?timeSetPps, ?domainOn, ?domainOff, ?admission, ?options, ?optionsDdr, ?commit, ?info, ?hibernate⟩
  case nop => exact endsIf_of_eff rfl accKeeps_none fun b _ => rfl
  case timeSet =>
    exact fun t fl => endsIf_of_eff rfl accKeeps_none fun b ⟨hok, hsrc⟩ => by rw [specTimeSet_eff_of_ok hok, if_neg hsrc]; rfl
  case timeSetPps =>
    exact fun t fl => endsIf_of_eff rfl accKeeps_none fun b ⟨hok, hsrc⟩ => by rw [specTimeSet_eff_of_ok hok, if_pos hsrc]; rfl
  case domainOn =>
    refine fun dom => endsIf_of_eff rfl (specDomainPower_acc dom 1) fun b ⟨hon, hidle⟩ => ?_
    rw [specDomainPower_on_eff, if_pos ⟨hon, by rw [hidle]; rfl⟩]
    rfl
  case domainOff =>
    refine fun dom => endsIf_of_eff rfl (specDomainPower_acc dom 0) fun b hoff => ?_
    rw [specDomainPower_off_eff, if_pos hoff]
    rfl
  case admission => exact fun r => endsIf_of_eff rfl accKeeps_none fun b _ => rfl
  case options => exact fun e p k d hd => endsIf_of_eff rfl accKeeps_none fun b _ => specBootOptions_eff_of_ddr hd b
  case optionsDdr => exact fun e p k => endsIf_of_eff rfl accKeeps_none fun b _ => rfl
  case commit => exact endsIf_of_eff rfl accKeeps_none fun b _ => rfl
  case info => exact endsIf_of_eff rfl accKeeps_none fun b _ => rfl
  case hibernate => exact fun w fl => endsIf_of_eff rfl accKeeps_none fun b _ => rfl

theorem imageSlotCommandsEnd : Obl.ImageSlotCommandsEnd := by
  intro h slot off len s mark a
  refine ⟨?erase, ?write, ?verify, ?setActslot⟩
  case erase => exact endsIf_of_eff rfl accKeeps_none fun b _ => rfl
  case write => exact fun data => endsIf_of_eff rfl accKeeps_none fun b _ => rfl
  case verify => exact endsIf_of_eff rfl accKeeps_none fun b _ => rfl
  case setActslot =>
    refine endsIf_of_eff rfl accKeeps_none fun b hverified => ?_
    simp only [specImageSlotSetActslot, hverified, if_true]
    rfl

/-! ### Fuses (R126, R129 to R132, R470) -/

theorem fuseCommandsBegin : Obl.FuseCommandsBegin := by
  intro h s
  refine ⟨?secmin, ?revoke, ?toField, ?toReturn, ?prog, ?repair⟩
  case secmin =>
    refine fun v => waitsIf_of_eff_all rfl accKeeps_none fun b ⟨hlo, hhi⟩ => ?_
    simp only [specSecminRaise, Nat.not_le.mpr hlo, Nat.not_lt.mpr hhi, or_self, if_false]
    rfl
  case revoke =>
    refine fun k => waitsIf_of_eff_all rfl accKeeps_none fun b hfree => ?_
    simp only [specKeyRevoke, revokeOk, hfree, Bool.not_false, if_true]
    rfl
  case toField => exact fun tg u => endsIf_of_eff rfl accKeeps_none fun b _ => rfl
  case toReturn => exact fun u tok => endsIf_of_eff rfl accKeeps_none fun b _ => rfl
  case prog =>
    refine fun f d => waitsIf_of_eff_all rfl accKeeps_none fun b hfree => ?_
    simp only [specFuseProg, hfree, Bool.false_eq_true, if_false]
    rfl
  case repair =>
    refine fun r tok v => waitsIf_of_eff_all rfl accKeeps_none fun b ⟨hv, w, ws, hw⟩ => ?_
    simp only [specAgtRepairFuse, hv, hw, List.isEmpty_cons, Bool.false_eq_true, if_false]
    rfl

/-! ### Resets by command (R105, R123, R178) -/

theorem resetCause_of_not_minimal {b : State} (h : minimal b = false) : resetCause b = if b.pwr.safe then 4 else 1 := by
  simp only [resetCause, h, Bool.false_eq_true, or_false]

theorem resetCause_of_minimal {b : State} (h : minimal b = true) : resetCause b = 4 := by
  simp only [resetCause, h, or_true, if_true]

theorem specDevReset_eff_of_not_minimal {k : BitVec 8} {b : State} (h : minimal b = false) : (specDevReset k).eff b =
    .wait .reset { b with boot := { b.boot with
      resetReq := if b.boot.resetReq.isSome then b.boot.resetReq else some (if b.pwr.safe then 4 else 1, none) } } := by
  simp only [specDevReset, h, Bool.false_eq_true, if_false, resetCause_of_not_minimal h]

theorem resetCommandsReset : Obl.ResetCommandsReset := by
  intro h s asks begins
  refine ⟨?reset, ?minimal, ?timeSet, ?due, ?held⟩
  case reset =>
    intro k hmin hadm
    change Host.Outcome.next (resetDue (scp h (.devReset h k) (specDevReset k) s)) = _
    have heff : (specDevReset k).eff (begun h (.devReset h k) (specDevReset k) s) = _ := specDevReset_eff_of_not_minimal hmin
    rw [scp_admits _ _ _ _ accKeeps_none hadm, heff]
  case minimal =>
    intro k b hadm hmin
    change Host.Outcome.next (resetDue (scp h (.devReset h k) (specDevReset k) s)) = _
    have heff : (specDevReset k).eff b = .done stOk [] { b with boot := { b.boot with
        resetReq := some (4, none), hdr := { b.boot.hdr with incomplete := 0, mode := 0, lastDone := b.boot.hdr.bootno } } } := by
      simp only [specDevReset, hmin, if_true, resetCause_of_minimal hmin, devResetPrep]
      rfl
    rw [scp_admits _ _ _ _ accKeeps_none hadm, heff]
  case timeSet =>
    intro t hadm
    change Host.Outcome.next (resetDue (scp h (.timeSetWithWarmReset h t) (specTimeSetWithWarmReset t) s)) = _
    rw [scp_admits _ _ _ _ accKeeps_none hadm]
    rfl
  case due =>
    intro c t hreq hfuse hrom
    simp only [resetDue, hreq, hfuse, hrom, Bool.or_self, Bool.false_eq_true, if_false]
  case held =>
    intro t hheld
    have hwaits : (fuseBusy t || romReplies t) = true := by simpa using hheld
    simp only [resetDue, hwaits, if_true]
    split <;> rfl

/-! ### Domain switching (R85, R91, R560) -/

theorem not_on_of {b : State} {d : Nat} (h : domOn b d = false ∨ b.pwr.cur ≠ none) : ¬(domOn b d = true ∧ b.pwr.cur.isNone = true) := by
  rintro ⟨hon, hidle⟩
  rcases h with h | h
  · simp [hon] at h
  · exact h (Option.isNone_iff_eq_none.mp hidle)

theorem domainPowerWaits : Obl.DomainPowerWaits := by
  intro h dom s d
  refine ⟨?on, ?pll, ?cluster, ?off⟩
  case on =>
    refine waitsIf_of_eff_all rfl (specDomainPower_acc dom 1) fun b ⟨hoff, hpll⟩ => ?_
    rw [specDomainPower_on_eff, if_neg (not_on_of hoff), if_pos hpll]
  case pll =>
    refine waitsIf_of_eff_all rfl (specDomainPower_acc dom 1) fun b ⟨hoff, hpll⟩ => ?_
    rw [specDomainPower_on_eff, if_neg (not_on_of hoff), if_neg (ne_true_of_eq_false hpll)]
  case cluster =>
    refine fun hd => waitsIf_of_eff_all rfl (specDomainPower_acc dom 0) fun b ⟨hne0, hne3⟩ => ?_
    rw [specDomainPower_off_eff, if_neg (not_or.mpr ⟨hne0, hne3⟩), if_pos hd]
  case off =>
    refine fun hd => waitsIf_of_eff_all rfl (specDomainPower_acc dom 0) fun b ⟨hne0, hne3⟩ => ?_
    rw [specDomainPower_off_eff, if_neg (not_or.mpr ⟨hne0, hne3⟩), if_neg (Nat.not_le.mpr hd)]

/-! ### What acceptance leaves of claims (R146, R149, R195, R219) -/

/-- `t` has the claims of `s` on everything but lease registers, and the same switch-offs on their way. -/
def SameClaims (s t : State) : Prop :=
  (∀ cls idx, cls ≠ 6 → claimOf t cls idx = claimOf s cls idx) ∧ t.pwr.queue = s.pwr.queue ∧ t.voice = s.voice

theorem SameClaims.trans {s t u : State} (h : SameClaims s t) (g : SameClaims t u) : SameClaims s u :=
  ⟨fun cls idx hcls => (g.1 cls idx hcls).trans (h.1 cls idx hcls), g.2.1.trans h.2.1, g.2.2.trans h.2.2⟩

theorem SameClaims.of_fields {s t : State} (hclaims : t.claims = s.claims) (hqueue : t.pwr.queue = s.pwr.queue) (hvoice : t.voice = s.voice) :
    SameClaims s t := ⟨fun _ _ _ => by simp only [claimOf, hclaims], hqueue, hvoice⟩

theorem SameClaims.unitLeaves {s t : State} (h : SameClaims s t) (u : Nat) : unitLeaves t u = unitLeaves s u := by
  simp only [Machine.unitLeaves, offDue, h.2.1, h.2.2]

theorem sameClaims_claim_lease (idx holder obj : Nat) (s : State) : SameClaims s (claim 6 idx holder obj s) := by
  refine ⟨fun cls i hcls => ?_, by rw [claim_pwr], by rw [claim_voice]⟩
  unfold claim
  split
  · rfl
  · split
    · rfl
    · have hne : ((6 : Nat) == cls && idx == i) = false := by simp [Ne.symm hcls]
      simp only [claimOf, List.find?_append, List.find?_cons, hne, List.find?_nil, Option.or_none]

theorem sameClaims_holdTail (s : State) : SameClaims s (holdTail s) := by
  unfold holdTail leaseGrant
  dsimp only
  split
  · split
    · exact (SameClaims.of_fields rfl rfl rfl).trans (sameClaims_claim_lease ..)
    · exact .of_fields rfl rfl rfl
  · split <;> exact .of_fields rfl rfl rfl

theorem sameClaims_ledgerOpen (i kind : Nat) (noack emerg : Bool) (s : State) : SameClaims s (ledgerOpen i kind noack emerg s) := by
  unfold ledgerOpen
  exact .of_fields rfl rfl rfl

theorem sameClaims_ledgerFill (idem origin kib object : Nat) (check : BitVec 32) (s : State) : SameClaims s (ledgerFill idem origin kib object check s) := by
  unfold ledgerFill
  split <;> exact .of_fields rfl rfl rfl

theorem sameClaims_ledgerCommit (s : State) : SameClaims s (ledgerCommit s) := by
  unfold ledgerCommit
  split
  · exact .of_fields rfl rfl rfl
  · exact .of_fields (by simp) (by simp [ueFix]) (by simp)

theorem sameClaims_ledgerAccept (kind idem origin kib object : Nat) (check : BitVec 32) (noack emerg : Bool) (s : State) :
    SameClaims s (ledgerAccept kind idem origin kib object check noack emerg s).2 := by
  unfold ledgerAccept
  split
  · exact .of_fields rfl rfl rfl
  · exact (((sameClaims_holdTail s).trans (sameClaims_ledgerOpen ..)).trans (sameClaims_ledgerFill ..)).trans (sameClaims_ledgerCommit _)

theorem sameClaims_takeSeq (q : Nat) (s : State) : SameClaims s (takeSeq q s) := by
  unfold takeSeq
  dsimp only
  split <;> exact .of_fields rfl rfl rfl

/-- What an accepted command's own acceptance finds, and that nothing after it changes a claim. -/
theorem claims_acceptCmd (h : Hdr) (i : Instr) (sp : Spec) (s : State) :
    ∃ c t, SameClaims s t ∧ (acceptCmd h i sp s).claims = (sp.acc c t).claims := by
  have hseq := sameClaims_takeSeq h.queue.val s
  unfold acceptCmd
  dsimp only
  split
  · exact ⟨_, addCmd (newCmd h i sp.info sp.objs h.seq) (takeSeq h.queue.val s), hseq.trans (.of_fields rfl rfl rfl), rfl⟩
  · have hledger := hseq.trans (sameClaims_ledgerAccept (kindOf sp.info.lcls) (idemCode sp.info.idem)
      (h.queue.val + h.seq.toNat * 0x100 + sp.info.opcode * 0x1000000) (recKib sp.info.opcode) (objCode sp.objs) h.check h.noack h.emerg _)
    generalize ledgerAccept _ _ _ _ _ _ _ _ _ = r at hledger ⊢
    generalize ({ newCmd h i sp.info sp.objs h.seq with lref := r.1, lsn := r.2.ledger.nextLsn.toNat - 1 } : Cmd) = c
    refine ⟨c, addCmd c r.2, hledger.trans (.of_fields rfl rfl rfl), ?_⟩
    split <;> rfl

theorem claims_begun (h : Hdr) (i : Instr) (sp : Spec) (s : State) : (begun h i sp s).claims = (acceptCmd h i sp s).claims := by
  unfold begun
  dsimp only
  rw [setCmd_claims]
  split
  · rw [ledgerPhase_claims]
  · rfl

theorem orElse_eq_none_iff {α : Type} {o : Option α} {f : Unit → Option α} : o.orElse f = none ↔ o = none ∧ f () = none := by
  cases o <;> simp

/-- An admitted command has passed the check of its own row. -/
theorem st_of_admits {h : Hdr} {sp : Spec} {s : State} (hadm : admits h sp s = true) : sp.st s = none := by
  simp only [admits, Bool.and_eq_true, Option.isNone_iff_eq_none] at hadm
  obtain ⟨⟨⟨-, hcheck⟩, -⟩, -⟩ := hadm
  simp only [scpCheck, orElse_eq_none_iff] at hcheck
  exact hcheck.1.2

/-- A claim on one resource leaves those on others. -/
theorem claimOf_claim_other {cls idx holder obj c i : Nat} (s : State) (h : ¬(cls = c ∧ idx = i)) :
    claimOf (claim cls idx holder obj s) c i = claimOf s c i := by
  unfold claim
  split
  · rfl
  · split
    · rfl
    · have hne : (cls == c && idx == i) = false := by simpa using h
      simp only [claimOf, List.find?_append, List.find?_cons, hne, List.find?_nil, Option.or_none]

theorem claimRej_eq_none_iff {cls idx holder obj : Nat} {s : State} :
    claimRej s cls idx holder obj = none ↔ ∀ c, claimOf s cls idx = some c → c.holder = holder ∧ c.obj = obj := by
  unfold claimRej
  cases claimOf s cls idx <;> simp

/-- A holder that passed the check has the claim once it is taken. -/
theorem claimOf_claim_same {cls idx holder obj : Nat} {s : State} (hrej : claimRej s cls idx holder obj = none) (hstay : unitLeaves s holder = false) :
    ∃ c, claimOf (claim cls idx holder obj s) cls idx = some c ∧ c.holder = holder ∧ c.obj = obj := by
  unfold claim
  cases hc : claimOf s cls idx with
  | some c => exact ⟨c, hc, claimRej_eq_none_iff.mp hrej c hc⟩
  | none =>
    refine ⟨{ cls := cls, idx := idx, holder := holder, obj := obj }, ?_, rfl, rfl⟩
    have hnone : s.claims.find? (fun c => c.cls == cls && c.idx == idx) = none := hc
    simp [hstay, claimOf, List.find?_append, hnone]

/-! ### RTB_CFG (R179, R517, R518) -/

section
variable {src port : BitVec 8} {srcto : BitVec 16} {hold stepthr : BitVec 32} {lock slew : BitVec 16}

theorem specRtbCfg_acc : AccKeeps (specRtbCfg src port srcto hold stepthr lock slew).acc :=
  accKeeps_of_host fun _ s => by
    simp only [specRtbCfg, rtbClaims]
    split
    · rfl
    · split
      · rw [claim_host, claim_host]
      · rw [claim_host]

/-- RTB_CFG takes the claims of its source at acceptance. -/
theorem rtbCfg_claims {h : Hdr} {i : Instr} {s : State} (hsrc : src ≠ 0) (hadm : admits h (specRtbCfg src port srcto hold stepthr lock slew) s = true)
    (hstay : unitLeaves s (rtbHolder src.toNat port.toNat).1 = false) :
    ∃ c, claimOf (begun h i (specRtbCfg src port srcto hold stepthr lock slew) s) 3 0 = some c ∧ c.holder = (rtbHolder src.toNat port.toNat).1 ∧
      c.obj = (rtbHolder src.toNat port.toNat).2 := by
  obtain ⟨c, t, hsame, hclaims⟩ := claims_acceptCmd h i (specRtbCfg src port srcto hold stepthr lock slew) s
  have hst := st_of_admits hadm
  have hne : src.toNat ≠ 0 := fun h0 => hsrc (BitVec.eq_of_toNat_eq h0)
  simp only [specRtbCfg, hsrc, if_false, orElse_eq_none_iff] at hst
  have hrej : claimRej t 3 0 (rtbHolder src.toNat port.toNat).1 (rtbHolder src.toNat port.toNat).2 = none := by
    rw [claimRej_eq_none_iff, hsame.1 3 0 (by decide)]
    exact claimRej_eq_none_iff.mp hst.1
  have hacc : claimOf ((specRtbCfg src port srcto hold stepthr lock slew).acc c t) 3 0 =
      claimOf (claim 3 0 (rtbHolder src.toNat port.toNat).1 (rtbHolder src.toNat port.toNat).2 t) 3 0 := by
    simp only [specRtbCfg, rtbClaims, hne, if_false]
    split
    · exact claimOf_claim_other _ (by decide)
    · rfl
  have hbegun : claimOf (begun h i (specRtbCfg src port srcto hold stepthr lock slew) s) 3 0 =
      claimOf ((specRtbCfg src port srcto hold stepthr lock slew).acc c t) 3 0 := by
    simp only [claimOf, claims_begun, hclaims]
  rw [hbegun, hacc]
  exact claimOf_claim_same hrej (by rw [hsame.unitLeaves, hstay])

/-- The parameters of RTB_CFG in their registers. -/
def rtbParams (src port : BitVec 8) (srcto : BitVec 16) (hold stepthr : BitVec 32) (lock slew : BitVec 16) (b : State) : State :=
  wr rtbSrcto srcto.toNat (wr rtbHoldover hold.toNat (wr rtbStepthr stepthr.toNat (wr rtbLockthr lock.toNat (wr rtbSlewmax slew.toNat
    (wr rtbSrc src.toNat (wr rtbPtpPort (if src = 1 then port.toNat else 0) (wr rtbPlcPort (if src = 2 then port.toNat else 0) b)))))))

theorem rd_rtbState_rtbParams (b : State) : rd (rtbParams src port srcto hold stepthr lock slew b) rtbState = rd b rtbState := by
  have hkey (f : Fld) (x : Nat) (s : State) (h : rtbState.key ≠ f.key) : rd (wr f x s) rtbState = rd s rtbState := rd_wr_other f rtbState x s h
  unfold rtbParams
  rw [hkey, hkey, hkey, hkey, hkey, hkey, hkey, hkey] <;> decide

/-- RTB_CFG: the claims of the source, its parameters, and then what the selection of the source does. -/
theorem specRtbCfg_eff (b : State) : (specRtbCfg src port srcto hold stepthr lock slew).eff b =
    let t := if src = 0 then unclaimIf (fun c => c.cls == 3 || (c.cls == 2 && c.idx == 5 && c.holder == 0)) b else rtbClaims src.toNat port.toNat b
    .done stOk [] (srcWritten (rd t rtbSrc) src.toNat (rtbParams src port srcto hold stepthr lock slew t)) := rfl

theorem rtbClaims_regs (a p : Nat) (b : State) : (rtbClaims a p b).regs = b.regs := by
  unfold rtbClaims
  dsimp only
  split
  · rfl
  · split
    · rw [claim_regs, claim_regs]
    · rw [claim_regs]

/-- A source that was selected already, and is not UNSYNCED, is not selected again. -/
theorem srcWritten_again {was src : Nat} {t : State} (hwas : was = src) (hsrc : src ≠ 0) (hstate : rd t rtbState ≠ 0) : srcWritten was src t = t := by
  simp only [srcWritten, hwas, ne_eq, hsrc, not_false_eq_true, hstate, and_self, if_true]

theorem srcWritten_new {was src : Nat} {t : State} (h : ¬(was = src ∧ src ≠ 0 ∧ rd t rtbState ≠ 0)) : srcWritten was src t = srcSelected src t := by
  simp only [srcWritten, h, if_false]

theorem rtbCfgEnds : Obl.RtbCfgEnds := by
  intro h src port srcto hold stepthr lock slew s put hd take fresh i sp
  have hput (b : State) : put b = rtbParams src port srcto hold stepthr lock slew b := rfl
  have heff0 (hsrc : src = 0) (b : State) : sp.eff b = .done stOk [] (srcSelected 0
      (put (unclaimIf (fun c => c.cls == 3 || (c.cls == 2 && c.idx == 5 && c.holder == 0)) b))) := by
    have hzero : src.toNat = 0 := by rw [hsrc]; rfl
    simp only [sp]
    rw [specRtbCfg_eff, if_pos hsrc, hzero]
    dsimp only
    rw [srcWritten_new (by simp), hput]
  have hne (hsrc : src ≠ 0) : src.toNat ≠ 0 := fun h0 => hsrc (BitVec.eq_of_toNat_eq h0)
  have htake (hsrc : src ≠ 0) (b : State) : rtbClaims src.toNat port.toNat b = take b := by
    have hthree : (src.toNat = 3) = (src = 3) := propext ⟨fun h3 => BitVec.eq_of_toNat_eq h3, fun h3 => by rw [h3]; rfl⟩
    simp only [rtbClaims, hne hsrc, if_false, hthree, take, hd]
  have heff (hsrc : src ≠ 0) (b : State) : sp.eff b = .done stOk [] (srcWritten (rd b rtbSrc) src.toNat (put (take b))) := by
    have hread : rd (take b) rtbSrc = rd b rtbSrc := rd_congr _ _ _ (by rw [← htake hsrc, rtbClaims_regs])
    simp only [sp]
    rw [specRtbCfg_eff, if_neg hsrc, htake hsrc, hput]
    dsimp only
    rw [hread]
  have hstate (hsrc : src ≠ 0) (b : State) : rd (put (take b)) rtbState = rd b rtbState := by
    rw [hput, rd_rtbState_rtbParams, ← htake hsrc]
    exact rd_congr _ _ _ (rtbClaims_regs ..)
  have hstate0 (p : Claim → Bool) (b : State) : rd (put (unclaimIf p b)) rtbState = rd b rtbState := by
    rw [hput, rd_rtbState_rtbParams]
    rfl
  refine ⟨?free, ?freeAlready, ?claims, ?again, ?other, ?first⟩
  case free =>
    refine fun hsrc => endsIf_of_eff rfl specRtbCfg_acc fun b hfree => ?_
    have hfree' : ¬rd b rtbState = 4 := hfree
    simp only [heff0 hsrc, srcSelected, hstate0, hfree', if_true, if_false]
    rfl
  case freeAlready =>
    refine fun hsrc => endsIf_of_eff rfl specRtbCfg_acc fun b hfree => ?_
    simp only [heff0 hsrc, srcSelected, hstate0, hfree, if_true]
    rfl
  case claims => exact fun hsrc hadm hstay => rtbCfg_claims hsrc hadm hstay
  case again =>
    refine fun hsrc => endsIf_of_eff rfl specRtbCfg_acc fun b ⟨hsame, hsynced⟩ => ?_
    rw [heff hsrc, srcWritten_again hsame (hne hsrc) (by rw [hstate hsrc]; exact hsynced)]
    rfl
  case other =>
    refine fun hsrc => endsIf_of_eff rfl specRtbCfg_acc fun b ⟨hother, hsynced⟩ => ?_
    rw [heff hsrc, srcWritten_new (fun hc => hother hc.1)]
    simp only [srcSelected, hne hsrc, hstate hsrc, hsynced, if_false]
    rfl
  case first =>
    refine fun hsrc => endsIf_of_eff rfl specRtbCfg_acc fun b hunsynced => ?_
    rw [heff hsrc, srcWritten_new (fun hc => hc.2.2 (by rw [hstate hsrc]; exact hunsynced))]
    simp only [srcSelected, hne hsrc, hstate hsrc, hunsynced, if_true, if_false]
    rfl

end

/-- Settles O50: the device commands by their effects, RTB_CFG by its claims and the selection of the source. -/
theorem deviceCommandsComplete : Obligations.DeviceCommandsComplete := ⟨deviceCommandsEnd, rtbCfgEnds⟩

/-- Settles O51. -/
theorem imageAndFuseCommandsComplete : Obligations.ImageAndFuseCommandsComplete := ⟨imageSlotCommandsEnd, fuseCommandsBegin⟩

/-- Settles O52. -/
theorem resetAndDomainCommandsComplete : Obligations.ResetAndDomainCommandsComplete := ⟨resetCommandsReset, domainPowerWaits⟩

end Sys2Proof.Machine
end

section
/-! PROOFS. Channel commands: those that take effect at once, those placed in the schedule, and what the placed ones do (R175, R181, R284). -/

namespace Sys2Proof.Machine

/-! ### The execution of a channel command -/

section
variable {h : Hdr} {i : Instr} {sp : Spec} {s : State}

theorem stage_of_applies {c : Cmd} {atCommit : Bool} {b : State} (hme : meCmd h b = some c) (hvalid : Obl.Applies h i b) :
    stage h i atCommit b = if atCommit then .wait .commit b
      else match boundaryChan i b with
        | some ch => if hasFrames b ch || placedOn ch b then .wait .commit b else effectOf c b
        | none => effectOf c b := by
  have hvalid : (!voiceValid i (planOf h b)) = false := by rw [hvalid]; rfl
  simp only [stage, hme, hvalid, Bool.false_eq_true, if_false] <;> rfl

/-- The command under execution is the one that was admitted. -/
theorem meCmd_begun (hacc : AccKeeps sp.acc) (hadm : admits h sp s = true) :
    meCmd h (begun h i sp s) = some (begunCmd h i sp s) ∧ (begunCmd h i sp s).instr = i ∧ (begunCmd h i sp s).emerg = h.emerg := by
  obtain ⟨hcmd, hinstr, hemerg, -⟩ := cmdAt_begun h i sp s hacc hadm
  exact ⟨hcmd, hinstr, hemerg⟩

theorem cmd_eta {c : Cmd} {e : Bool} (hi : c.instr = i) (he : c.emerg = e) : c = { c with instr := i, emerg := e } := by
  subst hi he
  rfl

/-- A channel command that applies, on an object that has no frame boundary, has its effect at once. -/
theorem endsIf_of_stage {p : State → Prop} {f : State → State} (hrun : exec i s = .next (scp h i sp s)) (hacc : AccKeeps sp.acc)
    (hstage : sp.eff = stage h i false) (happlies : ∀ b, p b → Obl.Applies h i b)
    (hstill : ∀ b, p b → ∀ ch, boundaryChan i b = some ch → hasFrames b ch = false ∧ placedOn ch b = false)
    (heff : ∀ (c : Cmd) (b : State), effectOf { c with instr := i, emerg := h.emerg } b = .done stOk [] (f b)) : Obl.EndsIf h i sp p Obl.noRes f s := by
  intro hadm hp
  obtain ⟨hme, hinstr, hemerg⟩ := meCmd_begun (i := i) hacc hadm
  have hgo : sp.eff (begun h i sp s) = .done stOk [] (f (begun h i sp s)) := by
    have hcmd : begunCmd h i sp s = { begunCmd h i sp s with instr := i, emerg := h.emerg } := cmd_eta hinstr hemerg
    rw [hstage, stage_of_applies hme (happlies _ hp), if_neg Bool.false_ne_true, ← heff (begunCmd h i sp s), ← hcmd]
    split
    · next ch hch =>
      obtain ⟨hframes, hplaced⟩ := hstill _ hp ch hch
      rw [hframes, hplaced]
      rfl
    · rfl
  rw [hrun, scp_admits h i sp s hacc hadm, hgo]
  rfl

/-- One on a channel that does not run. -/
theorem endsIf_appliesNow {n : Nat} {f : State → State} (hrun : exec i s = .next (scp h i sp s)) (hacc : AccKeeps sp.acc)
    (hstage : sp.eff = stage h i false) (hch : ∀ b, boundaryChan i b = some n)
    (heff : ∀ (c : Cmd) (b : State), effectOf { c with instr := i, emerg := h.emerg } b = .done stOk [] (f b)) :
    Obl.EndsIf h i sp (Obl.AppliesNow h i n) Obl.noRes f s := by
  refine endsIf_of_stage hrun hacc hstage (fun _ hb => hb.1) (fun b hb ch heq => ?_) heff
  obtain ⟨-, hframes, hplaced⟩ := hb
  cases (hch b).symm.trans heq
  exact ⟨hframes, hplaced⟩

/-- One that no channel's frame boundary holds. -/
theorem endsIf_applies {f : State → State} (hrun : exec i s = .next (scp h i sp s)) (hacc : AccKeeps sp.acc)
    (hstage : sp.eff = stage h i false) (hch : ∀ b, boundaryChan i b = none)
    (heff : ∀ (c : Cmd) (b : State), effectOf { c with instr := i, emerg := h.emerg } b = .done stOk [] (f b)) :
    Obl.EndsIf h i sp (Obl.Applies h i) Obl.noRes f s :=
  endsIf_of_stage hrun hacc hstage (fun _ hb => hb) (fun b _ ch heq => absurd ((hch b).symm.trans heq) (by simp)) heff

/-- One that changes the schedule waits for its commit. -/
theorem waitsIf_of_stage (hrun : exec i s = .next (scp h i sp s)) (hacc : AccKeeps sp.acc) (hstage : sp.eff = stage h i true) :
    Obl.WaitsIf h i sp (Obl.Applies h i) .commit (fun b => b) s :=
  waitsIf_of_eff hrun hacc fun hadm happlies => by
    rw [hstage, stage_of_applies (meCmd_begun hacc hadm).1 happlies, if_pos rfl]

/-- One on a channel that has frame boundaries waits for a commit. -/
theorem waitsIf_of_frames {p : State → Prop} (hrun : exec i s = .next (scp h i sp s)) (hacc : AccKeeps sp.acc) (hstage : sp.eff = stage h i false)
    (happlies : ∀ b, p b → Obl.Applies h i b) (hruns : ∀ b, p b → ∃ ch, boundaryChan i b = some ch ∧ hasFrames b ch = true) :
    Obl.WaitsIf h i sp p .commit (fun b => b) s :=
  waitsIf_of_eff hrun hacc fun hadm hp => by
    obtain ⟨ch, hch, hframes⟩ := hruns _ hp
    rw [hstage, stage_of_applies (meCmd_begun hacc hadm).1 (happlies _ hp), if_neg Bool.false_ne_true, hch]
    simp only [hframes, Bool.true_or, if_true]

end

theorem specChModify_eff {h : Hdr} {ch mask : BitVec 16} {p : ChParams} (hmask : mask ≠ 0) :
    (specChModify h ch mask p).eff = stage h (.chModify h ch mask p) false := by
  funext b
  simp only [specChModify, hmask, if_false]

theorem effectOf_chModify {h : Hdr} {ch mask : BitVec 16} {p : ChParams} (hmask : mask ≠ 0) (c : Cmd) (b : State) :
    effectOf { c with instr := .chModify h ch mask p, emerg := h.emerg } b = .done stOk [] (modChan ch.toNat (fun c => emergPrio h.emerg
      { c with p := mergePar mask.toNat c.p p, bypass := false,
               ec := if mask.getLsbD 2 ∨ c.bypass then (if (mergePar mask.toNat c.p p).echoTail = 0 then 0 else 1) else c.ec }) b) := by
  simp only [effectOf, applyVoice, hmask, if_false]
  rfl

/-- Settles O5: on an object that does not run, the effect of the command is its own. -/
theorem channelCommandsEnd : Obligations.ChannelCommandsEnd := by
  intro h ch s n
  have now {i : Instr} {sp : Spec} {f : State → State} := endsIf_appliesNow (h := h) (i := i) (sp := sp) (s := s) (n := n) (f := f)
  have once {i : Instr} {sp : Spec} {f : State → State} := endsIf_applies (h := h) (i := i) (sp := sp) (s := s) (f := f)
  refine ⟨?create, ?modify, ?modifyNone, ?delete, ?toneGen, ?tonesetLoad, ?emergRule, ?bind, ?unbind, ?unload⟩
  case create => exact fun p => once rfl accKeeps_none rfl (fun _ => rfl) fun _ _ => rfl
  case modify => exact fun mask p hmask => now rfl accKeeps_none (specChModify_eff hmask) (fun _ => rfl) (effectOf_chModify hmask)
  case modifyNone =>
    refine fun p => endsIf_of_eff rfl accKeeps_none fun b hvalid => ?_
    simp only [specChModify, hvalid, if_true]
    rfl
  case delete => exact now rfl accKeeps_none rfl (fun _ => rfl) fun _ _ => rfl
  case toneGen => exact fun dir ts tone dur => now rfl accKeeps_none rfl (fun _ => rfl) fun _ _ => rfl
  case tonesetLoad => exact fun ts d => once rfl accKeeps_none rfl (fun _ => rfl) fun _ _ => rfl
  case emergRule => exact fun r t src g fl => once rfl accKeeps_none rfl (fun _ => rfl) fun _ _ => rfl
  case bind => exact fun kid stg => now rfl accKeeps_none rfl (fun _ => rfl) fun _ _ => rfl
  case unbind => exact fun kid => now rfl accKeeps_none rfl (fun _ => rfl) fun _ _ => rfl
  case unload => exact fun kid => once rfl accKeeps_none rfl (fun _ => rfl) fun _ _ => rfl

/-! ### Placement at acceptance (R181, R513) -/

theorem accKeeps_early {f : Cmd → State → List Nat} : AccKeeps fun c s => setCmd { c with early := f c s } s :=
  fun c s => .inr ⟨f c s, rfl⟩

theorem foldl_claim_host (l : List (Nat × Nat)) (holder obj : Nat) (s : State) :
    (l.foldl (fun s e => claim e.1 e.2 holder obj s) s).host = s.host := by
  induction l generalizing s with
  | nil => rfl
  | cons e l ih => rw [List.foldl_cons, ih, claim_host]

theorem specChActivate_acc (h : Hdr) (ch : BitVec 16) (x y : BitVec 32) : AccKeeps (specChActivate h ch x y).acc := by
  intro c s
  simp only [specChActivate]
  split
  · exact .inl rfl
  · split
    · exact .inl rfl
    · next n phase _ =>
      refine .inr ⟨[n, phase], ?_⟩
      rw [foldl_claim_host]
      rfl

/-- The recorder of an accepted REC_START takes a free number. -/
def recNumbered (c : Cmd) (t : State) : State :=
  match choose ((fromN 0 256).filter (fun r => !(recsTaken t).contains r)) t with
  | some r => setCmd { c with early := [r] } (tookFree t)
  | none => t

theorem recNumbered_cmds (c : Cmd) {s t : State} (h : t.host = s.host) :
    (recNumbered c t).host.cmds = s.host.cmds ∨ ∃ e, (recNumbered c t).host.cmds = (setCmd { c with early := e } s).host.cmds := by
  unfold recNumbered
  split
  · next r _ => exact .inr ⟨[r], by rw [setCmd, setCmd, tookFree_host, h]⟩
  · exact .inl (by rw [h])

theorem specRecStart_acc (h : Hdr) (ch : BitVec 16) (q : BitVec 8) (m : BitVec 16) (a : BitVec 64) (l : BitVec 32) (k : BitVec 16) :
    AccKeeps (specRecStart h ch q m a l k).acc := by
  intro c s
  refine recNumbered_cmds c ?_
  split
  · rw [claim_host]
  · rfl

/-- Settles O6: a command that applies waits for the commit where it changes the schedule or its channel has frame boundaries. -/
theorem channelCommandsArePlaced : Obligations.ChannelCommandsArePlaced := by
  intro h ch s n atOnce onFrame
  have framed {i : Instr} {sp : Spec} (hrun : exec i s = .next (scp h i sp s)) (hacc : AccKeeps sp.acc) (hstage : sp.eff = stage h i false)
      (hch : ∀ b, boundaryChan i b = some n) : onFrame i sp :=
    waitsIf_of_frames hrun hacc hstage (fun _ hb => hb.1) fun b hb => ⟨n, hch b, hb.2⟩
  refine ⟨?activate, ?create, ?join, ?leave, ?delete, ?modify, ?deactivate, ?toneGen, ?recStart, ?recStop, ?bind, ?unbind⟩
  case activate => exact fun x y => waitsIf_of_stage rfl (specChActivate_acc h ch x y) rfl
  case create => exact fun g m x p => waitsIf_of_stage rfl accKeeps_none rfl
  case join => exact fun g r x => waitsIf_of_stage rfl accKeeps_early rfl
  case leave => exact fun g => waitsIf_of_stage rfl accKeeps_early rfl
  case delete => exact fun g => waitsIf_of_stage rfl accKeeps_none rfl
  case modify => exact fun m p hmask => framed rfl accKeeps_none (specChModify_eff hmask) fun _ => rfl
  case deactivate => exact framed rfl accKeeps_none rfl fun _ => rfl
  case toneGen => exact fun d t k u => framed rfl accKeeps_none rfl fun _ => rfl
  case recStart => exact fun q m a l k => framed rfl (specRecStart_acc h ch q m a l k) rfl fun _ => rfl
  case recStop => exact fun r => waitsIf_of_frames rfl accKeeps_none rfl (fun _ hb => hb.1) fun _ hb => hb.2
  case bind => exact fun k g => framed rfl accKeeps_none rfl fun _ => rfl
  case unbind => exact fun k => framed rfl accKeeps_none rfl fun _ => rfl

/-! ### What placed commands do (R181, R284, R299, R301) -/

theorem takeEffect_of_done {c : Cmd} {st : Nat} {r : List Byte} {s t : State} (h : effectOf c s = .done st r t) :
    takeEffect c s = finish c st r t := by
  simp only [takeEffect, h]

/-- Settles O7: each command's effect, taken when the command does. -/
theorem placedChannelCommandsTakeEffect : Obligations.PlacedChannelCommandsTakeEffect := by
  intro h c ch s n e
  refine ⟨?activate, ?create, ?join, ?leave, ?delete, ?deactivate, ?recStart, ?recStop, ?place⟩
  case activate =>
    intro x y hi husable t
    apply takeEffect_of_done
    simp only [effectOf, hi, husable, if_true]
    rfl
  case create =>
    intro g m x p hi
    apply takeEffect_of_done
    simp only [effectOf, hi]
    rfl
  case join =>
    intro g r x v hi hv
    apply takeEffect_of_done
    simp only [effectOf, hi, applyVoice, joinGroup, hv]
    rfl
  case leave =>
    intro g v hi hv
    apply takeEffect_of_done
    simp only [effectOf, hi, applyVoice, hv]
    rfl
  case delete =>
    intro g hi
    apply takeEffect_of_done
    simp only [effectOf, hi]
    rfl
  case deactivate =>
    intro v hi hv
    have hv : chan? s ch.toNat = some v := hv
    apply takeEffect_of_done
    simp only [effectOf, hi, hv]
    rfl
  case recStart =>
    intro q m a l k hi
    apply takeEffect_of_done
    simp only [effectOf, hi]
    rfl
  case recStop =>
    intro r v hi hv hframes hspill hclosed
    apply takeEffect_of_done
    have hstopping : tblFind r.toNat (setRec r.toNat { v with stopping := true } s).voice.recs = some { v with stopping := true } := tblFind_set_same ..
    simp only [effectOf, hi, applyVoice, hv, hstopping]
    rw [if_pos ⟨hframes, by rw [hspill]; rfl, by rw [hclosed]; rfl⟩]
  case place =>
    intro q seq hc hfin hwait
    simp only [placeCmd, hc, hfin, hwait]
    rfl

end Sys2Proof.Machine
end

section
/-! PROOFS. The commands of the Ethernet ports (R309, R334, R337, R495, R496). -/

namespace Sys2Proof.Machine

/-! ### PORT_CFG and PORT_STATE -/

theorem specPortDisable_eff_of_idle {port : BitVec 8} {b : State} (hon : ethSt b port.toNat ≠ 0) (hfree : disableRej port.toNat b = none)
    (hidle : (ethP b port.toNat).sending = none) : (specPortDisable port).eff b =
    (let t := linkGone port.toNat (expireAll port.toNat b)
     okRes [0] (wr (ethState port.toNat) 0 (wr (ethEn port.toNat) 0 (setEth port.toNat { ethP t port.toNat with settleUntil := none, xoff := none } t)))) := by
  simp only [specPortDisable, hon, hfree, hidle, if_false]

theorem specPortDisable_eff_of_sending {port : BitVec 8} {b : State} {c : Nat} {q : QItem} (hon : ethSt b port.toNat ≠ 0)
    (hfree : disableRej port.toNat b = none) (hsends : (ethP b port.toNat).sending = some (c, q)) : (specPortDisable port).eff b =
    (let v := ethP b port.toNat
     let t := linkGone port.toNat (expireAll port.toNat (setEth port.toNat { v with sending := none, q := tblSet c (q :: tblGet v.q c []) v.q } b))
     okRes [0] (wr (ethState port.toNat) 0 (wr (ethEn port.toNat) 0 (setEth port.toNat { ethP t port.toNat with settleUntil := none, xoff := none } t)))) := by
  simp only [specPortDisable, hon, hfree, hsends, if_false]

/-- Settles O8: the settings are written, and the port starts, stops or is left as PORT_STATE says. -/
theorem ethPortCommandsComplete : Obligations.EthPortCommandsComplete := by
  intro h port s p
  refine ⟨?cfg, ?enable, ?return', ?disable, ?disableSending, ?outOfService⟩
  case cfg =>
    intro mode mf fl hold settle age wd put times i sp
    refine ⟨endsIf_of_eff rfl accKeeps_none fun b hmode => ?_, endsIf_of_eff rfl accKeeps_none fun b ⟨hmode, hoff⟩ => ?_⟩
    · have hmode : rd b (ethMode port.toNat) = mode.toNat := hmode
      simp only [sp, specPortCfg, hmode, ne_eq, not_true_eq_false, and_false, if_false, decide_false, Bool.false_eq_true]
      rfl
    · have hmode : (rd b (ethMode port.toNat) = mode.toNat) = False := eq_false hmode
      have hoff : flag b (ethEn port.toNat) = false := hoff
      simp only [sp, specPortCfg, hmode, hoff, ne_eq, not_false_eq_true, Bool.false_eq_true, false_and, if_false, decide_true, if_true]
      rfl
  case enable =>
    refine waitsIf_of_eff_all rfl accKeeps_none fun b hoff => ?_
    have hoff : ethSt b port.toNat = 0 := hoff
    simp only [specPortEnable, hoff, ne_eq, not_true_eq_false, if_false]
    rfl
  case return' =>
    refine waitsIf_of_eff_all rfl accKeeps_none fun b hout => ?_
    have hout : ¬(ethSt b port.toNat ≠ 5 ∧ ethSt b port.toNat ≠ 3) := by
      rintro ⟨hne5, hne3⟩
      exact hout.elim hne5 hne3
    simp only [specPortReturn, hout, if_false]
    rfl
  case disable =>
    exact endsIf_of_eff rfl accKeeps_none fun b ⟨hon, hfree, hidle⟩ => specPortDisable_eff_of_idle hon hfree hidle
  case disableSending =>
    exact fun c q => endsIf_of_eff rfl accKeeps_none fun b ⟨hon, hfree, hsends⟩ => specPortDisable_eff_of_sending hon hfree hsends
  case outOfService =>
    refine endsIf_of_eff rfl accKeeps_none fun b ⟨hne0, hne5⟩ => ?_
    have hne : ¬(ethSt b port.toNat = 0 ∨ ethSt b port.toNat = 5) := not_or.mpr ⟨hne0, hne5⟩
    simp only [specPortOutOfService, hne, if_false]
    rfl

end Sys2Proof.Machine
end

section
/-! PROOFS. The powerline commands (R348, R351, R376, R389, R395, R401, R402, R407). -/

namespace Sys2Proof.Machine

/-! ### Acceptance of powerline commands (R513) -/

theorem specPlcPortCfg_acc {port lm role : BitVec 8} {nid node : BitVec 16} {bp : BitVec 8} {cs ce : BitVec 16} {zm k : BitVec 8} {ph : BitVec 16}
    {tx : BitVec 8} : AccKeeps (specPlcPortCfg port lm role nid node bp cs ce zm k ph tx).acc :=
  accKeeps_of_host fun _ s => by
    simp only [specPlcPortCfg]
    split
    · rw [claim_host, unclaimIf_host]
    · rw [unclaimIf_host]

theorem specPlcPortInService_acc {port : BitVec 8} : AccKeeps (specPlcPortInService port).acc :=
  accKeeps_of_host fun _ s => by simp only [specPlcPortInService, claim_host]

theorem specFalloverCfg_acc {port plc fl : BitVec 8} : AccKeeps (specFalloverCfg port plc fl).acc :=
  accKeeps_of_host fun _ s => by simp only [specFalloverCfg, claim_host, unclaimIf_host]

/-! ### Effects -/

/-- Settles O10: each command's effect where its port's state admits it. -/
theorem powerlineCommandsComplete : Obligations.PowerlineCommandsComplete := by
  intro h port s n
  refine ⟨?cfg, ?outOfService, ?inService, ?slotmap, ?join, ?leave, ?leaveUnjoined, ?route, ?fallover, ?toPowerline, ?toEthernet, ?stats⟩
  case cfg =>
    refine fun lm role nid node bp cs ce zm k ph tx => endsIf_of_eff rfl specPlcPortCfg_acc fun b hoff => ?_
    have hoff : flag b (plcEn port.toNat) = false := hoff
    simp only [specPlcPortCfg, hoff, Bool.false_eq_true, if_false]
    rfl
  case outOfService => exact endsIf_of_eff rfl accKeeps_none fun b _ => rfl
  case inService =>
    refine waitsIf_of_eff_all rfl specPlcPortInService_acc fun b hoff => ?_
    have hoff : flag b (plcEn port.toNat) = false := hoff
    simp only [specPlcPortInService, hoff, Bool.false_eq_true, if_false]
    rfl
  case slotmap =>
    refine fun m => waitsIf_of_eff_all rfl accKeeps_none fun b hcoord => ?_
    have hcoord : plcCoord b port.toNat = true := hcoord
    simp only [specPlcSlotmap, hcoord, Bool.not_true, Bool.false_eq_true, if_false]
    rfl
  case join =>
    refine fun nid node => waitsIf_of_eff rfl accKeeps_none fun hadm ⟨hstate, hrole⟩ => ?_
    obtain ⟨hme, -⟩ := meCmd_begun (i := .plcJoin h port nid node) (sp := specPlcJoin h port nid node) accKeeps_none hadm
    generalize begun h (.plcJoin h port nid node) (specPlcJoin h port nid node) s = b at hstate hrole hme ⊢
    generalize begunCmd h (.plcJoin h port nid node) (specPlcJoin h port nid node) s = c at hme ⊢
    have hgo : ¬(rd b (plcState port.toNat) = 0 ∨ flag b (plcRole port.toNat) = true) := not_or.mpr ⟨hstate, ne_true_of_eq_false hrole⟩
    simp only [specPlcJoin, hgo, hme, if_false]
    rfl
  case leave =>
    refine waitsIf_of_eff_all rfl accKeeps_none fun b ⟨hjoined, hcoord⟩ => ?_
    have hjoined : rd b (plcState port.toNat) = 3 := hjoined
    have hgo : ¬(rd b (plcState port.toNat) = 0 ∨ plcCoord b port.toNat = true) := not_or.mpr ⟨by omega, ne_true_of_eq_false hcoord⟩
    simp only [specPlcLeave]
    rw [if_neg hgo, if_pos hjoined]
  case leaveUnjoined =>
    refine endsIf_of_eff rfl accKeeps_none fun b ⟨hup, hunjoined, hcoord⟩ => ?_
    have hunjoined : ¬rd b (plcState port.toNat) = 3 := hunjoined
    have hgo : ¬(rd b (plcState port.toNat) = 0 ∨ plcCoord b port.toNat = true) := not_or.mpr ⟨hup, ne_true_of_eq_false hcoord⟩
    simp only [specPlcLeave]
    rw [if_neg hgo, if_neg hunjoined]
    rfl
  case route => exact fun d k r => endsIf_of_eff rfl accKeeps_none fun b _ => rfl
  case fallover =>
    intro plc fl c
    refine ⟨endsIf_of_eff rfl specFalloverCfg_acc fun b hstay => ?_, endsIf_of_eff rfl specFalloverCfg_acc fun b ⟨hauto, hdown⟩ => ?_⟩
    · have hstays : ¬((c b).auto = true ∧ ethSt (setFall n (c b) b) n = 3) := by
        rintro ⟨hauto, hdown⟩
        have hauto : fl.toNat % 2 = 1 := of_decide_eq_true hauto
        exact hstay.elim (by omega) (fun hup => hup hdown)
      exact congrArg (Eff.done stOk []) (if_neg hstays)
    · exact congrArg (Eff.done stOk []) (if_pos ⟨decide_eq_true hauto, hdown⟩)
  case toPowerline =>
    refine fun c => endsIf_of_eff rfl accKeeps_none fun b hc => ?_
    have hc : fallOf b port.toNat = some c := hc
    simp only [specFalloverToPowerline, hc]
    rfl
  case toEthernet =>
    refine fun c => endsIf_of_eff rfl accKeeps_none fun b hc => ?_
    have hc : fallOf b port.toNat = some c := hc
    simp only [specFalloverBackToEthernet, hc]
    rfl
  case stats => exact fun fl => endsIf_of_eff rfl accKeeps_none fun b _ => rfl

end Sys2Proof.Machine
end

section
/-! PROOFS. The commands of Opal and of the TDM ports (R410 to R428). -/

namespace Sys2Proof.Machine

/-! ### Opal's slots -/

theorem specSscSlotCfg_acc {slot' src pre : BitVec 8} {ratio : BitVec 16} {med ph : BitVec 8} {sh : BitVec 32} {ch : BitVec 16} :
    AccKeeps (specSscSlotCfg slot' src pre ratio med ph sh ch).acc :=
  accKeeps_of_host fun _ s => by
    simp only [specSscSlotCfg]
    split
    · split
      · rw [claim_host]
      · rw [claim_host, claim_host]
    · rw [claim_host]

theorem opalCommandsComplete : Obl.OpalCommandsComplete := by
  intro h slot' s i
  refine ⟨?cfg, ?coef, ?thresh, ?enabled, ?enable, ?disable, ?slotStatus, ?portStatus⟩
  case cfg =>
    intro src pre ratio med ph sh ch c row sp
    refine ⟨waitsIf_of_eff_all rfl specSscSlotCfg_acc fun b hruns => ?_, endsIf_of_eff rfl specSscSlotCfg_acc fun b hstill => ?_⟩
    · exact if_pos hruns
    · exact if_neg (ne_true_of_eq_false hstill)
  case coef =>
    intro taps fade fl co c row sp
    exact ⟨waitsIf_of_eff_all rfl accKeeps_none fun b hruns => if_pos hruns,
      endsIf_of_eff rfl accKeeps_none fun b hstill => if_neg (ne_true_of_eq_false hstill)⟩
  case thresh => exact fun idx lev hyst fl => endsIf_of_eff rfl accKeeps_none fun b _ => rfl
  case enabled => exact endsIf_of_eff rfl accKeeps_none fun b hruns => if_pos hruns
  case enable => exact endsIf_of_eff rfl accKeeps_none fun b hstill => if_neg (ne_true_of_eq_false hstill)
  case disable => exact endsIf_of_eff rfl accKeeps_none fun b _ => rfl
  case slotStatus => exact endsIf_of_eff rfl accKeeps_none fun b _ => rfl
  case portStatus => exact fun k hk => endsIf_of_eff rfl accKeeps_none fun b _ => if_neg hk

/-! ### TDM ports -/

theorem specTdmPortCfg_acc {port rate fl sl : BitVec 8} : AccKeeps (specTdmPortCfg port rate fl sl).acc :=
  accKeeps_of_host fun _ s => by
    simp only [specTdmPortCfg]
    split
    · rw [claim_host, claim_host]
    · rw [claim_host]

theorem tdmCommandsComplete : Obl.TdmCommandsComplete := by
  intro h port s p
  refine ⟨?cfg, ?slotmap, ?enabled, ?enable, ?disable⟩
  case cfg =>
    intro rate fl sl put i sp
    refine ⟨endsIf_of_eff rfl specTdmPortCfg_acc fun b hkeeps => ?_, endsIf_of_eff rfl specTdmPortCfg_acc fun b ⟨hon, hband⟩ => ?_⟩
    · have hkeep : ¬((flag (put b) (tdmEn p) && inBand b p != inBand (put b) p) = true) := by
        rcases hkeeps with hoff | hsame
        · simp [hoff]
        · simp [hsame]
      exact if_neg hkeep
    · have hchange : (flag (put b) (tdmEn p) && inBand b p != inBand (put b) p) = true := by
        rw [hon, Bool.true_and, bne_iff_ne]
        exact hband
      exact if_pos hchange
  case slotmap => exact fun n es => endsIf_of_eff rfl accKeeps_none fun b _ => rfl
  case enabled => exact waitsIf_of_eff_all rfl accKeeps_none fun b hruns => if_pos hruns
  case enable => exact waitsIf_of_eff_all rfl accKeeps_none fun b hstill => if_neg (ne_true_of_eq_false hstill)
  case disable => exact endsIf_of_eff rfl accKeeps_none fun b _ => rfl

/-- Settles O53. -/
theorem opalAndTdmCommandsComplete : Obligations.OpalAndTdmCommandsComplete := ⟨opalCommandsComplete, tdmCommandsComplete⟩

end Sys2Proof.Machine
end

section
/-! PROOFS. The compression commands (R432, R438, R440, R450, R452). -/

namespace Sys2Proof.Machine

/-! ### What acceptance leaves of Topaz -/

theorem leaseGrant_tpz (n owner rclass rindex dur : Nat) (s : State) : (leaseGrant n owner rclass rindex dur s).tpz = s.tpz := by
  unfold leaseGrant
  dsimp only
  split
  · rw [claim_tpz, setLease_tpz]
  · rfl

theorem holdTail_tpz (s : State) : (holdTail s).tpz = s.tpz := by
  unfold holdTail
  dsimp only
  split
  · exact leaseGrant_tpz ..
  · split <;> rfl

theorem ledgerOpen_tpz (i kind : Nat) (noack emerg : Bool) (s : State) : (ledgerOpen i kind noack emerg s).tpz = s.tpz := rfl

theorem ledgerFill_tpz (idem origin kib object : Nat) (check : BitVec 32) (s : State) : (ledgerFill idem origin kib object check s).tpz = s.tpz := by
  unfold ledgerFill
  split <;> rfl

theorem ledgerCommit_tpz (s : State) : (ledgerCommit s).tpz = s.tpz := by
  unfold ledgerCommit
  split
  · rfl
  · simp

theorem ledgerAccept_tpz (kind idem origin kib object : Nat) (check : BitVec 32) (noack emerg : Bool) (s : State) :
    (ledgerAccept kind idem origin kib object check noack emerg s).2.tpz = s.tpz := by
  unfold ledgerAccept
  split
  · rfl
  · dsimp only
    rw [ledgerCommit_tpz, ledgerFill_tpz, ledgerOpen_tpz, holdTail_tpz]

theorem takeSeq_tpz (q : Nat) (s : State) : (takeSeq q s).tpz = s.tpz := by
  unfold takeSeq
  dsimp only
  split <;> rfl

/-- Of Topaz, acceptance changes what the command's own row changes. -/
theorem tpz_begun (h : Hdr) (i : Instr) (sp : Spec) (s : State) : ∃ c t, t.tpz = s.tpz ∧ (begun h i sp s).tpz = (sp.acc c t).tpz := by
  have haccept : ∃ c t, t.tpz = s.tpz ∧ (acceptCmd h i sp s).tpz = (sp.acc c t).tpz := by
    unfold acceptCmd
    dsimp only
    split
    · exact ⟨_, addCmd (newCmd h i sp.info sp.objs h.seq) (takeSeq h.queue.val s), takeSeq_tpz .., rfl⟩
    · have hledger := (ledgerAccept_tpz (kindOf sp.info.lcls) (idemCode sp.info.idem) (h.queue.val + h.seq.toNat * 0x100 + sp.info.opcode * 0x1000000)
        (recKib sp.info.opcode) (objCode sp.objs) h.check h.noack h.emerg _).trans (takeSeq_tpz h.queue.val s)
      generalize ledgerAccept _ _ _ _ _ _ _ _ _ = r at hledger ⊢
      generalize ({ newCmd h i sp.info sp.objs h.seq with lref := r.1, lsn := r.2.ledger.nextLsn.toNat - 1 } : Cmd) = c
      refine ⟨c, addCmd c r.2, hledger, ?_⟩
      split <;> rfl
  obtain ⟨c, t, htpz, hacc⟩ := haccept
  refine ⟨c, t, htpz, ?_⟩
  rw [← hacc]
  unfold begun
  dsimp only
  rw [setCmd_tpz]
  split
  · rw [ledgerPhase_tpz]
  · rfl

/-! ### Jobs -/

/-- The lease of a job leaves the contexts. -/
theorem grantLease_tpz (c : Nat) (s : State) : (grantLease c s).2.tpz = s.tpz := by
  unfold grantLease
  split
  · exact leaseGrant_tpz ..
  · rfl

theorem submitJob_eq (j : TpzJob) (s : State) : submitJob j s =
    (let g := grantLease j.ctx s
     seqUp (5 * 65536 + j.ctx) 1 { g.2 with tpz := { g.2.tpz with jobs := g.2.tpz.jobs ++ [{ j with lease := g.1, saved := ctxOf s j.ctx }] } }) := by
  have hctx : ctxOf (grantLease j.ctx s).2 j.ctx = ctxOf s j.ctx := by simp only [ctxOf, grantLease_tpz]
  simp only [submitJob, hctx]

section
variable {h : Hdr} {op : Nat} {ctx wrap eff fl : BitVec 8} {src : BitVec 64} {len : BitVec 32} {chain : BitVec 64} {nch : BitVec 16} {s : State}

theorem specTpzJob_acc : AccKeeps (specTpzJob h op ctx wrap eff fl src len chain nch).acc :=
  accKeeps_of_host fun _ s => by
    simp only [specTpzJob]
    split <;> rfl

/-- A continuing job's checkpoint is its context at acceptance. -/
theorem tpzJob_ckpt {i : Instr} (hcont : fl.getLsbD 3 = true) :
    tblFind ctx.toNat (begun h i (specTpzJob h op ctx wrap eff fl src len chain nch) s).tpz.ckpt = some (ctxOf s ctx.toNat) := by
  obtain ⟨c, t, htpz, hacc⟩ := tpz_begun h i (specTpzJob h op ctx wrap eff fl src len chain nch) s
  have hckpt : ((specTpzJob h op ctx wrap eff fl src len chain nch).acc c t).tpz.ckpt = tblSet ctx.toNat (ctxOf t ctx.toNat) t.tpz.ckpt := by
    simp only [specTpzJob, hcont, if_true]
    rfl
  rw [hacc, hckpt, tblFind_set_same]
  simp only [ctxOf, htpz]

theorem specTpzJob_eff {c : Cmd} {b : State} (hme : meCmd h b = some c) (hq : c.queue = h.queue.val) (hseq : c.seq = h.seq)
    (hctx : hostCtx b ctx.toNat = true) (hcont : fl.getLsbD 3 = true → contRej (ctxOf b ctx.toNat) op wrap.toNat = none) :
    (specTpzJob h op ctx wrap eff fl src len chain nch).eff b = .wait (.tpz ctx.toNat)
      (let g := grantLease ctx.toNat b
       let prio := if h.emerg then 0 else 6
       seqUp (5 * 65536 + ctx.toNat) 1 { g.2 with tpz := { g.2.tpz with jobs := g.2.tpz.jobs ++
        [{ wh := jobWh prio ctx.toNat 0 c.lref b, ctx := ctx.toNat, op := op, wrap := wrap.toNat, effort := eff.toNat, flags := fl.toNat, src := src,
           srclen := len.toNat, chain := chain, nchain := nch.toNat, inline := [], data := none, prio := prio, lsn := c.lsn,
           cmd := (h.queue.val, h.seq), forLog := false, lease := g.1, eng := none, ents := none, saved := ctxOf b ctx.toNat }] } }) := by
  have hgo : ¬((!hostCtx b ctx.toNat) = true ∨ (fl.getLsbD 3 = true ∧ (contRej (ctxOf b ctx.toNat) op wrap.toNat).isSome = true)) := by
    rintro (hno | ⟨hfl, hrej⟩)
    · simp [hctx] at hno
    · simp [hcont hfl] at hrej
  simp only [specTpzJob, hme]
  rw [if_neg hgo, submitJob_eq, hq, hseq]

end

/-! ### Contexts and LOG_EXPORT -/

theorem specTpzCtxAlloc_acc {h : Hdr} {ctx : BitVec 8} : AccKeeps (specTpzCtxAlloc h ctx).acc :=
  accKeeps_of_host fun _ s => by
    simp only [specTpzCtxAlloc]
    split
    · rfl
    · rw [claim_host]

theorem specLogExport_acc {h : Hdr} {log : BitVec 8} {fr : BitVec 32} {a : BitVec 64} {len : BitVec 32} {wrap : BitVec 8} :
    AccKeeps (specLogExport h log fr a len wrap).acc := by
  intro c s
  simp only [specLogExport]
  split
  · next x _ => exact .inr ⟨[x], by rw [setCmd, setCmd, claim_host]⟩
  · exact .inl rfl

/-- A job of a command goes to Topaz, its context's checkpoint taken at acceptance where it continues. -/
theorem tpzJob_waits {h : Hdr} {row : Instr} {op : Nat} {ctx wrap eff fl : BitVec 8} {src : BitVec 64} {len : BitVec 32} {chain : BitVec 64}
    {nch : BitVec 16} {s : State} (hrun : exec row s = .next (scp h row (specTpzJob h op ctx wrap eff fl src len chain nch) s)) :
    let sp := specTpzJob h op ctx wrap eff fl src len chain nch
    let me := begunCmd h row sp s
    let prio := if h.emerg then 0 else 6
    Obl.WaitsIf h row sp (fun b => hostCtx b ctx.toNat = true ∧ (fl.getLsbD 3 = true → contRej (ctxOf b ctx.toNat) op wrap.toNat = none)) (.tpz ctx.toNat)
      (fun b =>
        let (l, t) := grantLease ctx.toNat b
        seqUp (5 * 65536 + ctx.toNat) 1 { t with tpz := { t.tpz with jobs := t.tpz.jobs ++
          [{ wh := jobWh prio ctx.toNat 0 me.lref b, ctx := ctx.toNat, op := op, wrap := wrap.toNat, effort := eff.toNat, flags := fl.toNat, src := src,
             srclen := len.toNat, chain := chain, nchain := nch.toNat, inline := [], data := none, prio := prio, lsn := me.lsn,
             cmd := (h.queue.val, h.seq), forLog := false, lease := l, eng := none, ents := none, saved := ctxOf b ctx.toNat }] } }) s := by
  intro sp me prio
  refine waitsIf_of_eff hrun specTpzJob_acc fun hadm ⟨hctx, hcont⟩ => ?_
  obtain ⟨hcmd, -, -, hq, hseq⟩ := cmdAt_begun h row sp s specTpzJob_acc hadm
  exact specTpzJob_eff hcmd hq hseq hctx hcont

/-- Settles O11. -/
theorem compressionCommandsComplete : Obligations.CompressionCommandsComplete := by
  intro h ctx s c
  refine ⟨?alloc, ?allocAny, ?free, ?save, ?restore, ⟨?deflate, ?inflate⟩, ?logExport⟩
  case alloc =>
    refine fun hctx => endsIf_of_eff rfl specTpzCtxAlloc_acc fun b hfree => ?_
    have hgo : ¬((claimOf b 4 ctx.toNat).isSome && !hostCtx b ctx.toNat) = true := by
      rcases hfree with hnone | hmine
      · simp [show claimOf b 4 ctx.toNat = none from hnone]
      · simp [show hostCtx b ctx.toNat = true from hmine]
    simp only [specTpzCtxAlloc, hctx, hgo, if_false]
    rfl
  case allocAny =>
    refine fun x => endsIf_of_eff rfl specTpzCtxAlloc_acc fun b hx => ?_
    simp only [specTpzCtxAlloc, hx, if_true]
    rfl
  case free => exact endsIf_of_eff rfl accKeeps_none fun b hmine => if_pos hmine
  case save =>
    refine fun a => endsIf_of_eff rfl accKeeps_none fun b hmine => if_neg ?_
    have hmine : hostCtx b ctx.toNat = true := hmine
    simp [hmine]
  case restore =>
    refine fun a img himg => endsIf_of_eff rfl accKeeps_none fun b ⟨hmine, hversion⟩ => ?_
    have hmine : hostCtx b ctx.toNat = true := hmine
    simp only [specTpzCtxRestore, hmine, himg, hversion, Bool.not_true, Bool.false_eq_true, if_false]
    rfl
  case deflate => exact fun w e f a l k n => ⟨fun hcont _ => tpzJob_ckpt hcont, tpzJob_waits rfl⟩
  case inflate => exact fun w e f a l k n => ⟨fun hcont _ => tpzJob_ckpt hcont, tpzJob_waits rfl⟩
  case logExport =>
    intro log fr a len wrap x row sp me hearly
    refine waitsIf_of_eff rfl specLogExport_acc fun hadm _ => ?_
    obtain ⟨hcmd, -, -, hq, hseq⟩ := cmdAt_begun h row sp s specLogExport_acc hadm
    have hme : meCmd h (begun h row sp s) = some me := hcmd
    have hq : me.queue = h.queue.val := hq
    have hseq : me.seq = h.seq := hseq
    generalize begun h row sp s = b at hme ⊢
    simp only [sp, specLogExport, hme, hearly, hq, hseq]

end Sys2Proof.Machine
end

section
/-! PROOFS. Test, service and diagnostics commands (R188 to R191, R463, R466, R490 to R492, R501, R502). -/

namespace Sys2Proof.Machine

/-! ### Test and service -/

/-- Settles O12. -/
theorem testCommandsComplete : Obligations.TestCommandsComplete := by
  intro h s
  refine ⟨?run, ?results, ?soft, ?outAlready, ?out, ?inAlready, ?inTesting, ?inFit, ?inTest, ?retire, ?rebalance⟩
  case run =>
    refine fun t i a sl => waitsIf_of_eff_all rfl accKeeps_none fun b hout => ?_
    simp only [specAgtRun, hout, Bool.not_true, Bool.false_eq_true, if_false]
  case results =>
    refine fun r v => endsIf_of_eff rfl accKeeps_none fun b hv => ?_
    simp only [specAgtResults, hv]
    rfl
  case soft =>
    refine fun r v => endsIf_of_eff rfl accKeeps_none fun b ⟨hv, hsoft⟩ => ?_
    simp only [specAgtRepairSoft, hv, hsoft]
    rfl
  case outAlready => exact fun c => endsIf_of_eff rfl accKeeps_none fun b hst => if_pos hst
  case out =>
    refine fun c => waitsIf_of_eff rfl accKeeps_none fun hadm ⟨hst, hall⟩ => ?_
    obtain ⟨hme, -⟩ := meCmd_begun (i := .coreOutOfService h c) (sp := specCoreOutOfService h c) accKeeps_none hadm
    generalize begun h (.coreOutOfService h c) (specCoreOutOfService h c) s = b at hst hall hme ⊢
    generalize begunCmd h (.coreOutOfService h c) (specCoreOutOfService h c) s = me at hme ⊢
    simp only [specCoreOutOfService, Nat.not_le.mpr hst, if_false, hall, hme]
  case inAlready =>
    refine fun c => endsIf_of_eff rfl accKeeps_none fun b hst => ?_
    have hne : (core b c.toNat).st ≠ 6 := by omega
    simp only [specCoreReturn, hne, hst, if_true, if_false]
    rfl
  case inTesting =>
    refine fun c => waitsIf_of_eff_all rfl accKeeps_none fun b ⟨hst, hne, hrun⟩ => ?_
    simp only [specCoreReturn, hne, Nat.not_le.mpr hst, hrun, if_true, if_false]
  case inFit =>
    refine fun c => waitsIf_of_eff_all rfl accKeeps_none fun b ⟨hst, hne, hrun, hfit⟩ => ?_
    simp only [specCoreReturn, hne, Nat.not_le.mpr hst, hrun, hfit, Bool.false_eq_true, if_true, if_false]
  case inTest =>
    refine fun c => waitsIf_of_eff_all rfl accKeeps_none fun b ⟨hst, hne, hrun, hfit⟩ => ?_
    simp only [specCoreReturn, hne, Nat.not_le.mpr hst, hrun, hfit, Bool.false_eq_true, if_false]
  case retire => exact fun c => endsIf_of_eff rfl accKeeps_none fun b hst => if_pos hst
  case rebalance =>
    refine fun f t k => waitsIf_of_eff rfl accKeeps_none fun hadm hok => ?_
    obtain ⟨hme, -⟩ := meCmd_begun (i := .rebalance h f t k) (sp := specRebalance h f t k) accKeeps_none hadm
    generalize begun h (.rebalance h f t k) (specRebalance h f t k) s = b at hok hme ⊢
    generalize begunCmd h (.rebalance h f t k) (specRebalance h f t k) s = me at hme ⊢
    simp only [specRebalance, hok, hme]

/-! ### Diagnostics (R189 to R191) -/

theorem specRegRead_eff (bl fl : BitVec 8) (o c : BitVec 16) (b : State) : (specRegRead bl fl o c).eff b =
    okRes (readRegs bl.toNat o.toNat (fl == 1) c.toNat b).1 (if fl = 1 then (readRegs bl.toNat o.toNat true c.toNat b).2 else b) := by
  by_cases hfl : fl = 1
  · subst hfl
    rfl
  · simp only [specRegRead, hfl, if_false]

theorem specChStats_eff {h : Hdr} {ch : BitVec 16} {fl : BitVec 8} {c : Chan} {b : State} (hc : chan? b ch.toNat = some c) :
    (specChStats h ch fl).eff b = okRes (statsBytes b c)
      (if fl = 1 then setChan ch.toNat { c with stats := [] } (tookFree (tookFree b)) else tookFree (tookFree b)) := by
  simp only [specChStats, hc]

/-- Settles O13. -/
theorem diagnosticCommandsComplete : Obligations.DiagnosticCommandsComplete := by
  intro h s
  refine ⟨?echo, ?notify, ?counters, ?regRead, ?journalRead, ?pvlRead, ?ledger, ?ledgerUe, ?krnStatus, ?chStats, ?chStatsClear, ?krnLoad⟩
  case echo => exact fun d => endsIf_of_eff rfl accKeeps_none fun b _ => rfl
  case notify => exact fun m => endsIf_of_eff rfl accKeeps_none fun b _ => rfl
  case counters => exact fun g i fl => endsIf_of_eff rfl accKeeps_none fun b _ => rfl
  case regRead => exact fun bl fl o c => endsIf_of_eff rfl accKeeps_none fun b _ => specRegRead_eff bl fl o c b
  case journalRead => exact fun fr m => endsIf_of_eff rfl accKeeps_none fun b _ => rfl
  case pvlRead => exact fun fr m => endsIf_of_eff rfl accKeeps_none fun b _ => rfl
  case ledger =>
    refine endsIf_of_eff rfl accKeeps_none fun b hclean => ?_
    simp only [specBootledgerRead, bootLedgerBytes, hclean, Bool.not_false, if_true, Bool.false_eq_true, if_false]
    rfl
  case ledgerUe =>
    refine endsIf_of_eff rfl accKeeps_none fun b hue => ?_
    simp only [specBootledgerRead, hue, if_true]
    rfl
  case krnStatus =>
    refine fun kid k => endsIf_of_eff rfl accKeeps_none fun b hk => ?_
    simp only [specKrnStatus, hk]
    rfl
  case chStats =>
    refine fun ch fl c hfl => endsIf_of_eff rfl accKeeps_none fun b hc => ?_
    rw [specChStats_eff hc, if_neg hfl]
    rfl
  case chStatsClear =>
    refine fun ch c => endsIf_of_eff rfl accKeeps_none fun b hc => ?_
    rw [specChStats_eff hc, if_pos rfl]
    rfl
  case krnLoad =>
    refine fun kid a len img ib db => endsIf_of_eff rfl accKeeps_none fun b ⟨hib, hdb, hnew⟩ => ?_
    simp only [specKrnLoad, hib, hdb, hnew, Option.isSome_none, Bool.false_eq_true, if_false]
    rfl

end Sys2Proof.Machine
end

section
/-! PROOFS. What telling Onyx and the host of an event leaves unchanged (R141, R153 to R155, R158, R499). -/

namespace Sys2Proof.Machine

/-! ### Two fields of one register -/

/-- Fields that share no bit: what is stored in one does not change the other. -/
theorem fldGet_put_above (f g : Fld) (v : Word32) (x : Nat) (hf : f.lo + f.w ≤ 32) (h : f.lo + f.w ≤ g.lo) :
    fldGet g (fldPut f v x) = fldGet g v := by
  have hlow : v.toNat % 2 ^ f.lo + 2 ^ f.lo * (x % 2 ^ f.w) < 2 ^ (f.lo + f.w) := by
    rw [pow_add]
    exact digit_lt (Nat.mod_lt _ (by positivity)) (Nat.mod_lt _ (by positivity))
  have hquot : (fldPut f v x).toNat / 2 ^ (f.lo + f.w) = v.toNat / 2 ^ (f.lo + f.w) := by
    rw [fldPut_toNat f v x hf, Nat.add_mul_div_left _ _ (by positivity), Nat.div_eq_of_lt hlow, Nat.zero_add]
  have hsplit : 2 ^ g.lo = 2 ^ (f.lo + f.w) * 2 ^ (g.lo - (f.lo + f.w)) := by
    rw [← pow_add]
    congr 1
    omega
  simp only [fldGet, hsplit, ← Nat.div_div_eq_div_mul, hquot]

theorem fldGet_put_below (f g : Fld) (v : Word32) (x : Nat) (hf : f.lo + f.w ≤ 32) (h : g.lo + g.w ≤ f.lo) :
    fldGet g (fldPut f v x) = fldGet g v := by
  have hmod (n : Nat) : n / 2 ^ g.lo % 2 ^ g.w = n % 2 ^ f.lo / 2 ^ g.lo % 2 ^ g.w := by
    have hsplit : 2 ^ f.lo = 2 ^ g.lo * (2 ^ g.w * 2 ^ (f.lo - (g.lo + g.w))) := by
      rw [← pow_add, ← pow_add]
      congr 1
      omega
    rw [hsplit, Nat.mod_mul_right_div_self, Nat.mod_mul_right_mod]
  have hlow : (fldPut f v x).toNat % 2 ^ f.lo = v.toNat % 2 ^ f.lo := by
    rw [fldPut_toNat f v x hf, pow_add, Nat.mul_assoc, Nat.add_assoc, ← Nat.mul_add, Nat.add_mul_mod_self_left, Nat.mod_mod]
  rw [fldGet, fldGet, hmod, hlow, ← hmod]

/-- Do two fields share no bit? -/
def apart (f g : Fld) : Bool :=
  g.key != f.key || decide (f.lo + f.w ≤ 32) && (decide (f.lo + f.w ≤ g.lo) || decide (g.lo + g.w ≤ f.lo))

theorem rd_wr_apart {f g : Fld} (x : Nat) (s : State) (h : apart f g = true) : rd (wr f x s) g = rd s g := by
  simp only [apart, Bool.or_eq_true, bne_iff_ne, Bool.and_eq_true, decide_eq_true_eq] at h
  by_cases hk : g.key = f.key
  · obtain ⟨hf, hfg⟩ := h.resolve_left (not_not_intro hk)
    simp only [rd, wr, hk, rdW_wrW_same]
    rcases hfg with hfg | hfg
    · exact fldGet_put_above f g _ x hf hfg
    · exact fldGet_put_below f g _ x hf hfg
  · exact rd_wr_other f g x s hk

/-! ### The registers and lists by which an event is told -/

/-- HB_FAULT, HB_STATE, HB_IRQ_STAT and the PBA. -/
def tellKey (k : Nat) : Bool := k == rk 10 0x30 || k == rk 10 8 || k == rk 10 0x20 || k == rk 10 0x3000

/-- From `s` to `t` nothing has changed but what tells of an event: the journal (with the words that hold it), the notifications and messages to the host, Onyx's
event list, and four registers. -/
structure Tells (s t : State) : Prop where
  eq : t = { s with
    journal := t.journal
    regs := t.regs
    pwr := { s.pwr with ueWords := t.pwr.ueWords }
    onyx := { s.onyx with events := t.onyx.events }
    host := { s.host with notifs := t.host.notifs, lost := t.host.lost, msi := t.host.msi } }
  reg : ∀ k, tellKey k = false → rdW t k = rdW s k

namespace Tells

theorem refl (s : State) : Tells s s := ⟨rfl, fun _ _ => rfl⟩

theorem trans {s t u : State} (h : Tells s t) (h' : Tells t u) : Tells s u := by
  refine ⟨?_, fun k hk => (h'.reg k hk).trans (h.reg k hk)⟩
  obtain ⟨he, -⟩ := h
  obtain ⟨he', -⟩ := h'
  rw [he']
  conv_lhs => rw [he]

variable {s t : State} (h : Tells s t)
include h

theorem pending : t.pending = s.pending := by rw [h.eq]
theorem free : t.free = s.free := by rw [h.eq]
theorem time : t.time = s.time := by rw [h.eq]
theorem boot : t.boot = s.boot := by rw [h.eq]
theorem ledger : t.ledger = s.ledger := by rw [h.eq]
theorem leases : t.leases = s.leases := by rw [h.eq]
theorem claims : t.claims = s.claims := by rw [h.eq]
theorem pvl : t.pvl = s.pvl := by rw [h.eq]
theorem fab : t.fab = s.fab := by rw [h.eq]
theorem gar : t.gar = s.gar := by rw [h.eq]
theorem voice : t.voice = s.voice := by rw [h.eq]
theorem net : t.net = s.net := by rw [h.eq]
theorem plc : t.plc = s.plc := by rw [h.eq]
theorem opal : t.opal = s.opal := by rw [h.eq]
theorem tdm : t.tdm = s.tdm := by rw [h.eq]
theorem tpz : t.tpz = s.tpz := by rw [h.eq]
theorem hostMem : t.hostMem = s.hostMem := by rw [h.eq]
theorem agt : t.agt = s.agt := by rw [h.eq]
theorem tap : t.tap = s.tap := by rw [h.eq]
theorem shadow : t.shadow = s.shadow := by rw [h.eq]
theorem pwr : t.pwr = { s.pwr with ueWords := t.pwr.ueWords } := congrArg State.pwr h.eq
theorem onyx : t.onyx = { s.onyx with events := t.onyx.events } := congrArg State.onyx h.eq
theorem host : t.host = { s.host with notifs := t.host.notifs, lost := t.host.lost, msi := t.host.msi } := congrArg State.host h.eq

theorem rd {f : Fld} (hk : tellKey f.key = false) : rd t f = rd s f := by
  rw [Machine.rd, Machine.rd, h.reg _ hk]

end Tells

theorem tells_wr {f : Fld} (x : Nat) (s : State) (h : tellKey f.key = true) : Tells s (wr f x s) :=
  ⟨rfl, fun k hk => rdW_wrW_other f.key k _ s (fun e => by rw [e, h] at hk; exact absurd hk (by decide))⟩

theorem tells_signal (v : Nat) (s : State) : Tells s (signal v s) := by
  unfold signal
  split
  · exact tells_wr 1 s rfl
  · split
    · exact Tells.refl s
    · exact ⟨rfl, fun _ _ => rfl⟩

theorem tells_irq {f : Fld} (s : State) (h : f.key = rk 10 0x20) : Tells s (irq f s) :=
  (tells_wr 1 s (by simp [tellKey, h])).trans (tells_signal 0 _)

theorem tells_noteNow (n : Notif) (s : State) : Tells s (noteNow n s) := by
  unfold noteNow
  split
  · split <;> exact ⟨rfl, fun _ _ => rfl⟩
  · exact Tells.refl s

theorem tells_journalNow (c u r a b : Nat) (ev : List Byte) (s : State) : Tells s (journalNow c u r a b ev s) := by
  have hrec (lo : Nat) (j : JournalSt) : Tells s (ueFix wJournal 2 (ueFix lo 8 { s with journal := j })) := ⟨rfl, fun _ _ => rfl⟩
  unfold journalNow
  dsimp only
  split
  · exact ((hrec _ _).trans (tells_wr _ _ rfl)).trans (tells_wr _ _ rfl)
  · exact (hrec _ _).trans (tells_wr _ _ rfl)

theorem tells_post (d : Deferred) (s : State) : Tells s (post d s) := by
  unfold post
  split
  · exact ⟨rfl, fun _ _ => rfl⟩
  · cases d with
    | note n => exact tells_noteNow n s
    | jour c u r a b ev => exact tells_journalNow c u r a b ev s
    | rule => exact Tells.refl s
    | ack => exact Tells.refl s
    | mgmt => exact Tells.refl s

theorem tells_journal (c u r a b : Nat) (ev : List Byte) (s : State) : Tells s (journal c u r a b ev s) := tells_post _ s
theorem tells_notify (c d w : Nat) (s : State) : Tells s (notify c d w s) := tells_post _ s

theorem tells_stateReg {g : State → State} {s : State} (h : Tells s (g s)) : Tells s (stateReg g s) := by
  unfold stateReg
  dsimp only
  split
  · exact h
  · exact h.trans (tells_irq _ rfl)

theorem tells_refresh (s : State) : Tells s (refresh s) := by
  have hreg : Tells s (stateReg (fun s' => wr hbState (stateCode s) (wr hbCapred (b2n (s'.onyx.degraded ≠ [])) s')) s) :=
    tells_stateReg ((tells_wr _ _ rfl).trans (tells_wr _ _ rfl))
  unfold refresh
  dsimp only
  split
  · exact hreg
  · exact hreg.trans (tells_notify _ _ _ _)

theorem tells_bootstepPut (n : Nat) (s : State) : Tells s (bootstepPut n s) := tells_stateReg (tells_wr _ _ rfl)

end Sys2Proof.Machine
end

section
/-! PROOFS. The block as a whole: the queue, the state after POR, admission; and the heartbeat (R141, R146, R157, R158). -/

namespace Sys2Proof.Machine

/-! ### A microsecond (R70, log 11) -/

theorem tickUs_usec_of_running {s : State} (href : s.time.refRun = true) (hhib : s.pwr.hib = .awake ∨ s.pwr.hib = .armed) :
    (tickUs s).time.usec = s.time.usec + 1 := by
  have hrun : (s.time.refRun && decide (s.pwr.hib = .awake ∨ s.pwr.hib = .armed)) = true := by simp [href, hhib]
  simp only [tickUs, hrun, Bool.not_true, Bool.false_eq_true, if_false]
  cases hao : s.time.aoRun <;> cases hdom : domOn s 1 <;> simp

/-- Without the reference CLK_USEC and RTB are held. -/
theorem tickUs_of_refRun_false {s : State} (href : s.time.refRun = false) :
    (tickUs s).time.usec = s.time.usec ∧ (tickUs s).time.rtb = s.time.rtb := by
  simp only [tickUs, href, Bool.false_and, Bool.not_false, if_true]
  cases hao : s.time.aoRun <;> simp

/-- Settles O41: `step` by what stands at the front of the queue, and what a microsecond does to the clocks. -/
theorem stepRunsFrontCommand : Obligations.StepRunsFrontCommand :=
  ⟨fun _ _ _ => rfl, fun _ => step_of_pending_nil, fun _ _ => tickUs_usec_of_running, fun _ => tickUs_of_refRun_false⟩

/-! ### The state right after POR -/

theorem lease_reset (n : Nat) : lease State.reset n = leaseReset := rfl

/-- Settles O42: each value is a field of the state after POR, or the reset value of its register. -/
theorem resetState : Obligations.ResetState := by
  refine ⟨rfl, rfl, rfl, rfl, rfl, rfl, ?_, ?_, ?_, rfl, rfl, rfl, rfl, fun n => congrArg Lease.state (lease_reset n), rfl, rfl, rfl, rfl, rfl, ?_⟩
  all_goals decide

/-! ### Admission (R146, R175) -/

theorem refuse_ledger (c : Cmd) (r : Rej) (s : State) : (refuse c r s).ledger = s.ledger := by
  have htake : (takeSeq c.queue s).ledger = s.ledger := by
    unfold takeSeq
    dsimp only
    split <;> rfl
  exact htake

theorem scp_of_not_served {h : Hdr} {i : Instr} {sp : Spec} {s : State} (hs : served s = false) : scp h i sp s = s := by
  simp [scp, hs]

/-- A new sequence in the window: out of turn it is refused under the one expected; in turn it is refused by the first check that fails, or accepted and tried. -/
theorem scp_of_new {h : Hdr} {i : Instr} {sp : Spec} {s : State} (hs : served s = true) (hn : cmdAt s h.queue.val h.seq = none)
    (hw : inWindow h.queue.val (queue s h.queue.val).exp s = true) :
    scp h i sp s =
      if (queue s h.queue.val).exp ≠ h.seq then
        refuse (newCmd h i sp.info sp.objs (queue s h.queue.val).exp) (rej stBadSequence) s
      else match scpCheck h sp s with
        | some r => refuse (newCmd h i sp.info sp.objs h.seq) r s
        | none => tryRun h.queue.val h.seq sp (acceptCmd h i sp s) := by
  simp only [scp, hs, hn, hw, Bool.not_true, Bool.false_eq_true, if_false] <;> rfl

/-- A command that an earlier one on one of its objects blocks stays accepted. -/
theorem tryRun_of_blocked {q : Nat} {seq : BitVec 16} {sp : Spec} {c : Cmd} {s : State} (hc : cmdAt s q seq = some c)
    (hb : blocked c s = true) : tryRun q seq sp s = s := by
  simp [tryRun, hc, hb]

/-- Settles O43: the branches of `scp` for a sequence that is not recorded, and the order of its checks. -/
theorem hostCommandAdmission : Obligations.HostCommandAdmission := by
  intro h i sp s hexec q no
  refine ⟨fun hs => ?_, fun hs hn hw => ⟨fun hne => ?_, fun he r hr => ⟨?_, refuse_ledger _ r s⟩, fun he hr c hc hb => ?_⟩, ?_, ?_⟩
  · rw [Obl.Runs, hexec, scp_of_not_served hs]
  · rw [Obl.Runs, hexec, scp_of_new hs hn hw, if_pos hne]
  · rw [Obl.Runs, hexec, scp_of_new hs hn hw, if_neg (not_not_intro he), hr]
  · rw [Obl.Runs, hexec, scp_of_new hs hn hw, if_neg (not_not_intro he), hr]
    exact congrArg Host.Outcome.next (tryRun_of_blocked hc hb)
  · intro r hr
    simp [scpCheck, hr]
  · intro hr he hq
    simp [scpCheck, hr, he, hq]

/-! ### The heartbeat (R157, R158) -/

theorem reached_iff {s : State} {t : Nat} : reached s t = true ↔ t ≤ now s := by simp [reached]

/-- A register of 32 bits reads below 2^32. -/
theorem rd_lt (s : State) (f : Fld) : rd s f < 2 ^ f.w := Nat.mod_lt _ (Nat.two_pow_pos _)

theorem ofNat_rd_eq_iff {s : State} {f : Fld} {v : BitVec 32} (hw : f.w = 32) : BitVec.ofNat 32 (rd s f) = v ↔ rd s f = v.toNat := by
  have hlt := rd_lt s f
  rw [hw] at hlt
  rw [← BitVec.toNat_inj, BitVec.toNat_ofNat, Nat.mod_eq_of_lt hlt]

/-- The state after a miss is counted. -/
def hbMissed (s : State) : State :=
  irq irqHbmiss { s with host := { s.host with
    hbPrev := BitVec.ofNat 32 (rd s hbHeartbeat), hbPeriodEnd := now s + rd s hbPeriod * 1000, hbMisses := s.host.hbMisses + 1 } }

theorem exec_heartbeatPeriodEnd_same {s : State} (hp : s.host.hbPeriodEnd ≤ now s) (heq : rd s hbHeartbeat = s.host.hbPrev.toNat) :
    exec .heartbeatPeriodEnd s = .next
      (if rd s hbMiss ≤ s.host.hbMisses + 1 ∧ !s.host.absent then
        refresh { hbMissed s with host := { (hbMissed s).host with absent := true } }
      else hbMissed s) := by
  have hc : ¬ BitVec.ofNat 32 (rd s hbHeartbeat) ≠ s.host.hbPrev := not_not_intro ((ofNat_rd_eq_iff rfl).mpr heq)
  have hmiss : rd (hbMissed s) hbMiss = rd s hbMiss := (tells_irq _ rfl).rd rfl
  have habs : (hbMissed s).host.absent = s.host.absent := by
    rw [hbMissed, (tells_irq _ rfl).host]
  rw [← hmiss, ← habs]
  change execHeartbeatPeriodEnd s = _
  simp only [execHeartbeatPeriodEnd, reached_iff.mpr hp, Bool.not_true, Bool.false_eq_true, if_false, if_neg hc]
  rfl

theorem hbMissed_host (s : State) : (hbMissed s).host.hbMisses = s.host.hbMisses + 1 ∧ (hbMissed s).host.absent = s.host.absent ∧
    (hbMissed s).host.hbPeriodEnd = now s + rd s hbPeriod * 1000 := by
  rw [hbMissed, (tells_irq _ rfl).host]
  exact ⟨rfl, rfl, rfl⟩

theorem rd_hbMissed (s : State) : rd (hbMissed s) irqHbmiss = 1 := rd_irq_same _ (by decide) (by decide)

/-- Settles O19: the end of a period by whether the heartbeat has changed and by the misses so far, and DEVBEAT. -/
theorem heartbeatRule : Obligations.HeartbeatRule := by
  intro s
  refine ⟨fun hp => ⟨fun hne => ?_, fun heq hlow => ?_, fun heq hmiss => ?_⟩, fun hrun hat => ?_⟩
  · have hc : BitVec.ofNat 32 (rd s hbHeartbeat) ≠ s.host.hbPrev := fun e => hne ((ofNat_rd_eq_iff rfl).mp e)
    change execHeartbeatPeriodEnd s = _
    simp only [execHeartbeatPeriodEnd, reached_iff.mpr hp, Bool.not_true, Bool.false_eq_true, if_false, if_pos hc]
  · exact ⟨_, exec_heartbeatPeriodEnd_same hp heq, by
      rw [if_neg (fun h => absurd h.1 (Nat.not_le.mpr hlow))]
      exact ⟨(hbMissed_host s).1, rd_hbMissed s, (hbMissed_host s).2⟩⟩
  · exact ⟨_, exec_heartbeatPeriodEnd_same hp heq, by
      obtain ⟨hcount, habs, -⟩ := hbMissed_host s
      cases ha : s.host.absent with
      | false =>
        rw [if_pos ⟨hmiss, rfl⟩, (tells_refresh _).host]
        exact ⟨hcount, rfl⟩
      | true =>
        rw [if_neg (by simp)]
        exact ⟨hcount, habs.trans ha⟩⟩
  · refine ⟨wr hbDevbeat (rd s hbDevbeat + 1) { s with host := { s.host with devbeatAt := now s + 100000 } }, ?_,
      rd_wr_same _ _ _ (by decide), rfl⟩
    change execDevbeatIncrement s = _
    rw [execDevbeatIncrement, if_pos ⟨hrun, reached_iff.mpr hat⟩]

end Sys2Proof.Machine
end

section
/-! PROOFS. What a fold keeps, and what the entry to SAFE leaves unchanged (R133, R134). -/

namespace Sys2Proof.Machine

/-- What each step of a fold keeps, the fold keeps. -/
theorem foldl_keeps {α β σ : Type*} (g : σ → β) {f : σ → α → σ} (h : ∀ s a, g (f s a) = g s) (l : List α) (s : σ) :
    g (l.foldl f s) = g s := by
  induction l generalizing s with
  | nil => rfl
  | cons a l ih => rw [List.foldl_cons, ih, h]

/-! ### Events on lane 1 -/

theorem eventNow_eq (src kind a b : Nat) (s : State) : eventNow src kind a b s = { s with fab := (eventNow src kind a b s).fab } := rfl

@[simp] theorem eventNow_wait_length (src kind a b : Nat) (s : State) :
    (eventNow src kind a b s).fab.wait.length = s.fab.wait.length + 1 := by
  simp [eventNow, event, seqUp, offer]

/-! ### Commands that end -/

theorem ledgerPhase_eq (i p fs fl : Nat) (s : State) : ∃ l w, ledgerPhase i p fs fl s = { s with ledger := l, pwr := w } := by
  unfold ledgerPhase
  dsimp only
  split
  · exact ⟨_, _, rfl⟩
  · exact ⟨s.ledger, s.pwr, rfl⟩

/-- A command that ends changes its ledger entry, with the words that hold it, its record and its queue. -/
theorem finish_eq (c : Cmd) (st : Nat) (r : List Byte) (s : State) :
    ∃ l w h, finish c st r s = { s with ledger := l, pwr := w, host := h } := by
  unfold finish
  dsimp only
  cases c.lref with
  | none => split <;> exact ⟨_, _, _, rfl⟩
  | some i =>
    obtain ⟨l, w, e⟩ := ledgerPhase_eq i 3 st (if c.replayed then 16 else 0) s
    obtain ⟨l', w', e'⟩ := ledgerPhase_eq i 4 st 0 { s with ledger := l, pwr := w }
    simp only [e, e']
    split <;> split <;> exact ⟨_, _, _, rfl⟩

@[simp] theorem finish_time (c : Cmd) (st : Nat) (r : List Byte) (s : State) : (finish c st r s).time = s.time := by
  obtain ⟨l, p, h, e⟩ := finish_eq c st r s
  rw [e]

@[simp] theorem finish_boot (c : Cmd) (st : Nat) (r : List Byte) (s : State) : (finish c st r s).boot = s.boot := by
  obtain ⟨l, p, h, e⟩ := finish_eq c st r s
  rw [e]

@[simp] theorem finish_regs (c : Cmd) (st : Nat) (r : List Byte) (s : State) : (finish c st r s).regs = s.regs := by
  obtain ⟨l, p, h, e⟩ := finish_eq c st r s
  rw [e]

@[simp] theorem finish_leases (c : Cmd) (st : Nat) (r : List Byte) (s : State) : (finish c st r s).leases = s.leases := by
  obtain ⟨l, p, h, e⟩ := finish_eq c st r s
  rw [e]

@[simp] theorem finish_onyx (c : Cmd) (st : Nat) (r : List Byte) (s : State) : (finish c st r s).onyx = s.onyx := by
  obtain ⟨l, p, h, e⟩ := finish_eq c st r s
  rw [e]

@[simp] theorem finish_agt (c : Cmd) (st : Nat) (r : List Byte) (s : State) : (finish c st r s).agt = s.agt := by
  obtain ⟨l, p, h, e⟩ := finish_eq c st r s
  rw [e]

@[simp] theorem finish_voice (c : Cmd) (st : Nat) (r : List Byte) (s : State) : (finish c st r s).voice = s.voice := by
  obtain ⟨l, p, h, e⟩ := finish_eq c st r s
  rw [e]

/-! ### The entry to SAFE -/

@[simp] theorem abortRuns_time (p : AgtRun → Bool) (b : Bool) (s : State) : (abortRuns p b s).time = s.time := by
  refine foldl_keeps State.time (fun s r => ?_) _ s
  cases r.result <;> cases b <;> cases r.cmd <;> simp only <;> (repeat' split) <;> simp

@[simp] theorem abortRuns_boot (p : AgtRun → Bool) (b : Bool) (s : State) : (abortRuns p b s).boot = s.boot := by
  refine foldl_keeps State.boot (fun s r => ?_) _ s
  cases r.result <;> cases b <;> cases r.cmd <;> simp only <;> (repeat' split) <;> simp

@[simp] theorem safeRetain_time (s : State) : (safeRetain s).time = s.time := by
  unfold safeRetain
  split
  · rfl
  · split <;> rfl

@[simp] theorem safeRetain_boot (s : State) : (safeRetain s).boot = s.boot := by
  unfold safeRetain
  split
  · rfl
  · split <;> rfl

@[simp] theorem enterSafe_time (s : State) : (enterSafe s).time = s.time := by
  rw [enterSafe, (tells_refresh _).time]
  simp only [abortRuns_time, safeRetain_time]
  exact foldl_keeps State.time (fun s p => wr_time (eth p 0 12 1) 1 s) _ s

@[simp] theorem enterSafe_boot (s : State) : (enterSafe s).boot = s.boot := by
  rw [enterSafe, (tells_refresh _).boot]
  simp only [abortRuns_boot, safeRetain_boot]
  exact foldl_keeps State.boot (fun s p => wr_boot (eth p 0 12 1) 1 s) _ s

theorem enterSafe_pwr (s : State) : (enterSafe s).pwr.safe = true ∧ (enterSafe s).pwr.faultN = true := by
  rw [enterSafe, (tells_refresh _).pwr]
  exact ⟨rfl, rfl⟩

end Sys2Proof.Machine
end

section
/-! PROOFS. Time (R55 to R57, R65 to R72, R558): the registers of RTB, the clock monitors, and the servo. -/

namespace Sys2Proof.Machine

/-! ### Steps of RTB (R68) -/

/-- A state without the zero-crossing inputs. -/
def withoutZc (s : State) : State := { s with time := { s.time with zc := [] } }

/-- A step of RTB flags the zero-crossing inputs in DC mode, and nothing else. -/
theorem withoutZc_zcStepped (s : State) : withoutZc (zcStepped s) = withoutZc s := by
  refine foldl_keeps withoutZc (fun s n => ?_) _ s
  dsimp only
  split <;> rfl

/-- A step of RTB by `d` ns: the count, the register that says so, and what goes with it. -/
theorem rtbStep_spec (d : Int) (s : State) :
    (rtbStep d s).time.rtb = s.time.rtb + BitVec.ofInt 96 (d * 4294967296) ∧ (rtbStep d s).time.usec = s.time.usec ∧
      (rtbStep d s).time.addend = s.time.addend ∧ (rtbStep d s).time.slew = s.time.slew := by
  have h := withoutZc_zcStepped (wr rtbStepped 1 (rtbAdd d s))
  exact ⟨congrArg (·.time.rtb) h, congrArg (·.time.usec) h, congrArg (·.time.addend) h, congrArg (·.time.slew) h⟩

theorem rtbStep_regs (d : Int) (s : State) : (rtbStep d s).regs = (wr rtbStepped 1 s).regs := by
  have h := congrArg State.regs (withoutZc_zcStepped (wr rtbStepped 1 (rtbAdd d s)))
  exact h

theorem rd_rtbStep (d : Int) (s : State) (f : Fld) : rd (rtbStep d s) f = rd (wr rtbStepped 1 s) f := rd_congr _ _ f (rtbStep_regs d s)

/-! ### The addend and the anchor (R67, R72) -/

/-- The two halves of the addend, read back, are the addend. -/
theorem addend_halves (a : BitVec 40) :
    ((a >>> 32).truncate 32 : Word32).toNat * 4294967296 + (a.truncate 32 : Word32).toNat = a.toNat := by
  have := a.isLt
  simp only [BitVec.truncate_eq_setWidth, BitVec.toNat_setWidth, BitVec.toNat_ushiftRight, Nat.shiftRight_eq_div_pow]
  omega

/-- An addend in force stands in its two registers. -/
theorem rdW_putAddend (a : BitVec 40) (s : State) :
    rdW (putAddend a s) (rk 9 0x18) = a.truncate 32 ∧ rdW (putAddend a s) (rk 9 0x1C) = (a >>> 32).truncate 32 := by
  refine ⟨rdW_wrW_same _ _ _, ?_⟩
  rw [putAddend, rdW_wrW_other _ _ _ _ (by decide), rdW_wrW_same]

theorem rd_putAddend (a : BitVec 40) (s : State) {f : Fld} (hlo : f.key ≠ rk 9 0x18) (hhi : f.key ≠ rk 9 0x1C) :
    rd (putAddend a s) f = rd s f := by
  rw [rd, putAddend, rdW_wrW_other _ _ _ _ hlo, rdW_wrW_other _ _ _ _ hhi]
  rfl

/-- An addend written: clamped, in force, and flagged where it was out of range. -/
theorem addendWrite_eq (v : Nat) (s : State) :
    addendWrite v s =
      if max 4290672329 (min 4299262263 v) = v then putAddend (BitVec.ofNat 40 (max 4290672329 (min 4299262263 v))) s
      else wr rtbClamped 1 (putAddend (BitVec.ofNat 40 (max 4290672329 (min 4299262263 v))) s) := rfl

theorem sx_toInt (v : BitVec 32) : sx 32 v.toNat = v.toInt := by
  have := v.isLt
  simp only [sx, BitVec.toInt]
  omega

/-- What a write of both halves of the addend does, by whether it is in range. -/
theorem addendWrite_spec (v : Nat) (s : State) :
    (addendWrite v s).time = { s.time with addend := BitVec.ofNat 40 (max 4290672329 (min 4299262263 v)) } ∧
      (4290672329 ≤ v → v ≤ 4299262263 → ∀ f, f.key ≠ rk 9 0x18 → f.key ≠ rk 9 0x1C → rd (addendWrite v s) f = rd s f) ∧
      (v < 4290672329 ∨ 4299262263 < v → rd (addendWrite v s) rtbClamped = 1) ∧
      (rdW (addendWrite v s) (rk 9 0x1C)).toNat * 4294967296 + (rdW (addendWrite v s) (rk 9 0x18)).toNat =
        (addendWrite v s).time.addend.toNat := by
  have hhalves (a : BitVec 40) (u : State) (hu : u.time.addend = a) (hlo : rdW u (rk 9 0x18) = a.truncate 32)
      (hhi : rdW u (rk 9 0x1C) = (a >>> 32).truncate 32) :
      (rdW u (rk 9 0x1C)).toNat * 4294967296 + (rdW u (rk 9 0x18)).toNat = u.time.addend.toNat := by
    rw [hlo, hhi, hu]
    exact addend_halves a
  rw [addendWrite_eq]
  split
  next hin =>
    refine ⟨rfl, fun _ _ f => rd_putAddend _ s, fun hout => by omega, ?_⟩
    exact hhalves _ _ rfl (rdW_putAddend _ s).1 (rdW_putAddend _ s).2
  next hout =>
    refine ⟨rfl, fun _ _ => by omega, fun _ => rd_wr_same _ _ _ (by decide), ?_⟩
    refine hhalves _ _ rfl ?_ ?_
    · exact (rdW_wrW_other _ _ _ _ (by decide)).trans (rdW_putAddend _ s).1
    · exact (rdW_wrW_other _ _ _ _ (by decide)).trans (rdW_putAddend _ s).2

/-- A microsecond in which the remainder of a slew is consumed. -/
theorem tickUs_of_slewEnds {s : State} (h : slewEnds s = true) :
    (tickUs s).time.slew = 0 ∧ (tickUs s).time.usec = s.time.usec + 1 ∧
      (tickUs s).time.rtb = s.time.rtb + BitVec.ofInt 96 (1000 * (s.time.addend.toNat : Int) - s.time.slew) ∧
      (tickUs s).time.servo = { s.time.servo with slewed := s.time.servo.slewed + s.time.slew } ∧ (tickUs s).regs = s.regs := by
  simp only [slewEnds, Bool.and_eq_true, decide_eq_true_eq] at h
  obtain ⟨⟨⟨⟨-, hsmall⟩, href⟩, hdom⟩, hhib⟩ := h
  have hrun : (s.time.refRun && decide (s.pwr.hib = .awake ∨ s.pwr.hib = .armed)) = true := by simp [href, hhib]
  have heat : (if 0 ≤ s.time.slew then min s.time.slew ((1000 * slewE s : Nat) : Int) else max s.time.slew (-((1000 * slewE s : Nat) : Int))) =
      s.time.slew := by
    split <;> omega
  cases hao : s.time.aoRun <;>
    simp only [tickUs, hrun, hao, hdom, heat, Bool.not_true, Bool.false_eq_true, if_false, if_true, sub_self, and_self]

/-- Settles O23: each row as its function of the time base. -/
theorem timeBaseWritesComplete : Obligations.TimeBaseWritesComplete := by
  intro v s t d
  refine ⟨⟨rtbStep d s, rfl, ?_⟩, ?_, fun h => ⟨tickUs s, ?_, tickUs_of_slewEnds h⟩, fun h => ?_, ?_, fun hao hheld hdom hhib => ?_,
    fun hao hheld => ?_, rfl⟩
  · obtain ⟨hrtb, husec, haddend, -⟩ := rtbStep_spec d s
    refine ⟨hrtb, (rd_rtbStep d s _).trans (rd_wr_same _ _ _ (by decide)), fun f hf => ?_, husec, haddend⟩
    rw [rd_rtbStep, rd_wr_other _ _ _ _ hf]
  · change Host.Outcome.next (adjWrite (sx 32 v.toNat) s) = _
    rw [sx_toInt]
    rfl
  · change execSlewComplete s = _
    rw [execSlewComplete, if_pos h]
  · change execSlewComplete s = _
    rw [execSlewComplete, if_neg (ne_true_of_eq_false h)]
  · intro a
    obtain ⟨htime, hin, hout, hread⟩ := addendWrite_spec a s
    exact ⟨addendWrite a s, rfl, by rw [htime], hin, hout, by rw [htime], hread⟩
  · change execAnchorRenewal s = _
    rw [execAnchorRenewal, if_pos ⟨hao, hdom, hhib⟩, renewAnchor, if_neg (ne_true_of_eq_false hheld)]
  · change execAnchorRenewal s = _
    rw [execAnchorRenewal]
    split
    next hgo =>
      have hawake : s.time.anchorHeld = true := hheld.resolve_right (by
        rcases hgo.2.2 with h | h <;> rw [h] <;> simp)
      rw [renewAnchor, if_pos hawake]
    next => rfl

/-! ### The state of the discipline (R66) -/

theorem setRtbState_time (c : Nat) (s : State) : (setRtbState c s).time = s.time := by
  unfold setRtbState
  dsimp only
  split
  · rw [notify_time]
    rfl
  · rfl

theorem rd_setRtbState {c : Nat} {s : State} {f : Fld} (hf : tellKey f.key = false) : rd (setRtbState c s) f = rd (wr rtbState c s) f := by
  unfold setRtbState
  dsimp only
  split
  · rw [(tells_notify _ _ _ _).rd hf]
    rfl
  · rfl

theorem rd_setRtbState_rtbState {c : Nat} (hc : c < 8) (s : State) : rd (setRtbState c s) rtbState = c := by
  rw [rd_setRtbState rfl, rd_wr_same _ _ _ (by decide)]
  exact Nat.mod_eq_of_lt hc

theorem setRtbState_free_wait (s : State) : (setRtbState 4 s).fab.wait.length = s.fab.wait.length + 1 := by
  simp [setRtbState]

/-! ### The monitors (R56, R57, R558) -/

theorem exec_ckRefLoss {s : State} (hmon : refMonitor s = true) (htrip : s.time.refTrip = false) :
    exec .ckRefLoss s = .next (enterSafe (journal 0x30 0 3 0 0 [] (wr rtbState 0 (wr clkRefloss 1
      { refStop s with time := { (refStop s).time with refTrip := true, anchorHeld := true } })))) := by
  change execCkRefLoss s = _
  simp only [execCkRefLoss, hmon, htrip, Bool.not_true, Bool.false_eq_true, if_false]

/-- Settles O24: each supervision row under its condition. -/
theorem clockSupervisionRule : Obligations.ClockSupervisionRule := by
  intro s t
  refine ⟨fun hmon htrip => ⟨_, exec_ckRefLoss hmon htrip, (enterSafe_pwr _).1, (enterSafe_pwr _).2, ?_⟩, fun href hhib => ?_,
    fun hsrc hst hdue => ?_, fun hst hdue => ?_, fun hsrc hauto hact => ?_⟩
  · rw [enterSafe_time, journal_time]
    refine ⟨rfl, rfl, fun href hhib => ?_, fun href => ?_, rfl⟩
    · exact if_pos (by rw [href, hhib]; rfl)
    · exact if_neg (by rw [href]; exact Bool.false_ne_true)
  · change execCkRefReturn s = _
    simp only [execCkRefReturn, show s.time.refRun = false from href, hhib, Bool.false_eq_true, if_false, aoUsec] <;> rfl
  · refine ⟨_, if_pos ⟨hsrc, hst, hdue⟩ |> congrArg Host.Outcome.next, rd_setRtbState_rtbState (by decide) _, ?_, ?_, ?_⟩
    · rw [rd_setRtbState rfl, rd_wr_apart _ _ (by decide)]
      exact rd_wr_same _ _ _ (by decide)
    · rw [setRtbState_time]
      rfl
    · rw [setRtbState_time]
      rfl
  · refine ⟨_, if_pos ⟨hst, hdue⟩ |> congrArg Host.Outcome.next, rd_setRtbState_rtbState (by decide) _, setRtbState_time _ _,
      setRtbState_free_wait s⟩
  · refine ⟨_, if_pos ⟨hsrc, hauto, hact⟩ |> congrArg Host.Outcome.next, ?_, ?_, ?_⟩
    · rw [(tells_journal ..).rd rfl]
      exact rd_wr_same _ _ _ (by decide)
    · rw [(tells_journal ..).rd rfl, rd_wr_apart _ _ (by decide)]
      exact rd_wr_same _ _ _ (by decide)
    · rw [journal_time]
      rfl

/-! ### The servo (R65 to R68) -/

/-- What every update that the servo takes leaves noted. -/
def servoMark (v : Servo) (off : Int) (good nInt : Nat) (sum : Rat) (s : State) : State :=
  { s with time := { s.time with servo := { v with
    lastAt := now s, lastOff := some off, lastRtb := rtbNs s, good := good, nInt := nInt, sumF := sum, slewed := 0, fresh := false } } }

theorem rd_servoMark (v : Servo) (off : Int) (g n : Nat) (sum : Rat) (s : State) (f : Fld) : rd (servoMark v off g n sum s) f = rd s f := rfl

/-- An offset within the range of RTB_ADJ is slewed as it is. -/
theorem slew_small {off : Int} (hsmall : -2147483647 ≤ off ∧ off ≤ 2147483647) : max (-2147483647) (min 2147483647 off) = off := by omega

section
variable {off : Int} {s : State} (hsrc : rd s rtbSrc ≠ 0) (hup : onyxUp s = true) (href : s.time.refRun = true)
include hsrc hup href

/-- ACQUIRING, after a first update: the offset is slewed, and the sixteenth good one in a row locks. -/
theorem servoUpdate_acquiring (hst : rd s rtbState = 1) (hfresh : s.time.servo.fresh = false)
    (hsmall : -2147483647 ≤ off ∧ off ≤ 2147483647) (good : Nat)
    (hgood : (if off.natAbs < rd s rtbLockthr then s.time.servo.good + 1 else 0) = good) :
    servoUpdate off s = servoMark s.time.servo off good 0 0 (if 16 ≤ good then setRtbState 2 (adjWrite off s) else adjWrite off s) := by
  subst hgood
  have hlive : ¬ (rd s rtbSrc = 0 ∨ !onyxUp s ∨ !s.time.refRun) := by simp [hsrc, hup, href]
  simp only [servoUpdate, if_neg hlive, hst, hfresh, slew_small hsmall]
  simp [absI]
  by_cases hlow : off.natAbs < rd s rtbLockthr <;> by_cases h16 : 16 ≤ s.time.servo.good + 1 <;> simp [hlow, h16] <;> rfl

/-- LOCKED, with an offset that keeps it: the offset is slewed, and the interval counts towards the next addend. -/
theorem servoUpdate_locked (hst : rd s rtbState = 2) (hoff : off.natAbs < 4 * rd s rtbLockthr)
    (hsmall : -2147483647 ≤ off ∧ off ≤ 2147483647) (hint : s.time.servo.nInt + 1 < 16) :
    ∃ good sum, servoUpdate off s = servoMark s.time.servo off good (s.time.servo.nInt + 1) sum (adjWrite off s) := by
  have hlive : ¬ (rd s rtbSrc = 0 ∨ !onyxUp s ∨ !s.time.refRun) := by simp [hsrc, hup, href]
  simp only [servoUpdate, if_neg hlive, hst, slew_small hsmall]
  simp [absI, Nat.not_le.mpr hoff, hint]
  exact ⟨_, _, rfl⟩

/-- Without a source before, an offset beyond STEPTHR steps RTB. -/
theorem servoUpdate_step (hst : rd s rtbState = 0 ∨ rd s rtbState = 3 ∨ rd s rtbState = 4) (hthr : rd s rtbStepthr ≠ 0)
    (hbig : rd s rtbStepthr * 1000 < off.natAbs) (hmax : off.natAbs < 549755813888) :
    servoUpdate off s = servoMark s.time.servo off 0 0 0
      (rtbStep (-off) (wr rtbStepLo (toU 32 (-off)) (wr rtbStepHi (toU 64 (-off) / 4294967296) (wr rtbState 1 s)))) := by
  have hlive : ¬ (rd s rtbSrc = 0 ∨ !onyxUp s ∨ !s.time.refRun) := by simp [hsrc, hup, href]
  have henter : decide (rd s rtbState = 0 ∨ rd s rtbState = 3 ∨ rd s rtbState = 4 ∨ (rd s rtbState = 2 ∧ 4 * rd s rtbLockthr ≤ absI off)) = true :=
    decide_eq_true (hst.imp_right (Or.imp_right Or.inl))
  have hbig' : decide (rd s rtbStepthr ≠ 0 ∧ rd s rtbStepthr * 1000 < absI off) = true := decide_eq_true ⟨hthr, hbig⟩
  have hmax' : decide (549755813888 ≤ absI off) = false := decide_eq_false (Nat.not_le.mpr hmax)
  simp only [servoUpdate, if_neg hlive, henter, hbig', hmax']
  rfl

end

/-- Settles O25: a PPS edge is an update or nothing, and an update is one of the servo's cases. -/
theorem disciplineRule : Obligations.DisciplineRule := by
  intro off ns rising s
  refine ⟨fun hsrc hedge => ?_, fun hno => ?_, ?_⟩
  · change execPpsEdge ⟨ns, rising⟩ s = execDisciplineUpdate (ppsOffset s ns) s
    rw [execPpsEdge, if_pos ⟨hsrc, hedge⟩]
    rfl
  · change execPpsEdge ⟨ns, rising⟩ s = _
    rw [execPpsEdge, if_neg (fun h => hno.elim (absurd h.1) (absurd h.2))]
  intro hsrc hup href v small
  refine ⟨fun hst hfresh hlow hsmall => ?_, fun hst hfresh hhigh hsmall => ?_, fun hst hoff hsmall hint => ?_, fun hst hthr hbig hmax => ?_⟩
  · refine ⟨_, congrArg Host.Outcome.next (servoUpdate_acquiring hsrc hup href hst hfresh hsmall _ (if_pos hlow)), ?_⟩
    have htime : (setRtbState 2 (adjWrite off s)).time = (adjWrite off s).time := setRtbState_time _ _
    rw [rd_servoMark]
    split
    next => exact ⟨(congrArg TimeSt.slew htime :), rfl, rfl, (congrArg TimeSt.rtb htime :), rd_setRtbState_rtbState (by decide) _⟩
    next => exact ⟨rfl, rfl, rfl, rfl, hst⟩
  · exact ⟨_, congrArg Host.Outcome.next (servoUpdate_acquiring hsrc hup href hst hfresh hsmall 0 (if_neg (Nat.not_lt.mpr hhigh))), rfl, rfl, hst⟩
  · obtain ⟨good, sum, he⟩ := servoUpdate_locked hsrc hup href hst hoff hsmall hint
    exact ⟨_, congrArg Host.Outcome.next he, rfl, rfl, hst, rfl⟩
  · refine ⟨_, congrArg Host.Outcome.next (servoUpdate_step hsrc hup href hst hthr hbig hmax), ?_⟩
    obtain ⟨hrtb, -, -, hslew⟩ := rtbStep_spec (-off) (wr rtbStepLo (toU 32 (-off)) (wr rtbStepHi (toU 64 (-off) / 4294967296) (wr rtbState 1 s)))
    refine ⟨hrtb, ?_, ?_, hslew⟩
    · rw [rd_servoMark, rd_rtbStep, rd_wr_apart _ _ (by decide), rd_wr_apart _ _ (by decide), rd_wr_apart _ _ (by decide)]
      exact rd_wr_same _ _ _ (by decide)
    · rw [rd_servoMark, rd_rtbStep]
      exact rd_wr_same _ _ _ (by decide)

end Sys2Proof.Machine
end

section
/-! PROOFS. The schedule (R20, R216, R290): the commit that does not renew lease 0. -/

namespace Sys2Proof.Machine

/-- The dispatcher and Onyx are up and lease 0 is FREE, while a switch-off of PD_CTRL, Onyx's own domain, is queued. -/
def ctrlGoingOff : State :=
  let s := wr (domStat 1) 2 State.reset
  { s with boot := { s.boot with step := 13 }, onyx := { s.onyx with phase := .running }, pwr := { s.pwr with queue := [(1, false)], hib := .awake } }

theorem mayCommit_ctrlGoingOff : mayCommit ctrlGoingOff = true := by decide

/-- At the commit lease 0 is not granted: a unit whose domain is going off takes no lease (R91). -/
theorem scheduleCommit_ctrlGoingOff : ∃ t, exec .scheduleCommit ctrlGoingOff = .next t ∧ (lease t 0).state = 0 := by
  change ∃ t, execScheduleCommit ctrlGoingOff = .next t ∧ (lease t 0).state = 0
  rw [execScheduleCommit, mayCommit_ctrlGoingOff]
  exact ⟨_, rfl, by decide⟩

/-- Refutes O59: its first clause promises lease 0 renewed at every commit, but with lease 0 FREE and a switch-off of PD_CTRL queued the
commit grants no lease. -/
theorem not_scheduleAndJobsRule : ¬ Obligations.ScheduleAndJobsRule := by
  intro h
  obtain ⟨hcommit, -⟩ := h.1 ctrlGoingOff
  obtain ⟨t, hrun, -, -, hlease⟩ := hcommit mayCommit_ctrlGoingOff
  obtain ⟨u, hexec, hfree⟩ := scheduleCommit_ctrlGoingOff
  have he : u = t := Host.Outcome.next.inj (hexec.symm.trans hrun)
  rw [he, hlease] at hfree
  exact absurd hfree (by decide)

end Sys2Proof.Machine
end

section
/-! PROOFS. The fabric and the dispatcher (R34, R37 to R44, R71, R305): items, rejections, and the TICK boundary. -/

namespace Sys2Proof.Machine

/-! ### ITEM_ENTERS_FABRIC (R34, R37 to R40) -/

theorem present_wait (i : Item) (s : State) :
    (present i s).fab.wait = if s.fab.wait.contains i then s.fab.wait else s.fab.wait ++ [i] := by
  unfold present
  split <;> rfl

/-- To present an item changes what waits at its port alone. -/
theorem present_eq (i : Item) (s : State) : present i s = { s with fab := { s.fab with wait := (present i s).fab.wait } } := by
  unfold present
  split <;> rfl

/-- To pay for an item changes the tokens alone. -/
theorem takeTokens_eq (p : Nat) (i : Item) (s : State) :
    takeTokens p i s = { s with fab := { s.fab with tokens := (takeTokens p i s).fab.tokens } } := by
  unfold takeTokens
  dsimp only
  split <;> rfl

/-- An item that takes its lane waits no more; rejections and the units are as they were. -/
theorem takeLane_spec (p : Nat) (i : Item) (s : State) :
    (takeLane p i s).fab.wait = removeFirst i s.fab.wait ∧ (takeLane p i s).fab.rej = s.fab.rej ∧ (takeLane p i s).gar = s.gar ∧
      (takeLane p i s).net = s.net ∧ (takeLane p i s).voice = s.voice := by
  unfold takeLane
  dsimp only
  rw [takeTokens_eq]
  exact ⟨rfl, rfl, rfl, rfl, rfl⟩

section
variable {port : BitVec 8} {wh : WH} {payload : List Byte} {s : State} {d : Nat}
  (hd : unitDomain port.toNat = some d) (hon : domOn s d = true)
include hd hon

/-- An item that has no turn, or whose lane a lower-numbered one precedes, waits. -/
theorem exec_itemEntersFabric_noTurn
    (hturn : firstWaiting (present (sentItem port wh payload) s) (sentItem port wh payload) = false ∨
      laneServed (present (sentItem port wh payload) s) (sentItem port wh payload) = false) :
    exec (.itemEntersFabric port wh payload) s = .next (present (sentItem port wh payload) s) := by
  change execItemEntersFabric port wh payload s = _
  have hwait : (!firstWaiting (present (sentItem port wh payload) s) (sentItem port wh payload) ||
      !laneServed (present (sentItem port wh payload) s) (sentItem port wh payload)) = true := by
    rcases hturn with h | h <;> simp [h]
  simp only [sentItem] at hwait
  simp only [execItemEntersFabric, hd, hon, Bool.not_true, Bool.false_eq_true, if_false, hwait, if_true, sentItem]

variable (hfirst : firstWaiting (present (sentItem port wh payload) s) (sentItem port wh payload) = true)
  (hlane : laneServed (present (sentItem port wh payload) s) (sentItem port wh payload) = true)
include hfirst hlane

/-- An item whose check fails at its port is rejected there. -/
theorem exec_itemEntersFabric_reject {c : Nat} (hc : sendCause (present (sentItem port wh payload) s) (sentItem port wh payload).wh = some c) :
    exec (.itemEntersFabric port wh payload) s = .next (reject port.toNat c (sentItem port wh payload)
      { present (sentItem port wh payload) s with fab := { (present (sentItem port wh payload) s).fab with
        wait := removeFirst (sentItem port wh payload) (present (sentItem port wh payload) s).fab.wait } }) := by
  change execItemEntersFabric port wh payload s = _
  simp only [sentItem] at hfirst hlane hc
  simp only [execItemEntersFabric, hd, hon, hfirst, hlane, hc, Bool.not_true, Bool.or_self, Bool.false_eq_true, if_false, sentItem]

/-- An item without token or credit waits. -/
theorem exec_itemEntersFabric_noCredit (hc : sendCause (present (sentItem port wh payload) s) (sentItem port wh payload).wh = none)
    (henter : mayEnter (present (sentItem port wh payload) s) port.toNat (sentItem port wh payload) = false) :
    exec (.itemEntersFabric port wh payload) s = .next (present (sentItem port wh payload) s) := by
  change execItemEntersFabric port wh payload s = _
  simp only [sentItem] at hfirst hlane hc henter
  simp only [execItemEntersFabric, hd, hon, hfirst, hlane, hc, henter, Bool.not_true, Bool.or_self, Bool.false_eq_true, if_false, sentItem]

end

/-! ### ITEM_DELIVERED (R41, R44) -/

section
variable {dest src : BitVec 8} {lane : BitVec 3} {s : State}

theorem exec_itemDelivered_notServed (h : portServes s dest.toNat src.toNat lane.toNat = false) :
    exec (.itemDelivered dest src lane) s = .next s := by
  change execItemDelivered dest src lane s = _
  simp [execItemDelivered, h]

variable {x : Item} (hup : dest = 0 → onyxUp s = true) (hx : s.fab.flight.find? (fun i => i.wh.dest == dest && i.wh.src == src && i.wh.prio == lane) = some x)
  (hserved : portServes s dest.toNat src.toNat lane.toNat = true)
include hup hx hserved

theorem exec_itemDelivered_reject {c : Nat} (hc : destCause s x = some c) :
    exec (.itemDelivered dest src lane) s = .next (reject dest.toNat c x (takeItem x s)) := by
  change execItemDelivered dest src lane s = _
  have hgo : ¬ ((dest = 0 ∧ !onyxUp s) ∨ !portServes s dest.toNat src.toNat lane.toNat) := by simp [hserved]; exact hup
  simp only [execItemDelivered, if_neg hgo, hx, hc]

theorem exec_itemDelivered_taken (hc : destCause s x = none) (hrx : s.net.rx.find? (fun r => r.item == x) = none) :
    exec (.itemDelivered dest src lane) s = .next (unitTakes x none (forgetSender x (takeItem x s))) := by
  change execItemDelivered dest src lane s = _
  have hgo : ¬ ((dest = 0 ∧ !onyxUp s) ∨ !portServes s dest.toNat src.toNat lane.toNat) := by simp [hserved]; exact hup
  simp only [execItemDelivered, if_neg hgo, hx, hc, hrx, Option.bind_none]

end

/-- The item rule: what happens to a waiting item at its port, and to an item under way at its destination. -/
theorem fabricItemRule : Obl.FabricItemRule := by
  intro port wh payload s
  refine ⟨fun d hd hon => ⟨present_wait _ s, exec_itemEntersFabric_noTurn hd hon, fun hfirst hlane => ⟨fun c hc => ?_, fun hc henter => ?_, fun hc henter => ?_⟩⟩, ?_⟩
  · exact exec_itemEntersFabric_reject hd hon hfirst hlane hc
  · obtain ⟨hwait, hrej, hgar, hnet, hvoice⟩ := takeLane_spec port.toNat (sentItem port wh payload) (present (sentItem port wh payload) s)
    have hpres := present_eq (sentItem port wh payload) s
    refine ⟨_, exec_itemEntersFabric_takeLane rfl rfl hd hon hfirst hlane hc henter, ?_, hwait, ?_, ?_, ?_, ?_⟩
    · rw [takeLane_flight, hpres]
      rfl
    · rw [hrej, hpres]
    · rw [hgar, hpres]
    · rw [hnet, hpres]
    · rw [hvoice, hpres]
  · exact exec_itemEntersFabric_noCredit hd hon hfirst hlane hc henter
  · intro dest src lane x mine away hup hx
    exact ⟨exec_itemDelivered_notServed, fun hs => ⟨fun c hc => exec_itemDelivered_reject hup hx hs hc, fun hc hrx => exec_itemDelivered_taken hup hx hs hc hrx⟩⟩

/-! ### Rejections (R44) -/

/-- The port's record after a rejection: counted, and captured while there is room. -/
def rejCounted (cause : Nat) (i : Item) (r : RejPort) : RejPort :=
  let counts := tblSet cause (satAdd 32 (tblGet r.counts cause 0) 1) r.counts
  if r.buf.length < 16 then { r with counts := counts, buf := r.buf ++ [{ wh := i.wh, head := padTo 16 i.payload, cause := cause }] }
  else { r with counts := counts, overflow := true, missed := satAdd 32 r.missed 1 }

theorem rejCounted_counts (cause : Nat) (i : Item) (r : RejPort) :
    (rejCounted cause i r).counts = tblSet cause (satAdd 32 (tblGet r.counts cause 0) 1) r.counts := by
  unfold rejCounted
  dsimp only
  split <;> rfl

/-- The state in which the rejection is counted and told. -/
def rejTold (p cause : Nat) (i : Item) (s : State) : State :=
  let t := forgetSender i (setRej (portKey p) (rejCounted cause i (rejPort s (portKey p))) s)
  eventNow (portKey p) 1 (cause + 256 * b2n i.wh.assured) i.wh.lref.toNat (if onyxUp t then drainRej (portKey p) t else t)

theorem reject_eq (p cause : Nat) (i : Item) (s : State) : reject p cause i s =
    match senderKernel s i with
    | some kid => quarantine (i.wh.src.toNat - 0x10) kid (BitVec.ofNat 24 (0xB + 65536 * cause)) (rejTold p cause i s)
    | none => rejTold p cause i s := rfl

/-- Onyx copies a buffer into the journal: the counts stay, and the items that wait. -/
theorem drainRej_spec (p : Nat) (s : State) :
    (rejPort (drainRej p s) p).counts = (rejPort s p).counts ∧ (drainRej p s).fab.wait = s.fab.wait := by
  have hfold (l : List RejRec) (t : State) :
      (l.foldl (fun s x => journal 0x103 p 8 p x.cause (whBytes x.wh ++ x.head.take 8) s) t).fab = t.fab :=
    foldl_keeps State.fab (fun s x => journal_fab ..) l t
  unfold drainRej
  dsimp only
  split
  · simp only [rejPort, journal_fab, hfold]
    exact ⟨(congrArg RejPort.counts (tblGet_set_same ..) :), rfl⟩
  · simp only [rejPort, hfold]
    exact ⟨(congrArg RejPort.counts (tblGet_set_same ..) :), rfl⟩

theorem rejPort_setRej (p : Nat) (r : RejPort) (i : Item) (s : State) : rejPort (forgetSender i (setRej p r s)) p = r :=
  tblGet_set_same p r rejInit s.fab.rej

theorem rejTold_wait_length (p cause : Nat) (i : Item) (s : State) : (rejTold p cause i s).fab.wait.length = s.fab.wait.length + 1 := by
  unfold rejTold
  dsimp only
  rw [eventNow_wait_length]
  split
  · rw [(drainRej_spec _ _).2]
    rfl
  · rfl

theorem rejTold_counts (p cause : Nat) (i : Item) (s : State) : (rejPort (rejTold p cause i s) (portKey p)).counts =
    tblSet cause (satAdd 32 (tblGet (rejPort s (portKey p)).counts cause 0) 1) (rejPort s (portKey p)).counts := by
  rw [← rejCounted_counts cause i]
  unfold rejTold
  dsimp only
  split
  · exact (drainRej_spec (portKey p) _).1.trans (congrArg RejPort.counts (rejPort_setRej _ _ i s))
  · exact congrArg RejPort.counts (rejPort_setRej _ _ i s)

/-- Without Onyx the buffer stays at its port. -/
theorem rejPort_rejTold_of_onyx_down {p cause : Nat} {i : Item} {s : State} (h : onyxUp s = false) :
    rejPort (rejTold p cause i s) (portKey p) = rejCounted cause i (rejPort s (portKey p)) := by
  have h' (r : RejPort) : onyxUp (forgetSender i (setRej (portKey p) r s)) = false := h
  unfold rejTold
  dsimp only
  rw [h', if_neg Bool.false_ne_true]
  exact rejPort_setRej _ _ i s

/-- A rejection is counted by its cause, and captured while the buffer has room. -/
theorem rejectionCounted : Obl.RejectionCounted := by
  intro p cause i s k r counted
  have hcounted : counted (rejTold p cause i s) := by
    have hcounts := rejTold_counts p cause i s
    refine ⟨?_, fun c hc => ?_, fun hup hroom => ?_, fun hup hfull => ?_, rejTold_wait_length p cause i s⟩
    · rw [hcounts, tblGet_set_same]
      rfl
    · rw [hcounts, tblGet_set_other _ _ _ _ _ hc]
    · rw [rejPort_rejTold_of_onyx_down hup, rejCounted, if_pos hroom]
    · rw [rejPort_rejTold_of_onyx_down hup, rejCounted, if_neg (Nat.not_lt.mpr hfull)]
      exact ⟨rfl, rfl⟩
  refine ⟨fun hnone => ?_, fun kid hkid => ⟨rejTold p cause i s, hcounted, ?_⟩⟩
  · rw [reject_eq, hnone]
    exact hcounted
  · rw [reject_eq, hkid]

/-- Settles O58: the item rule, and what a rejection counts. -/
theorem fabricRule : Obligations.FabricRule := ⟨fabricItemRule, rejectionCounted⟩

/-! ### TICK_BOUNDARY (R71, R305) -/

/-- Settles O27: before its time the row does nothing, and from then on what it does is a composition in the order of the statement. -/
theorem tickBoundaryOrder : Obligations.TickBoundaryOrder := by
  intro s halive
  refine ⟨fun hearly => ?_, fun hdue => ?_⟩
  · change execTickBoundary s = _
    rw [execTickBoundary, if_pos (.inr hearly)]
  · intro moved renewed committed migrated counted issued
    have hgo : ¬ ((!dispAlive s) = true ∨ (rtbNs s - s.time.tickRtb).toNat < tickLen s) := by
      rw [halive, not_or]
      exact ⟨Bool.false_ne_true, Nat.not_lt.mpr hdue⟩
    have hissued : issued = if counted.voice.sched.running && !counted.pwr.safe then issueAll counted else counted := by
      cases hr : counted.voice.sched.running <;> cases hs : counted.pwr.safe <;> simp [issued, hr, hs]
    change execTickBoundary s = _
    rw [execTickBoundary, if_neg hgo, hissued]
    rfl

end Sys2Proof.Machine
end

section
/-! PROOFS. Thermal levels (R499, R505): the record of an entry mends the words that it is written over. -/

namespace Sys2Proof.Machine

/-- PD_CTRL is on, level 0, and a word of the fault journal's header is known uncorrectable. -/
def badJournalWord : State :=
  let s := wr (domStat 1) 2 State.reset
  { s with pwr := { s.pwr with ueWords := [wJournal] } }

/-- At 115 °C the entry to level 1 is recorded in the journal, and the header's words, written whole, are good again (R95). -/
theorem thermalSample_badJournalWord : ∃ t, exec (.thermalSample 115) badJournalWord = .next t ∧ t.pwr.ueWords = [] := by
  have hon : domOn badJournalWord 1 = true := by decide
  change ∃ t, execThermalSample 115 badJournalWord = .next t ∧ _
  rw [execThermalSample, hon]
  exact ⟨_, rfl, by decide⟩

/-- Refutes O29: its clause for the entry to level 1 says that the power domains' part is as it was, but the journal record of the entry takes
a word that it overwrites off the list of uncorrectable words, which is in that part. -/
theorem not_faultAnswers : ¬ Obligations.FaultAnswers := by
  intro h
  obtain ⟨-, hthermal, -, -⟩ := h badJournalWord
  obtain ⟨-, hlevel1, -⟩ := hthermal 115 (by decide)
  obtain ⟨t, hrun, -, hpwr⟩ := hlevel1 (by decide) (by decide) (by decide)
  obtain ⟨u, hexec, hwords⟩ := thermalSample_badJournalWord
  have he : u = t := Host.Outcome.next.inj (hexec.symm.trans hrun)
  rw [he, hpwr] at hwords
  exact absurd hwords (by decide)

end Sys2Proof.Machine
end

section
/-! PROOFS. Onyx lockstep (R478 to R488): what a restart leaves running, and the rows that begin one. -/

namespace Sys2Proof.Machine

/-! ### What goes on while Onyx restarts (R478) -/

/-- From `s` to `t` the cores, the schedule and the items under way are as they were, items that waited still wait, in order, before any new one, and of Onyx's own
part only the list of events has changed. -/
structure Spares (s t : State) : Prop where
  gar : t.gar = s.gar
  voice : t.voice = s.voice
  flight : t.fab.flight = s.fab.flight
  wait : s.fab.wait <+: t.fab.wait
  onyx : t.onyx = { s.onyx with events := t.onyx.events }

namespace Spares

theorem of_fields {s t : State} (hgar : t.gar = s.gar) (hvoice : t.voice = s.voice) (hfab : t.fab = s.fab) (honyx : t.onyx = s.onyx) : Spares s t :=
  ⟨hgar, hvoice, by rw [hfab], by rw [hfab], by rw [honyx]⟩

theorem refl (s : State) : Spares s s := of_fields rfl rfl rfl rfl

theorem trans {s t u : State} (h : Spares s t) (h' : Spares t u) : Spares s u := by
  refine ⟨h'.gar.trans h.gar, h'.voice.trans h.voice, h'.flight.trans h.flight, h.wait.trans h'.wait, ?_⟩
  rw [h'.onyx]
  conv_lhs => rw [h.onyx]

theorem of_tells {s t : State} (h : Tells s t) : Spares s t := ⟨h.gar, h.voice, by rw [h.fab], by rw [h.fab], h.onyx⟩

theorem eventNow (src kind a b : Nat) (s : State) : Spares s (eventNow src kind a b s) := ⟨rfl, rfl, rfl, List.prefix_append _ _, rfl⟩

end Spares

theorem spares_leaseRevoke (n : Nat) (s : State) : Spares s (leaseRevoke n s) := by
  unfold leaseRevoke
  dsimp only
  split
  · exact Spares.refl s
  · have hfreed : Spares s (unclaim 6 n (setLease n (leaseFreed (lease s n)) s)) := Spares.of_fields rfl rfl rfl rfl
    exact (hfreed.trans (Spares.eventNow ..)).trans (Spares.of_tells (tells_notify ..))

theorem spares_liveSet (i : Nat) (s : State) : Spares s (liveSet i s) := by
  unfold liveSet
  split <;> exact Spares.of_fields rfl rfl rfl rfl

theorem spares_sealerAct (ue : Bool) (s : State) : Spares s (sealerAct ue s) := by
  have hrevoke : Spares s (sealerRevoke s) := by
    unfold sealerRevoke
    split
    · exact spares_leaseRevoke 0 s
    · exact Spares.refl s
  refine hrevoke.trans ?_
  have htold (i : Nat) (e : LEntry) (c a b : Nat) (ev : List Byte) (t u : State) (h : Spares t u) :
      Spares t (sealerTells i e (journalNow c 0x03 8 a b ev u)) :=
    (h.trans (Spares.of_tells (tells_journalNow ..))).trans (Spares.eventNow ..)
  unfold sealerAct
  generalize sealerRevoke s = u
  dsimp only
  split
  next => exact Spares.refl u
  next t ht =>
    split
    · refine htold _ _ _ _ _ _ _ _ ?_
      refine Spares.trans (t := liveSet t.index _) ?_ (Spares.of_fields rfl rfl rfl rfl)
      refine Spares.trans ?_ (spares_liveSet ..)
      exact Spares.of_fields rfl rfl rfl rfl
    · refine htold _ _ _ _ _ _ _ _ ?_
      exact Spares.of_fields rfl rfl rfl rfl

/-! ### The start of a restart -/

@[simp] theorem notify_regs (c d w : Nat) (s : State) : (notify c d w s).regs = s.regs := by
  unfold notify post noteNow
  split
  · rfl
  · dsimp only
    (repeat split) <;> rfl

/-- Bringing HB_STATE up to date writes HB_STATE, and may set its bit of HB_IRQ_STAT and what a message needs. -/
theorem rd_refresh {f : Fld} (s : State) (hst : f.key ≠ rk 10 8) (hirq : f.key ≠ rk 10 0x20) (hpba : f.key ≠ rk 10 0x3000) :
    rd (refresh s) f = rd s f := by
  have hreg : rd (stateReg (fun s' => wr hbState (stateCode s) (wr hbCapred (b2n (s'.onyx.degraded ≠ [])) s')) s) f = rd s f := by
    unfold stateReg
    dsimp only
    split
    · rw [rd_wr_other _ _ _ _ hst, rd_wr_other _ _ _ _ hst]
    · rw [rd_irq_other _ hpba hirq, rd_wr_other _ _ _ _ hst, rd_wr_other _ _ _ _ hst]
  unfold refresh
  dsimp only
  split
  · exact hreg
  · rw [rd_congr _ _ f (notify_regs ..)]
    exact hreg

/-- A restart: Onyx is in reset, the fault is in HB_FAULT, and of Onyx's part nothing else but the time of the fault and the list of events has changed. -/
theorem restartOnyx_spec {code : Nat} (hcode : code < 65536) (d0 d1 : Nat) (s : State) :
    ∃ fa ev, (restartOnyx code d0 d1 s).onyx = { s.onyx with phase := .rom, faultAt := fa, events := ev } ∧
      rd (restartOnyx code d0 d1 s) faultCode = code ∧
      (restartOnyx code d0 d1 s).gar = s.gar ∧ (restartOnyx code d0 d1 s).voice = s.voice ∧
      (restartOnyx code d0 d1 s).fab.flight = s.fab.flight ∧ s.fab.wait <+: (restartOnyx code d0 d1 s).fab.wait := by
  unfold restartOnyx
  dsimp only
  generalize (if (booted s && s.onyx.phase != .running) = true then s.onyx.faultAt else now s) = fa
  generalize hu : ({ s with onyx := { s.onyx with phase := .rom, faultAt := fa } } : State) = u
  have hspares : Spares u (refresh (wr faultCode code (journal code 0 1 d0 d1 [] (sealerAct false u)))) :=
    ((spares_sealerAct false u).trans (Spares.of_tells (tells_journal ..))).trans (Spares.of_tells ((tells_wr _ _ rfl).trans (tells_refresh _)))
  refine ⟨fa, _, hspares.onyx.trans (by rw [← hu]), ?_, ?_⟩
  · rw [rd_refresh _ (by decide) (by decide) (by decide), rd_wr_same _ _ _ (by decide)]
    exact Nat.mod_eq_of_lt hcode
  · subst hu
    exact ⟨hspares.gar, hspares.voice, hspares.flight, hspares.wait⟩

/-! ### The rows (R478 to R488) -/

/-- Has a persistent mismatch been answered within the last 60 s (R487)? -/
def mismatchSoon (s : State) : Bool := match s.onyx.persistentDone with | some t0 => decide (now s ≤ t0 + 60000000) | none => false

section
variable {s : State} (hloaded : loaded s = true) (hsafe : s.pwr.safe = false)
include hloaded hsafe

theorem exec_onyxWdog : exec .onyxWdog s = .next (restartOnyx 0x04 0 0 s) := by
  change execOnyxWdog s = _
  simp [execOnyxWdog, hloaded, hsafe]

theorem exec_onyxUe (mac : BitVec 16) (word : BitVec 32) : exec (.onyxUe mac word) s = .next (restartOnyx 0x05 mac.toNat word.toNat s) := by
  change execOnyxUe mac word s = _
  simp [execOnyxUe, hloaded, hsafe]

variable (hcheck : s.onyx.checking = true)
include hcheck

/-- A mismatch, by whether a persistent one has been answered just before, and by how many there were in 60 s. -/
theorem exec_onyxMismatch (hmask : s.onyx.masked = false) (group : BitVec 32) : exec (.onyxMismatch group) s =
    let l := window60 s.onyx.mismatches s
    let t : State := { s with onyx := { s.onyx with mismatches := l } }
    .next (if mismatchSoon s = true then
        enterSafe (journalNow 0x01 0 3 group.toNat l.length [] t)
      else if 3 ≤ l.length then warmReset 3 none (journalNow 0x06 0 2 0 0 [] { t with onyx := { t.onyx with persistent := true } })
      else restartOnyx 0x01 group.toNat l.length t) := by
  change execOnyxMismatch group s = _
  have hgo : ¬ ((!loaded s) = true ∨ (!s.onyx.checking) = true ∨ s.onyx.masked = true ∨ s.pwr.safe = true) := by
    simp [hloaded, hsafe, hcheck, hmask]
  rw [execOnyxMismatch, if_neg hgo]
  rfl

theorem exec_checkerFault (stage : BitVec 1) : exec (.checkerFault stage) s =
    let l := window60 s.onyx.checkers s
    let t := restartOnyx 0x02 stage.toNat l.length { s with onyx := { s.onyx with checkers := l, masked := true } }
    .next (if 3 ≤ l.length then raiseDegraded 2 t else t) := by
  change execCheckerFault stage s = _
  have hgo : ¬ ((!loaded s) = true ∨ (!s.onyx.checking) = true ∨ s.pwr.safe = true) := by simp [hloaded, hsafe, hcheck]
  rw [execCheckerFault, if_neg hgo]

theorem exec_comparatorSelfTest (b : Bool) :
    exec (.comparatorSelfTest b) s = .next (if b = true then s else raiseDegraded 1 s) := by
  change execComparatorSelfTest b s = _
  cases b <;> simp [execComparatorSelfTest, hloaded, hsafe, hcheck]

end

/-- While Onyx restarts the degraded lockstep is recorded later. -/
theorem raiseDegraded_of_rom (c : Nat) {t : State} (h : t.onyx.phase = .rom) :
    (raiseDegraded c t).onyx = { t.onyx with lateDegraded := some (t.onyx.lateDegraded.getD c) } := by
  have hdown : onyxUp t = false := by rw [onyxUp, h]; rfl
  rw [raiseDegraded, hdown, if_neg Bool.false_ne_true]

/-! ### The image check (R479) -/

theorem exec_onyxRestartImageCheck {s : State} (hloaded : loaded s = true) (hrom : s.onyx.phase = .rom) (kept : RetainedRead) (f1 f2 : Bool) :
    exec (.onyxRestartImageCheck kept f1 f2) s = .next (
      if kept.image && retainedMatches s then rebuildFrom 1 kept.bad s
      else if flashAgain f1 s || flashAgain f2 s then
        rebuildFrom 2 kept.bad (wr hbVer (slotImage s s.boot.hdr.usedslot).release.toNat (imageTake s.boot.hdr.usedslot (slotImage s s.boot.hdr.usedslot) s))
      else warmReset 3 none s) := by
  change execOnyxRestartImageCheck kept f1 f2 s = _
  have hgo : ¬ ((!loaded s) = true ∨ s.onyx.phase ≠ .rom) := by simp [hloaded, hrom]
  rw [execOnyxRestartImageCheck, if_neg hgo]

/-- A slot that is read without an error passes as its image does; one that is not does not. -/
theorem flashAgain_iff (f : Bool) (s : State) :
    flashAgain f s = true ↔ f = true ∧ imageCause s (slotImage s s.boot.hdr.usedslot) = 0 := by
  cases f with
  | true => exact decide_eq_true_iff.trans (iff_and_self.mpr fun _ => rfl)
  | false => simp [flashAgain, imageCause]

/-- The image loaded from a slot: its core part is what IMEM and the copy of DMEM hold. -/
theorem rebuildFrom_imageTake (bad : List Nat) (s : State) (u : Nat) (i : ImageRead) :
    let t := rebuildFrom 2 bad (wr hbVer i.release.toNat (imageTake u i s))
    t.onyx.phase = .rebuild ∧ t.onyx.masked = false ∧ t.onyx.image = 2 ∧ t.onyx.badRecs = bad ∧
      t.onyx.imem ++ t.onyx.dmem = slotPart s u 512 i.coreLen.toNat ∧
      t.gar = s.gar ∧ t.voice = s.voice ∧ t.fab.flight = s.fab.flight ∧ s.fab.wait <+: t.fab.wait :=
  ⟨rfl, rfl, rfl, rfl, List.take_append_drop _ _, rfl, rfl, rfl, List.prefix_rfl⟩

/-! ### The resumption (R480 to R483) -/

@[simp] theorem leaseRevoke_time (n : Nat) (s : State) : (leaseRevoke n s).time = s.time := by
  unfold leaseRevoke
  dsimp only
  split
  · rfl
  · rw [notify_time]
    rfl

@[simp] theorem revokeWhere_time (p : Lease → Bool) (s : State) : (revokeWhere p s).time = s.time := by
  refine foldl_keeps State.time (fun s n => ?_) _ s
  split
  · exact leaseRevoke_time n s
  · rfl

@[simp] theorem leaseGrant_time (n o c i d : Nat) (s : State) : (leaseGrant n o c i d s).time = s.time := by
  unfold leaseGrant
  dsimp only
  split
  · rw [claim_time]
    rfl
  · rfl

@[simp] theorem leaseGrant_onyx (n o c i d : Nat) (s : State) : (leaseGrant n o c i d s).onyx = s.onyx := by
  unfold leaseGrant
  dsimp only
  split
  · rw [claim_onyx]
    rfl
  · rfl

/-- Of Onyx's part the revocations of leases change no more than the list of events. -/
theorem revokeWhere_onyx (p : Lease → Bool) (s : State) :
    (revokeWhere p s).onyx.lateDegraded = s.onyx.lateDegraded ∧ (revokeWhere p s).onyx.faultAt = s.onyx.faultAt := by
  have hstep (u : State) (n : Nat) : (if p (lease u n) then leaseRevoke n u else u).onyx.lateDegraded = u.onyx.lateDegraded ∧
      (if p (lease u n) then leaseRevoke n u else u).onyx.faultAt = u.onyx.faultAt := by
    split
    · rw [(spares_leaseRevoke n u).onyx]
      exact ⟨rfl, rfl⟩
    · exact ⟨rfl, rfl⟩
  exact ⟨foldl_keeps (fun u : State => u.onyx.lateDegraded) (fun u n => (hstep u n).1) _ s,
    foldl_keeps (fun u : State => u.onyx.faultAt) (fun u n => (hstep u n).2) _ s⟩

/-- Without a late record, Onyx goes on from the grant of lease 0 to the replay. -/
theorem exec_onyxResume_of_no_late {s v : State} (hph : s.onyx.phase = .rebuild)
    (hv : leaseGrant 0 0 1 0 25000 (revokeWhere (fun l => l.state == 2)
      (drainAll (flushEvents { s with onyx := { s.onyx with phase := .replay } }))) = v) (hlate : v.onyx.lateDegraded = none) :
    exec .onyxResume s = .next (
      let u := lateHeartbeat (shiftDeadlines (now v - v.onyx.faultAt) (takeUes v))
      refresh (tpzDrain (if booted u = true ∨ u.boot.step = 11 ∨ u.boot.step = 12 then replayAll u.onyx.badRecs u else u))) := by
  change execOnyxResume s = _
  rw [execOnyxResume, if_neg (not_not_intro hph)]
  simp only [hv, hlate]

theorem flushEvents_nil {s : State} (h : s.onyx.events = []) : flushEvents s = s := by
  have heta : ({ s.onyx with events := [] } : OnyxSt) = s.onyx := by rw [← h]
  simp only [flushEvents, h, List.foldl_nil, heta]

theorem drainAll_nil {s : State} (h : s.fab.rej = []) : drainAll s = s := by
  simp only [drainAll, h, List.foldl_nil]

/-- With nothing recorded while Onyx restarted, no buffer to empty and no late record, the resumption is the rebuilding of the state alone. -/
theorem exec_onyxResume_quiet {s back v : State} (hback : { s with onyx := { s.onyx with phase := .replay } } = back)
    (hv : leaseGrant 0 0 1 0 25000 (revokeWhere (fun l => l.state == 2) back) = v) (hph : s.onyx.phase = .rebuild)
    (hev : s.onyx.events = []) (hrej : s.fab.rej = []) (hlate : s.onyx.lateDegraded = none) :
    exec .onyxResume s = .next (
      let u := lateHeartbeat (shiftDeadlines (now s - s.onyx.faultAt) (takeUes v))
      refresh (tpzDrain (if booted u = true ∨ u.boot.step = 11 ∨ u.boot.step = 12 then replayAll u.onyx.badRecs u else u))) := by
  obtain ⟨hlate', hfault'⟩ := revokeWhere_onyx (fun l => l.state == 2) back
  have hvlate : v.onyx.lateDegraded = none := by
    rw [← hv, leaseGrant_onyx, hlate', ← hback]
    exact hlate
  have hvfault : v.onyx.faultAt = s.onyx.faultAt := by rw [← hv, leaseGrant_onyx, hfault', ← hback]
  have hvnow : now v = now s := by
    rw [now, ← hv, leaseGrant_time, revokeWhere_time, ← hback]
    rfl
  have hbackev : back.onyx.events = [] := by rw [← hback]; exact hev
  have hbackrej : back.fab.rej = [] := by rw [← hback]; exact hrej
  rw [exec_onyxResume_of_no_late hph (by rw [hback, flushEvents_nil hbackev, drainAll_nil hbackrej, hv]) hvlate, hvnow, hvfault]

/-- Settles O28: each row under its condition, and what a restart leaves running. -/
theorem onyxRestartRule : Obligations.OnyxRestartRule := by
  intro s hloaded hsafe goesOn
  refine ⟨⟨_, exec_onyxWdog hloaded hsafe, ?_⟩, fun mac word => ⟨_, exec_onyxUe hloaded hsafe mac word, ?_⟩, ?_, ?_, ?_, ?_, ?_⟩
  · obtain ⟨fa, ev, honyx, hcode, hgo⟩ := restartOnyx_spec (code := 4) (by decide) 0 0 s
    exact ⟨congrArg OnyxSt.phase honyx, hcode, hgo⟩
  · obtain ⟨fa, ev, honyx, hcode, hgo⟩ := restartOnyx_spec (code := 5) (by decide) mac.toNat word.toNat s
    exact ⟨congrArg OnyxSt.phase honyx, hcode, hgo⟩
  · intro hcheck hmask group l
    have hrun := exec_onyxMismatch hloaded hsafe hcheck hmask group
    refine ⟨fun t0 hdone hsoon => ?_, fun hdone hfew => ?_, fun hdone hmany => ?_⟩
    · have hs : mismatchSoon s = true := by simp only [mismatchSoon, hdone, decide_eq_true hsoon]
      refine ⟨_, hrun.trans (congrArg Host.Outcome.next (if_pos hs)), enterSafe_pwr _⟩
    · have hs : ¬ mismatchSoon s = true := by simp only [mismatchSoon, hdone, Bool.false_eq_true, not_false_eq_true]
      obtain ⟨fa, ev, honyx, hcode, hgar, -⟩ := restartOnyx_spec (code := 1) (by decide) group.toNat l.length
        { s with onyx := { s.onyx with mismatches := l } }
      refine ⟨_, hrun.trans (congrArg Host.Outcome.next ((if_neg hs).trans (if_neg (Nat.not_le.mpr hfew)))), ?_, ?_, hcode, hgar⟩
      · exact congrArg OnyxSt.phase honyx
      · exact congrArg OnyxSt.mismatches honyx
    · have hs : ¬ mismatchSoon s = true := by simp only [mismatchSoon, hdone, Bool.false_eq_true, not_false_eq_true]
      exact hrun.trans (congrArg Host.Outcome.next ((if_neg hs).trans (if_pos hmany)))
  · intro hcheck stage l
    have hrun := exec_checkerFault hloaded hsafe hcheck stage
    obtain ⟨fa, ev, honyx, hcode, -⟩ := restartOnyx_spec (code := 2) (by decide) stage.toNat l.length
      { s with onyx := { s.onyx with checkers := l, masked := true } }
    refine ⟨fun hfew => ⟨_, hrun.trans (congrArg Host.Outcome.next (if_neg (Nat.not_le.mpr hfew))), ?_, ?_, ?_, hcode⟩, fun hmany => ?_⟩
    · exact congrArg OnyxSt.phase honyx
    · exact congrArg OnyxSt.masked honyx
    · exact congrArg OnyxSt.checkers honyx
    · refine ⟨_, hrun.trans (congrArg Host.Outcome.next (if_pos hmany)), ?_⟩
      have hrom := congrArg OnyxSt.phase honyx
      have hraised := raiseDegraded_of_rom 2 hrom
      have hlate := congrArg OnyxSt.lateDegraded honyx
      exact ⟨(congrArg OnyxSt.phase hraised).trans hrom, (congrArg OnyxSt.lateDegraded hraised).trans (congrArg (fun o => some (o.getD 2)) hlate)⟩
  · intro hcheck
    have hrun := exec_comparatorSelfTest hloaded hsafe hcheck
    refine ⟨hrun true, fun hup => ?_, fun hdown => ?_⟩
    · exact (hrun false).trans (congrArg Host.Outcome.next (if_pos hup))
    · exact (hrun false).trans (congrArg Host.Outcome.next (if_neg (ne_true_of_eq_false hdown)))
  · intro hrom kept f1 f2 held slot good core
    have hrun := exec_onyxRestartImageCheck hloaded hrom kept f1 f2
    have hheld : (kept.image && retainedMatches s) = true ↔ held := by simp [held, retainedMatches]
    have hagain : (flashAgain f1 s || flashAgain f2 s) = true ↔ (f1 || f2) = true ∧ good := by
      rw [Bool.or_eq_true, flashAgain_iff, flashAgain_iff, ← or_and_right, Bool.or_eq_true]
    refine ⟨fun h => ?_, fun hno hread hgood => ?_, fun hno hbad => ?_⟩
    · rw [if_pos (hheld.mpr h)] at hrun
      exact hrun
    · rw [if_neg (fun h => hno (hheld.mp h)), if_pos (hagain.mpr ⟨hread, hgood⟩)] at hrun
      exact ⟨_, hrun, rebuildFrom_imageTake kept.bad s s.boot.hdr.usedslot slot⟩
    · have hfail : ¬ ((f1 || f2) = true ∧ good) := by
        rintro ⟨hread, hgood⟩
        rcases hbad with ⟨h1, h2⟩ | hbad
        · rw [h1, h2] at hread
          exact absurd hread (by decide)
        · exact hbad hgood
      rw [if_neg (fun h => hno (hheld.mp h)), if_neg (fun h => hfail (hagain.mp h))] at hrun
      exact hrun
  · intro hph hev hrej hlate
    exact exec_onyxResume_quiet rfl rfl hph hev hrej hlate

end Sys2Proof.Machine
end

section
/-! PROOFS. Ethernet reception and PAUSE (R313, R316 to R318, R323, R333). -/

namespace Sys2Proof.Machine

/-! ### Frames received (R323) -/

/-- The checks of R323 in order, for a frame of a port whose link is up. -/
theorem exec_ethFrameReceived {port : Fin 8} {f : EthFrame} {s : State} (hlink : linkOn s port.val = true) :
    exec (.ethFrameReceived port f) s = .next (
      if !f.fcsOk then bump (rxFcs port.val) s
      else if f.length < 64 then bump (rxRunt port.val) s
      else if rd s (ethMaxframe port.val) < f.length then bump (rxOversize port.val) s
      else if !tagsOrdered 0 (parsed s port.val f.tags) then bump (rxTagerr port.val) s
      else match f.prpSeq with
        | none => classify port.val f s
        | some q => match prpRx port.val f.srcMac q s with
          | none => (match pairOf s port.val with | some k => bump (prpDup k) s | none => s)
          | some s => classify port.val f s) := by
  change execEthFrameReceived port f s = _
  simp only [execEthFrameReceived, hlink, Bool.not_true, Bool.false_eq_true, if_false] <;> rfl

/-! ### PAUSE (R313, R316 to R318) -/

/-- A violation by a partner leaves the network and the registers as they are. -/
theorem violation_net (i o v a fl : Nat) (pa ev : List Byte) (s : State) : (violation i o v a fl pa ev s).net = s.net := by
  unfold violation
  dsimp only
  split
  · rfl
  · split
    · rfl
    · rw [pvlWrite, notify_net]

theorem violation_regs (i o v a fl : Nat) (pa ev : List Byte) (s : State) : (violation i o v a fl pa ev s).regs = s.regs := by
  unfold violation
  dsimp only
  split
  · rfl
  · split
    · rfl
    · rw [pvlWrite, notify_regs]

theorem ethP_of_net {s t : State} (h : t.net = s.net) (p : Nat) : ethP t p = ethP s p := by rw [ethP, ethP, h]

/-- The watchdog's start notes a time at its port, and changes neither the registers nor what waits there. -/
theorem wdStart_spec (p : Nat) (s : State) :
    (wdStart p s).regs = s.regs ∧ (ethP (wdStart p s) p).pauseUntil = (ethP s p).pauseUntil ∧ (ethP (wdStart p s) p).q = (ethP s p).q := by
  unfold wdStart
  dsimp only
  split
  · rw [ethP_setEth_same]
    exact ⟨rfl, rfl, rfl⟩
  · exact ⟨rfl, rfl, rfl⟩

theorem wdStart_of_not_paused {p : Nat} {s : State} (h : flag s (ethPaused p) = false) : wdStart p s = s := by
  simp [wdStart, h]

section
variable {port : Fin 8} {s : State} (hlink : linkOn s port.val = true)
include hlink

theorem exec_pauseFrame_discarded {op quanta : BitVec 16}
    (h : op ≠ 1 ∨ (!flag s (ethPauseRx port.val)) = true ∨ (ethP s port.val).holdoff.isSome = true) :
    exec (.pauseFrameReceived port op quanta) s =
      .next (setEth port.val { ethP s port.val with ctlDisc := satAdd 32 (ethP s port.val).ctlDisc 1 } s) := by
  change execPauseFrameReceived port op quanta s = _
  simp only [execPauseFrameReceived, hlink, Bool.not_true, Bool.false_eq_true, if_false, if_pos h]

variable (hrx : flag s (ethPauseRx port.val) = true) (hhold : (ethP s port.val).holdoff = none)
include hrx hhold

theorem exec_pauseFrame_taken (quanta : BitVec 16) : exec (.pauseFrameReceived port 1 quanta) s = .next (
    if quanta = 0 then wr (ethPaused port.val) 0 (setEth port.val { ethP s port.val with pauseUntil := none, wdSince := none } s)
    else wdStart port.val (wr (ethPaused port.val) 1 (setEth port.val { ethP s port.val with
      pauseUntil := some (now s + (quanta.toNat * 512 + ethMbps s port.val - 1) / ethMbps s port.val) } s))) := by
  change execPauseFrameReceived port 1 quanta s = _
  simp only [execPauseFrameReceived, hlink, hrx, hhold, Bool.not_true, Bool.false_eq_true, if_false, ne_eq, not_true_eq_false, Option.isSome_none, or_self]

end

theorem rd_wr_value {f : Fld} (x : Nat) (s : State) (hf : f.lo + f.w ≤ 32) (hx : x < 2 ^ f.w) : rd (wr f x s) f = x := by
  rw [rd_wr_same _ _ _ hf, Nat.mod_eq_of_lt hx]

theorem due_some {s : State} {u : Nat} (h : u ≤ now s) : due s (some u) = true := reached_iff.mpr h

theorem pauseTxUpd_time (p : Nat) (s : State) : (pauseTxUpd p s).time = s.time := by
  unfold pauseTxUpd
  dsimp only
  split
  · rfl
  · split <;> split <;> rfl

theorem exec_pauseExpiry {port : Fin 8} {s : State} {u : Nat} (hu : (ethP s port.val).pauseUntil = some u) (hdue : u ≤ now s) :
    exec (.pauseExpiry port) s =
      .next (wr (ethPaused port.val) 0 (setEth port.val { ethP s port.val with pauseUntil := none, wdSince := none } s)) := by
  change execPauseExpiry port s = _
  rw [execPauseExpiry, if_pos (by rw [hu]; exact due_some hdue)]

theorem exec_pauseHoldoffEnd {port : Fin 8} {s : State} {u : Nat} (hu : (ethP s port.val).holdoff = some u) (hdue : u ≤ now s) :
    exec (.pauseHoldoffEnd port) s = .next (wr (ethHoldoff port.val) 0 (setEth port.val { ethP s port.val with holdoff := none } s)) := by
  change execPauseHoldoffEnd port s = _
  rw [execPauseHoldoffEnd, if_pos (by rw [hu]; exact due_some hdue)]

/-- The watchdog breaks the pause: PAUSE is held off, the break counted and logged. -/
theorem exec_pauseWatchdogExpiry {port : Fin 8} {s : State} {since : Nat} (hpaused : flag s (ethPaused port.val) = true)
    (hsince : (ethP s port.val).wdSince = some since) (hdue : since + rd s (ethPauseWd port.val) * 1000 ≤ now s) :
    exec (.pauseWatchdogExpiry port) s = .next (violation 1 port.val 0x0102 2 0xFFFF [] []
      (wr (ethPaused port.val) 0 (wr (ethHoldoff port.val) 1 (wr (ethBreak port.val) 1 (bump (pauseBreak port.val)
        (setEth port.val { ethP s port.val with
          pauseUntil := none, wdSince := none, holdoff := some (now s + 4 * (rd s (ethPauseWd port.val) * 1000)) } s)))))) := by
  change execPauseWatchdogExpiry port s = _
  rw [execPauseWatchdogExpiry, if_pos ⟨hpaused, by rw [hsince]; exact due_some hdue⟩]

theorem exec_pauseRefresh {port : Fin 8} {s t : State} {u : Nat} (ht : pauseTxUpd port.val s = t) (hu : (ethP t port.val).xoff = some u)
    (hdue : u ≤ now s) :
    exec (.pauseRefresh port) s = .next (setEth port.val { ethP t port.val with xoff := some (now s + halfPause t port.val) } t) := by
  have hnow : now t = now s := by rw [now, ← ht, pauseTxUpd_time]; rfl
  change execPauseRefresh port s = _
  rw [execPauseRefresh, ht, if_pos (by rw [hu]; exact due_some (hnow ▸ hdue)), hnow]

/-- The frames of a port whose link is up, in the order of the checks. -/
theorem ethFrameReceived_spec {port : Fin 8} {s : State} (hlink : linkOn s port.val = true) (f : EthFrame) :
    (f.fcsOk = false → exec (.ethFrameReceived port f) s = .next (bump (rxFcs port.val) s)) ∧
      (f.fcsOk = true → f.length < 64 → exec (.ethFrameReceived port f) s = .next (bump (rxRunt port.val) s)) ∧
      (f.fcsOk = true → 64 ≤ f.length → rd s (ethMaxframe port.val) < f.length →
        exec (.ethFrameReceived port f) s = .next (bump (rxOversize port.val) s)) ∧
      (f.fcsOk = true → 64 ≤ f.length → f.length ≤ rd s (ethMaxframe port.val) → tagsOrdered 0 (parsed s port.val f.tags) = false →
        exec (.ethFrameReceived port f) s = .next (bump (rxTagerr port.val) s)) := by
  have hrun := exec_ethFrameReceived (f := f) hlink
  refine ⟨fun hfcs => ?_, fun hfcs hrunt => ?_, fun hfcs hlen hover => ?_, fun hfcs hlen hmax ho => ?_⟩
  · rw [hrun, if_pos (by simp [hfcs])]
  all_goals rw [hrun, if_neg (by simp [hfcs])]
  · rw [if_pos hrunt]
  all_goals rw [if_neg (Nat.not_lt.mpr hlen)]
  · rw [if_pos hover]
  · rw [if_neg (Nat.not_lt.mpr hmax), if_pos (by simp [ho])]

/-- A frame that passes the checks is classified, unless it is a pair's duplicate. -/
theorem ethFrameReceived_ordered {port : Fin 8} {s : State} (hlink : linkOn s port.val = true) {f : EthFrame} (hfcs : f.fcsOk = true)
    (hlen : 64 ≤ f.length) (hmax : f.length ≤ rd s (ethMaxframe port.val)) (ho : tagsOrdered 0 (parsed s port.val f.tags) = true) :
    exec (.ethFrameReceived port f) s = .next (match f.prpSeq with
      | none => classify port.val f s
      | some q => match prpRx port.val f.srcMac q s with
        | none => (match pairOf s port.val with | some k => bump (prpDup k) s | none => s)
        | some s => classify port.val f s) := by
  rw [exec_ethFrameReceived hlink, if_neg (by simp [hfcs]), if_neg (Nat.not_lt.mpr hlen), if_neg (Nat.not_lt.mpr hmax), if_neg (by simp [ho])]

/-- Settles O30: the checks of a frame in order, a PAUSE frame by what it says, and the four rows of the pause's ends. -/
theorem ethReceptionRule : Obligations.EthReceptionRule := by
  intro port s p v
  refine ⟨fun hlink f => ?_, fun hlink hrx hhold => ⟨?_, fun quanta hq => ?_, fun op quanta hop => ?_⟩, fun hlink hoff op quanta => ?_,
    fun u => exec_pauseExpiry, fun since hpaused hsince hdue => ?_, fun u => exec_pauseHoldoffEnd, fun u => exec_pauseRefresh rfl⟩
  · obtain ⟨hfcs, hrunt, hover, htags⟩ := ethFrameReceived_spec hlink f
    refine ⟨hfcs, hrunt, hover, fun h1 h2 h3 => ?_⟩
    intro ordered
    have hrun (ho : ordered = true) := ethFrameReceived_ordered hlink h1 h2 h3 ho
    refine ⟨htags h1 h2 h3, fun ho hq => ?_, fun ho q hq => ⟨fun t ht => ?_, fun k hk hdup => ?_⟩⟩
    · rw [Obl.Runs, hrun ho, hq]
    · rw [Obl.Runs, hrun ho, hq]
      simp only [show prpRx port.val f.srcMac q s = some t from ht] <;> rfl
    · rw [Obl.Runs, hrun ho, hq]
      simp only [show prpRx port.val f.srcMac q s = none from hdup, show pairOf s port.val = some k from hk]
  · refine ⟨_, exec_pauseFrame_taken hlink hrx hhold 0, ?_⟩
    rw [if_pos rfl]
    refine ⟨rd_wr_value _ _ (Nat.le_of_ble_eq_true rfl) (Nat.le_of_ble_eq_true rfl), ?_⟩
    rw [ethP_of_net (wr_net ..), ethP_setEth_same]
    exact ⟨rfl, rfl, rfl⟩
  · refine ⟨_, exec_pauseFrame_taken hlink hrx hhold quanta, ?_⟩
    rw [if_neg hq]
    obtain ⟨hregs, huntil, hqueue⟩ := wdStart_spec port.val (wr (ethPaused port.val) 1 (setEth port.val { ethP s port.val with
      pauseUntil := some (now s + (quanta.toNat * 512 + ethMbps s port.val - 1) / ethMbps s port.val) } s))
    rw [rd_congr _ _ _ hregs, huntil, hqueue, ethP_of_net (wr_net ..), ethP_setEth_same]
    exact ⟨rd_wr_value _ _ (Nat.le_of_ble_eq_true rfl) (Nat.le_of_ble_eq_true rfl), rfl, rfl⟩
  · exact exec_pauseFrame_discarded hlink (.inl hop)
  · exact exec_pauseFrame_discarded hlink (.inr (hoff.imp (fun h => by rw [h]; rfl) (fun h => Option.isSome_iff_ne_none.mpr h)))
  · refine ⟨_, exec_pauseWatchdogExpiry hpaused hsince hdue, ?_⟩
    rw [rd_congr _ _ _ (violation_regs ..), rd_congr _ _ _ (violation_regs ..), ethP_of_net (violation_net ..), ethP_of_net (wr_net ..),
      ethP_of_net (wr_net ..), ethP_of_net (wr_net ..), ethP_of_net (bump_net ..), ethP_setEth_same,
      rd_wr_apart (f := ethPaused p) (g := ethHoldoff p) _ _ (by simp [apart, ethPaused, ethHoldoff, eth])]
    exact ⟨rd_wr_value _ _ (Nat.le_of_ble_eq_true rfl) (Nat.le_of_ble_eq_true rfl), rd_wr_value _ _ (Nat.le_of_ble_eq_true rfl) (Nat.le_of_ble_eq_true rfl), rfl, rfl⟩

end Sys2Proof.Machine
end

section
/-! PROOFS. Ethernet links and transmission (R310, R312, R338 to R341, R496). -/

namespace Sys2Proof.Machine

/-! ### The link (R338 to R341) -/

/-- The state in which a link has come up, before the port's own state follows. -/
def linkUpNoted (p : Nat) (speed : BitVec 2) (s : State) : State :=
  notify 3 (p + 0x1000000) 0 (wr (ethSpeed p) (if rd s (ethMode p) = 2 then speed.toNat else 0) (wr (ethLink p) 1 s))

theorem exec_linkUp {port : Fin 8} {speed : BitVec 2} {s u : State} (hu : linkUpNoted port.val speed s = u) (hdom : domOn s 4 = true)
    (hen : flag s (ethEn port.val) = true) (hforce : flag s (ethForceDown port.val) = false) (hlink : flag s (ethLink port.val) = false)
    (hpll : s.onyx.degraded.contains (0x31, 9) = false) :
    exec (.linkUp port speed) s = .next (
      if ethSt u port.val = 0 ∨ ethSt u port.val = 2 then finishWait (.link port.val) stOk [1] (enterUp port.val u)
      else if ethSt u port.val = 3 ∨ ethSt u port.val = 5 then finishWait (.link port.val) stOk [1]
        (setEth port.val { ethP u port.val with settleUntil := some (now u + rd u (ethSettle port.val) * 1000) } (wr (ethState port.val) 4 u))
      else u) := by
  subst hu
  change execLinkUp port speed s = _
  have hgo : ¬ ((!domOn s 4) = true ∨ (!flag s (ethEn port.val)) = true ∨ flag s (ethForceDown port.val) = true ∨
      flag s (ethLink port.val) = true ∨ s.onyx.degraded.contains (0x31, 9) = true) := by
    rw [hdom, hen, hforce, hlink, hpll]
    simp
  rw [execLinkUp, if_neg hgo]
  rfl

theorem exec_linkDown {port : Fin 8} {s : State} (h : flag s (ethLink port.val) = true) :
    exec (.linkDown port) s = .next (linkLoss port.val s) := by
  change execLinkDown port s = _
  rw [execLinkDown, if_pos h]

theorem exec_holdTimeEnd {port : Fin 8} {s : State} {u : Nat} (hst : ethSt s port.val = 2) (hu : (ethP s port.val).holdUntil = some u)
    (hdue : u ≤ now s) (hup : onyxUp s = true) : exec (.holdTimeEnd port) s = .next (holdEnd port.val s) := by
  change execHoldTimeEnd port s = _
  rw [execHoldTimeEnd, if_pos ⟨hst, by rw [hu]; exact due_some hdue, hup⟩]

theorem exec_holdTimeEnd_of_onyx_down {port : Fin 8} {s : State} (hup : onyxUp s = false) : exec (.holdTimeEnd port) s = .next s := by
  change execHoldTimeEnd port s = _
  rw [execHoldTimeEnd, if_neg (by simp [hup])]

theorem exec_settleEnd {port : Fin 8} {s : State} {u : Nat} (hst : ethSt s port.val = 4) (hu : (ethP s port.val).settleUntil = some u)
    (hdue : u ≤ now s) (hup : onyxUp s = true) : exec (.settleEnd port) s = .next (enterUp port.val s) := by
  change execSettleEnd port s = _
  rw [execSettleEnd, if_pos ⟨hst, by rw [hu]; exact due_some hdue, hup⟩]

/-! ### The age limit (R340) -/

/-- Is an item too old for a port whose limit is `lim` µs? Only voice ages. -/
def aged (t lim : Nat) (q : QItem) : Bool := q.voice.isSome && decide (q.at' + lim ≤ t)

/-- What stays of a port's queues at the age limit. -/
def youngOnly (t lim : Nat) : Tbl (List QItem) → Tbl (List QItem) := tblMap (fun _ l => l.filter (fun q => !aged t lim q))

theorem agedSplit_eq (t lim : Nat) (l : List QItem) : agedSplit t lim l = (l.filter (aged t lim), l.filter (fun q => !aged t lim q)) :=
  List.partition_eq_filter_filter ..

theorem mem_tblMap {α β : Type} {f : Nat → α → β} {l : Tbl α} {e : Nat × β} (h : e ∈ tblMap f l) : ∃ d ∈ l, e = (d.1, f d.1 d.2) := by
  induction l with
  | nil => exact absurd h (List.not_mem_nil)
  | cons d l ih =>
    rcases List.mem_cons.mp h with h | h
    · exact ⟨d, List.mem_cons_self, h⟩
    · obtain ⟨d', hd', he⟩ := ih h
      exact ⟨d', List.mem_cons_of_mem _ hd', he⟩

theorem tblMap_id_of {α : Type} {f : Nat → α → α} {l : Tbl α} (h : ∀ d ∈ l, f d.1 d.2 = d.2) : tblMap f l = l := by
  induction l with
  | nil => rfl
  | cons d l ih =>
    rw [tblMap, h d List.mem_cons_self, ih (fun d' hd' => h d' (List.mem_cons_of_mem _ hd'))]

theorem not_aged_of_mem_youngOnly {t lim : Nat} {l : Tbl (List QItem)} {e : Nat × List QItem} (he : e ∈ youngOnly t lim l) {q : QItem}
    (hq : q ∈ e.2) (hv : q.voice.isSome = true) : t < q.at' + lim := by
  obtain ⟨d, -, rfl⟩ := mem_tblMap he
  have := (List.mem_filter.mp hq).2
  simp only [aged, hv, Bool.true_and, Bool.not_eq_true', decide_eq_false_iff_not] at this
  omega

theorem not_aged_iff {t lim : Nat} {q : QItem} : aged t lim q = false ↔ (q.voice.isSome = true → t < q.at' + lim) := by
  cases hv : q.voice.isSome <;> simp [aged, hv]

theorem youngOnly_of_young {t lim : Nat} {l : Tbl (List QItem)} (h : ∀ e ∈ l, ∀ q ∈ e.2, q.voice.isSome = true → t < q.at' + lim) :
    youngOnly t lim l = l := by
  refine tblMap_id_of fun e he => List.filter_eq_self.mpr fun q hq => ?_
  rw [not_aged_iff.mpr (h e he q hq)]
  rfl

/-- The aged items of a port's queues. -/
def agedOf (t lim : Nat) (l : Tbl (List QItem)) : List QItem := l.flatMap (fun e => e.2.filter (aged t lim))

theorem agedOf_of_young {t lim : Nat} {l : Tbl (List QItem)} (h : ∀ e ∈ l, ∀ q ∈ e.2, q.voice.isSome = true → t < q.at' + lim) :
    agedOf t lim l = [] := by
  refine List.flatMap_eq_nil_iff.mpr fun e he => List.filter_eq_nil_iff.mpr fun q hq => ?_
  rw [not_aged_iff.mpr (h e he q hq)]
  exact Bool.false_ne_true

theorem exec_heldAged (port : Fin 8) (s : State) :
    exec (.heldAged port) s =
      let lim := rd s (ethAge port.val) * 1000
      .next (pauseTxUpd port.val ((agedOf (now s) lim (ethP s port.val).q ++ agedOf (now s) lim (ethP s port.val).held).foldl
        (fun s q => lostAt port.val 4 56 q (bump (heldAged port.val) s))
        (setEth port.val { ethP s port.val with
          q := youngOnly (now s) lim (ethP s port.val).q, held := youngOnly (now s) lim (ethP s port.val).held } s))) := by
  change execHeldAged port s = _
  simp only [execHeldAged, agedSplit_eq] <;> rfl

theorem modFlow_ports (n : Nat) (f : Flow → Flow) (s : State) : (modFlow n f s).net.ports = s.net.ports := by
  unfold modFlow
  split <;> rfl

/-- Voice that is lost is counted at its channel and its flow: the ports stay. -/
theorem lostAt_ports (p reason off : Nat) (q : QItem) (s : State) : (lostAt p reason off q s).net.ports = s.net.ports := by
  have hchan (u : State) : (match q.voice with | some c => modChan c (chanLoss reason) u | none => u).net = u.net := by
    cases q.voice with
    | none => rfl
    | some c => exact modChan_net ..
  unfold lostAt voiceLost
  split
  · rfl
  · cases q.flow with
    | none => exact congrArg NetSt.ports (hchan s)
    | some n =>
      dsimp only
      split
      · exact congrArg NetSt.ports (hchan s)
      · exact (modFlow_ports ..).trans (congrArg NetSt.ports (hchan s))

/-- The pause of a sender changes when XOFF was last sent, not what waits at the port. -/
theorem pauseTxUpd_queues (p : Nat) (s : State) :
    (ethP (pauseTxUpd p s) p).q = (ethP s p).q ∧ (ethP (pauseTxUpd p s) p).held = (ethP s p).held := by
  have hset (x : Option Nat) : (ethP (setEth p { ethP s p with xoff := x } s) p).q = (ethP s p).q ∧
      (ethP (setEth p { ethP s p with xoff := x } s) p).held = (ethP s p).held := by
    rw [ethP_setEth_same]
    exact ⟨rfl, rfl⟩
  unfold pauseTxUpd
  dsimp only
  split
  · exact ⟨rfl, rfl⟩
  · split <;> split
    · exact hset _
    · exact ⟨rfl, rfl⟩
    · exact hset _
    · exact ⟨rfl, rfl⟩

theorem pauseTxUpd_of_off {p : Nat} {s : State} (h : flag s (ethPauseTx p) = false) : pauseTxUpd p s = s := by
  simp [pauseTxUpd, h]

/-- What aged items cost their channels and flows leaves the ports. -/
theorem foldl_lostAt_ports (p : Nat) (l : List QItem) (s : State) :
    (l.foldl (fun s q => lostAt p 4 56 q (bump (heldAged p) s)) s).net.ports = s.net.ports :=
  foldl_keeps (fun u : State => u.net.ports) (fun u q => by rw [lostAt_ports, bump_net]) l s

theorem ethP_of_ports {s t : State} (h : t.net.ports = s.net.ports) (p : Nat) : ethP t p = ethP s p := by rw [ethP, ethP, h]

/-- After the row no voice at the port is past the limit. -/
theorem heldAged_young (port : Fin 8) (s : State) :
    ∃ t, exec (.heldAged port) s = .next t ∧ ∀ e ∈ (ethP t port.val).q ++ (ethP t port.val).held, ∀ q ∈ e.2, q.voice.isSome = true →
      now s < q.at' + rd s (ethAge port.val) * 1000 := by
  refine ⟨_, exec_heldAged port s, fun e he q hq hv => ?_⟩
  rw [(pauseTxUpd_queues ..).1, (pauseTxUpd_queues ..).2, ethP_of_ports (foldl_lostAt_ports ..), ethP_setEth_same] at he
  rcases List.mem_append.mp he with he | he <;> exact not_aged_of_mem_youngOnly he hq hv

/-- Where nothing is past the limit the row leaves the port, the channels and the count. -/
theorem heldAged_of_young {port : Fin 8} {s : State} (hyoung : ∀ e ∈ (ethP s port.val).q ++ (ethP s port.val).held, ∀ q ∈ e.2,
      q.voice.isSome = true → now s < q.at' + rd s (ethAge port.val) * 1000) (hoff : flag s (ethPauseTx port.val) = false) :
    exec (.heldAged port) s = .next (setEth port.val (ethP s port.val) s) := by
  have hq : ∀ e ∈ (ethP s port.val).q, ∀ q ∈ e.2, q.voice.isSome = true → now s < q.at' + rd s (ethAge port.val) * 1000 :=
    fun e he => hyoung e (List.mem_append_left _ he)
  have hheld : ∀ e ∈ (ethP s port.val).held, ∀ q ∈ e.2, q.voice.isSome = true → now s < q.at' + rd s (ethAge port.val) * 1000 :=
    fun e he => hyoung e (List.mem_append_right _ he)
  rw [exec_heldAged]
  simp only [agedOf_of_young hq, agedOf_of_young hheld, youngOnly_of_young hq, youngOnly_of_young hheld, List.append_nil, List.foldl_nil]
  exact congrArg Host.Outcome.next (pauseTxUpd_of_off hoff)

/-! ### Transmission (R310, R312) -/

theorem exec_ethFrameTxStart {port : Fin 8} {s : State} (hdom : domOn s 4 = true) (hsafe : s.pwr.safe = false) (hst : ethSt s port.val = 1)
    (hsend : (ethP s port.val).sending = none) (hpause : flag s (ethPaused port.val) = false) :
    exec (.ethFrameTxStart port) s = .next (match firstClass (ethP s port.val).held with
      | some (c, q) => latM2w port.val q
          (setEth port.val { ethP s port.val with held := popClass c (ethP s port.val).held, sending := some (c, q), wdSince := none } s)
      | none => match firstClass (ethP s port.val).q with
        | some (c, q) => latM2w port.val q
            (setEth port.val { ethP s port.val with q := popClass c (ethP s port.val).q, sending := some (c, q), wdSince := none } s)
        | none => s) := by
  change execEthFrameTxStart port s = _
  have hgo : ¬ ((!domOn s 4) = true ∨ s.pwr.safe = true ∨ ethSt s port.val ≠ 1 ∨ (ethP s port.val).sending.isSome = true ∨
      flag s (ethPaused port.val) = true) := by
    rw [hdom, hsafe, hst, hsend, hpause]
    simp
  refine (congrArg Host.Outcome.next (if_neg hgo)).trans ?_
  rfl

theorem exec_ethFrameTxStart_of_paused {port : Fin 8} {s : State} (h : flag s (ethPaused port.val) = true) :
    exec (.ethFrameTxStart port) s = .next s := by
  change execEthFrameTxStart port s = _
  rw [execEthFrameTxStart, if_pos (.inr (.inr (.inr (.inr h))))]

/-- The port from which a frame came in has room again. -/
def freeIn (q : QItem) (s : State) : State := match q.inPort with | some i => pauseTxUpd i s | none => s

theorem modFlow_time (n : Nat) (f : Flow → Flow) (s : State) : (modFlow n f s).time = s.time := by
  unfold modFlow
  split <;> rfl

theorem exec_ethFrameTxEnd {port : Fin 8} {s : State} {c : Nat} {q : QItem} (hsend : (ethP s port.val).sending = some (c, q))
    (hpause : flag s (ethPaused port.val) = false) :
    exec (.ethFrameTxEnd port) s = .next (freeIn q (
      let sent := setEth port.val { ethP s port.val with sending := none } s
      match q.flow with
      | some n =>
        let t := flowBump n 4 sent
        if q.item.wh.assured then
          modFlow n (fun f => { f with out := f.out.map (fun m => if m.seq = q.item.wh.seq then { m with sentAt := now s } else m) }) t
        else t
      | none => sent)) := by
  have hwd : wdStart port.val (setEth port.val { ethP s port.val with sending := none } s) = setEth port.val { ethP s port.val with sending := none } s :=
    wdStart_of_not_paused hpause
  have hnow (n : Nat) : now (flowBump n 4 (setEth port.val { ethP s port.val with sending := none } s)) = now s := by
    rw [now, flowBump, modFlow_time]
    rfl
  change execEthFrameTxEnd port s = _
  simp only [execEthFrameTxEnd, hsend, hwd, freeIn]
  cases q.flow with
  | none => rfl
  | some n => simp only [hnow] <;> rfl

/-- Settles O31: each row of the link, of the age limit and of transmission under its conditions. -/
theorem ethLinkRule : Obligations.EthLinkRule := by
  intro port s p v
  refine ⟨fun speed hdom hen hforce hlink hpll => ?_, exec_linkDown, fun u => exec_holdTimeEnd, fun _ => exec_holdTimeEnd_of_onyx_down,
    fun u => exec_settleEnd, heldAged_young port s, fun hyoung hoff => ?_, fun c q hdom hsafe hst hsend hpause => ⟨fun hheld => ?_, fun hheld hq => ?_⟩,
    exec_ethFrameTxStart_of_paused, fun c q hsend hpause => ?_⟩
  · intro u
    have hrun := exec_linkUp (speed := speed) (u := u) rfl hdom hen hforce hlink hpll
    refine ⟨fun hst => hrun.trans (congrArg Host.Outcome.next (if_pos hst)), fun hst => ?_⟩
    have hno : ¬ (ethSt u p = 0 ∨ ethSt u p = 2) := by omega
    exact hrun.trans (congrArg Host.Outcome.next ((if_neg hno).trans (if_pos hst)))
  · exact ⟨_, heldAged_of_young hyoung hoff, ethP_setEth_same .., rfl, rfl⟩
  · rw [Obl.Runs, exec_ethFrameTxStart hdom hsafe hst hsend hpause, show firstClass (ethP s port.val).held = some (c, q) from hheld]
  · rw [Obl.Runs, exec_ethFrameTxStart hdom hsafe hst hsend hpause, show firstClass (ethP s port.val).held = none from hheld,
      show firstClass (ethP s port.val).q = some (c, q) from hq]
  · intro free sent
    have hrun := exec_ethFrameTxEnd hsend hpause
    refine ⟨fun hflow => ?_, fun n hflow hplain => ?_, fun n hflow hass => ?_⟩
    · rw [Obl.Runs, hrun, hflow]
      rfl
    · rw [Obl.Runs, hrun, hflow]
      simp only [hplain, Bool.false_eq_true, if_false] <;> rfl
    · rw [Obl.Runs, hrun, hflow]
      simp only [hass, if_true] <;> rfl

end Sys2Proof.Machine
end

section
/-! PROOFS. Assured messages and keys of a flow (R201, R202, R327 to R331, R333). -/

namespace Sys2Proof.Machine

section
variable {flow : BitVec 13} {f : Flow} {s : State} (hf : flow? s flow.toNat = some f) (hup : onyxUp s = true)

/-! ### Messages received (R201, R202) -/

theorem offerOf_seq (s : State) (f : Flow) (seq : BitVec 16) : (offerOf s f seq).seq = seq := by
  unfold offerOf
  cases h : f.offers.find? (fun o => o.seq == seq) with
  | none => rfl
  | some o => exact eq_of_beq (List.find?_some h :)

theorem modFlow_of_flow {n : Nat} {f : Flow} {s : State} (hf : flow? s n = some f) (g : Flow → Flow) : modFlow n g s = setFlow n (g f) s := by
  simp only [modFlow, hf]

include hf hup

/-- What the entry of a message decides: the acknowledgement to send, if any, and the state. -/
theorem exec_assuredMessageReceived {ingress : BitVec 8} {seq : BitVec 16} {pay : List Byte} (hass : fAssured f = true)
    (hhib : s.pwr.hib = .awake) (htail : s.ledger.tail = none) (hlo : 0x40 ≤ ingress.toNat) (hhi : ingress.toNat ≤ 0x47)
    {a : Option (BitVec 16)} {t : State}
    (hin : assuredIn flow.toNat ingress.toNat (offerOf s f seq) pay 1 (ingress.toNat - 0x40) 0x0107 s = (a, t)) :
    exec (.assuredMessageReceived flow ingress seq pay) s =
      .next (match a with | some a => sendAck flow.toNat (ingress.toNat - 0x40) a t | none => t) := by
  change execAssuredMessageReceived flow ingress seq pay s = _
  have hgo : ¬ ((!onyxUp s) = true ∨ s.pwr.hib ≠ .awake ∨ s.ledger.tail.isSome = true ∨ ingress.toNat < 0x40 ∨ 0x47 < ingress.toNat) := by
    rw [hup, hhib, htail]
    simp
    omega
  simp only [execAssuredMessageReceived, if_neg hgo, hf, hass, Bool.not_true, Bool.false_eq_true, if_false, hin]
  cases a <;> rfl

omit hup in
/-- A message beyond the one expected is counted. -/
theorem assuredIn_later {ing iface port vcode : Nat} {o : Offer} {pay : List Byte} (hlater : later16 o.seq f.nextSeq = true) (hfew : f.later + 1 < 64) :
    assuredIn flow.toNat ing o pay iface port vcode s = (none, setFlow flow.toNat { flowBumpN 44 1 f with later := f.later + 1 } s) := by
  have hne : o.seq ≠ f.nextSeq := by
    intro he
    rw [later16_iff, he] at hlater
    simp at hlater
  have h64 : f.later + 1 ≠ 64 := Nat.ne_of_lt hfew
  simp only [assuredIn, hf, if_neg hne, hlater, if_true, if_neg h64]

omit hup in
/-- A message received before is acknowledged again. -/
theorem assuredIn_again {ing iface port vcode : Nat} {o : Offer} {pay : List Byte} (hne : o.seq ≠ f.nextSeq) (hlater : later16 o.seq f.nextSeq = false) :
    assuredIn flow.toNat ing o pay iface port vcode s = (some (f.nextSeq - 1), setFlow flow.toNat { f with later := 0 } s) := by
  simp only [assuredIn, hf, if_neg hne, hlater, Bool.false_eq_true, if_false]

omit hup in
/-- A message that the ledger does not take is counted, and not acknowledged. -/
theorem assuredIn_full {ing iface port vcode : Nat} {o : Offer} {pay : List Byte} (heq : o.seq = f.nextSeq)
    (hadm : admitted (if f.prio = 0 then 1 else 0) (pay.length / 1024 + 1) s = false) :
    assuredIn flow.toNat ing o pay iface port vcode s = (none, flowBump flow.toNat 52 (setFlow flow.toNat { f with later := 0 } s)) := by
  simp only [assuredIn, hf, if_pos heq, hadm, Bool.false_eq_true, if_false, modFlow_of_flow hf]

omit hup in
/-- A message expected that the ledger takes goes on, and is acknowledged. -/
theorem assuredIn_taken {ing iface port vcode i : Nat} {o : Offer} {seq : BitVec 16} {pay : List Byte} {t : State} (hseq : o.seq = seq)
    (heq : seq = f.nextSeq) (hadm : admitted (if f.prio = 0 then 1 else 0) (pay.length / 1024 + 1) s = true)
    (hled : ledgerAccept 3 0xFF (ing + flow.toNat * 0x100 + seq.toNat * 0x1000000) (pay.length / 1024 + 1) flow.toNat (crc32c pay) false false s =
      (some i, t)) :
    assuredIn flow.toNat ing o pay iface port vcode s =
      (some seq, relayMsg flow.toNat i o pay (modFlow flow.toNat (fun f => { f with nextSeq := f.nextSeq + 1, later := 0 }) t)) := by
  subst hseq
  simp only [assuredIn, hf, if_pos heq, hadm, if_true, hled]

/-! ### Acknowledgements and retries (R202) -/

omit hf in
theorem ackEvent_of_onyxUp (fl : Nat) (seq : BitVec 16) (credit path : Nat) : ackEvent fl seq credit path s = acked fl seq credit path s := by
  have hwait : eventsWait s = false := by
    simp only [onyxUp, Bool.or_eq_true, beq_iff_eq] at hup
    rcases hup with h | h <;> simp [eventsWait, h]
  rw [ackEvent, hwait, if_neg Bool.false_ne_true, if_pos hup]

omit hf in
theorem exec_acknowledgementFrameReceived {port : Fin 8} {a : AckFrame} {t : Sst} {n : Nat} (hlink : linkOn s port.val = true)
    (hsst : flag s (ethSst port.val) = true) (ht : tagSst a.tags = some t) (hver : t.ver = 1) (hr1 : t.rsvd1 = 0) (hr2 : t.rsvd2 = 0)
    (hflow : tblFirst (fun _ f => ackFor s port.val (tagVid a.tags) t.chan.toNat f) s.net.flows = some (n, f)) :
    exec (.acknowledgementFrameReceived port a) s = .next (
      if a.typ ≠ 1 ∨ a.rsvd ≠ 0 then violation 1 port.val 0x0106 1 n (be 6 a.srcMac.toNat) [] s
      else acked n t.seq a.credit.toNat
        (if 0x10 ≤ f.egress ∧ f.egress ≤ 0x13 ∧ rd s (prpB (f.egress - 0x10)) = port.val then 1 else 0) (eventNow 0x48 7 t.seq.toNat n s)) := by
  have hup' : onyxUp (eventNow 0x48 7 t.seq.toNat n s) = true := hup
  change execAcknowledgementFrameReceived port a s = _
  have hgo : ¬ ((!linkOn s port.val) = true ∨ (!flag s (ethSst port.val)) = true) := by simp [hlink, hsst]
  have hok : ¬ (t.ver ≠ 1 ∨ t.rsvd1 ≠ 0 ∨ t.rsvd2 ≠ 0) := by simp [hver, hr1, hr2]
  simp only [execAcknowledgementFrameReceived, if_neg hgo, ht, if_neg hok, hflow, ackEvent_of_onyxUp hup']

end

/-- The latest of times that are all past is past. -/
theorem foldl_max_le {l : List AMsg} {b : Nat} {x : Nat} (hx : x ≤ b) (h : ∀ m ∈ l, m.sentAt ≤ b) : l.foldl (fun t m => max t m.sentAt) x ≤ b := by
  induction l generalizing x with
  | nil => exact hx
  | cons m l ih => exact ih (max_le hx (h m List.mem_cons_self)) (fun m' hm => h m' (List.mem_cons_of_mem _ hm))

section
variable {flow : BitVec 13} {f : Flow} {s : State} (hf : flow? s flow.toNat = some f) (hup : onyxUp s = true)
  (hass : fAssured f = true) (hfall : f.fallen = none) (hpath : f.noPath = false) (hout : f.out.filter (·.sent) ≠ [])
  (hport : ∃ p ∈ egressPorts s f.egress, ethSt s p = 1) (hold : ∀ m ∈ f.out.filter (·.sent), m.sentAt + rd s netAretry * 1000 ≤ now s)
  (hfirst : rd s netAretry * 1000 ≤ now s)
include hf hup hass hfall hpath hout hport hold hfirst

omit hf in
/-- The messages whose acknowledgement is overdue may be sent again. -/
theorem retryDue : ¬ ((!fAssured f) = true ∨ f.fallen.isSome = true ∨ f.noPath = true ∨ (f.out.filter (·.sent)).isEmpty = true ∨
    (!(egressPorts s f.egress).any (fun p => decide (ethSt s p = 1))) = true ∨ (!onyxUp s) = true ∨
    now s < (f.out.filter (·.sent)).foldl (fun t m => max t m.sentAt) 0 + rd s netAretry * 1000) := by
  have hlast : (f.out.filter (·.sent)).foldl (fun t m => max t m.sentAt) 0 ≤ now s - rd s netAretry * 1000 :=
    foldl_max_le (Nat.zero_le _) (fun m hm => Nat.le_sub_of_add_le (hold m hm))
  have hup' : (egressPorts s f.egress).any (fun p => decide (ethSt s p = 1)) = true := by
    obtain ⟨p, hp, hst⟩ := hport
    exact List.any_eq_true.mpr ⟨p, hp, decide_eq_true hst⟩
  have hne : (f.out.filter (·.sent)).isEmpty = false := by simpa using hout
  rw [hass, hfall, hpath, hne, hup', hup]
  simp
  omega

theorem exec_assuredRetry_again (hfew : f.misses + 1 < 4) :
    exec (.assuredRetry flow) s = .next (
      let out := f.out.filter (·.sent)
      let g : Flow := { f with misses := f.misses + 1, out := f.out.map (fun m => if m.sent then { m with sentAt := now s } else m) }
      let u := out.foldl (fun s m => unqueue flow.toNat m.seq s) (setFlow flow.toNat (flowBumpN 40 out.length g) s)
      out.foldl (fun s m => emitMsg flow.toNat f m s) u) := by
  change execAssuredRetry flow s = _
  simp only [execAssuredRetry, hf, if_neg (retryDue hup hass hfall hpath hout hport hold hfirst), if_neg (Nat.not_le.mpr hfew)]

theorem exec_assuredRetry_lost (hmany : 4 ≤ f.misses + 1) (hnofall : s.plc.fall = []) :
    exec (.assuredRetry flow) s = .next (losePath flow.toNat s) := by
  have hnone (l : List Nat) : l.findSome? (fun _ => (none : Option (Nat × FallCfg))) = none := List.findSome?_eq_none_iff.mpr fun _ _ => rfl
  have hmany' : f.misses + 1 ≥ 4 := hmany
  change execAssuredRetry flow s = _
  simp only [execAssuredRetry, hf, if_neg (retryDue hup hass hfall hpath hout hport hold hfirst), if_pos hmany', fallOf, hnofall, tblFind, hnone]

end

/-! ### RTCP (R330, R331) -/

theorem keyEnd_of_running {n : Nat} {f : Flow} {s : State} (hf : flow? s n = some f) (h : f.stopped = false) : keyEnd n s = s := by
  simp only [keyEnd, hf, h, Bool.false_eq_true, if_false]

theorem keyEnd_net (n : Nat) (s : State) : (keyEnd n s).net = s.net := by
  unfold keyEnd
  cases flow? s n with
  | none => rfl
  | some f =>
    dsimp only
    split
    · exact violation_net ..
    · rfl

theorem foldl_onyxFrame_net (l : List Nat) (pr c : Nat) (b : Nat → List Byte) (s : State) :
    (l.foldl (fun s p => onyxFrame pr p c (b p) s) s).net = s.net :=
  foldl_keeps State.net (f := fun s p => onyxFrame pr p c (b p) s) (fun _ _ => rfl) l s

section
variable {flow : BitVec 13} {f : Flow} {s : State} (hf : flow? s flow.toNat = some f) (hup : onyxUp s = true)
include hf hup

section
variable {port : Fin 8} {onRtp auth : Bool} (hlink : linkOn s port.val = true) (hrtp : fRtp f = true)
include hlink hrtp

/-- RTCP of a flow, by its protection. -/
theorem exec_rtcpReceived :
    exec (.rtcpReceived port flow onRtp auth) s = .next (
      if fSrtp f && f.stopped then s
      else if fSrtp f && (!auth || f.rx.isNone) then flowBump flow.toNat 28 s
      else keyEnd flow.toNat (setFlow flow.toNat { (if fSrtp f then { f with rx := f.rx.map srtcpCount, stopped := srtcpFull f.rx } else f) with
        rtcpPort := some (if onRtp then 0 else 1) } s)) := by
  change execRtcpReceived port flow onRtp auth s = _
  have hgo : ¬ ((!linkOn s port.val) = true ∨ (!onyxUp s) = true) := by simp [hlink, hup]
  simp only [execRtcpReceived, if_neg hgo, hf, hrtp, Bool.not_true, Bool.false_eq_true, if_false]

/-- Plain RTCP names its port. -/
theorem exec_rtcpReceived_plain (hs : fSrtp f = false) (hstop : f.stopped = false) :
    exec (.rtcpReceived port flow onRtp auth) s =
      .next (setFlow flow.toNat { f with rtcpPort := some (if onRtp then 0 else 1) } s) := by
  rw [exec_rtcpReceived hf hup hlink hrtp]
  simp only [hs, Bool.false_and, Bool.false_eq_true, if_false]
  exact congrArg Host.Outcome.next (keyEnd_of_running (flow_setFlow_same ..) hstop)

/-- Protected RTCP that is authentic is counted under its key. -/
theorem exec_rtcpReceived_keyed {k : SrtpKey} (hs : fSrtp f = true) (hstop : f.stopped = false) (hauth : auth = true) (hk : f.rx = some k) :
    exec (.rtcpReceived port flow onRtp auth) s = .next (keyEnd flow.toNat (setFlow flow.toNat { f with
      rx := some (srtcpCount k), stopped := srtcpFull (some k), rtcpPort := some (if onRtp then 0 else 1) } s)) := by
  rw [exec_rtcpReceived hf hup hlink hrtp]
  simp only [hs, hstop, hauth, hk, Bool.and_false, Bool.not_true, Option.isNone_some, Bool.or_self, Bool.false_eq_true, if_false, if_true, Option.map_some]

theorem exec_rtcpReceived_failed (hs : fSrtp f = true) (hstop : f.stopped = false) (hbad : auth = false ∨ f.rx = none) :
    exec (.rtcpReceived port flow onRtp auth) s = .next (flowBump flow.toNat 28 s) := by
  have hno : (!auth || f.rx.isNone) = true := by
    rcases hbad with h | h <;> simp [h]
  rw [exec_rtcpReceived hf hup hlink hrtp]
  simp only [hs, hstop, hno, Bool.and_false, Bool.and_self, Bool.false_eq_true, if_false, if_true]

theorem exec_rtcpReceived_stopped (hs : fSrtp f = true) (hstop : f.stopped = true) :
    exec (.rtcpReceived port flow onRtp auth) s = .next s := by
  rw [exec_rtcpReceived hf hup hlink hrtp]
  simp only [hs, hstop, Bool.and_self, if_true]

end

/-- The next report is due after a free time of 2.5 to 7.5 s. -/
theorem exec_rtcpTimer_due (hrtp : fRtp f = true) (htemp : f.template ≠ none) (hdue : f.rtcpAt ≤ now s) (hs : fSrtp f = false) (hstop : f.stopped = false) :
    ∃ t, exec (.rtcpTimer flow) s = .next t ∧ ∃ g, flow? t flow.toNat = some g ∧ now s + 2500000 ≤ g.rtcpAt ∧ g.rtcpAt ≤ now s + 7500000 := by
  have hgo : ¬ ((!fRtp f) = true ∨ f.template.isNone = true ∨ (!onyxUp s) = true ∨ now s < f.rtcpAt ∨ (fSrtp f = true ∧ f.stopped = true)) := by
    rw [hrtp, hup, hs, hstop]
    simp [htemp, hdue]
  change ∃ t, execRtcpTimer flow s = .next t ∧ _
  simp only [execRtcpTimer, hf, if_neg hgo]
  simp only [hs, Bool.false_eq_true, if_false]
  refine ⟨_, rfl, { f with rtcpAt := now s + 2500000 + Config.freeNat (tookFree s).free % 5000001 }, ?_, ?_, ?_⟩
  · rw [flow?, foldl_onyxFrame_net, keyEnd_net]
    exact flow_setFlow_same ..
  · exact Nat.le_add_right _ _
  · have := Nat.mod_lt (Config.freeNat (tookFree s).free) (show 0 < 5000001 by decide)
    change now s + 2500000 + Config.freeNat (tookFree s).free % 5000001 ≤ _
    omega

omit hup in
theorem exec_oldKeyErase {k : SrtpKey} {u : Nat} (hold : f.rxOld = some (k, u)) :
    exec (.oldKeyErase flow) s = .next (if reached s u then setFlow flow.toNat { f with rxOld := none } s else s) := by
  change execOldKeyErase flow s = _
  simp only [execOldKeyErase, hf, hold]

omit hf in
theorem exec_prpSupervision {pair : Fin 4} (hen : flag s (prpEn pair.val) = true) (hdue : (tblGet s.net.pairs pair.val pairInit).supAt ≤ now s) :
    exec (.prpSupervision pair) s = .next ([rd s (prpA pair.val), rd s (prpB pair.val)].foldl (fun t p => onyxFrame 4 p 0 (freeBytes 60 s) t)
      { tookFree s with net := { s.net with pairs := tblSet pair.val { tblGet s.net.pairs pair.val pairInit with
        supAt := (tblGet s.net.pairs pair.val pairInit).supAt + 2000000 } s.net.pairs } }) := by
  have hgo : ¬ ((!flag s (prpEn pair.val)) = true ∨ (!onyxUp s) = true ∨ now s < (tblGet s.net.pairs pair.val pairInit).supAt) := by
    rw [hen, hup]
    simp [hdue]
  change execPrpSupervision pair s = _
  rw [execPrpSupervision, if_neg hgo]
  rfl

end

/-- Settles O32: messages received, acknowledgements, retries, RTCP, and the rows of keys and supervision. -/
theorem flowEventsRule : Obligations.FlowEventsRule := by
  intro flow f s hf hup n
  refine ⟨fun ingress seq pay hass hhib htail hlo hhi => ?_, fun port a t hlink hsst ht hver hr1 hr2 hflow => ?_, ?_, fun port onRtp auth hlink hrtp => ?_,
    exec_rtcpTimer_due hf hup, fun k u hold hdue => ?_, fun k u hold hearly => ?_, ?_⟩
  · have hrun {a t} := exec_assuredMessageReceived (pay := pay) (a := a) (t := t) (seq := seq) hf hup hass hhib htail hlo hhi
    have hseq := offerOf_seq s f seq
    refine ⟨fun hlater hfew => ?_, fun hne hlater => ?_, fun heq hadm => ?_, fun heq hadm i t hled => ?_⟩
    · exact hrun (assuredIn_later hf (by rw [hseq]; exact hlater) hfew)
    · exact hrun (assuredIn_again hf (by rw [hseq]; exact hne) (by rw [hseq]; exact hlater))
    · exact hrun (assuredIn_full hf (by rw [hseq]; exact heq) hadm)
    · exact hrun (assuredIn_taken hf hseq heq hadm hled)
  · have hrun := exec_acknowledgementFrameReceived hup hlink hsst ht hver hr1 hr2 hflow
    refine ⟨fun htyp hrsvd => hrun.trans (congrArg Host.Outcome.next (if_neg (by simp [htyp, hrsvd]))), fun hbad => ?_⟩
    exact hrun.trans (congrArg Host.Outcome.next (if_pos hbad))
  · intro out ports hass hfall hpath hout hport hold hfirst
    exact ⟨exec_assuredRetry_again hf hup hass hfall hpath hout hport hold hfirst, exec_assuredRetry_lost hf hup hass hfall hpath hout hport hold hfirst⟩
  · refine ⟨exec_rtcpReceived_plain hf hup hlink hrtp, fun k hs hstop hauth hk hroom => ?_, fun k hs hstop hauth hk hfull => ?_,
      exec_rtcpReceived_failed hf hup hlink hrtp, exec_rtcpReceived_stopped hf hup hlink hrtp⟩
    · have hnot : srtcpFull (some k) = false := decide_eq_false (Nat.not_le.mpr hroom)
      rw [Obl.Runs, exec_rtcpReceived_keyed hf hup hlink hrtp hs hstop hauth hk, keyEnd_of_running (flow_setFlow_same ..) hnot, hnot, ← hstop]
      rfl
    · have hfull' : srtcpFull (some k) = true := decide_eq_true hfull
      refine ⟨_, exec_rtcpReceived_keyed hf hup hlink hrtp hs hstop hauth hk, _, (congrArg (tblFind n) (congrArg NetSt.flows (keyEnd_net ..))).trans (flow_setFlow_same ..), hfull'⟩
  · exact (exec_oldKeyErase hf hold).trans (congrArg Host.Outcome.next (if_pos (reached_iff.mpr hdue)))
  · exact (exec_oldKeyErase hf hold).trans (congrArg Host.Outcome.next (if_neg (fun h => absurd (reached_iff.mp h) (Nat.not_le.mpr hearly))))
  · intro pair hen hdue pr u
    exact exec_prpSupervision hup hen hdue

end Sys2Proof.Machine
end

section
/-! PROOFS. Powerline reception (R370 to R375): gain, candidates, headers and payloads. -/

namespace Sys2Proof.Machine

/-! ### The gain (R370) -/

section
variable {port : Fin 4} {s : State} {rms : Int} {mags : List Nat}

/-- The gain that a block asks for. -/
def agcGain (pga : Nat) (rms : Int) (mags : List Nat) : Nat :=
  if -18 < rms ∨ 4 ≤ (mags.filter (fun m => decide (8191 ≤ m))).length then pga - 1 else if rms < -30 then min 7 (pga + 1) else pga

theorem exec_agcBlock (hon : plcOn s port.val = true) (hrx : (plcP s port.val).rx = .search) (hsend : (plcP s port.val).sending = none)
    {g : Nat} (hg : agcGain (plcP s port.val).pga rms mags = g) :
    exec (.agcBlock port rms mags) s = .next (
      let u := bumpN (plcCnt port.val 4) (blanked s port.val mags) s
      if g = (plcP s port.val).pga then u else pgaStep port.val (setPlc port.val { plcP s port.val with pga := g } u)) := by
  subst hg
  have hgo : (plcOn s port.val && decide ((plcP s port.val).rx = .search) && (plcP s port.val).sending.isNone) = true := by
    simp [hon, hrx, hsend]
  change execAgcBlock port rms mags s = _
  rw [execAgcBlock, if_pos hgo]
  rfl

theorem exec_agcBlock_busy (h : (plcP s port.val).rx ≠ .search ∨ (plcP s port.val).sending.isSome = true) :
    exec (.agcBlock port rms mags) s = .next s := by
  have hgo : ¬ (plcOn s port.val && decide ((plcP s port.val).rx = .search) && (plcP s port.val).sending.isNone) = true := by
    rcases h with h | h
    · simp [h]
    · simp [Option.isSome_iff_ne_none.mp h]
  change execAgcBlock port rms mags s = _
  rw [execAgcBlock, if_neg hgo]

end

/-! ### Candidates (R371, R372) -/

section
variable {port : Fin 4} {s : State} {corr : BitVec 8} {stamp : BitVec 64} {start : Nat}

/-- A candidate in the window of the search that no rejected one is near. -/
theorem exec_preambleCandidate (hon : plcOn s port.val = true) (hrx : (plcP s port.val).rx = .search) (hsend : (plcP s port.val).sending = none)
    (hcorr : rd s (plcDetthr port.val) ≤ corr.toNat) (hfrom : (plcP s port.val).searched ≤ start) (hage : sampleNow s ≤ start + 131072)
    (hdeaf : (plcP s port.val).deafTo ≤ stamp.toNat) (hfar : ∀ x ∈ (plcP s port.val).rejected, start + 128 < x ∨ x + 128 < start) (inv : Bool) :
    exec (.preambleCandidate port corr stamp inv start) s = .next (
      if inv then setPlc port.val { plcP s port.val with rx := .cand start stamp, searched := start, searchedAt := sampleNow s } s
      else rejectCand port.val start s) := by
  have hnear : (plcP s port.val).rejected.any (fun x => decide (x ≤ start + 128 ∧ start ≤ x + 128)) = false := by
    refine List.any_eq_false.mpr fun x hx => ?_
    have := hfar x hx
    simp only [decide_eq_true_eq, not_and_or]
    omega
  have hgo : ¬ ((!plcOn s port.val) = true ∨ (plcP s port.val).rx ≠ .search ∨ (plcP s port.val).sending.isSome = true ∨
      corr.toNat < rd s (plcDetthr port.val) ∨
      (plcP s port.val).rejected.any (fun x => decide (x ≤ start + 128 ∧ start ≤ x + 128)) = true) := by
    rw [hon, hrx, hsend, hnear]
    simp [hcorr]
  have hwin : ¬ (start < (plcP s port.val).searched ∨ start + 131072 < sampleNow s ∨ stamp.toNat < (plcP s port.val).deafTo) := by omega
  change execPreambleCandidate port corr stamp inv start s = _
  rw [execPreambleCandidate, if_neg hgo, if_neg hwin]

theorem exec_preambleCandidate_near {x : Nat} (hx : x ∈ (plcP s port.val).rejected) (h1 : x ≤ start + 128) (h2 : start ≤ x + 128) (inv : Bool) :
    exec (.preambleCandidate port corr stamp inv start) s = .next s := by
  have hnear : (plcP s port.val).rejected.any (fun x => decide (x ≤ start + 128 ∧ start ≤ x + 128)) = true :=
    List.any_eq_true.mpr ⟨x, hx, decide_eq_true ⟨h1, h2⟩⟩
  change execPreambleCandidate port corr stamp inv start s = _
  rw [execPreambleCandidate, if_pos (.inr (.inr (.inr (.inr hnear))))]

theorem exec_preambleCandidate_outside (inv : Bool)
    (h : stamp.toNat < (plcP s port.val).deafTo ∨ start < (plcP s port.val).searched ∨ corr.toNat < rd s (plcDetthr port.val)) :
    exec (.preambleCandidate port corr stamp inv start) s = .next s := by
  change execPreambleCandidate port corr stamp inv start s = _
  rw [execPreambleCandidate]
  split
  · rfl
  next hgo =>
    have hcorr : ¬ corr.toNat < rd s (plcDetthr port.val) := fun hc => hgo (.inr (.inr (.inr (.inl hc))))
    rw [if_pos (by omega)]

end

/-- After a false start the search goes on behind its sample. -/
theorem rejectCand_spec (n start : Nat) (s : State) :
    (plcP (rejectCand n start s) n).rx = .search ∧ start ∈ (plcP (rejectCand n start s) n).rejected ∧
      start + 1 ≤ (plcP (rejectCand n start s) n).searched := by
  unfold rejectCand searchFrom
  dsimp only
  rw [plcP_setPlc_same]
  refine ⟨rfl, ?_, le_max_left _ _⟩
  change start ∈ (plcP (setPlc n _ s) n).rejected
  rw [plcP_setPlc_same]
  exact List.mem_append_right _ (List.mem_singleton_self _)

/-! ### Headers and payloads (R373 to R375) -/

section
variable {port : Fin 4} {s : State}

/-- The header of a candidate, by its check and its fields. -/
theorem exec_headerDecoded (hon : plcOn s port.val = true) {start : Nat} {stamp : BitVec 64} (hrx : (plcP s port.val).rx = .cand start stamp)
    (ok : Bool) (hw : BitVec 32) : ∃ nsym, exec (.headerDecoded port ok hw) s = .next (
      if !ok then rejectCand port.val start (bump (plcCnt port.val 0) s)
      else if !hdrValid s port.val hw.toNat then plcViol port.val 0x0201 1 0xFFFF 0 0 (rejectCand port.val start (bump (plcCnt port.val 1) s))
      else setPlc port.val { plcP s port.val with rx := .frame (hw.toNat / 524288 % 2048 + 1) nsym (hw.toNat / 512 % 16) stamp } s) := by
  change ∃ nsym, execHeaderDecoded port ok hw s = _
  rw [execHeaderDecoded]
  dsimp only
  split
  next start' stamp' heq =>
    cases hrx.symm.trans heq
    rw [hon, if_neg (by decide)]
    exact ⟨_, rfl⟩
  next hno => exact (hno _ _ hrx).elim

variable {plen nsym ft : Nat} {stamp : BitVec 64}

/-- The state in which a payload has been counted, and the search goes on after the frame. -/
def payloadCounted (n nsym : Nat) (stamp : BitVec 64) (rsFail : Nat) (mags : List Nat) (s : State) : State :=
  searchFrom n (stamp.toNat * 1536 / 1000000 + 256 + 1152 * (1 + hdrSymbols (bandN s n) + nsym))
    (bumpN (plcCnt n 2) rsFail (bumpN (plcCnt n 4) (blanked s n mags) (setPlc n { plcP s n with rxStamp := stamp } s)))

theorem exec_payloadDecoded (hon : plcOn s port.val = true) (hrx : (plcP s port.val).rx = .frame plen nsym ft stamp) (rsFail : Nat)
    (mags : List Nat) (fr : PlcFrame) (body : List Byte) :
    exec (.payloadDecoded port rsFail mags fr body) s = .next (
      let u := payloadCounted port.val nsym stamp rsFail mags s
      if ft = 5 ∧ rsFail = 0 ∧ !fr.bad ∧ !(decide (1 ≤ leAt body 0 1 ∧ leAt body 0 1 ≤ 12)) then mgmtIn port.val fr false body id u
      else offer (mkItem 6 fr.hdr.prio.toNat 0x00 (0x50 + port.val) fr.hdr.lchan.toNat fr.hdr.seq stamp.toNat fr.hdr.settle
        (decide (rsFail ≠ 0) || fr.hdr.err) fr.hdr.last
        (if fr.bad then freeBytes plen u else padTo plen (linkPayload fr.hdr body))) (tookFree u)) := by
  change execPayloadDecoded port rsFail mags fr body s = _
  rw [execPayloadDecoded]
  dsimp only
  split
  next plen' nsym' ft' stamp' heq =>
    cases hrx.symm.trans heq
    rw [hon, if_neg (by decide)]
    rfl
  next hno => exact (hno _ _ _ _ hrx).elim

end

/-- Settles O33: each row of the receiver by the branches that its lemma names. -/
theorem plcReceptionRule : Obligations.PlcReceptionRule := by
  intro port s hon n v ended
  refine ⟨fun hrx hsend rms mags => ?_, fun h rms mags => exec_agcBlock_busy h, fun hrx hsend corr stamp start hcorr hfrom hage hdeaf => ⟨fun hfar => ?_, ?_⟩,
    fun corr stamp inv start => exec_preambleCandidate_outside inv, fun start u => rejectCand_spec n start u, fun start stamp hw hrx => ?_,
    fun plen nsym ft stamp hrx rsFail mags fr body hkind => ?_, fun plen nsym stamp hrx mags fr body hgood htyp => ?_⟩
  · intro full u
    refine ⟨fun hloud hpos => ?_, fun hquiet hfew htop => ?_, fun hlo hhi hfew => ?_⟩
    · have hne : v.pga - 1 ≠ v.pga := by omega
      exact (exec_agcBlock hon hrx hsend (if_pos hloud)).trans (congrArg Host.Outcome.next (if_neg hne))
    · have hgain : agcGain v.pga rms mags = v.pga + 1 := by
        rw [agcGain, if_neg (by omega), if_pos hquiet, Nat.min_eq_right (by omega)]
      exact (exec_agcBlock hon hrx hsend hgain).trans (congrArg Host.Outcome.next (if_neg (Nat.succ_ne_self _)))
    · have hgain : agcGain v.pga rms mags = v.pga := by
        rw [agcGain, if_neg (by omega), if_neg (by omega)]
      exact (exec_agcBlock hon hrx hsend hgain).trans (congrArg Host.Outcome.next (if_pos rfl))
  · have hrun := exec_preambleCandidate (corr := corr) hon hrx hsend hcorr hfrom hage hdeaf hfar
    exact ⟨hrun true, hrun false⟩
  · intro x hx h1 h2 inv
    exact exec_preambleCandidate_near hx h1 h2 inv
  · refine ⟨?_, fun hbad => ?_, fun hgood => ?_⟩
    · obtain ⟨nsym, hrun⟩ := exec_headerDecoded hon hrx false hw
      exact hrun
    · obtain ⟨nsym, hrun⟩ := exec_headerDecoded hon hrx true hw
      simp only [hbad, Bool.not_true, Bool.not_false, Bool.false_eq_true, if_false, if_true, n] at hrun
      exact hrun
    · obtain ⟨nsym, hrun⟩ := exec_headerDecoded hon hrx true hw
      simp only [hgood, Bool.not_true, Bool.false_eq_true, if_false, n] at hrun
      exact ⟨nsym, hrun⟩
  · intro u h item
    have hrun := exec_payloadDecoded hon hrx rsFail mags fr body
    have hno : ¬ (ft = 5 ∧ rsFail = 0 ∧ (!fr.bad) = true ∧ (!(decide (1 ≤ leAt body 0 1 ∧ leAt body 0 1 ≤ 12))) = true) := by
      rintro ⟨h5, h0, hb, hm⟩
      rcases hkind with h | h | h | h
      · exact h h5
      · omega
      · rw [h] at hb
        exact absurd hb (by decide)
      · rw [decide_eq_true h] at hm
        exact absurd hm (by decide)
    refine ⟨fun hok => ?_, fun hbad => ?_⟩
    · refine hrun.trans (congrArg Host.Outcome.next ((if_neg hno).trans ?_))
      rw [hok]
      rfl
    · refine hrun.trans (congrArg Host.Outcome.next ((if_neg hno).trans ?_))
      rw [hbad]
      rfl
  · have hmgmt : (5 : Nat) = 5 ∧ (0 : Nat) = 0 ∧ (!fr.bad) = true ∧ (!(decide (1 ≤ leAt body 0 1 ∧ leAt body 0 1 ≤ 12))) = true := by
      refine ⟨rfl, rfl, by rw [hgood]; rfl, ?_⟩
      rw [decide_eq_false (by omega)]
      rfl
    exact (exec_payloadDecoded hon hrx 0 mags fr body).trans (congrArg Host.Outcome.next (if_pos hmgmt))

end Sys2Proof.Machine
end

section
/-! PROOFS. Powerline superframes, frames sent and beacons (R218, R346 to R349, R354, R355, R380, R382, R387, R497). -/

namespace Sys2Proof.Machine

/-! ### Superframes (R346, R380) -/

/-- A frame that the superframe's end cuts short is queued again: of its port no more changes. -/
theorem truncTx_plcP (n : Nat) (s : State) : ∃ q, plcP (truncTx n s) n = { plcP s n with sending := none, txq := q } := by
  unfold truncTx
  dsimp only
  split
  next t ht => exact ⟨_, plcP_setPlc_same ..⟩
  next hnone => exact ⟨(plcP s n).txq, by rw [← hnone]⟩

theorem rd_truncTx {n : Nat} {f : Fld} (h : f.key ≠ (plcCnt n 8).key) (s : State) : rd (truncTx n s) f = rd s f := by
  unfold truncTx
  dsimp only
  split
  · exact rd_bump_other _ h
  · rfl

/-- The port at the start of a superframe at `t0`. -/
def sfPort (v : PlcPort) (t0 : BitVec 64) : PlcPort :=
  { v with
    tsf := some t0, silent := v.silent + 1, sinceRep := v.sinceRep + 1
    join := match v.join with | .listen k => .listen (k - 1) | .asked k => .asked (k - 1) | j => j
    emIdle := if v.emown = 0 ∨ v.emHeard then 0 else v.emIdle + 1, emHeard := false
    resignLeft := v.resignLeft.map (· - 1)
    quiet := if v.foreign.any (fun f => f.2.2.2) then 0 else v.quiet + 1
    foreign := (v.foreign.filter (fun f => f.2.2.2)).map (fun f => (f.1, f.2.1, f.2.2.1 + 1, false))
    txq := v.txq.map (fun u => { u with wait := u.wait - contSlots v }) }

/-- The state in which a superframe has begun, before a new slot map and Onyx's part. -/
def sfBegun (n : Nat) (t0 : BitVec 64) (s : State) : State :=
  let t := truncTx n s
  let u := wr (plcSfno n) (sfno t n + 1) (wr (plcNsf n) (nSf t n) (wr (plcNmin n) (nMin t n) t))
  installTones n (setPlc n (sfPort (plcP u n) t0) u)

theorem sfBegun_plcP (n : Nat) (t0 : BitVec 64) (s : State) :
    (plcP (sfBegun n t0 s) n).tsf = some t0 ∧ (plcP (sfBegun n t0 s) n).silent = (plcP s n).silent + 1 ∧
      (plcP (sfBegun n t0 s) n).sending = none := by
  obtain ⟨q, hq⟩ := truncTx_plcP n s
  unfold sfBegun
  dsimp only
  rw [installTones, modPlc, plcP_setPlc_same, plcP_setPlc_same]
  refine ⟨rfl, ?_, ?_⟩
  · change (plcP (truncTx n s) n).silent + 1 = _
    rw [hq]
  · change (plcP (truncTx n s) n).sending = _
    rw [hq]

theorem plcSfno_key_ne (n : Nat) : (plcSfno n).key ≠ (plcCnt n 8).key ∧ (plcState n).key ≠ (plcCnt n 8).key ∧
    (plcState n).key ≠ (plcSfno n).key ∧ (plcState n).key ≠ (plcNsf n).key ∧ (plcState n).key ≠ (plcNmin n).key := by
  simp only [plcSfno, plcState, plcCnt, plcNsf, plcNmin, plc, rk]
  omega

theorem rd_sfBegun (n : Nat) (t0 : BitVec 64) (s : State) :
    rd (sfBegun n t0 s) (plcSfno n) = (sfno s n + 1) % 4294967296 ∧ rd (sfBegun n t0 s) (plcState n) = rd s (plcState n) := by
  obtain ⟨hcnt, hcnt', hsf, hnsf, hnmin⟩ := plcSfno_key_ne n
  have hregs : (sfBegun n t0 s).regs = (wr (plcSfno n) (sfno (truncTx n s) n + 1)
      (wr (plcNsf n) (nSf (truncTx n s) n) (wr (plcNmin n) (nMin (truncTx n s) n) (truncTx n s)))).regs := rfl
  rw [rd_congr _ _ _ hregs, rd_congr _ _ _ hregs]
  refine ⟨?_, ?_⟩
  · rw [rd_wr_same _ _ _ (Nat.le_of_ble_eq_true rfl), sfno, rd_truncTx hcnt]
    rfl
  · rw [rd_wr_other _ _ _ _ hsf, rd_wr_other _ _ _ _ hnsf, rd_wr_other _ _ _ _ hnmin, rd_truncTx hcnt']

section
variable {port : Fin 4} {s : State} {t0 : BitVec 64} (hon : plcOn s port.val = true) (hst : rd s (plcState port.val) ≠ 0)
  (hstart : sfStart s port.val = some t0)
include hon hst hstart

/-- A superframe starts with the slot map it had, unless the next one is due. -/
theorem exec_superframeStart : exec (.superframeStart port) s = .next (
    let u := sfBegun port.val t0 s
    let t := match (plcP s port.val).next with
      | some (gen, at', m) =>
        if plcCoord u port.val ∧ at' ≤ sfno u port.val then finishWait (.plcMap port.val) stOk [] (installMap port.val gen m u) else u
      | none => u
    if onyxUp t then sfOnyx port.val t else t) := by
  have hgo : ¬ ((!plcOn s port.val) = true ∨ rd s (plcState port.val) = 0) := by simp [hon, hst]
  obtain ⟨q, hq⟩ := truncTx_plcP port.val s
  have hnext : (plcP (truncTx port.val s) port.val).next = (plcP s port.val).next := by rw [hq]
  change execSuperframeStart port s = _
  rw [execSuperframeStart, if_neg hgo, hstart, ← hnext]
  rfl

end

theorem exec_superframeStart_not_begun {port : Fin 4} {s : State} (hon : plcOn s port.val = true) (hst : rd s (plcState port.val) ≠ 0)
    (hstart : sfStart s port.val = none) : exec (.superframeStart port) s = .next s := by
  have hgo : ¬ ((!plcOn s port.val) = true ∨ rd s (plcState port.val) = 0) := by simp [hon, hst]
  change execSuperframeStart port s = _
  rw [execSuperframeStart, if_neg hgo, hstart]

/-! ### Calibration and the driver (R354, R355) -/

theorem exec_plcCalibrationDone {port : Fin 4} {s : State} (h : (plcP s port.val).calibrating = true) (v : Verdict) (rxd txd : BitVec 16) :
    exec (.plcCalibrationDone port v rxd txd) s = .next (match v with
      | .pass => finishWait (.plcCal port.val) stOk [] (undegrade 0x51 port.val (plcInService port.val rxd txd s))
      | .fail c _ => finishWait (.plcCal port.val) stFaulted [] (degrade 0x51 port.val (journal 0x51 (0x50 + port.val) 4 port.val c.toNat []
          (plcOut port.val (setPlc port.val { plcP s port.val with calibrating := false } s))))) := by
  have hgo : ¬ (!(plcP s port.val).calibrating) = true := by simp [h]
  change execPlcCalibrationDone port v rxd txd s = _
  cases v with
  | pass => exact congrArg Host.Outcome.next (if_neg hgo)
  | fail c d => exact congrArg Host.Outcome.next (if_neg hgo)

theorem exec_driverOverTemperature {port : Fin 4} {s : State} (h : flag s (plcEn port.val) = true) :
    exec (.driverOverTemperature port) s = .next (degrade 0x51 port.val (journal 0x51 (0x50 + port.val) 4 port.val 0 []
      (eventNow (0x50 + port.val) 9 port.val 0 (plcOut port.val s)))) := by
  change execDriverOverTemperature port s = _
  rw [execDriverOverTemperature, if_pos h]

/-! ### Frames sent (R218, R347, R382) -/

/-- The gain steps change registers alone. -/
theorem pgaStep_plc (n : Nat) (s : State) : (pgaStep n s).plc = s.plc := by
  refine foldl_keeps State.plc (fun s e => ?_) _ s
  split <;> rfl

/-- What a port sends: the frame of the slot `entry` of kind `ft`, of the bytes `p` under the header `h`. -/
def txOf (s : State) (n : Nat) (entry : BitVec 6) (mode : BitVec 3) (tmi : BitVec 4) (ilv : BitVec 6) (ft : BitVec 4) (codes : List Nat)
    (us : List PUnit) (h : LinkHdr) (p : List Byte) : PTx :=
  let hs := hdrSyms (bandN s n) (hdrWord mode.toNat tmi.toNat ft.toNat ilv.toNat (p.length - 1))
  { ft := ft.toNat, entry := entry.toNat, units := us, rxa := h.rxa.toNat, len := frameLen mode.toNat (bandN s n) (sumOf id codes) p.length, hdr := h
    cont := (contPlace (plcP s n) entry.toNat).isSome, level := 9 + rd s (plcTxlevel n), pre := preamblePhases (bandLo s n) (bandN s n)
    ref := refPhases (bandLo s n) (bandN s n), hdrSyms := hs
    paySyms := paySyms mode.toNat ilv.toNat (bandN s n) codes (hs.getLast?.getD []) p }

/-- The destination that the first unit of an assured frame leaves noted. -/
def finalsOf (v : PlcPort) (ft : Nat) (us : List PUnit) (h : LinkHdr) : Tbl Nat :=
  match us with
  | u :: _ => (match ft, u.flow with | 3, some fl => tblSet fl h.final.toNat v.finals | _, _ => v.finals)
  | [] => v.finals

/-- The state in which the frame is being sent. -/
def txBegun (n : Nat) (tx : PTx) (ft : Nat) (s : State) : State :=
  pgaStep n (setPlc n { plcP s n with
    sending := some tx, txq := tx.units.foldl (fun q u => removeFirst u q) (plcP s n).txq, rx := .search, pga := 0
    finals := finalsOf (plcP s n) ft tx.units tx.hdr } s)

theorem txBegun_plcP (n : Nat) (tx : PTx) (ft : Nat) (s : State) :
    (plcP (txBegun n tx ft s) n).sending = some tx ∧ (plcP (txBegun n tx ft s) n).rx = .search ∧ (plcP (txBegun n tx ft s) n).pga = 0 ∧
      (plcP (txBegun n tx ft s) n).txq = tx.units.foldl (fun q u => removeFirst u q) (plcP s n).txq := by
  have hplc (u : State) : plcP (pgaStep n u) n = plcP u n := by rw [plcP, pgaStep_plc]; rfl
  rw [txBegun, hplc, plcP_setPlc_same]
  exact ⟨rfl, rfl, rfl, rfl⟩

/-- The entry of the slot map that a frame names. -/
def slotEntry (v : PlcPort) (k : Nat) : Option MapEntry :=
  match v.map with | some m => m.entries[k]? | none => none

/-- When the slot of an entry begins; with no entry, the place `d`. -/
def slotBegin (e : Option MapEntry) (t0 d : Nat) : Nat :=
  match e with | some e => t0 + e.start * 750000 | none => d

section
variable {port : Fin 4} {s : State} {entry : BitVec 6} {mode : BitVec 3} {tmi : BitVec 4} {ilv : BitVec 6} {ft : BitVec 4} {hdr : LinkHdr}
  {body : List Byte} {l : Nat}
  (hon : plcOn s port.val = true) (hsafe : s.pwr.safe = false) (htsf : (plcP s port.val).tsf.isNone = false) (hsend : (plcP s port.val).sending = none)
  (hlease : (plcP s port.val).lease = some l) (h6 : rd s (plcState port.val) ≠ 6) (h4 : rd s (plcState port.val) ≠ 4) (hmode : mode.toNat ≤ 2)
  (htmi : mode = 0 ∨ tmi = 0) (huse : mayUse s port.val ft.toNat (slotEntry (plcP s port.val) entry.toNat) mode.toNat tmi.toNat = true)
include hon hsafe htsf hsend hmode htmi huse

theorem plcFrameTx_permitted : ¬ ((!plcOn s port.val) = true ∨ s.pwr.safe = true ∨ (plcP s port.val).tsf.isNone = true ∨
    (plcP s port.val).sending.isSome = true ∨ 2 < mode.toNat ∨ (mode ≠ 0 ∧ tmi ≠ 0) ∨
      (!mayUse s port.val ft.toNat (slotEntry (plcP s port.val) entry.toNat) mode.toNat tmi.toNat) = true) := by
  rw [hon, hsafe, htsf, hsend, huse]
  simp only [Bool.not_true, Bool.false_eq_true, Option.isSome_none, false_or, or_false, not_or, not_and]
  exact ⟨by omega, fun hm => not_not_intro (htmi.resolve_left hm)⟩

include hlease h6 h4

/-- A frame whose lease the gate turns away is not sent. -/
theorem exec_plcFrameTxStart_denied (hgate : gateOk s l (0x50 + port.val) (lease s l).epoch = false) :
    exec (.plcFrameTxStart port entry mode tmi ilv ft hdr body) s = .next (leaseDenied l s) := by
  have hheld : (!match (plcP s port.val).lease with | some m => gateOk s m (0x50 + port.val) (lease s m).epoch | none => false) = true := by
    rw [hlease]
    simp [hgate]
  refine (congrArg Host.Outcome.next ((if_neg (plcFrameTx_permitted hon hsafe htsf hsend hmode htmi huse)).trans
    ((if_neg fun h => h6 h.1).trans ((if_neg fun h => h4 h.1).trans (if_pos hheld))))).trans ?_
  rw [hlease]

/-- With the gate open a frame that can be coded, whose length, mode and place are right, is sent. -/
theorem exec_plcFrameTxStart (hgate : gateOk s l (0x50 + port.val) (lease s l).epoch = true) {codes : List Nat} {us : List PUnit} {b : List Byte}
    (hcodes : mapCodes s port.val (if mode = 0 then tmi.toNat else 0) = some codes)
    (hunits : let d := ((plcP s port.val).tsf.getD 0).toNat + txPos s port.val * 750000
      frameUnits s port.val ft.toNat hdr body d (slotBegin (slotEntry (plcP s port.val) entry.toNat) ((plcP s port.val).tsf.getD 0).toNat d)
        (contPlace (plcP s port.val) entry.toNat) = some (us, b)) :
    exec (.plcFrameTxStart port entry mode tmi ilv ft hdr body) s = .next (
      let e := slotEntry (plcP s port.val) entry.toNat
      let h := if ft.toNat = 0 then beaconHdr s port.val else unitHdr s port.val us hdr
      let p := linkPayload h b
      let bs := sumOf id codes
      let len := frameLen mode.toNat (bandN s port.val) bs p.length
      if p.length < 16 ∨ 2048 < p.length ∨ !modeOk s port.val e h.rxa.toNat mode.toNat tmi.toNat ∨
          !placeOk s port.val e len (regionNeed s port.val ft.toNat mode.toNat bs len b) then s
      else txBegun port.val (txOf s port.val entry mode tmi ilv ft codes us h p) ft.toNat s) := by
  have hheld : ¬ (!match (plcP s port.val).lease with | some m => gateOk s m (0x50 + port.val) (lease s m).epoch | none => false) = true := by
    rw [hlease]
    simp [hgate]
  refine (congrArg Host.Outcome.next ((if_neg (plcFrameTx_permitted hon hsafe htsf hsend hmode htmi huse)).trans
    ((if_neg fun h => h6 h.1).trans ((if_neg fun h => h4 h.1).trans (if_neg hheld))))).trans ?_
  refine congrArg Host.Outcome.next ?_
  split
  next codes' us' b' hc hu =>
    obtain rfl : codes' = codes := Option.some.inj (hc.symm.trans hcodes)
    obtain ⟨rfl, rfl⟩ : us' = us ∧ b' = b := Prod.mk.inj (Option.some.inj (hu.symm.trans hunits))
    rfl
  next hno => exact (hno codes us b hcodes hunits).elim

end

/-! ### The end of a frame (R349) -/

/-- The port after its frame `ft` ended at `quiet` less 20 µs. -/
def txEnded (s : State) (n : Nat) (ft : Nat) : PlcPort :=
  let v := plcP s n
  let quiet := (rtbNs s).toNat + 20000
  { v with sending := none, deafTo := quiet, searched := quiet * 1536 / 1000000, searchedAt := quiet * 1536 / 1000000
           emHeard := v.emHeard || (decide (ft = 1) && decide (v.emown = plcMe s n)) }

/-- The end of a frame that is neither assured data nor management, with or without the current limit reached. -/
theorem exec_plcFrameTxEnd {port : Fin 4} {s : State} {tx : PTx} (h : (plcP s port.val).sending = some tx) (h3 : tx.ft ≠ 3) (h5 : tx.ft ≠ 5)
    (limited : Bool) : exec (.plcFrameTxEnd port limited false) s = .next (
      let u := if limited then bump (plcCnt port.val 6) s else s
      setPlc port.val { txEnded s port.val tx.ft with
        deafTo := (rtbNs u).toNat + 20000, searched := ((rtbNs u).toNat + 20000) * 1536 / 1000000, searchedAt := ((rtbNs u).toNat + 20000) * 1536 / 1000000
        emHeard := (plcP s port.val).emHeard || (decide (tx.ft = 1) && decide ((plcP s port.val).emown = plcMe u port.val)) } u) := by
  change execPlcFrameTxEnd port limited false s = _
  refine congrArg Host.Outcome.next ?_
  dsimp only
  split
  next hnone => cases h.symm.trans hnone
  next t ht =>
    cases h.symm.trans ht
    split
    next heq _ => exact (h3 heq).elim
    next heq _ => exact (h5 heq).elim
    next => rfl

/-! ### Beacons (R387, R497) -/

/-- What a beacon of the node `tx` of the own net leaves noted of it. -/
def nbrNoted (n tx : Nat) (b : Beacon) (s : State) : State :=
  modPlc n (fun v => { v with nbrs := tblSet tx { (tblGet v.nbrs tx nbrInit) with bcost := some b.cost.toNat, bfrom := sfno s n, hops := b.hops.toNat } v.nbrs }) s

section
variable {port : Fin 4} {hdr : LinkHdr} {b : Beacon} {stamp : BitVec 64} {s : State} (hon : plcOn s port.val = true) (hst : rd s (plcState port.val) ≠ 0)
include hon hst

/-- A beacon of the own net sets the superframe of a node whose parent sends it; of another node it only ends the silence. -/
theorem exec_beaconReceived_own (hnet : hdr.netid.toNat = plcMyNet s port.val)
    (hcoord : plcCoord (nbrNoted port.val hdr.txa.toNat b (hear port.val hdr.txa.toNat s)) port.val = false) :
    exec (.beaconReceived port hdr b stamp) s = .next (
      let u := nbrNoted port.val hdr.txa.toNat b (hear port.val hdr.txa.toNat s)
      if pickParent (plcP u port.val) = some hdr.txa.toNat then fromParent port.val hdr.txa.toNat b stamp u
      else setPlc port.val { plcP u port.val with silent := 0 } u) := by
  have hgo : ¬ ((!plcOn s port.val) = true ∨ rd s (plcState port.val) = 0) := by simp [hon, hst]
  exact congrArg Host.Outcome.next ((if_neg hgo).trans ((if_neg (not_not_intro hnet)).trans (if_neg (ne_true_of_eq_false hcoord))))

/-- A beacon of another net is noted; where the port has not joined, that is all. -/
theorem exec_beaconReceived_foreign (hst3 : rd s (plcState port.val) ≠ 3) (hnet : hdr.netid.toNat ≠ plcMyNet s port.val) :
    exec (.beaconReceived port hdr b stamp) s = .next (foreignHeard port.val hdr.netid.toNat hdr.txa.toNat s) := by
  have hgo : ¬ ((!plcOn s port.val) = true ∨ rd s (plcState port.val) = 0) := by simp [hon, hst]
  exact congrArg Host.Outcome.next ((if_neg hgo).trans ((if_pos hnet).trans (if_neg fun h => hst3 h.1)))

end

/-- Settles O34: superframes by `exec_superframeStart`; frames by `exec_plcFrameTxStart`, one clause for the gate's refusal and one for each answer of
the slot's place; beacons by the net they name. -/
theorem plcSuperframeRule : Obligations.PlcSuperframeRule := by
  unfold Obligations.PlcSuperframeRule
  intro port s
  refine ⟨fun hcal rxd txd c d => ⟨exec_plcCalibrationDone hcal .pass rxd txd, exec_plcCalibrationDone hcal (.fail c d) rxd txd⟩,
    exec_driverOverTemperature, ?_, exec_superframeStart_not_begun, ?_, ?_, ?_, ?_, ?_⟩
  case refine_1 =>
    intro t0 hon hst hstart
    obtain ⟨htsf, hsil, hsend⟩ := sfBegun_plcP port.val t0 s
    obtain ⟨hsf, hstate⟩ := rd_sfBegun port.val t0 s
    refine ⟨fun hnext => ⟨sfBegun port.val t0 s, ?_, hsf, htsf, hsil, hsend⟩, fun gen at' m hnext hcoord hat => ⟨sfBegun port.val t0 s, hsf, htsf, ?_⟩⟩
    · refine (exec_superframeStart hon hst hstart).trans ?_
      rw [hnext]
    · have hc : plcCoord (sfBegun port.val t0 s) port.val = true := by
        rw [plcCoord, hstate]
        exact hcoord
      have hgo : plcCoord (sfBegun port.val t0 s) port.val = true ∧ at' ≤ sfno (sfBegun port.val t0 s) port.val := ⟨hc, le_of_le_of_eq hat hsf.symm⟩
      refine (exec_superframeStart hon hst hstart).trans ?_
      rw [hnext]
      dsimp only
      rw [if_pos hgo]
  case refine_2 =>
    intro entry mode tmi ilv ft hdr body t0 l hon hsafe htsf hsend hlease h6 h4 hmode htmi e huse
    have hsome : (plcP s port.val).tsf.isNone = false := by rw [htsf]; rfl
    have ht0 : (plcP s port.val).tsf.getD 0 = t0 := by rw [htsf]; rfl
    refine ⟨exec_plcFrameTxStart_denied hon hsafe hsome hsend hlease h6 h4 hmode htmi huse, ?_⟩
    intro hgate codes us b hcodes hunits h p bs len hlo hhi hm
    have hh : (if ft.toNat = 0 then beaconHdr s port.val else unitHdr s port.val us hdr) = h := by
      simp only [h, ← BitVec.toNat_inj]
      rfl
    have hrun := exec_plcFrameTxStart (ilv := ilv) hon hsafe hsome hsend hlease h6 h4 hmode htmi huse hgate hcodes (ht0.symm ▸ hunits)
    rw [hh] at hrun
    refine ⟨fun hp => ⟨txBegun port.val (txOf s port.val entry mode tmi ilv ft codes us h p) ft.toNat s, _, ?_,
      (txBegun_plcP ..).1, rfl, rfl, rfl, rfl, rfl, rfl, rfl, rfl, rfl, rfl, (txBegun_plcP ..).2⟩, fun hp => ?_⟩
    · have hfit : ¬ (p.length < 16 ∨ 2048 < p.length ∨ (!modeOk s port.val e h.rxa.toNat mode.toNat tmi.toNat) = true ∨
          (!placeOk s port.val e len (regionNeed s port.val ft.toNat mode.toNat bs len b)) = true) := by
        rw [hm, hp]
        simp only [Bool.not_true, Bool.false_eq_true, or_false]
        omega
      exact hrun.trans (congrArg Host.Outcome.next (if_neg hfit))
    · exact hrun.trans (congrArg Host.Outcome.next (if_pos (.inr (.inr (.inr (congrArg (!·) hp :))))))
  case refine_3 =>
    intro tx hsend h3 h5
    exact exec_plcFrameTxEnd hsend h3 h5 false
  case refine_4 =>
    intro tx hsend h2
    refine ⟨_, exec_plcFrameTxEnd hsend (by omega) (by omega) true, ?_, ?_⟩
    · dsimp only
      rw [plcP_setPlc_same]
      rfl
    · exact (rd_bump_same (f := plcCnt port.val 6) s (Nat.le_of_ble_eq_true rfl) :)
  case refine_5 =>
    intro hdr b stamp hon hst hnet tx u w r u' hcoord
    refine ⟨fun hp => ?_, fun hp => ?_⟩
    · exact (exec_beaconReceived_own hon hst hnet hcoord).trans (congrArg Host.Outcome.next (if_pos hp))
    · exact (exec_beaconReceived_own hon hst hnet hcoord).trans (congrArg Host.Outcome.next (if_neg hp))
  case refine_6 =>
    intro hdr b stamp hon hst hst3 hnet
    exact exec_beaconReceived_foreign hon hst hst3 hnet

end Sys2Proof.Machine
end

section
/-! PROOFS. Powerline data frames: voice, assured data, relaying and polling (R378, R379, R394, R395, R397 to R400). -/

namespace Sys2Proof.Machine

theorem plcP_modPlc_same (n : Nat) (g : PlcPort → PlcPort) (s : State) : plcP (modPlc n g s) n = g (plcP s n) := plcP_setPlc_same ..

/-! ### Voice (R397, R398) -/

section
variable {port : Fin 4} {fr : PlcFrame} {s t : State} {subs : List (List Byte)}

/-- A bundle of more sub-frames than the port allows is a violation. -/
theorem bundleIn_of_tooMany {n ft : Nat} (hft : ft ≠ 1) (hl : linkIn n ft fr s = (some true, t)) (hnb : plcNb t n < subs.length) :
    bundleIn n ft fr subs s = plcViol n 0x0209 1 fr.hdr.lchan.toNat fr.hdr.netid.toNat fr.hdr.txa.toNat (bump (plcCnt n 17) t) := by
  have hown : ¬ (ft = 1 ∧ (!fr.bad) = true ∧ fr.hdr.txa.toNat = (plcP s n).emown) := fun h => hft h.1
  unfold bundleIn
  dsimp only
  rw [if_neg hown, hl]
  exact if_pos hnb

/-- A bundle of this node goes to the core of its flow's channel as one item. -/
theorem bundleIn_of_flow {n ft fl d : Nat} {f : Flow} (hl : linkIn n ft fr s = (some true, t)) (hne : subs ≠ []) (hnb : subs.length ≤ plcNb t n)
    (hflow : flowOfLink t fr.hdr.lchan.toNat false = some (fl, f)) (hcore : chanCore t f.chan = some d)
    (hown : ft = 1 → fr.hdr.txa.toNat ≠ (plcP s n).emown) (hrelay : ft = 1 → plcMe t n ∉ (plcP t n).erelay) :
    bundleIn n ft fr subs s = flowBump fl 0 (offer (mkItem 6 f.prio d (0x50 + n) f.chan fr.hdr.seq (plcP t n).rxStamp.toNat fr.hdr.settle
      fr.hdr.err fr.hdr.last ([BitVec.ofNat 8 subs.length, 0] ++ subs.flatMap (padTo 14))) t) := by
  have howner : ¬ (ft = 1 ∧ (!fr.bad) = true ∧ fr.hdr.txa.toNat = (plcP s n).emown) := fun h => hown h.1 h.2.2
  have hvia : ¬ (ft = 1 ∧ emNamed (plcP t n) (plcMe t n) = true ∧ (plcP t n).erelay.contains (plcMe t n) = true) :=
    fun h => hrelay h.1 (List.contains_iff_mem.mp h.2.2)
  have hsome : subs.isEmpty = false := List.isEmpty_eq_false_iff.mpr hne
  unfold bundleIn
  dsimp only
  rw [if_neg howner, hl]
  dsimp only
  rw [if_neg (Nat.not_lt.mpr hnb), if_neg (by decide), if_neg hvia, hflow]
  dsimp only
  rw [hcore]
  dsimp only
  rw [hsome]
  rfl

/-! ### Assured data and acknowledgements (R378, R399) -/

variable {fl : Nat} {f : Flow}

section
variable (hl : linkIn port.val 3 fr s = (some true, t)) (hup : onyxUp t = true) (hhib : t.pwr.hib = .awake) (htail : t.ledger.tail = none)
  (hflow : flowOfLink t fr.hdr.lchan.toNat true = some (fl, f)) (bytes : List Byte)
include hl hup hhib htail hflow

/-- The first segment of a message: kept where more are to come, else the message is offered. -/
theorem exec_assuredDataReceived_first : exec (.assuredDataReceived port fr 0 bytes) s = .next (
    if !fr.hdr.last then modPlc port.val (fun v => { v with segs := tblSet fl [bytes] v.segs }) t
    else
      let o : Offer := { seq := fr.hdr.seq, stamp := (plcP t port.val).rxStamp.extractLsb' 0 40, settle := fr.hdr.settle, err := fr.hdr.err, last := fr.hdr.last }
      match assuredIn fl (0x50 + port.val) o bytes 2 port.val 0x020B (modPlc port.val (fun v => { v with segs := tblDel fl v.segs }) t) with
      | (some a, u) =>
        plcPut port.val { ctlUnit 4 fr.hdr.orig.toNat (le 2 a.toNat ++ [BitVec.ofNat 8 (creditOf f), 0]) u with lchan := fr.hdr.lchan.toNat } (flowBump fl 48 u)
      | (none, u) => u) := by
  have hgo : ¬ ((if (0 : BitVec 8) = 0 then ([] : List (List Byte)) else tblGet (plcP t port.val).segs fl []).length ≠ (0 : BitVec 8).toNat ∨
      (!onyxUp t) = true ∨ t.pwr.hib ≠ .awake ∨ t.ledger.tail.isSome = true) := by
    rw [if_pos rfl, hup, hhib, htail]
    decide
  have hflat : (([] : List (List Byte)) ++ [bytes]).flatten = bytes := by simp
  have hstamp : (plcP (modPlc port.val (fun v => { v with segs := tblDel fl v.segs }) t) port.val).rxStamp = (plcP t port.val).rxStamp :=
    (congrArg PlcPort.rxStamp (plcP_modPlc_same ..) :)
  change execAssuredDataReceived port fr 0 bytes s = _
  unfold execAssuredDataReceived
  dsimp only
  rw [hl]
  dsimp only
  rw [hflow]
  dsimp only
  rw [if_neg hgo, if_pos rfl, hflat, hstamp]
  rfl

end

/-- An acknowledgement of a SEQ not yet sent is a violation; any other is the flow's. -/
theorem exec_plcAcknowledgementReceived (hl : linkIn port.val 4 fr s = (some true, t)) (hup : onyxUp t = true)
    (hflow : flowOfLink t fr.hdr.lchan.toNat true = some (fl, f)) (hout : f.out.find? (fun m => !m.sent && !f.noPath) = none)
    (ack : BitVec 16) (credit : BitVec 8) :
    exec (.plcAcknowledgementReceived port fr ack credit) s = .next (
      if ack = f.txSeq ∨ later16 ack f.txSeq then
        plcViol port.val 0x0207 1 fr.hdr.lchan.toNat fr.hdr.netid.toNat fr.hdr.txa.toNat (bump (plcCnt port.val 15) t)
      else acked fl ack credit.toNat 2 (modPlc port.val (fun v => { v with cw := 4 }) t)) := by
  have hup' : onyxUp (modPlc port.val (fun v => { v with cw := 4 }) t) = true := hup
  change execPlcAcknowledgementReceived port fr ack credit s = _
  unfold execPlcAcknowledgementReceived
  dsimp only
  rw [hl]
  dsimp only
  rw [hflow]
  dsimp only
  rw [hout, ackEvent_of_onyxUp hup']

/-! ### Contention data (R379) -/

theorem exec_contentionDataReceived_of_flow (hl : linkIn port.val 6 fr s = (some true, t)) (bytes : List Byte)
    (hflow : tblFirst (fun _ f => f.kind == 2 && f.linkchan == fr.hdr.lchan.toNat) t.net.flows = some (fl, f)) :
    exec (.contentionDataReceived port fr bytes) s = .next (flowBump fl 0 (offer (mkItem 6 f.prio 0x00 (0x50 + port.val)
      (if fForward f then 0 else f.chan) fr.hdr.seq (plcP t port.val).rxStamp.toNat fr.hdr.settle fr.hdr.err fr.hdr.last
      (padTo (max 16 bytes.length) bytes)) t)) := by
  change execContentionDataReceived port fr bytes s = _
  unfold execContentionDataReceived
  dsimp only
  rw [hl]
  dsimp only
  rw [hflow]

theorem exec_contentionDataReceived_of_noFlow (hl : linkIn port.val 6 fr s = (some true, t)) (bytes : List Byte)
    (hflow : tblFirst (fun _ f => f.kind == 2 && f.linkchan == fr.hdr.lchan.toNat) t.net.flows = none) :
    exec (.contentionDataReceived port fr bytes) s = .next
      (plcViol port.val 0x0205 1 fr.hdr.lchan.toNat fr.hdr.netid.toNat fr.hdr.txa.toNat (bump (plcCnt port.val 13) t)) := by
  change execContentionDataReceived port fr bytes s = _
  unfold execContentionDataReceived
  dsimp only
  rw [hl]
  dsimp only
  rw [hflow]

theorem exec_contentionDataReceived_relayed (hl : linkIn port.val 6 fr s = (some false, t)) (bytes : List Byte) :
    exec (.contentionDataReceived port fr bytes) s = .next (relayUnit port.val 6 fr bytes t) := by
  change execContentionDataReceived port fr bytes s = _
  unfold execContentionDataReceived
  dsimp only
  rw [hl]

/-! ### Polling (R394, R395) -/

variable {budget : BitVec 16} {relays : List (BitVec 12)} {enclosed : List Byte}

/-- A poll of this node is answered the way it came, with what fits enclosed. -/
theorem exec_plcPoll_answered (hl : linkIn port.val 7 fr s = (some true, t)) (hme : fr.hdr.final.toNat = plcMe t port.val) :
    exec (.plcPoll port fr budget relays enclosed) s = .next (
      let e := takeEnclosed port.val fr.hdr.orig.toNat budget.toNat t
      plcPut port.val { ctlUnit 8 fr.hdr.orig.toNat e.1 e.2 with hop := some fr.hdr.txa.toNat } e.2) := by
  change execPlcPoll port fr budget relays enclosed s = _
  unfold execPlcPoll
  dsimp only
  rw [hl]
  exact congrArg Host.Outcome.next (if_pos ⟨hme, rfl⟩)

/-- A poll that is neither for this node nor to be relayed by it has no effect. -/
theorem exec_plcPoll_others {mine : Bool} (hl : linkIn port.val 7 fr s = (some mine, t)) (hother : mine = false ∨ fr.hdr.final.toNat ≠ plcMe t port.val)
    (hrelay : ∀ a ∈ relays, a.toNat ≠ plcMe t port.val) : exec (.plcPoll port fr budget relays enclosed) s = .next t := by
  have hgo : ¬ (fr.hdr.final.toNat = plcMe t port.val ∧ mine = true) := by
    rintro ⟨hf, rfl⟩
    exact hother.elim Bool.noConfusion (· hf)
  have hany : ¬ relays.any (fun a => decide (a.toNat = plcMe t port.val)) = true := by
    simpa using hrelay
  change execPlcPoll port fr budget relays enclosed s = _
  unfold execPlcPoll
  dsimp only
  rw [hl]
  exact congrArg Host.Outcome.next ((if_neg hgo).trans (if_neg hany))

/-- At the master a response ends the exchange; what it encloses above the budget is a violation. -/
theorem exec_pollResponse {p : PNode} {b : Nat} (hl : linkIn port.val 8 fr s = (some true, t)) (hcoord : plcCoord t port.val = true)
    (hnode : tblFind fr.hdr.orig.toNat (plcP t port.val).nodes = some p) (hpoll : p.poll = some b) :
    exec (.pollResponse port fr enclosed) s = .next (
      let u := modPlc port.val (fun v => { v with nodes := tblSet fr.hdr.orig.toNat { p with poll := none, misses := 0, polledAt := sfno t port.val } v.nodes }) t
      if b < enclosed.length then plcViol port.val 0x0208 1 0xFFFF fr.hdr.netid.toNat fr.hdr.txa.toNat (bump (plcCnt port.val 16) u) else u) := by
  have hgo : ¬ (!plcCoord t port.val) = true := by simp [hcoord]
  change execPollResponse port fr enclosed s = _
  unfold execPollResponse
  dsimp only
  rw [hl]
  refine congrArg Host.Outcome.next ((if_neg hgo).trans ?_)
  rw [hnode]
  dsimp only
  split
  next b' hb =>
    cases hpoll.symm.trans hb
    rfl
  next hnone => cases hpoll.symm.trans hnone

end

/-! ### The master's polls (R395) -/

/-- What a poll encloses comes off the queue; the nodes stay. -/
theorem takeEnclosed_nodes (n j room : Nat) (s : State) : (plcP (takeEnclosed n j room s).2 n).nodes = (plcP s n).nodes := by
  unfold takeEnclosed
  split
  · exact (congrArg PlcPort.nodes (plcP_modPlc_same ..) :)
  · rfl

theorem plcPut_nodes {n : Nat} {u : PUnit} (hu : u.voice = none) (s : State) : (plcP (plcPut n u s) n).nodes = (plcP s n).nodes := by
  have hgo : ¬ (u.voice.isSome = true ∧ 128 ≤ (plcP s n).txq.length) := by simp [hu]
  exact (congrArg PlcPort.nodes ((congrArg (plcP · n) (if_neg hgo)).trans (plcP_setPlc_same ..)) :)

/-- The slave `p` polled over the chain `c`, with a budget that is free. -/
def polledNode (c : List Nat) (p : PNode) (n : Nat) (s : State) : PNode := { p with poll := some (freeBits 11 s).toNat, chain := c, polledAt := sfno s n }

/-- The state in which the poll of node `j` is queued. -/
def pollSent (n j : Nat) (c : List Nat) (p : PNode) (s : State) : State :=
  let e := takeEnclosed n j 2019 (modPlc n (fun v => { v with nodes := tblSet j (polledNode c p n s) v.nodes }) (tookFree s))
  let body := le 2 (freeBits 11 s).toNat ++ le 1 c.length ++ padTo 8 (c.flatMap (fun a => le 2 a)) ++ e.1
  plcPut n { ctlUnit 7 j body e.2 with hop := some (c.headD j) } e.2

theorem pollSent_node (n j : Nat) (c : List Nat) (p : PNode) (s : State) :
    tblFind j (plcP (pollSent n j c p s) n).nodes = some (polledNode c p n s) := by
  unfold pollSent
  dsimp only
  rw [plcPut_nodes rfl, takeEnclosed_nodes, plcP_modPlc_same]
  exact tblFind_set_same ..

section
variable {port : Fin 4} {slave : BitVec 12} {s : State} {p : PNode}
  (hon : plcOn s port.val = true) (hcoord : plcCoord s port.val = true) (hnode : tblFind slave.toNat (plcP s port.val).nodes = some p)
include hnode

include hon hcoord in
/-- A slave that is due is polled over its best chain. -/
theorem exec_pollPeriod {c : List Nat} (hpolled : flag s (plcPolled port.val) = true) (hup : onyxUp s = true) (hpoll : p.poll = none)
    (hdue : p.polledAt + (if slaveVoice s port.val slave.toNat then 1 else rd s (plcPollper port.val)) ≤ sfno s port.val)
    (hchain : bestChain s port.val slave.toNat p.excluded = some c) :
    exec (.pollPeriod port slave) s = .next (pollSent port.val slave.toNat c p s) := by
  have hgo : ¬ ((!plcOn s port.val) = true ∨ (!plcCoord s port.val) = true ∨ (!flag s (plcPolled port.val)) = true ∨ (!onyxUp s) = true) := by
    simp [hon, hcoord, hpolled, hup]
  have hnow : ¬ (p.poll.isSome = true ∨ sfno s port.val < p.polledAt + (if slaveVoice s port.val slave.toNat then 1 else rd s (plcPollper port.val))) := by
    rw [hpoll]
    exact fun h => h.elim Bool.noConfusion (Nat.not_lt.mpr hdue)
  change execPollPeriod port slave s = _
  unfold execPollPeriod
  dsimp only
  refine congrArg Host.Outcome.next ((if_neg hgo).trans ?_)
  rw [hnode]
  dsimp only
  refine (if_neg hnow).trans ?_
  rw [hchain]
  rfl

include hon hcoord in
/-- A poll not answered counts; the chain stands until POLLMISS in a row. -/
theorem exec_pollMiss (hpoll : p.poll.isSome = true) (hmiss : p.misses + 1 < rd s (plcPollmiss port.val)) :
    exec (.pollMiss port slave) s = .next (modPlc port.val (fun v => { v with nodes := tblSet slave.toNat { p with poll := none, misses := p.misses + 1 } v.nodes })
      (bump (plcCnt port.val 20) s)) := by
  have hgo : ¬ ((!plcOn s port.val) = true ∨ (!plcCoord s port.val) = true) := by simp [hon, hcoord]
  have hsome : ¬ p.poll.isNone = true := by
    rw [Option.isSome_iff_ne_none] at hpoll
    simpa using hpoll
  have hkey : (plcPollmiss port.val).key ≠ (plcCnt port.val 20).key := by
    simp only [plcPollmiss, plcCnt, plc, rk]
    omega
  have hmiss' : p.misses + 1 < rd (bump (plcCnt port.val 20) s) (plcPollmiss port.val) := by rwa [rd_bump_other _ hkey]
  change execPollMiss port slave s = _
  unfold execPollMiss
  dsimp only
  refine congrArg Host.Outcome.next ((if_neg hgo).trans ?_)
  rw [hnode]
  exact (if_neg hsome).trans (if_pos hmiss')

theorem exec_chainExclusionEnd : exec (.chainExclusionEnd port slave) s = .next (modPlc port.val (fun v =>
    { v with nodes := tblSet slave.toNat { p with excluded := p.excluded.filter (fun x => decide (now s < x.2)) } v.nodes }) s) := by
  change execChainExclusionEnd port slave s = _
  unfold execChainExclusionEnd
  dsimp only
  rw [hnode]

end

/-- Settles O35: each clause is the equation of its event, once the link's checks have passed. -/
theorem plcDataRule : Obligations.PlcDataRule := by
  unfold Obligations.PlcDataRule
  intro port fr s t
  refine ⟨?_, fun subs hnb hl => congrArg Host.Outcome.next (bundleIn_of_tooMany (by decide) hl hnb), ?_, ?_, ?_,
    fun bytes hl => exec_contentionDataReceived_relayed hl bytes, ?_, fun budget relays enclosed mine => exec_plcPoll_others, ?_, ?_, ?_, ?_⟩
  case refine_1 =>
    intro subs fl f d hne hnb hflow hcore
    exact ⟨fun hl => congrArg Host.Outcome.next (bundleIn_of_flow hl hne hnb hflow hcore (absurd · (by decide)) (absurd · (by decide))),
      fun hl hown hrelay => congrArg Host.Outcome.next (bundleIn_of_flow hl hne hnb hflow hcore (fun _ => hown) (fun _ => hrelay))⟩
  case refine_2 =>
    intro hl hup fl f hhib htail hflow bytes
    have hrun := exec_assuredDataReceived_first hl hup hhib htail hflow bytes
    refine ⟨fun hlast => hrun.trans (congrArg Host.Outcome.next (if_pos (by rw [hlast]; rfl))), fun hlast a u ha => ?_⟩
    refine hrun.trans (congrArg Host.Outcome.next ((if_neg (by rw [hlast]; decide)).trans ?_))
    dsimp only
    rw [ha]
  case refine_3 =>
    intro hl hup fl f ack credit hflow hout hne
    have hrun := exec_plcAcknowledgementReceived hl hup hflow hout ack credit
    exact ⟨fun hlate => hrun.trans (congrArg Host.Outcome.next (if_neg (not_or.mpr ⟨hne, ne_true_of_eq_false hlate⟩))),
      fun hlate => hrun.trans (congrArg Host.Outcome.next (if_pos (.inr hlate)))⟩
  case refine_4 =>
    intro hl bytes
    exact ⟨fun fl f => exec_contentionDataReceived_of_flow hl bytes, exec_contentionDataReceived_of_noFlow hl bytes⟩
  case refine_5 =>
    intro budget relays enclosed hl hme
    have hrun := exec_plcPoll_answered (budget := budget) (relays := relays) (enclosed := enclosed) hl hme
    refine ⟨fun hnone => ?_, fun ft us b hsome => ?_⟩
    · rw [takeEnclosed, hnone] at hrun
      exact hrun
    · rw [takeEnclosed, hsome] at hrun
      exact hrun
  case refine_6 =>
    intro p b enclosed hl hcoord hnode hpoll
    have hrun := exec_pollResponse (enclosed := enclosed) hl hcoord hnode hpoll
    exact ⟨fun hle => hrun.trans (congrArg Host.Outcome.next (if_neg (Nat.not_lt.mpr hle))), fun hlt => hrun.trans (congrArg Host.Outcome.next (if_pos hlt))⟩
  case refine_7 =>
    intro slave p c hon hcoord hpolled hup hnode hpoll hdue hchain
    exact ⟨_, _, exec_pollPeriod hon hcoord hnode hpolled hup hpoll hdue hchain, pollSent_node .., rfl, rfl, rfl⟩
  case refine_8 =>
    intro slave p hon hcoord hnode hpoll hmiss
    exact exec_pollMiss hon hcoord hnode hpoll hmiss
  case refine_9 =>
    intro slave p hnode
    exact exec_chainExclusionEnd hnode

end Sys2Proof.Machine
end

section
/-! PROOFS. Powerline management messages (R384, R385, R388 to R391, R393, R396, R404, R406, Table 14.5). -/

namespace Sys2Proof.Machine

open Sys2Proof.Obl

/-! ### Entries of several fields -/

/-- Records of `w` bytes after a fixed part `a` are read back one after another, by a reader that finds `f x` where `x` stands. -/
theorem map_read_records {α β : Type} {w : Nat} {put : α → List Byte} {read : List Byte → Nat → β} {f : α → β} (hlen : ∀ x, (put x).length = w)
    (hread : ∀ a r x, read (a ++ (put x ++ r)) a.length = f x) (a : List Byte) (l : List α) :
    (fromN 0 l.length).map (fun k => read (a ++ l.flatMap put) (a.length + w * k)) = l.map f := by
  induction l generalizing a with
  | nil => rfl
  | cons x l ih =>
    have htail := ih (a ++ put x)
    rw [List.length_append, hlen, List.append_assoc] at htail
    rw [List.length_cons, fromN_eq_range', List.range'_succ, List.map_cons, List.range'_eq_map_range, List.map_map, List.flatMap_cons, List.map_cons,
      Nat.mul_zero, Nat.add_zero, hread]
    rw [fromN_eq_range', ← List.range_eq_range'] at htail
    refine congrArg (f x :: ·) (Eq.trans (List.map_congr_left fun k _ => ?_) htail)
    simp only [Function.comp]
    congr 1
    ring

theorem ofNat_leAt_append {a : List Byte} {w n o : Nat} (v : BitVec w) (r : List Byte) (h : a.length ≤ o) (ho : o - a.length = 0) (hw : w ≤ 8 * n) :
    leAt (a ++ (le n v.toNat ++ r)) o n = v.toNat := by
  rw [leAt_append_skip _ _ h, ho, leAt_append_here]
  refine Nat.mod_eq_of_lt (v.isLt.trans_le ?_)
  rw [show (256 : Nat) = 2 ^ 8 from rfl, ← pow_mul]
  exact Nat.pow_le_pow_right (by decide) hw

/-! ### A message that is this node's -/

section
variable {n : Nat} {fr : PlcFrame} {s t : State} {body : List Byte}

/-- A message of this node that fits its MTYPE does at once what its MTYPE says. -/
theorem mgmtMsg_of_good {q : Bool} (hl : linkInOf q n 5 fr s = (some true, t)) (hup : onyxUp t = true) (hq : (body.take 1 == [0x01]) = q)
    {good : Bool} (hgood : good = true) :
    mgmtMsg n fr good body s = mgmtDo n fr body t := by
  have hwait : ¬ eventsWait t = true := by
    simp only [onyxUp, Bool.or_eq_true, beq_iff_eq] at hup
    rcases hup with h | h <;> simp [eventsWait, h]
  subst hgood
  unfold mgmtMsg mgmtIn
  rw [hq, hl]
  exact (if_neg hwait).trans (if_pos hup)

/-- A message whose body does not fit its MTYPE is a violation. -/
theorem mgmtMsg_of_bad {q : Bool} (hl : linkInOf q n 5 fr s = (some true, t)) (hq : (body.take 1 == [0x01]) = q) {good : Bool} (hgood : good = false) :
    mgmtMsg n fr good body s = plcViol n 0x0206 1 0xFFFF fr.hdr.netid.toNat fr.hdr.txa.toNat (bump (plcCnt n 14) t) := by
  subst hgood
  unfold mgmtMsg mgmtIn
  rw [hq, hl]
  rfl

end

/-! ### JOIN_REQ (R388, R389) -/

/-- The body of JOIN_REQ. -/
def joinReqBody (uid : BitVec 64) (want : BitVec 12) : List Byte := [0x01] ++ le 8 uid.toNat ++ le 2 want.toNat

theorem joinReqBody_fields (uid : BitVec 64) (want : BitVec 12) :
    BitVec.ofNat 64 (leAt (joinReqBody uid want) 1 8) = uid ∧ leAt (joinReqBody uid want) 9 2 % 4096 = want.toNat := by
  have huid : leAt (joinReqBody uid want) 1 8 = uid.toNat := by
    rw [joinReqBody, List.append_assoc]
    exact ofNat_leAt_append uid _ (by simp) (by simp) (by decide)
  have hwant : leAt (joinReqBody uid want) 9 2 = want.toNat := by
    rw [joinReqBody, ← List.append_nil (le 2 want.toNat)]
    exact ofNat_leAt_append want [] (by simp) (by simp) (by decide)
  exact ⟨by rw [huid, BitVec.ofNat_toNat, BitVec.setWidth_eq], by rw [hwant]; exact Nat.mod_eq_of_lt want.isLt⟩

section
variable {n : Nat} {fr : PlcFrame} {t : State} {uid : BitVec 64} {want : BitVec 12}

/-- A node that has joined sends the request on to its coordinator while it may be relayed. -/
theorem joinReqIn_of_node (hcoord : plcCoord t n = false) (hst : rd t (plcState n) = 3) : joinReqIn n fr (joinReqBody uid want) t =
    if fr.hdr.ttl ≠ 0 then relayUnit n 5 { fr with hdr := { fr.hdr with final := BitVec.ofNat 12 ((plcP t n).coord.getD 0xFFF) } } (joinReqBody uid want) t
    else t := by
  have hgo : (!plcCoord t n) = true := by simp [hcoord]
  refine (if_pos hgo).trans ?_
  simp only [hst, true_and]

/-- A network that resigns is closed. -/
theorem joinReqIn_of_resigning (hcoord : plcCoord t n = true) (hres : (plcP t n).resignLeft.isSome = true) :
    joinReqIn n fr (joinReqBody uid want) t = mgmt n 0xFFF ([0x03] ++ le 8 uid.toNat ++ le 1 3) t := by
  have hgo : ¬ (!plcCoord t n) = true := by simp [hcoord]
  obtain ⟨huid, _⟩ := joinReqBody_fields uid want
  refine (if_neg hgo).trans ((if_pos hres).trans ?_)
  rw [huid]

/-- A node not yet listed is refused where the list is full or its address is taken, and is listed else. -/
theorem joinReqIn_of_new (hcoord : plcCoord t n = true) (hres : (plcP t n).resignLeft = none)
    (hnew : tblFirst (fun _ p => p.uid == uid) (plcP t n).nodes = none) : joinReqIn n fr (joinReqBody uid want) t =
    if 256 ≤ (plcP t n).nodes.length then mgmt n 0xFFF ([0x03] ++ le 8 uid.toNat ++ le 1 1) t
    else match joinAddr (plcP t n) (plcMe t n) uid.toNat want.toNat with
      | none => mgmt n 0xFFF ([0x03] ++ le 8 uid.toNat ++ le 1 2) t
      | some a =>
        mgmt n 0xFFF ([0x02] ++ le 8 uid.toNat ++ le 2 a ++ le 1 (9 - fr.hdr.ttl.toNat) ++ le 1 (plcP t n).smgen)
          (recompute n (setPlc n { plcP t n with nodes := tblSet a { uid := uid, reportAt := sfno t n, missed := 0, nbrs := [], polledAt := 0, misses := 0
                                                                     chain := [], excluded := [], poll := none } (plcP t n).nodes } t)) := by
  have hgo : ¬ (!plcCoord t n) = true := by simp [hcoord]
  have hopen : ¬ (plcP t n).resignLeft.isSome = true := by simp [hres]
  obtain ⟨huid, hwant⟩ := joinReqBody_fields uid want
  refine (if_neg hgo).trans ((if_neg hopen).trans ?_)
  rw [huid, hwant, hnew]
  simp only [Option.map_none, Option.isNone_none, true_and] <;> rfl

end

/-! ### JOIN_ACC and JOIN_REJ (R390) -/

section
variable {n k : Nat} {fr : PlcFrame} {t : State} {uid : BitVec 64}

/-- The state in which the node has its address, before its map is there. -/
def joinNoted (n : Nat) (fr : PlcFrame) (node : BitVec 12) (hops : BitVec 8) (t : State) : State :=
  modPlc n (fun v => { v with join := .accepted, cw := 4, coord := some fr.hdr.orig.toNat, want := node.toNat })
    (wr (plcNode n) node.toNat (wr (plcHops n) hops.toNat t))

theorem joinAccIn_eq {node : BitVec 12} {hops smgen : BitVec 8} (hjoin : (plcP t n).join = .asked k) (huid : uid.toNat = myUid t) :
    joinAccIn n fr ([0x02] ++ le 8 uid.toNat ++ le 2 node.toNat ++ [hops, smgen]) t = joinDone n (joinNoted n fr node hops t) := by
  have hu : leAt ([0x02] ++ le 8 uid.toNat ++ le 2 node.toNat ++ [hops, smgen]) 1 8 = uid.toNat := by
    rw [List.append_assoc, List.append_assoc]
    exact ofNat_leAt_append uid _ (by simp) (by simp) (by decide)
  have ha : leAt ([0x02] ++ le 8 uid.toNat ++ le 2 node.toNat ++ [hops, smgen]) 9 2 = node.toNat := by
    rw [List.append_assoc]
    exact ofNat_leAt_append node _ (by simp) (by simp) (by decide)
  have hh : leAt ([0x02] ++ le 8 uid.toNat ++ le 2 node.toNat ++ [hops, smgen]) 11 1 = hops.toNat := by
    rw [leAt_append_skip _ _ (by simp)]
    simp [leAt, unLe]
  unfold joinAccIn
  rw [hjoin]
  dsimp only
  rw [hu, ha, hh, if_neg (not_not_intro huid), Nat.mod_eq_of_lt node.isLt]
  rfl

theorem joinRejIn_eq {reason : BitVec 8} (hjoin : (plcP t n).join = .asked k) (huid : uid.toNat = myUid t) :
    joinRejIn n ([0x03] ++ le 8 uid.toNat ++ [reason]) t = modPlc n (fun v => { v with join := .listen 3, cw := 4 }) t := by
  have hu : leAt ([0x03] ++ le 8 uid.toNat ++ [reason]) 1 8 = uid.toNat := by
    rw [List.append_assoc]
    exact ofNat_leAt_append uid _ (by simp) (by simp) (by decide)
  unfold joinRejIn
  rw [hjoin]
  dsimp only
  rw [hu, if_pos huid]

end

/-! ### NBR_REPORT and ROUTE_SET (R385, R393) -/

/-- The bytes of an entry of NBR_REPORT. -/
def nbrBytes (e : NbrEntry) : List Byte := le 2 e.node.toNat ++ [e.cost, e.margin, e.tmi]

/-- The entry of NBR_REPORT at an offset. -/
def nbrAt (b : List Byte) (o : Nat) : NbrEntry :=
  { node := BitVec.ofNat 12 (leAt b o 2), cost := BitVec.ofNat 8 (leAt b (o + 2) 1), margin := BitVec.ofNat 8 (leAt b (o + 3) 1)
    tmi := BitVec.ofNat 8 (leAt b (o + 4) 1) }

theorem leAt_byte (a : List Byte) (b : Byte) (r : List Byte) {o : Nat} (h : o = a.length) : leAt (a ++ b :: r) o 1 = b.toNat := by
  rw [leAt_append_skip _ _ h.ge, h, Nat.sub_self]
  simp [leAt, unLe]

theorem ofNat_leAt_byte (a : List Byte) (b : Byte) (r : List Byte) {o : Nat} (h : o = a.length) : BitVec.ofNat 8 (leAt (a ++ b :: r) o 1) = b := by
  rw [leAt_byte a b r h, BitVec.ofNat_toNat, BitVec.setWidth_eq]

theorem nbrAt_nbrBytes (a r : List Byte) (e : NbrEntry) : nbrAt (a ++ (nbrBytes e ++ r)) a.length = e := by
  have hn : leAt (a ++ (nbrBytes e ++ r)) a.length 2 = e.node.toNat := by
    rw [nbrBytes, List.append_assoc]
    exact ofNat_leAt_append e.node _ (Nat.le_refl _) (Nat.sub_self _) (by decide)
  have hb : a ++ (nbrBytes e ++ r) = (a ++ le 2 e.node.toNat) ++ e.cost :: e.margin :: e.tmi :: r := by simp [nbrBytes]
  have hc : BitVec.ofNat 8 (leAt (a ++ (nbrBytes e ++ r)) (a.length + 2) 1) = e.cost := by
    rw [hb]
    exact ofNat_leAt_byte _ _ _ (by simp)
  have hm : BitVec.ofNat 8 (leAt (a ++ (nbrBytes e ++ r)) (a.length + 3) 1) = e.margin := by
    rw [hb, List.append_cons]
    exact ofNat_leAt_byte _ _ _ (by simp)
  have ht : BitVec.ofNat 8 (leAt (a ++ (nbrBytes e ++ r)) (a.length + 4) 1) = e.tmi := by
    rw [hb, List.append_cons, List.append_cons]
    exact ofNat_leAt_byte _ _ _ (by simp)
  rw [nbrAt, hn, hc, hm, ht, BitVec.ofNat_toNat, BitVec.setWidth_eq]

/-- The entries of a report are read as they were written. -/
theorem nbrEntries_eq {l : List NbrEntry} (h : l.length ≤ 104) : nbrEntries ([0x05, BitVec.ofNat 8 l.length] ++ l.flatMap nbrBytes) = l := by
  have hcount : leAt ([0x05, BitVec.ofNat 8 l.length] ++ l.flatMap nbrBytes) 1 1 = l.length := by
    refine (leAt_byte [0x05] _ _ rfl).trans ?_
    rw [BitVec.toNat_ofNat]
    exact Nat.mod_eq_of_lt (by omega)
  have hread := map_read_records (put := nbrBytes) (read := nbrAt) (w := 5) (f := id) (fun e => by simp [nbrBytes]) nbrAt_nbrBytes
    [0x05, BitVec.ofNat 8 l.length] l
  rw [List.map_id] at hread
  refine Eq.trans ?_ hread
  unfold nbrEntries
  rw [hcount]
  refine List.map_congr_left fun k _ => ?_
  have hc : 4 + 5 * k = 2 + 5 * k + 2 := by omega
  have hm : 5 + 5 * k = 2 + 5 * k + 3 := by omega
  have ht : 6 + 5 * k = 2 + 5 * k + 4 := by omega
  rw [hc, hm, ht]
  rfl

/-- The bytes of an entry of ROUTE_SET. -/
def hopBytes (e : BitVec 12 × BitVec 12) : List Byte := le 2 e.1.toNat ++ le 2 e.2.toNat

theorem hopBytes_read (a r : List Byte) (e : BitVec 12 × BitVec 12) :
    (leAt (a ++ (hopBytes e ++ r)) a.length 2, leAt (a ++ (hopBytes e ++ r)) (a.length + 2) 2) = (e.1.toNat, e.2.toNat) := by
  have h1 : leAt (a ++ (hopBytes e ++ r)) a.length 2 = e.1.toNat := by
    rw [hopBytes, List.append_assoc]
    exact ofNat_leAt_append e.1 _ (Nat.le_refl _) (Nat.sub_self _) (by decide)
  have h2 : leAt (a ++ (hopBytes e ++ r)) (a.length + 2) 2 = e.2.toNat := by
    rw [hopBytes, List.append_assoc, ← List.append_assoc]
    exact ofNat_leAt_append e.2 _ (by simp) (by simp) (by decide)
  rw [h1, h2]

/-- A node takes the next hops that it is given, one after another. -/
theorem routeSetIn_eq {n : Nat} {t : State} {l : List (BitVec 12 × BitVec 12)} (hcoord : plcCoord t n = false) (h : l.length ≤ 255) :
    routeSetIn n ([0x06, BitVec.ofNat 8 l.length] ++ l.flatMap hopBytes) t =
      modPlc n (fun v => { v with routes := l.foldl (fun r e => tblSet e.1.toNat e.2.toNat r) v.routes }) t := by
  have hcount : leAt ([0x06, BitVec.ofNat 8 l.length] ++ l.flatMap hopBytes) 1 1 = l.length := by
    refine (leAt_byte [0x06] _ _ rfl).trans ?_
    rw [BitVec.toNat_ofNat]
    exact Nat.mod_eq_of_lt (by omega)
  have hread := map_read_records (put := hopBytes) (read := fun b o => (leAt b o 2, leAt b (o + 2) 2)) (w := 4)
    (f := fun e => (e.1.toNat, e.2.toNat)) (fun e => by simp [hopBytes]) hopBytes_read [0x06, BitVec.ofNat 8 l.length] l
  have hfold (r : Tbl Nat) : (fromN 0 l.length).foldl (fun r k =>
      tblSet (leAt ([0x06, BitVec.ofNat 8 l.length] ++ l.flatMap hopBytes) (2 + 4 * k) 2)
        (leAt ([0x06, BitVec.ofNat 8 l.length] ++ l.flatMap hopBytes) (4 + 4 * k) 2) r) r = l.foldl (fun r e => tblSet e.1.toNat e.2.toNat r) r := by
    have hf := congrArg (fun m => List.foldl (fun (r : Tbl Nat) (e : Nat × Nat) => tblSet e.1 e.2 r) r m) hread
    simp only [List.foldl_map] at hf
    refine Eq.trans (congrArg (fun g => List.foldl g r (fromN 0 l.length)) ?_) hf
    funext r k
    have h4 : 4 + 4 * k = 2 + 4 * k + 2 := by omega
    rw [h4]
    rfl
  unfold routeSetIn
  dsimp only
  rw [hcoord, if_neg Bool.false_ne_true, hcount]
  exact congrArg (fun g => modPlc n g t) (funext fun v => by rw [hfold])

theorem nbrReportIn_node {n : Nat} {fr : PlcFrame} {t : State} {p : PNode} {l : List NbrEntry} (h : l.length ≤ 104) (hcoord : plcCoord t n = true)
    (hnode : tblFind fr.hdr.orig.toNat (plcP t n).nodes = some p) (hmoved : reportMoved p.nbrs l = false) :
    tblFind fr.hdr.orig.toNat (plcP (nbrReportIn n fr ([0x05, BitVec.ofNat 8 l.length] ++ l.flatMap nbrBytes) t) n).nodes =
      some { p with reportAt := sfno t n, missed := 0, nbrs := l } := by
  unfold nbrReportIn
  rw [nbrEntries_eq h]
  dsimp only
  rw [hnode]
  dsimp only
  rw [if_neg (by simp [hcoord]), if_neg (by simp [hmoved]), plcP_modPlc_same]
  exact tblFind_set_same ..

/-! ### SLOTMAP and TONEMAP (R380, R385) -/

theorem slotmapIn_eq {n : Nat} {fr : PlcFrame} {t : State} {smgen part npart : BitVec 8} {bytes : List Byte} (hcoord : plcCoord t n = false) :
    slotmapIn n fr ([0x07, smgen, part, npart] ++ bytes) t = (
      let v := plcP t n
      let parts := (v.parts.filter (fun p => p.1 = smgen.toNat ∧ p.2.1 ≠ part.toNat)) ++ [(smgen.toNat, part.toNat, npart.toNat, bytes)]
      match joinParts parts smgen.toNat npart.toNat with
      | none => setPlc n { v with parts := parts } t
      | some b =>
        if (mapHdrBad b).isSome ∨ b.length ≠ 8 + 8 * leAt b 0 1 then mgmtBad n fr t
        else
          let u := setPlc n { v with parts := [], next := some (smgen.toNat, 0, parseMap b) } t
          if v.smgen = smgen.toNat then joinDone n (installMap n smgen.toNat (parseMap b) u) else u) := by
  have hg : leAt ([0x07, smgen, part, npart] ++ bytes) 1 1 = smgen.toNat := leAt_byte [0x07] _ _ rfl
  have hp : leAt ([0x07, smgen, part, npart] ++ bytes) 2 1 = part.toNat := leAt_byte [0x07, smgen] _ _ rfl
  have hn : leAt ([0x07, smgen, part, npart] ++ bytes) 3 1 = npart.toNat := leAt_byte [0x07, smgen, part] _ _ rfl
  unfold slotmapIn
  rw [if_neg (by simp [hcoord]), hg, hp, hn]
  rfl

theorem tonemapIn_eq {n : Nat} {fr : PlcFrame} {t : State} {tmi : BitVec 8} {sf : BitVec 32} {map : List Byte} (hcoord : plcCoord t n = false)
    (hvalid : toneValid map (bandLo t n) (bandHi t n) = true) :
    tonemapIn n fr ([0x08, tmi] ++ le 4 sf.toNat ++ map) t =
      modPlc n (fun v => { v with pendTones := v.pendTones ++ [(tmi.toNat, sf.toNat, map)] }) t := by
  have hi : leAt ([0x08, tmi] ++ le 4 sf.toNat ++ map) 1 1 = tmi.toNat := leAt_byte [0x08] _ _ rfl
  have hs : leAt ([0x08, tmi] ++ le 4 sf.toNat ++ map) 2 4 = sf.toNat := by
    rw [List.append_assoc]
    exact ofNat_leAt_append sf _ (by simp) (by simp) (by decide)
  have hd : ([0x08, tmi] ++ le 4 sf.toNat ++ map).drop 6 = map := by
    rw [drop_append_skip _ (by simp)]
    simp
  unfold tonemapIn
  dsimp only
  rw [hi, hs, hd, if_neg (by simp [hvalid]), if_neg (by simp [hcoord])]

/-! ### Emergency grants (R396) -/

section
variable {n : Nat} {fr : PlcFrame} {t : State} (hcoord : plcCoord t n = true)
include hcoord

theorem emReqIn_eq (lchan peer : BitVec 16) : emReqIn n fr ([0x09] ++ le 2 lchan.toNat ++ le 2 peer.toNat) t = (
    let r : EmReq := { lchan := lchan.toNat, node := fr.hdr.orig.toNat, peer := peer.toNat % 4096 }
    tryGrant n (modPlc n (fun v => if v.emReqs.contains r then v else { v with emReqs := v.emReqs ++ [r] }) t)) := by
  have hl : leAt ([0x09] ++ le 2 lchan.toNat ++ le 2 peer.toNat) 1 2 = lchan.toNat := by
    rw [List.append_assoc]
    exact ofNat_leAt_append lchan _ (by simp) (by simp) (by decide)
  have hp : leAt ([0x09] ++ le 2 lchan.toNat ++ le 2 peer.toNat) 3 2 = peer.toNat := by
    rw [← List.append_nil (le 2 peer.toNat)]
    exact ofNat_leAt_append peer _ (by simp) (by simp) (by decide)
  unfold emReqIn
  rw [if_neg (by simp [hcoord]), hl, hp]

theorem emRelIn_eq (lchan : BitVec 16) : emRelIn n fr ([0x0A] ++ le 2 lchan.toNat) t = (
    let u := setPlc n { plcP t n with emReqs := (plcP t n).emReqs.filter (fun r => !(r.node == fr.hdr.orig.toNat && r.lchan == lchan.toNat)) } t
    if (plcP t n).emown = fr.hdr.orig.toNat then tryGrant n (endGrant n u) else u) := by
  have hl : leAt ([0x0A] ++ le 2 lchan.toNat) 1 2 = lchan.toNat := by
    rw [← List.append_nil (le 2 lchan.toNat)]
    exact ofNat_leAt_append lchan _ (by simp) (by simp) (by decide)
  unfold emRelIn
  dsimp only
  rw [if_neg (by simp [hcoord]), hl, plcP_modPlc_same]
  rfl

theorem foreignIn_eq (netid : BitVec 16) (sf : BitVec 32) : foreignIn n ([0x0C] ++ le 2 netid.toNat ++ le 4 sf.toNat) t =
    if netid.toNat ≠ rd t (plcNetid n) then foreignHeard n netid.toNat 0 t else t := by
  have hl : leAt ([0x0C] ++ le 2 netid.toNat ++ le 4 sf.toNat) 1 2 = netid.toNat := by
    rw [List.append_assoc]
    exact ofNat_leAt_append netid _ (by simp) (by simp) (by decide)
  unfold foreignIn
  simp only [hl, hcoord, true_and]

end

theorem resignIn_eq {n : Nat} {t : State} (hcoord : plcCoord t n = false) (netid : BitVec 16) :
    resignIn n ([0x0B] ++ le 2 netid.toNat) t = startJoin n netid.toNat (plcMe t n) (wr (plcState n) 2 t) := by
  have hl : leAt ([0x0B] ++ le 2 netid.toNat) 1 2 = netid.toNat := by
    rw [← List.append_nil (le 2 netid.toNat)]
    exact ofNat_leAt_append netid _ (by simp) (by simp) (by decide)
  unfold resignIn
  rw [if_neg (by simp [hcoord]), hl]

/-! ### The messages -/

section
variable {port : Fin 4} {fr : PlcFrame} {s t : State} (hup : onyxUp t = true)
include hup

theorem joinReq_runs {uid : BitVec 64} {want : BitVec 12} {u : State} (hl : linkInOf true port.val 5 fr s = (some true, t)) (hw : want ≠ 0xFFF)
    (h : joinReqIn port.val fr (joinReqBody uid want) t = u) : Runs (.joinReq port fr uid want) s u :=
  congrArg Host.Outcome.next ((mgmtMsg_of_good hl hup rfl (decide_eq_true hw)).trans h)

variable (hl : linkInOf false port.val 5 fr s = (some true, t))
include hl

theorem plcResign_runs (hcoord : plcCoord t port.val = false) (netid : BitVec 16) :
    Runs (.plcResign port fr netid) s (startJoin port.val netid.toNat (plcMe t port.val) (wr (plcState port.val) 2 t)) :=
  congrArg Host.Outcome.next ((mgmtMsg_of_good hl hup rfl rfl).trans (resignIn_eq hcoord netid))

theorem slotmap_runs {smgen part npart : BitVec 8} {bytes : List Byte} (hpart : part.toNat < npart.toNat) :
    Runs (.slotmap port fr smgen part npart bytes) s (slotmapIn port.val fr ([0x07, smgen, part, npart] ++ bytes) t) :=
  congrArg Host.Outcome.next (mgmtMsg_of_good hl hup rfl (decide_eq_true hpart))

end

/-- The clauses of JOIN_REQ. -/
theorem joinReq_clause {port : Fin 4} {fr : PlcFrame} {s t : State} (hup : onyxUp t = true) (hl : linkInOf true port.val 5 fr s = (some true, t))
    {uid : BitVec 64} {want : BitVec 12} (hw : want ≠ 0xFFF) :
    let v := plcP t port.val
    let answer (b : List Byte) (u : State) : State := mgmt port.val 0xFFF b u
    (plcCoord t port.val = true → v.resignLeft.isSome = true → Runs (.joinReq port fr uid want) s (answer ([0x03] ++ le 8 uid.toNat ++ le 1 3) t)) ∧
    (plcCoord t port.val = true → v.resignLeft = none → tblFirst (fun _ p => p.uid == uid) v.nodes = none →
      (256 ≤ v.nodes.length → Runs (.joinReq port fr uid want) s (answer ([0x03] ++ le 8 uid.toNat ++ le 1 1) t)) ∧
      (v.nodes.length < 256 → joinAddr v (plcMe t port.val) uid.toNat want.toNat = none →
        Runs (.joinReq port fr uid want) s (answer ([0x03] ++ le 8 uid.toNat ++ le 1 2) t)) ∧
      (∀ a, v.nodes.length < 256 → joinAddr v (plcMe t port.val) uid.toNat want.toNat = some a →
        let p : PNode := { uid := uid, reportAt := sfno t port.val, missed := 0, nbrs := [], polledAt := 0, misses := 0, chain := [], excluded := [], poll := none }
        Runs (.joinReq port fr uid want) s (answer ([0x02] ++ le 8 uid.toNat ++ le 2 a ++ le 1 (9 - fr.hdr.ttl.toNat) ++ le 1 v.smgen)
          (recompute port.val (setPlc port.val { v with nodes := tblSet a p v.nodes } t))))) ∧
    (plcCoord t port.val = false → rd t (plcState port.val) = 3 →
      (fr.hdr.ttl ≠ 0 → Runs (.joinReq port fr uid want) s
        (relayUnit port.val 5 { fr with hdr := { fr.hdr with final := BitVec.ofNat 12 (v.coord.getD 0xFFF) } } ([0x01] ++ le 8 uid.toNat ++ le 2 want.toNat) t)) ∧
      (fr.hdr.ttl = 0 → Runs (.joinReq port fr uid want) s t)) := by
  dsimp only
  refine ⟨fun hcoord hres => joinReq_runs hup hl hw (joinReqIn_of_resigning hcoord hres), fun hcoord hres hnew => ?_, fun hcoord hst => ?_⟩
  · have hrun := joinReqIn_of_new (fr := fr) (want := want) hcoord hres hnew
    refine ⟨fun hfull => joinReq_runs hup hl hw (hrun.trans (if_pos hfull)), fun hroom hnone => joinReq_runs hup hl hw ?_,
      fun a hroom hsome => joinReq_runs hup hl hw ?_⟩
    · refine hrun.trans ((if_neg (Nat.not_le.mpr hroom)).trans ?_)
      rw [hnone]
    · refine hrun.trans ((if_neg (Nat.not_le.mpr hroom)).trans ?_)
      rw [hsome]
  · have hrun := joinReqIn_of_node (fr := fr) (uid := uid) (want := want) hcoord hst
    exact ⟨fun httl => joinReq_runs hup hl hw (hrun.trans (if_pos httl)), fun httl => joinReq_runs hup hl hw (hrun.trans (if_neg (not_not_intro httl)))⟩

theorem joinNoted_fields (n : Nat) (fr : PlcFrame) (node : BitVec 12) (hops : BitVec 8) (t : State) :
    rd (joinNoted n fr node hops t) (plcNode n) = node.toNat ∧ rd (joinNoted n fr node hops t) (plcHops n) = hops.toNat ∧
      (plcP (joinNoted n fr node hops t) n).join = .accepted ∧ (plcP (joinNoted n fr node hops t) n).coord = some fr.hdr.orig.toNat := by
  have hkey : (plcHops n).key ≠ (plcNode n).key := by
    simp only [plcHops, plcNode, plc, rk]
    omega
  unfold joinNoted
  rw [plcP_modPlc_same]
  refine ⟨?_, ?_, rfl, rfl⟩
  · exact (rd_wr_same (plcNode n) node.toNat (wr (plcHops n) hops.toNat t) (Nat.le_of_ble_eq_true rfl)).trans (Nat.mod_eq_of_lt node.isLt)
  · refine (rd_wr_other (plcNode n) (plcHops n) node.toNat (wr (plcHops n) hops.toNat t) hkey).trans ?_
    exact (rd_wr_same (plcHops n) hops.toNat t (Nat.le_of_ble_eq_true rfl)).trans (Nat.mod_eq_of_lt hops.isLt)

/-- Settles O36: each message's bytes are read back as the operands that it was sent with, and its MTYPE decides what it does. -/
theorem plcManagementRule : Obligations.PlcManagementRule := by
  unfold Obligations.PlcManagementRule
  intro port fr s t hup
  refine ⟨fun hl uid want hw => joinReq_clause hup hl hw, fun hl => ?_⟩
  refine ⟨?_, ?_, fun hcoord => congrArg Host.Outcome.next ((mgmtMsg_of_good hl hup rfl rfl).trans (if_pos hcoord)), ?_, ?_, ?_, ?_, ?_, ?_, ?_, ?_, ?_⟩
  case refine_1 =>
    intro uid node hops smgen k hjoin huid
    exact ⟨_, congrArg Host.Outcome.next ((mgmtMsg_of_good hl hup rfl rfl).trans (joinAccIn_eq hjoin huid)), joinNoted_fields ..⟩
  case refine_2 =>
    intro uid reason k hjoin huid hlo hhi
    exact congrArg Host.Outcome.next ((mgmtMsg_of_good hl hup rfl (decide_eq_true ⟨hlo, hhi⟩)).trans (joinRejIn_eq hjoin huid))
  case refine_3 =>
    intro p entries hcoord hnode hlen hmoved
    exact ⟨_, _, congrArg Host.Outcome.next (mgmtMsg_of_good hl hup rfl (decide_eq_true hlen)), nbrReportIn_node hlen hcoord hnode hmoved, rfl, rfl, rfl⟩
  case refine_4 =>
    intro entries hlen
    exact congrArg Host.Outcome.next (mgmtMsg_of_bad hl rfl (decide_eq_false (Nat.not_le.mpr hlen)))
  case refine_5 =>
    intro entries hcoord hlen
    exact congrArg Host.Outcome.next ((mgmtMsg_of_good hl hup rfl (decide_eq_true hlen)).trans (routeSetIn_eq hcoord hlen))
  case refine_6 =>
    intro smgen part npart bytes hcoord hpart
    have hrun := slotmap_runs (smgen := smgen) (bytes := bytes) hup hl hpart
    rw [slotmapIn_eq hcoord] at hrun
    refine ⟨fun hnone => ?_, fun b hsome hhdr hlen hgen => ?_⟩
    · dsimp only at hrun hnone
      rw [hnone] at hrun
      exact hrun
    · dsimp only at hrun hsome
      rw [hsome] at hrun
      refine hrun.trans (congrArg Host.Outcome.next ((if_neg ?_).trans (if_neg hgen)))
      simp [hhdr, hlen]
  case refine_7 =>
    intro tmi sf map hlo hhi hlen htmi hcoord hvalid
    have hgood : (decide (1 ≤ tmi.toNat ∧ tmi.toNat ≤ 15) && decide (map.length = 86) && decide (map.take 1 = [tmi])) = true := by
      simp [hlo, hhi, hlen, htmi]
    exact congrArg Host.Outcome.next ((mgmtMsg_of_good hl hup rfl hgood).trans (tonemapIn_eq hcoord hvalid))
  case refine_8 =>
    intro lchan peer hcoord
    exact congrArg Host.Outcome.next ((mgmtMsg_of_good hl hup rfl rfl).trans (emReqIn_eq hcoord lchan peer))
  case refine_9 =>
    intro lchan hcoord
    exact ⟨fun hown => congrArg Host.Outcome.next ((mgmtMsg_of_good hl hup rfl rfl).trans ((emRelIn_eq hcoord lchan).trans (if_pos hown))),
      fun hown => congrArg Host.Outcome.next ((mgmtMsg_of_good hl hup rfl rfl).trans ((emRelIn_eq hcoord lchan).trans (if_neg hown)))⟩
  case refine_10 =>
    intro netid hcoord
    refine ⟨_, plcResign_runs hup hl hcoord netid, ?_, ?_⟩
    · exact rd_wr_same (plcState port.val) 2 t (Nat.le_of_ble_eq_true rfl)
    · rw [startJoin, plcP_modPlc_same]
      exact ⟨rfl, rfl⟩
  case refine_11 =>
    intro netid sf hcoord
    exact ⟨fun hne => congrArg Host.Outcome.next ((mgmtMsg_of_good hl hup rfl rfl).trans ((foreignIn_eq hcoord netid sf).trans (if_pos hne))),
      fun he => congrArg Host.Outcome.next ((mgmtMsg_of_good hl hup rfl rfl).trans ((foreignIn_eq hcoord netid sf).trans (if_neg (not_not_intro he))))⟩

end Sys2Proof.Machine
end

section
/-! PROOFS. The powerline's timers (R389 to R391, R396, R398 to R400, R404, R405, Table 14.6). -/

namespace Sys2Proof.Machine

open Sys2Proof.Obl

/-! ### What queueing a frame leaves -/

section
variable {n : Nat} {final : Nat} {body : List Byte} {s : State}

/-- A management message that is queued once changes the queue and what is free alone. -/
theorem mgmtOnce_eq (n final : Nat) (body : List Byte) (s : State) :
    ∃ q, plcP (mgmtOnce n final body s) n = { plcP s n with txq := q } ∧ (mgmtOnce n final body s).regs = s.regs := by
  unfold mgmtOnce
  split
  · exact ⟨_, rfl, rfl⟩
  · exact ⟨_, plcP_setPlc_same .., rfl⟩

/-- Whether it stood there or not, a message of its MTYPE is queued then. -/
theorem mgmtOnce_queued (n final : Nat) (body : List Byte) (s : State) :
    ∃ u ∈ (plcP (mgmtOnce n final body s) n).txq, u.ft = 5 ∧ u.body.take 1 = body.take 1 := by
  unfold mgmtOnce
  split
  case isTrue hany =>
    obtain ⟨u, hu, hft⟩ := List.any_eq_true.mp hany
    simp only [Bool.and_eq_true, beq_iff_eq] at hft
    exact ⟨u, hu, hft⟩
  case isFalse =>
    refine ⟨{ ctlUnit 5 final body s with wait := drawWait s n }, ?_, rfl, rfl⟩
    rw [mgmt, plcP_setPlc_same]
    exact List.mem_append_right _ (List.mem_singleton_self _)

/-- The request to join goes out, and the wait for its answer begins. -/
theorem sendJoin_fields (n : Nat) (s : State) : (plcP (sendJoin n s) n).join = .asked 4 ∧ (plcP (sendJoin n s) n).cw = (plcP s n).cw ∧
    (sendJoin n s).regs = s.regs := by
  unfold sendJoin
  obtain ⟨q, hq, hregs⟩ := mgmtOnce_eq n 0xFFF ([0x01] ++ le 8 (myUid s) ++ le 2 (plcP s n).want) (modPlc n (fun v => { v with join := .asked 4 }) s)
  rw [hq, hregs, plcP_modPlc_same]
  exact ⟨rfl, rfl, rfl⟩

theorem plcPut_of_notVoice {u : PUnit} (hu : u.voice = none) (s : State) : plcPut n u s = setPlc n { plcP s n with txq := (plcP s n).txq ++ [u] } s := by
  have hgo : ¬ (u.voice.isSome = true ∧ 128 ≤ (plcP s n).txq.length) := by simp [hu]
  exact if_neg hgo

theorem unqueue_regs (fl : Nat) (seq : BitVec 16) (s : State) : (unqueue fl seq s).regs = s.regs := by
  unfold unqueue
  dsimp only

theorem foldl_unqueue_regs (fl : Nat) (l : List AMsg) (s : State) : (l.foldl (fun s m => unqueue fl m.seq s) s).regs = s.regs := by
  refine foldl_keeps State.regs ?_ l s
  intro s m
  exact unqueue_regs fl m.seq s

theorem plcMsg_net (n fl : Nat) (f : Flow) (seq : BitVec 16) (settle err : Bool) (payload : List Byte) (s : State) :
    (plcMsg n fl f seq settle err payload s).net = s.net ∧ (plcMsg n fl f seq settle err payload s).regs = s.regs := by
  unfold plcMsg
  refine ⟨foldl_keeps State.net (fun s e => ?_) _ s, foldl_keeps State.regs (fun s e => ?_) _ s⟩
  all_goals
    rw [plcPut_of_notVoice rfl]
    rfl

end

section
variable {port : Fin 4} {s : State} (hup : onyxUp s = true)
include hup

/-! ### Beacons lost, reports and the list of nodes (R391, R393) -/

theorem exec_beaconLoss (hst : rd s (plcState port.val) = 3) : exec (.beaconLoss port) s = .next (
    if rd s (plcBloss port.val) ≤ (plcP s port.val).silent then
      let u := wr (plcState port.val) 4 s
      plcAllLost port.val (startJoin port.val (rd u (plcNetid port.val)) (plcMe u port.val) u)
    else s) := by
  change execBeaconLoss port s = _
  unfold execBeaconLoss
  simp only [hst, hup, true_and, and_true]

/-- The report of what the node hears. -/
def reportBody (s : State) (n : Nat) : List Byte :=
  let near := ((plcP s n).nbrs.filter (fun e => decide (sfno s n < e.2.heardAt + 64))).take 104
  [0x05, BitVec.ofNat 8 near.length] ++ near.flatMap (fun e => le 2 e.1 ++ le 1 (linkCost e.2) ++ le 1 (toU 8 e.2.margin) ++ le 1 e.2.dec)

theorem exec_nbrReportPeriod (hst : rd s (plcState port.val) = 3) : exec (.nbrReportPeriod port) s = .next (
    if rd s (plcNbrper port.val) ≤ (plcP s port.val).sinceRep then
      mgmtOnce port.val ((plcP s port.val).coord.getD 0xFFF) (reportBody s port.val) (setPlc port.val { plcP s port.val with sinceRep := 0 } s)
    else s) := by
  change execNbrReportPeriod port s = _
  unfold execNbrReportPeriod
  simp only [hst, hup, true_and, and_true] <;> rfl

theorem exec_nodeDrop {node : BitVec 12} {p : PNode} (hcoord : plcCoord s port.val = true) (hnode : tblFind node.toNat (plcP s port.val).nodes = some p) :
    exec (.nodeDrop port node) s = .next (
      if p.reportAt + 4 * rd s (plcNbrper port.val) ≤ sfno s port.val then
        recompute port.val (setPlc port.val { plcP s port.val with nodes := tblDel node.toNat (plcP s port.val).nodes } s) else s) := by
  change execNodeDrop port node s = _
  unfold execNodeDrop
  dsimp only
  rw [hnode]
  simp only [hcoord, hup, true_and] <;> rfl

/-! ### Joining (R389, R390) -/

theorem exec_joinListenEnd (hjoin : (plcP s port.val).join = .listen 0) (hpar : (plcP s port.val).parent.isSome = true)
    (hopen : (plcP s port.val).bflags % 2 = 1) (hst : rd s (plcState port.val) ≠ 4) :
    exec (.joinListenEnd port) s = .next (sendJoin port.val (wr (plcState port.val) 2 s)) := by
  change execJoinListenEnd port s = _
  exact congrArg Host.Outcome.next ((if_pos ⟨hjoin, hpar, hopen, hup⟩).trans (congrArg (sendJoin port.val) (if_neg hst)))

theorem exec_joinAnswerWait_again (hjoin : (plcP s port.val).join = .asked 0) : exec (.joinAnswerWait port) s =
    .next (sendJoin port.val (setPlc port.val { plcP s port.val with cw := min 64 (2 * (plcP s port.val).cw) } s)) := by
  change execJoinAnswerWait port s = _
  exact congrArg Host.Outcome.next (if_pos ⟨hjoin, hup⟩)

omit hup in
theorem exec_joinAnswerWait_early {k : Nat} (hjoin : (plcP s port.val).join = .asked (k + 1)) : exec (.joinAnswerWait port) s = .next s := by
  have hgo : ¬ ((plcP s port.val).join = .asked 0 ∧ onyxUp s = true) := by
    rw [hjoin]
    rintro ⟨h, _⟩
    cases h
  change execJoinAnswerWait port s = _
  exact congrArg Host.Outcome.next (if_neg hgo)

/-! ### Links (R391) -/

omit hup in
theorem exec_linkAbsent {node : BitVec 12} {b : PNbr} (hnbr : tblFind node.toNat (plcP s port.val).nbrs = some b) :
    exec (.linkAbsent port node) s = .next (
      if b.heardAt + 64 ≤ sfno s port.val then
        let u := setPlc port.val { plcP s port.val with
          nbrs := tblDel node.toNat (plcP s port.val).nbrs
          parent := if (plcP s port.val).parent = some node.toNat then none else (plcP s port.val).parent } s
        if plcCoord s port.val ∧ onyxUp s then recompute port.val u else u
      else s) := by
  change execLinkAbsent port node s = _
  unfold execLinkAbsent
  dsimp only
  rw [hnbr]
  rfl

/-! ### Assured retries (R399, R400) -/

/-- The state in which every message sent and unacknowledged has been queued again. -/
def msgsAgain (n fl : Nat) (f : Flow) (s : State) : State :=
  let out := f.out.filter (·.sent)
  let cw (v : PlcPort) : Nat := if tblGet v.sentCont fl false then min 64 (2 * v.cw) else v.cw
  let u := modPlc n (fun v => { v with cw := cw v }) (setFlow fl (flowBumpN 40 out.length { f with misses := f.misses + 1 }) (bumpN (plcCnt n 19) out.length s))
  out.foldl (fun s m => plcMsg n fl f m.seq m.settle m.err m.payload s) (out.foldl (fun s m => unqueue fl m.seq s) u)

omit hup in
theorem msgsAgain_flow (n fl : Nat) (f : Flow) (s : State) :
    flow? (msgsAgain n fl f s) fl = some (flowBumpN 40 (f.out.filter (·.sent)).length { f with misses := f.misses + 1 }) := by
  unfold msgsAgain
  have hflows (l : List AMsg) (u : State) : (l.foldl (fun s m => plcMsg n fl f m.seq m.settle m.err m.payload s) u).net = u.net :=
    foldl_keeps State.net (fun s m => (plcMsg_net n fl f m.seq m.settle m.err m.payload s).1) l u
  have hcut (l : List AMsg) (u : State) : (l.foldl (fun s m => unqueue fl m.seq s) u).net.flows = u.net.flows :=
    foldl_keeps (fun s => s.net.flows) (f := fun s m => unqueue fl m.seq s) (fun _ _ => rfl) l u
  rw [flow?, hflows, hcut]
  exact tblFind_set_same ..

omit hup in
theorem sfno_msgsAgain (n fl : Nat) (f : Flow) (s : State) : sfno (msgsAgain n fl f s) n = sfno s n := by
  have hkey : (plcSfno n).key ≠ (plcCnt n 19).key := by
    simp only [plcSfno, plcCnt, plc, rk]
    omega
  have hmsgs (l : List AMsg) (u : State) : (l.foldl (fun s m => plcMsg n fl f m.seq m.settle m.err m.payload s) u).regs = u.regs :=
    foldl_keeps State.regs (fun s m => (plcMsg_net n fl f m.seq m.settle m.err m.payload s).2) l u
  have hset (g : PlcPort → PlcPort) (h : Flow) (u : State) : (modPlc n g (setFlow fl h u)).regs = u.regs := rfl
  have hregs : (msgsAgain n fl f s).regs = (bumpN (plcCnt n 19) (f.out.filter (·.sent)).length s).regs := by
    unfold msgsAgain
    dsimp only
    rw [hmsgs, foldl_unqueue_regs, hset]
  rw [sfno, rd_congr _ _ _ hregs]
  exact rd_wr_other _ _ _ _ hkey

/-- A flow whose acknowledgement is late: at the limit its path is lost, else its messages go again. -/
theorem exec_plcAssuredRetry {flow : BitVec 13} {f : Flow} (hf : flow? s flow.toNat = some f) (hfall : f.fallen = some port.val)
    (hout : f.out.any (·.sent) = true) (hready : plcReady s port.val = true)
    (hdue : tblGet (plcP s port.val).sentSf flow.toNat 0 + rd s (plcAretry port.val) ≤ sfno s port.val) :
    exec (.plcAssuredRetry port flow) s = .next (
      if rd s (plcAloss port.val) ≤ f.misses + 1 then plcPathLost flow.toNat s
      else modPlc port.val (fun v => { v with
          sentSf := tblSet flow.toNat (sfno (msgsAgain port.val flow.toNat f s) port.val) v.sentSf
          txq := v.txq.map (fun u => if u.flow = some flow.toNat then { u with tries := u.tries + 1 } else u) })
        (msgsAgain port.val flow.toNat f s)) := by
  have hne : (f.out.filter (·.sent)).isEmpty = false := by
    obtain ⟨m, hm, hs⟩ := List.any_eq_true.mp hout
    exact List.isEmpty_eq_false_iff_exists_mem.mpr ⟨m, List.mem_filter.mpr ⟨hm, hs⟩⟩
  have hgo : ¬ (f.fallen ≠ some port.val ∨ (f.out.filter (·.sent)).isEmpty = true ∨ (!plcReady s port.val) = true ∨
      sfno s port.val < tblGet (plcP s port.val).sentSf flow.toNat 0 + rd s (plcAretry port.val)) := by
    simp only [hfall, hne, hready, ne_eq, not_true_eq_false, Bool.false_eq_true, Bool.not_true, false_or]
    omega
  change execPlcAssuredRetry port flow s = _
  unfold execPlcAssuredRetry
  dsimp only
  rw [hf]
  refine congrArg Host.Outcome.next ((if_neg hgo).trans ?_)
  simp only [hup, and_true] <;> rfl

/-! ### Emergency grants, old voice and resigning (R396, R398, R404) -/

theorem exec_emergencyGrantIdle (hcoord : plcCoord s port.val = true) (hown : (plcP s port.val).emown ≠ 0) : exec (.emergencyGrantIdle port) s = .next (
    if rd s (plcEmidle port.val) ≤ (plcP s port.val).emIdle then tryGrant port.val (endGrant port.val s) else s) := by
  change execEmergencyGrantIdle port s = _
  unfold execEmergencyGrantIdle
  simp only [hcoord, hown, hup, ne_eq, not_false_eq_true, true_and, and_true]

omit hup in
/-- Of the voice queued only what is not too old stays. -/
theorem exec_voiceAge (port : Fin 4) (s : State) : ∃ t, exec (.voiceAge port) s = .next t ∧
    ∀ u ∈ (plcP t port.val).txq, u.voice.isSome = true → now s < u.at' + rd s (plcVage port.val) * 1000 := by
  have hplc (s : State) (u : PUnit) : (voiceLost 6 0 u.voice none s).plc = s.plc := by
    unfold voiceLost
    dsimp only
    split
    · exact modChan_plc ..
    · rfl
  refine ⟨_, rfl, fun u hu hv => ?_⟩
  rw [plcP, foldl_keeps State.plc hplc, ← plcP, plcP_setPlc_same] at hu
  obtain ⟨_, hyoung⟩ := List.mem_filter.mp hu
  simpa [hv] using hyoung

theorem exec_resignAnnouncementEnd (hres : (plcP s port.val).resignLeft = some 0) : exec (.resignAnnouncementEnd port) s = .next (
    let u := wr (plcState port.val) 6 (setPlc port.val { plcP s port.val with resignLeft := none, resigned := true, nodes := [] } s)
    startJoin port.val (plcP s port.val).seek (plcMe s port.val) u) := by
  change execResignAnnouncementEnd port s = _
  exact congrArg Host.Outcome.next (if_pos ⟨hres, hup⟩)

end

/-- Settles O37: each timer by its equation, on either side of its limit. -/
theorem plcTimersRule : Obligations.PlcTimersRule := by
  unfold Obligations.PlcTimersRule
  intro port s hup
  refine ⟨fun hst => ⟨fun h => ?_, fun h => ?_, fun h => ?_, fun h => ?_⟩, fun hjoin hpar hopen hst => ?_, fun hjoin => ?_,
    fun k => exec_joinAnswerWait_early, fun node p hcoord hnode => ⟨fun h => ?_, fun h => ?_⟩, fun node b hnbr => ⟨fun h hcoord => ?_, fun h => ?_⟩,
    fun flow f hf hfall hout hready hdue => ⟨fun h => ?_, fun h => ?_⟩, fun hcoord hown => ⟨fun h => ?_, fun h => ?_⟩, exec_voiceAge port s,
    fun hres => ?_, fun hres hquiet hen => ?_⟩
  · exact (exec_beaconLoss hup hst).trans (congrArg Host.Outcome.next (if_pos h))
  · exact (exec_beaconLoss hup hst).trans (congrArg Host.Outcome.next (if_neg (Nat.not_le.mpr h)))
  · exact (exec_nbrReportPeriod hup hst).trans (congrArg Host.Outcome.next (if_neg (Nat.not_le.mpr h)))
  · refine ⟨_, (exec_nbrReportPeriod hup hst).trans (congrArg Host.Outcome.next (if_pos h)), ?_, mgmtOnce_queued ..⟩
    obtain ⟨q, hq, _⟩ := mgmtOnce_eq port.val ((plcP s port.val).coord.getD 0xFFF) (reportBody s port.val)
      (setPlc port.val { plcP s port.val with sinceRep := 0 } s)
    rw [hq, plcP_setPlc_same]
  · obtain ⟨hj, _, hregs⟩ := sendJoin_fields port.val (wr (plcState port.val) 2 s)
    exact ⟨_, exec_joinListenEnd hup hjoin hpar hopen hst,
      (rd_congr _ _ _ hregs).trans (rd_wr_same (plcState port.val) 2 s (Nat.le_of_ble_eq_true rfl)), hj⟩
  · obtain ⟨hj, hcw, _⟩ := sendJoin_fields port.val (setPlc port.val { plcP s port.val with cw := min 64 (2 * (plcP s port.val).cw) } s)
    exact ⟨_, exec_joinAnswerWait_again hup hjoin, hj, hcw.trans (congrArg PlcPort.cw (plcP_setPlc_same ..))⟩
  · exact (exec_nodeDrop hup hcoord hnode).trans (congrArg Host.Outcome.next (if_pos h))
  · exact (exec_nodeDrop hup hcoord hnode).trans (congrArg Host.Outcome.next (if_neg (Nat.not_le.mpr h)))
  · have hno : ¬ (plcCoord s port.val = true ∧ onyxUp s = true) := fun hc => Bool.false_ne_true (hcoord.symm.trans hc.1)
    exact (exec_linkAbsent hnbr).trans (congrArg Host.Outcome.next ((if_pos h).trans (if_neg hno)))
  · exact (exec_linkAbsent hnbr).trans (congrArg Host.Outcome.next (if_neg (Nat.not_le.mpr h)))
  · exact (exec_plcAssuredRetry hup hf hfall hout hready hdue).trans (congrArg Host.Outcome.next (if_pos h))
  · refine ⟨_, (exec_plcAssuredRetry hup hf hfall hout hready hdue).trans (congrArg Host.Outcome.next (if_neg (Nat.not_le.mpr h))), ?_,
      _, msgsAgain_flow port.val flow.toNat f s, rfl, rfl⟩
    rw [plcP_modPlc_same, sfno_msgsAgain]
    exact tblFind_set_same ..
  · exact (exec_emergencyGrantIdle hup hcoord hown).trans (congrArg Host.Outcome.next (if_pos h))
  · exact (exec_emergencyGrantIdle hup hcoord hown).trans (congrArg Host.Outcome.next (if_neg (Nat.not_le.mpr h)))
  · refine ⟨_, exec_resignAnnouncementEnd hup hres, ?_, ?_⟩
    · exact rd_wr_same (plcState port.val) 6 (setPlc port.val { plcP s port.val with resignLeft := none, resigned := true, nodes := [] } s)
        (Nat.le_of_ble_eq_true rfl)
    · have hport (v : PlcPort) : plcP (wr (plcState port.val) 6 (setPlc port.val v s)) port.val = v := plcP_setPlc_same ..
      dsimp only
      rw [startJoin, plcP_modPlc_same, hport]
      exact ⟨rfl, rfl, rfl, rfl⟩
  · exact congrArg Host.Outcome.next (if_pos ⟨hres, hquiet, hup, hen⟩)

end Sys2Proof.Machine
end

section
/-! PROOFS. Opal's outputs, losses and returns; the frames of the TDM ports (R409, R418, R419, R422, R425 to R427, R431). -/

namespace Sys2Proof.Machine

open Sys2Proof.Obl

/-! ### Opal (R409, R418, R419, R431) -/

section
variable {k : Fin 64} {inputs : List Int} {tIn : BitVec 64} {s : State} (hon : domOn s 6 = true) (hen : flag s (sscEn k.val) = true)
  (hsdm : flag s (sscSdmLost k.val) = false)
include hon hen hsdm

/-- An output of a slot that runs: of the loop where that is its source, of the inputs else. -/
theorem exec_slotOutput : exec (.slotOutput k inputs tIn) s = .next (
    let u := applyPend k.val s
    let need := rd u (sscRcic k.val) * rd u (sscD k.val)
    if rd u (sscSrc k.val) = 28 then
      let o := slot u k.val
      if o.loop.length < need then s
      else
        let xs := o.loop.take need
        slotOut k.val (xs.map (·.1)) ((xs.getLast?.map (·.2)).getD 0) (setSlot k.val { o with loop := o.loop.drop need } u)
    else if inputs.length ≠ need then s
    else slotOut k.val inputs tIn.toNat u) := by
  have hgo : ¬ (!domOn s 6 || !flag s (sscEn k.val) || flag s (sscSdmLost k.val)) = true := by simp [hon, hen, hsdm]
  change execSlotOutput k inputs tIn s = _
  exact congrArg Host.Outcome.next (if_neg hgo)

theorem slotOutput_of_inputs (hsrc : rd (applyPend k.val s) (sscSrc k.val) ≠ 28) :
    let u := applyPend k.val s
    (inputs.length = rd u (sscRcic k.val) * rd u (sscD k.val) → Runs (.slotOutput k inputs tIn) s (slotOut k.val inputs tIn.toNat u)) ∧
    (inputs.length ≠ rd u (sscRcic k.val) * rd u (sscD k.val) → Runs (.slotOutput k inputs tIn) s s) :=
  ⟨fun h => (exec_slotOutput hon hen hsdm).trans (congrArg Host.Outcome.next ((if_neg hsrc).trans (if_neg (not_not_intro h)))),
    fun h => (exec_slotOutput hon hen hsdm).trans (congrArg Host.Outcome.next ((if_neg hsrc).trans (if_pos h)))⟩

theorem slotOutput_of_loop (hsrc : rd (applyPend k.val s) (sscSrc k.val) = 28) :
    let u := applyPend k.val s
    let o := slot u k.val
    let need := rd u (sscRcic k.val) * rd u (sscD k.val)
    (o.loop.length < need → Runs (.slotOutput k inputs tIn) s s) ∧
    (need ≤ o.loop.length → ∀ x, (o.loop.take need).getLast? = some x → Runs (.slotOutput k inputs tIn) s
      (slotOut k.val ((o.loop.take need).map (·.1)) x.2 (setSlot k.val { o with loop := o.loop.drop need } u))) := by
  refine ⟨fun h => (exec_slotOutput hon hen hsdm).trans (congrArg Host.Outcome.next ((if_pos hsrc).trans (if_pos h))), fun h x hx => ?_⟩
  refine (exec_slotOutput hon hen hsdm).trans (congrArg Host.Outcome.next ((if_pos hsrc).trans ((if_neg (Nat.not_lt.mpr h)).trans ?_)))
  dsimp only
  rw [hx]
  rfl

end

/-! ### Alignment of a TDM port (R422, R425) -/

theorem tells_alignNote (p : Nat) (gained : Bool) (s : State) : Tells s (alignNote p gained s) := by
  unfold alignNote
  split
  · exact Tells.refl s
  · exact tells_notify ..

section
variable (port : Fin 16) (s : State)

theorem tellKey_tdm (off lo w : Nat) (h : off < 256) : tellKey (tdm port.val off lo w).key = false := by
  simp only [tellKey, tdm, rk, Bool.or_eq_false_iff, beq_eq_false_iff_ne]
  omega

/-- A port that becomes aligned is so at the offset given; of it no more than that changes. -/
theorem setAligned_spec (a : Nat) : rd (setAligned port.val a s) (tdmState port.val) = 2 ∧ rd (setAligned port.val a s) (tdmOffset port.val) = a % 1024 ∧
    (setAligned port.val a s).tdm = s.tdm := by
  have ht := tells_alignNote port.val true (wr (tdmOffset port.val) a (wr (tdmState port.val) 2 s))
  have hapart : apart (tdmOffset port.val) (tdmState port.val) = true := by simp [apart, tdmOffset, tdmState, tdm]
  refine ⟨(ht.rd (f := tdmState port.val) (tellKey_tdm port 8 0 2 (by decide))).trans ?_, (ht.rd (f := tdmOffset port.val) (tellKey_tdm port 8 16 10 (by decide))).trans ?_, ht.tdm⟩
  · rw [rd_wr_apart _ _ hapart]
    exact rd_wr_same (tdmState port.val) 2 s (Nat.le_of_ble_eq_true rfl)
  · exact rd_wr_same (tdmOffset port.val) a _ (Nat.le_of_ble_eq_true rfl)

theorem setLost_spec {st : Nat} (h : st < 4) : rd (setLost port.val st s) (tdmState port.val) = st ∧ (setLost port.val st s).tdm = s.tdm := by
  have hapart : apart (tdmOffset port.val) (tdmState port.val) = true := by simp [apart, tdmOffset, tdmState, tdm]
  have hwr : rd (wr (tdmState port.val) st s) (tdmState port.val) = st :=
    (rd_wr_same (tdmState port.val) st s (Nat.le_of_ble_eq_true rfl)).trans (Nat.mod_eq_of_lt h)
  unfold setLost
  split
  · have ht := tells_alignNote port.val false (wr (tdmOffset port.val) 0 (wr (tdmState port.val) st s))
    refine ⟨(ht.rd (f := tdmState port.val) (tellKey_tdm port 8 0 2 (by decide))).trans ?_, ht.tdm⟩
    rw [rd_wr_apart _ _ hapart, hwr]
  · exact ⟨hwr, rfl⟩

end

/-! ### Frames (R421 to R424) -/

/-- The state in which a port has taken what it received in a frame, and sent its own. -/
def tdmMoved (p : Nat) (rx : TdmData) (s : State) : State :=
  let sf := frameSlots (rd s (tdmRate p))
  let cur := padTo sf rx.bytes
  let a := rd s (tdmOffset p)
  let first := if a = 0 then rx.stamp.toNat else rx.stamp.toNat - 125000 + a * 125000 / (8 * sf)
  sendTx p (takeRx p first (rxSlots sf a (tdmPort s p).prev cur) (setTdm p { tdmPort s p with prev := cur } s))

theorem takeRx_keeps (p at' : Nat) (slots : List Byte) (s : State) : (takeRx p at' slots s).regs = s.regs ∧
    (tdmPort (takeRx p at' slots s) p).prevFs = (tdmPort s p).prevFs ∧ (tdmPort (takeRx p at' slots s) p).miss = (tdmPort s p).miss := by
  unfold takeRx
  refine ⟨foldl_keeps State.regs (fun s k => ?_) _ s, foldl_keeps (fun s => (tdmPort s p).prevFs) (fun s k => ?_) _ s,
    foldl_keeps (fun s => (tdmPort s p).miss) (fun s k => ?_) _ s⟩
  all_goals
    dsimp only
    split
  · rfl
  · rfl
  · rw [tdmPort_setTdm_same]
  · rfl
  · rw [tdmPort_setTdm_same]
  · rfl

theorem tdmMoved_keeps (p : Nat) (rx : TdmData) (s : State) : (tdmMoved p rx s).regs = s.regs ∧
    (tdmPort (tdmMoved p rx s) p).prevFs = (tdmPort s p).prevFs ∧ (tdmPort (tdmMoved p rx s) p).miss = (tdmPort s p).miss := by
  unfold tdmMoved
  dsimp only
  generalize (if rd s (tdmOffset p) = 0 then rx.stamp.toNat else _) = first
  generalize rxSlots _ _ _ _ = slots
  obtain ⟨hregs, hfs, hmiss⟩ := takeRx_keeps p first slots (setTdm p { tdmPort s p with prev := padTo (frameSlots (rd s (tdmRate p))) rx.bytes } s)
  rw [tdmPort_setTdm_same] at hfs hmiss
  unfold sendTx
  dsimp only
  rw [tdmPort_setTdm_same]
  exact ⟨hregs, hfs, hmiss⟩

section
variable {p q : Nat} {u : State}

/-- Under an external frame sync, a second sync at one place aligns a port. -/
theorem fsFrame_again (hst : rd u (tdmState p) ≠ 2) (hprev : (tdmPort u p).prevFs = some q) :
    fsFrame p (some q) true u = setAligned p 0 (setTdm p { tdmPort u p with prevFs := none, miss := 0 } u) := by
  have hgo : ¬ (decide (rd u (tdmState p) = 2) || !true) = true := by simp [hst]
  cases q with
  | zero => exact (if_neg hgo).trans (if_pos hprev)
  | succ q => exact (if_neg hgo).trans (if_pos hprev)

/-- A first sync at a place is noted. -/
theorem fsFrame_first (hst : rd u (tdmState p) ≠ 2) (hprev : (tdmPort u p).prevFs ≠ some q) :
    fsFrame p (some q) true u = setTdm p { tdmPort u p with prevFs := some q } u := by
  have hgo : ¬ (decide (rd u (tdmState p) = 2) || !true) = true := by simp [hst]
  cases q with
  | zero => exact (if_neg hgo).trans (if_neg hprev)
  | succ q => exact (if_neg hgo).trans (if_neg hprev)

theorem fsFrame_inPlace (hst : rd u (tdmState p) = 2) : fsFrame p (some 0) true u = setTdm p { tdmPort u p with prevFs := none, miss := 0 } u := by
  have hgo : (decide (rd u (tdmState p) = 2) || !true) = true := by simp [hst]
  exact if_pos hgo

/-- The eighth frame in a row without sync loses alignment. -/
theorem fsFrame_eighth (hst : rd u (tdmState p) = 2) (hmiss : (tdmPort u p).miss = 7) :
    fsFrame p none true u = setLost p 0 (setTdm p { tdmPort u p with prevFs := none, miss := 0 } u) := by
  have hgo : (decide (rd u (tdmState p) = 2) || !true) = true := by simp [hst]
  have height : (tdmPort u p).miss + 1 = 8 := by omega
  exact (if_pos hgo).trans (if_pos height)

end

section
variable {port : Fin 16} {rx : TdmData} {s : State} (hon : domOn s 6 = true) (hen : flag s (tdmEn port.val) = true)
  (hst : rd s (tdmState port.val) ≠ 3) (hib : inBand s port.val = false)
include hon hen hst hib

/-- What a frame leaves of a port without in-band alignment: `w` is what the frame sync makes of it. -/
theorem exec_tdmFrameEnd (fs : Option (BitVec 10)) : exec (.tdmFrameEnd port fs rx) s = .next (
    let u := tdmMoved port.val rx s
    let w := if intFs s port.val then (if rd s (tdmState port.val) ≠ 2 then setAligned port.val 0 u else u)
      else fsFrame port.val (fs.map (·.toNat)) true u
    if rd w (tdmState port.val) = 2 then w
    else bump (tdmRxErr port.val) (setTdm port.val { tdmPort w port.val with err := true } w)) := by
  have hgo : ¬ (!domOn s 6 || !flag s (tdmEn port.val) || rd s (tdmState port.val) == 3) = true := by simp [hon, hen, hst]
  obtain ⟨hregs, _, _⟩ := tdmMoved_keeps port.val rx s
  have hint : intFs (tdmMoved port.val rx s) port.val = intFs s port.val := by rw [intFs, intFs, rd_congr _ _ _ hregs]
  have hstate : rd (tdmMoved port.val rx s) (tdmState port.val) = rd s (tdmState port.val) := rd_congr _ _ _ hregs
  change execTdmFrameEnd port fs rx s = _
  refine congrArg Host.Outcome.next ((if_neg hgo).trans ?_)
  dsimp only
  rw [hib, if_neg Bool.false_ne_true]
  change (let w := if intFs (tdmMoved port.val rx s) port.val then
      (if !false && rd (tdmMoved port.val rx s) (tdmState port.val) != 2 then setAligned port.val 0 (tdmMoved port.val rx s) else tdmMoved port.val rx s)
      else fsFrame port.val (fs.map (·.toNat)) (!false) (tdmMoved port.val rx s)
    if rd w (tdmState port.val) = 2 then w
    else bump (tdmRxErr port.val) (setTdm port.val { tdmPort w port.val with err := true } w)) = _
  rw [hint, hstate]
  simp only [Bool.not_false, Bool.true_and, bne_iff_ne]

end

/-- An aligned port keeps what the frame left. -/
theorem tdmFrame_aligned {p : Nat} {w : State} (h : rd w (tdmState p) = 2) :
    (if rd w (tdmState p) = 2 then w else bump (tdmRxErr p) (setTdm p { tdmPort w p with err := true } w)) = w := if_pos h

/-- A port that is not aligned has the frame counted, and shows it. -/
theorem tdmFrame_unaligned {p : Nat} {w : State} (h : rd w (tdmState p) ≠ 2) :
    let t := if rd w (tdmState p) = 2 then w else bump (tdmRxErr p) (setTdm p { tdmPort w p with err := true } w)
    rd t (tdmState p) = rd w (tdmState p) ∧ tdmPort t p = { tdmPort w p with err := true } := by
  have hkey : (tdmState p).key ≠ (tdmRxErr p).key := by simp [tdmState, tdmRxErr, tdm, rk]
  dsimp only
  rw [if_neg h]
  exact ⟨rd_bump_other _ hkey, tdmPort_setTdm_same ..⟩

/-- The clauses of a frame's end, for a port without in-band alignment. -/
theorem tdmFrameEnd_clause {port : Fin 16} {rx : TdmData} {s : State} (hon : domOn s 6 = true) (hen : flag s (tdmEn port.val) = true)
    (hst : rd s (tdmState port.val) ≠ 3) (hib : inBand s port.val = false) :
    let p := port.val
    let u := tdmMoved p rx s
    (intFs s p = true → rd s (tdmState p) = 2 → ∀ fs, Runs (.tdmFrameEnd port fs rx) s u) ∧
    (intFs s p = true → rd s (tdmState p) ≠ 2 → ∀ fs, ∃ t, Runs (.tdmFrameEnd port fs rx) s t ∧ rd t (tdmState p) = 2 ∧ rd t (tdmOffset p) = 0) ∧
    (∀ fs : BitVec 10, intFs s p = false → rd s (tdmState p) ≠ 2 →
      ((tdmPort s p).prevFs = some fs.toNat →
        ∃ t, Runs (.tdmFrameEnd port (some fs) rx) s t ∧ rd t (tdmState p) = 2 ∧ rd t (tdmOffset p) = 0 ∧ (tdmPort t p).prevFs = none) ∧
      ((tdmPort s p).prevFs ≠ some fs.toNat →
        ∃ t, Runs (.tdmFrameEnd port (some fs) rx) s t ∧ rd t (tdmState p) = rd s (tdmState p) ∧ (tdmPort t p).prevFs = some fs.toNat ∧
          (tdmPort t p).err = true)) ∧
    (intFs s p = false → rd s (tdmState p) = 2 → Runs (.tdmFrameEnd port (some 0) rx) s (setTdm p { tdmPort u p with prevFs := none, miss := 0 } u)) ∧
    (intFs s p = false → rd s (tdmState p) = 2 → (tdmPort s p).miss = 7 →
      ∃ t, Runs (.tdmFrameEnd port none rx) s t ∧ rd t (tdmState p) = 0 ∧ (tdmPort t p).miss = 0 ∧ (tdmPort t p).err = true) := by
  obtain ⟨hregs, hprev, hmiss⟩ := tdmMoved_keeps port.val rx s
  have hstate : rd (tdmMoved port.val rx s) (tdmState port.val) = rd s (tdmState port.val) := rd_congr _ _ _ hregs
  have hrun (fs : Option (BitVec 10)) (w : State) (hw : (if intFs s port.val then (if rd s (tdmState port.val) ≠ 2 then
      setAligned port.val 0 (tdmMoved port.val rx s) else tdmMoved port.val rx s) else fsFrame port.val (fs.map (·.toNat)) true (tdmMoved port.val rx s)) = w) :
      exec (.tdmFrameEnd port fs rx) s = .next (if rd w (tdmState port.val) = 2 then w
        else bump (tdmRxErr port.val) (setTdm port.val { tdmPort w port.val with err := true } w)) := by
    rw [exec_tdmFrameEnd hon hen hst hib, ← hw]
  refine ⟨fun hint h2 fs => ?_, fun hint h2 fs => ?_, fun fs hint h2 => ⟨fun hfs => ?_, fun hfs => ?_⟩, fun hint h2 => ?_, fun hint h2 h7 => ?_⟩
  · exact (hrun fs _ ((if_pos hint).trans (if_neg (not_not_intro h2)))).trans (congrArg Host.Outcome.next (tdmFrame_aligned (hstate.trans h2)))
  · obtain ⟨h2', hoff, _⟩ := setAligned_spec port (tdmMoved port.val rx s) 0
    exact ⟨_, (hrun fs _ ((if_pos hint).trans (if_pos h2))).trans (congrArg Host.Outcome.next (tdmFrame_aligned h2')), h2', hoff⟩
  · obtain ⟨h2', hoff, htdm⟩ := setAligned_spec port
      (setTdm port.val { tdmPort (tdmMoved port.val rx s) port.val with prevFs := none, miss := 0 } (tdmMoved port.val rx s)) 0
    have hw := fsFrame_again (hstate.trans_ne h2) (hprev.trans hfs)
    refine ⟨_, (hrun (some fs) _ ((if_neg (ne_true_of_eq_false hint)).trans hw)).trans (congrArg Host.Outcome.next (tdmFrame_aligned h2')), h2', hoff, ?_⟩
    rw [tdmPort, htdm, ← tdmPort, tdmPort_setTdm_same]
  · have hw := fsFrame_first (hstate.trans_ne h2) (hprev.trans_ne hfs)
    obtain ⟨hst', hport⟩ := tdmFrame_unaligned (p := port.val)
      (w := setTdm port.val { tdmPort (tdmMoved port.val rx s) port.val with prevFs := some fs.toNat } (tdmMoved port.val rx s)) (hstate.trans_ne h2)
    refine ⟨_, hrun (some fs) _ ((if_neg (ne_true_of_eq_false hint)).trans hw), hst'.trans hstate, ?_⟩
    rw [hport, tdmPort_setTdm_same]
    exact ⟨rfl, rfl⟩
  · have hw := fsFrame_inPlace (hstate.trans h2)
    exact (hrun (some 0) _ ((if_neg (ne_true_of_eq_false hint)).trans hw)).trans (congrArg Host.Outcome.next (tdmFrame_aligned (hstate.trans h2)))
  · have hw := fsFrame_eighth (hstate.trans h2) (hmiss.trans h7)
    obtain ⟨h0, htdm⟩ := setLost_spec port
      (setTdm port.val { tdmPort (tdmMoved port.val rx s) port.val with prevFs := none, miss := 0 } (tdmMoved port.val rx s)) (st := 0) (by decide)
    obtain ⟨hst', hport⟩ := tdmFrame_unaligned (p := port.val) (ne_of_eq_of_ne h0 (by decide))
    refine ⟨_, hrun none _ ((if_neg (ne_true_of_eq_false hint)).trans hw), hst'.trans h0, ?_⟩
    rw [hport, tdmPort, htdm, ← tdmPort, tdmPort_setTdm_same]
    exact ⟨rfl, rfl⟩

/-! ### The clock of a port (R422, R425) -/

section
variable {port : Fin 16} {s : State}

theorem exec_tdmClockLost (hen : flag s (tdmEn port.val) = true) (hint : intClk s port.val = false) (hst : rd s (tdmState port.val) ≠ 3) :
    exec (.tdmClockLost port) s = .next (wr (tdmCand port.val) 0 (setLost port.val 3
      (setTdm port.val { tdmPort s port.val with err := true, cands := [], prevFs := none, miss := 0 } s))) := by
  have hgo : (flag s (tdmEn port.val) && !intClk s port.val && rd s (tdmState port.val) != 3) = true := by simp [hen, hint, hst]
  change execTdmClockLost port s = _
  exact congrArg Host.Outcome.next (if_pos hgo)

/-- A port whose clock is lost is out of timing, with nothing left of its search. -/
theorem tdmClockLost_clause (hen : flag s (tdmEn port.val) = true) (hint : intClk s port.val = false) (hst : rd s (tdmState port.val) ≠ 3) :
    ∃ t, Runs (.tdmClockLost port) s t ∧ rd t (tdmState port.val) = 3 ∧ rd t (tdmCand port.val) = 0 ∧ (tdmPort t port.val).err = true ∧
      (tdmPort t port.val).cands = [] := by
  have hapart : apart (tdmCand port.val) (tdmState port.val) = true := by simp [apart, tdmCand, tdmState, tdm]
  obtain ⟨h3, htdm⟩ := setLost_spec port (setTdm port.val { tdmPort s port.val with err := true, cands := [], prevFs := none, miss := 0 } s)
    (st := 3) (by decide)
  refine ⟨_, exec_tdmClockLost hen hint hst, ?_, ?_, ?_⟩
  · rw [rd_wr_apart _ _ hapart, h3]
  · exact rd_wr_same (tdmCand port.val) 0 _ (Nat.le_of_ble_eq_true rfl)
  · have hport (u : State) : tdmPort (wr (tdmCand port.val) 0 u) port.val = tdmPort u port.val := rfl
    rw [hport, tdmPort, htdm, ← tdmPort, tdmPort_setTdm_same]
    exact ⟨rfl, rfl⟩

/-- The enable ends with whether the port is aligned. -/
theorem exec_tdmEnableSettled {k : Nat} (hset : (tdmPort s port.val).settleAt = some k) (hk : k ≤ now s) :
    exec (.tdmEnableSettled port) s = .next (finishWait (.tdm port.val) stOk [if rd s (tdmState port.val) = 2 then 1 else 0]
      (setTdm port.val { tdmPort s port.val with settleAt := none } s)) := by
  have hdue : due s (tdmPort s port.val).settleAt = true := by rw [hset]; exact due_some hk
  have hcode : le 1 (b2n (rd s (tdmState port.val) = 2)) = [if rd s (tdmState port.val) = 2 then 1 else 0] := by
    by_cases h : rd s (tdmState port.val) = 2 <;> simp [h, b2n, le]
  change execTdmEnableSettled port s = _
  rw [← hcode]
  exact congrArg Host.Outcome.next (if_pos hdue)

end

/-- Settles O38: Opal's events by their equations, a TDM port's frames by what the frame sync makes of them. -/
theorem opalTdmEventsRule : Obligations.OpalTdmEventsRule := by
  unfold Obligations.OpalTdmEventsRule
  intro s
  refine ⟨fun k inputs tIn hon hen hsdm hsrc => slotOutput_of_inputs hon hen hsdm hsrc,
    fun k inputs tIn hon hen hsdm hsrc => slotOutput_of_loop hon hen hsdm hsrc, ?_, ?_, ?_, ?_, ?_⟩
  case refine_1 =>
    intro k idx at' o t hhold hat
    have hdue : due s t.hold = true := by rw [hhold]; exact due_some hat
    exact congrArg Host.Outcome.next (if_pos hdue)
  case refine_2 =>
    intro k hen hsrc hsdm
    have hgo : (flag s (sscEn k.val) && decide (rd s (sscSrc k.val) < 24) && !flag s (sscSdmLost k.val)) = true := by simp [hen, hsrc, hsdm]
    exact congrArg Host.Outcome.next (if_pos hgo)
  case refine_3 =>
    intro k hsdm
    exact congrArg Host.Outcome.next (if_pos hsdm)
  case refine_4 =>
    intro port bytes at' p hon hen hst hib
    exact tdmFrameEnd_clause (rx := ⟨bytes, at'⟩) hon hen hst hib
  case refine_5 =>
    intro port
    exact ⟨tdmClockLost_clause, fun h3 => congrArg Host.Outcome.next (if_pos h3), fun k => exec_tdmEnableSettled⟩

end Sys2Proof.Machine
end

section
/-! PROOFS. Topaz: jobs start, yield and end; log segments are closed and written (R133, R218, R302, R432, R433, R435, R437, R439, R440, R445 to R449, R453). -/

namespace Sys2Proof.Machine

open Sys2Proof.Obl

/-! ### Jobs that start (R433, R440) -/

section
variable {eng : Fin 4} {s : State}

theorem exec_topazJobStart (hon : domOn s 7 = true) (hsafe : s.pwr.safe = false) (hidle : jobOn s eng.val = none) (chain : Dma) :
    exec (.topazJobStart eng chain) s = .next (match nextJob s eng.val with
      | none => s
      | some j =>
        let (l, s) := if j.lease.isNone then grantLease j.ctx s else (j.lease, s)
        if l.isNone then s else startJob { j with lease := l } eng.val chain s) := by
  have hgo : ¬ ((!domOn s 7) = true ∨ s.pwr.safe = true ∨ (jobOn s eng.val).isSome = true) := by simp [hon, hsafe, hidle]
  change execTopazJobStart eng chain s = _
  exact congrArg Host.Outcome.next (if_neg hgo)

theorem topazJobStart_none (hon : domOn s 7 = true) (hsafe : s.pwr.safe = false) (hidle : jobOn s eng.val = none) (chain : Dma)
    (hnext : nextJob s eng.val = none) : exec (.topazJobStart eng chain) s = .next s := by
  rw [exec_topazJobStart hon hsafe hidle, hnext]

/-- A job that has its lease goes to the engine as it stands. -/
theorem topazJobStart_leased {j : TpzJob} {l : Nat × BitVec 24} (hon : domOn s 7 = true) (hsafe : s.pwr.safe = false) (hidle : jobOn s eng.val = none)
    (chain : Dma) (hnext : nextJob s eng.val = some j) (hl : j.lease = some l) : exec (.topazJobStart eng chain) s = .next (startJob j eng.val chain s) := by
  have hheld : ¬ j.lease.isNone = true := by simp [hl]
  rw [exec_topazJobStart hon hsafe hidle, hnext]
  dsimp only
  rw [if_neg hheld]
  exact congrArg Host.Outcome.next (if_neg hheld)

/-- A job that fails before it begins leaves its context as it is. -/
def failedStart (j : TpzJob) (err : Nat) (s : State) : State := endJobAs j err 0 (ctxOf s j.ctx).check [] (ctxOf s j.ctx) s

variable {j : TpzJob} {e : Nat} {chain : Dma}

theorem startJob_denied (hgate : jobGate s j = false) : startJob j e chain s = failedStart j 0x51 s := by
  have hgo : (!jobGate s j) = true := by simp [hgate]
  exact if_pos hgo

theorem startJob_resumed (hgate : jobGate s j = true) (hents : j.ents.isSome = true) : startJob j e chain s = setJob { j with eng := some e } s := by
  have hgo : ¬ (!jobGate s j) = true := by simp [hgate]
  exact (if_neg hgo).trans (if_pos hents)

/-- The chain list comes with the job, or from host memory. -/
theorem startJob_first (hgate : jobGate s j = true) (hents : j.ents = none) : startJob j e chain s =
    match (if j.inline = [] then chain else .data j.inline) with
    | .error => failedStart j 0x50 s
    | .data b => match chainEnts j.nchain (padTo (16 * j.nchain) b) with
      | none => failedStart j 3 s
      | some l => setCtx j.ctx (jobCtx j) (setJob { j with eng := some e, ents := some l } s) := by
  have hgo : ¬ (!jobGate s j) = true := by simp [hgate]
  have hnew : ¬ j.ents.isSome = true := by simp [hents]
  exact (if_neg hgo).trans (if_neg hnew)

end

/-! ### Jobs that yield and end (R433, R435, R446 to R449) -/

section
variable {eng : Fin 4} {s : State} {j : TpzJob} (hj : jobOn s eng.val = some j) (hsafe : s.pwr.safe = false)
include hj hsafe

theorem exec_topazYield_better (hbetter : ∃ k ∈ s.tpz.jobs, k.eng = none ∧ k.op = j.op ∧ k.prio < j.prio) :
    exec (.topazYield eng) s = .next (bump (tpzCnt 4) (setJob { j with eng := none } s)) := by
  obtain ⟨k, hk, heng, hop, hprio⟩ := hbetter
  have hany : s.tpz.jobs.any (fun k => k.eng.isNone && k.op == j.op && decide (k.prio < j.prio)) = true :=
    List.any_eq_true.mpr ⟨k, hk, by simp [heng, hop, hprio]⟩
  change execTopazYield eng s = _
  unfold execTopazYield
  rw [hj]
  exact congrArg Host.Outcome.next (if_pos ⟨by simp [hsafe], .inl hany⟩)

omit hsafe in
theorem exec_topazYield_first (hfirst : ∀ k ∈ s.tpz.jobs, k.eng = none → k.op = j.op → j.prio ≤ k.prio) (hth : s.onyx.thermal < 2) :
    exec (.topazYield eng) s = .next s := by
  have hno : ¬ ((!s.pwr.safe) = true ∧ (s.tpz.jobs.any (fun k => k.eng.isNone && k.op == j.op && decide (k.prio < j.prio)) = true ∨
      (2 ≤ s.onyx.thermal ∧ 5 ≤ j.prio))) := by
    rintro ⟨_, hany | ⟨hth', _⟩⟩
    · obtain ⟨k, hk, hp⟩ := List.any_eq_true.mp hany
      simp only [Bool.and_eq_true, Option.isNone_iff_eq_none, beq_iff_eq, decide_eq_true_eq] at hp
      exact absurd (hfirst k hk hp.1.1 hp.1.2) (Nat.not_le.mpr hp.2)
    · omega
  change execTopazYield eng s = _
  unfold execTopazYield
  rw [hj]
  exact congrArg Host.Outcome.next (if_neg hno)

/-- A job that the gate turns away is cut off. -/
theorem exec_topazJobEnd_denied {l : Nat} {ep : BitVec 24} (hgate : jobGate s j = false) (hl : j.lease = some (l, ep)) (r : TpzEnd) :
    exec (.topazJobEnd eng r) s = .next (cutJob j 0x51 (jobData j r.src) (leaseDenied l s)) := by
  have hgo : ¬ s.pwr.safe = true := by simp [hsafe]
  have hno : (!jobGate s j) = true := by simp [hgate]
  change execTopazJobEnd eng r s = _
  unfold execTopazJobEnd
  rw [hj]
  refine congrArg Host.Outcome.next ((if_neg hgo).trans ((if_pos hno).trans ?_))
  rw [hl]

/-- A job whose gate is open ends on its input, or is cut off where it has none. -/
theorem exec_topazJobEnd (hgate : jobGate s j = true) (r : TpzEnd) : exec (.topazJobEnd eng r) s = .next (match jobData j r.src with
    | none => cutJob j 0x50 none s
    | some d => closeJob j d r.upset s) := by
  have hgo : ¬ s.pwr.safe = true := by simp [hsafe]
  have hno : ¬ (!jobGate s j) = true := by simp [hgate]
  change execTopazJobEnd eng r s = _
  unfold execTopazJobEnd
  rw [hj]
  exact congrArg Host.Outcome.next ((if_neg hgo).trans (if_neg hno))

end

/-- The verifier upsets only a deflate job that it checks. -/
theorem closeJob_notVerified {j : TpzJob} {d : List Byte} {s : State} (h : j.op ≠ 0 ∨ j.flags / 2 % 2 = 0) :
    closeJob j d .verifyCheck s = s ∧ ∀ i o : BitVec 32, closeJob j d (.verifyData i o) s = s := by
  have hno : ¬ (j.op = 0 ∧ j.flags / 2 % 2 = 1) := by omega
  exact ⟨if_neg hno, fun i o => if_neg hno⟩

/-! ### Segments that close (R302, R453) -/

/-- A command that ends leaves the segments as they are. -/
theorem finish_segs (c : Cmd) (st : Nat) (r : List Byte) (s : State) :
    (finish c st r s).host.segs = s.host.segs ∧ (finish c st r s).host.segNum = s.host.segNum := by
  have hphase (i p fs fl : Nat) (s : State) : (ledgerPhase i p fs fl s).host = s.host := by
    obtain ⟨l, w, he⟩ := ledgerPhase_eq i p fs fl s
    rw [he]
  have hkeep (c' : Cmd) (e : Cpl) (u : State) (hu : u.host = s.host) :
      (if c.suspended then setCmd c' u else pushCpl c.queue e (setCmd c' u)).host.segs = s.host.segs ∧
      (if c.suspended then setCmd c' u else pushCpl c.queue e (setCmd c' u)).host.segNum = s.host.segNum := by
    rw [← hu]
    split <;> exact ⟨rfl, rfl⟩
  unfold finish
  refine hkeep _ _ _ ?_
  cases c.lref with
  | none => rfl
  | some i =>
    rw [apply_ite State.host, hphase, hphase, ite_self]

theorem recTidy_host (s : State) : (recTidy s).host = s.host ∧ (recTidy s).hostMem = s.hostMem := by
  unfold recTidy
  dsimp only
  split
  · exact ⟨rfl, rfl⟩
  · split <;> exact ⟨rfl, rfl⟩

theorem recDone_segs (n : Nat) (s : State) : (recDone n s).host.segs = s.host.segs ∧ (recDone n s).host.segNum = s.host.segNum := by
  have hwait (w : Wait) (st : Nat) (r : List Byte) (s : State) : (finishWait w st r s).host.segs = s.host.segs ∧
      (finishWait w st r s).host.segNum = s.host.segNum :=
    ⟨foldl_keeps (fun s => s.host.segs) (fun s c => (finish_segs c st r s).1) _ s,
      foldl_keeps (fun s => s.host.segNum) (fun s c => (finish_segs c st r s).2) _ s⟩
  unfold recDone
  split
  · split
    · rw [(recTidy_host _).1]
      exact hwait ..
    · exact ⟨rfl, rfl⟩
  · exact ⟨rfl, rfl⟩

/-- The segment that a recorder closes under the number `num`. -/
def closedSeg (rec i : Nat) (num : BitVec 32) (r : Recorder) (data : List Byte) : Seg :=
  { num := num, recorder := rec, queue := r.queue, lref := i, addr := r.bufaddr + BitVec.ofNat 64 (r.index % r.nbuf * r.buflen), len := data.length
    rtb := r.start, data := data, written := false }

theorem closedSeg_fields (rec i : Nat) (num : BitVec 32) (r : Recorder) (data : List Byte) :
    (closedSeg rec i num r data).num = num ∧ (closedSeg rec i num r data).lref = i ∧ (closedSeg rec i num r data).written = false ∧
      (closedSeg rec i num r data).recorder = rec ∧ (closedSeg rec i num r data).data = data ∧ (closedSeg rec i num r data).len = data.length :=
  ⟨rfl, rfl, rfl, rfl, rfl, rfl⟩

/-- The recorder `r` once its segment is closed at `start`. -/
def nextSeg (start : BitVec 64) (i : Nat) (num : BitVec 32) (r : Recorder) : Recorder :=
  { r with start := start, nframes := 0, bytes := 0, drops := 0, index := r.index + 1, body := [],
           closed := r.closed ++ [{ index := r.index, lref := some (i, num) }], last := num }

/-- The state in which the segment is closed, `u` being the state in which its entry is accepted. -/
def segClosed (rec i : Nat) (num : BitVec 32) (r : Recorder) (data : List Byte) (failed again : Bool) (u : State) : State :=
  let s := metaJobs failed again rec num.toNat u
  recDone rec (setRec rec (fillSeg (nextSeg (rtbNs s) i num r))
    { s with host := { s.host with segNum := num, segs := s.host.segs ++ [closedSeg rec i num r data] } })

theorem segClosed_host (rec i : Nat) (num : BitVec 32) (r : Recorder) (data : List Byte) (failed again : Bool) (u : State) :
    (segClosed rec i num r data failed again u).host.segNum = num ∧ closedSeg rec i num r data ∈ (segClosed rec i num r data failed again u).host.segs := by
  unfold segClosed
  dsimp only
  rw [(recDone_segs ..).1, (recDone_segs ..).2]
  exact ⟨rfl, List.mem_append_right _ (List.mem_singleton_self _)⟩

/-- A due segment takes the next number when its ledger entry is there. -/
theorem exec_segmentClose {rec : BitVec 8} {r : Recorder} {i : Nat} {s u : State} (hrec : tblFind rec.toNat s.voice.recs = some r)
    (hup : onyxUp s = true) (hon : domOn s 7 = true) (hsafe : s.pwr.safe = false) (hth : s.onyx.thermal < 2)
    (hctx : (retakeCtx s).voice.recCtx.isSome = true) (htail : s.ledger.tail = none) (hdue : segDue s r = true) (hclosed : r.closed.length < 4)
    (hadm : admitted 1 1 s = true) (failed again : Bool) :
    let s0 := retakeCtx s
    let num := s0.host.segNum + 1
    let data := segBytes rec.toNat num r (segMeta (failed && again) (r.buflen - 64 - r.bytes) s0) s0
    ledgerAccept 4 0xFF (rec.toNat * 0x100 + num.toNat % 65536 * 0x1000000 + num.toNat / 65536 * 2 ^ 40) 1 rec.toNat (crc32c data) false false
      (tookFree (tookFree s0)) = (some i, u) →
    exec (.segmentClose rec failed again) s = .next (segClosed rec.toNat i num r data failed again u) := by
  intro s0 num data hacc
  have hgo : ¬ ((!onyxUp s) = true ∨ (!domOn s 7) = true ∨ s.pwr.safe = true ∨ 2 ≤ s.onyx.thermal ∨ (retakeCtx s).voice.recCtx.isNone = true ∨
      (!segDue s r) = true ∨ 4 ≤ r.closed.length ∨ s.ledger.tail.isSome = true ∨ (!admitted 1 1 s) = true) := by
    rw [Option.isSome_iff_ne_none] at hctx
    simp [hup, hon, hsafe, hth, hctx, htail, hdue, hclosed, hadm]
  change execSegmentClose rec failed again s = _
  unfold execSegmentClose
  dsimp only
  rw [hrec]
  refine congrArg Host.Outcome.next ((if_neg hgo).trans ?_)
  rw [hacc]
  rfl

/-! ### Segments that are written (R152, R167, R302) -/

/-- The recorder of a segment that has been written, or nothing where it is gone. -/
def recWritten (g : Seg) (s : State) : State :=
  match tblFind g.recorder s.voice.recs with
  | some r => recTidy (setRec g.recorder { r with closed := r.closed.filter (fun (x : ClosedSeg) => match x.lref with | some (_, m) => m != g.num | none => true),
                                                  bufLast := tblSet ((g.addr - r.bufaddr).toNat / r.buflen) g.num r.bufLast } s)
  | none => s

/-- A segment and the queue's last segment once `g` has been written. -/
def hostWritten (g : Seg) (h : HostSt) : HostSt :=
  { h with segs := h.segs.map (fun (x : Seg) => if x.num == g.num then { x with written := true } else x),
           segLast := if later32 g.num h.segLast then g.num else h.segLast }

/-- The state in which the segment `g` is in host memory, and its entry waits in the ring of its queue. -/
def segWritten (g : Seg) (s : State) : State :=
  let chan := match tblFind g.recorder s.voice.recs with | some r => r.chan | none => 0xFFFF
  let e : Cpl := { typ := 3, seq := 0, status := 0, orig := 0, opcode := chan, trunc := false, replayed := false, w8 := g.num.toNat,
                   w12 := g.len, payload := le 8 g.addr.toNat ++ le 8 g.rtb.toNat, room := 0, urgent := false }
  let u := recWritten g s
  pushCpl g.queue e (segNextUpd (memPut g.addr.toNat g.data { u with host := hostWritten g u.host }))

theorem recWritten_host (g : Seg) (s : State) : (recWritten g s).host = s.host ∧ (recWritten g s).hostMem = s.hostMem := by
  unfold recWritten
  split
  · exact recTidy_host _
  · exact ⟨rfl, rfl⟩

theorem hostWritten_written {g x : Seg} {h : HostSt} (hx : x ∈ (hostWritten g h).segs) (hnum : x.num = g.num) : x.written = true := by
  obtain ⟨y, _, rfl⟩ := List.mem_map.mp hx
  split
  · rfl
  next hne =>
    rw [if_neg hne] at hnum
    exact absurd (beq_iff_eq.mpr hnum) hne

theorem segWritten_spec (g : Seg) (s : State) :
    (segWritten g s).host.segLast = (if later32 g.num s.host.segLast then g.num else s.host.segLast) ∧
    (segWritten g s).hostMem.bytes = memRows g.addr.toNat g.data s.hostMem.bytes ∧ ∀ x ∈ (segWritten g s).host.segs, x.num = g.num → x.written = true := by
  obtain ⟨hhost, hmem⟩ := recWritten_host g s
  refine ⟨?_, ?_, fun x hx => ?_⟩
  · change (hostWritten g (recWritten g s).host).segLast = _
    rw [hhost]
    rfl
  · change memRows g.addr.toNat g.data (recWritten g s).hostMem.bytes = _
    rw [hmem]
  · exact hostWritten_written (h := (recWritten g s).host) hx

section
variable {s : State} {g : Seg} (hg : s.host.segs.find? (fun g => !g.written) = some g)
include hg

theorem exec_segmentWrite_waits (h : ringOpen s g.queue = false ∨ bufFree s g = false) (w : Bool) : exec (.segmentWrite w) s = .next s := by
  have hno : (!onyxUp s) = true ∨ (!ringOpen s g.queue) = true ∨ (!bufFree s g) = true := .inr (h.imp (fun h => by simp [h]) (fun h => by simp [h]))
  change execSegmentWrite w s = _
  unfold execSegmentWrite
  rw [hg]
  exact congrArg Host.Outcome.next (if_pos hno)

variable (hup : onyxUp s = true) (hopen : ringOpen s g.queue = true) (hbuf : bufFree s g = true)
include hup hopen hbuf

theorem exec_segmentWrite_error : exec (.segmentWrite false) s = .next (stopQueue g.queue 2 (aerNonFatal s)) := by
  have hgo : ¬ ((!onyxUp s) = true ∨ (!ringOpen s g.queue) = true ∨ (!bufFree s g) = true) := by simp [hup, hopen, hbuf]
  change execSegmentWrite false s = _
  unfold execSegmentWrite
  rw [hg]
  exact congrArg Host.Outcome.next (if_neg hgo)

theorem exec_segmentWrite : exec (.segmentWrite true) s = .next (segWritten g s) := by
  have hgo : ¬ ((!onyxUp s) = true ∨ (!ringOpen s g.queue) = true ∨ (!bufFree s g) = true) := by simp [hup, hopen, hbuf]
  change execSegmentWrite true s = _
  unfold execSegmentWrite
  rw [hg]
  exact congrArg Host.Outcome.next (if_neg hgo)

end

/-- The clause of a job that starts under its lease. -/
theorem topazJobStart_clause {eng : Fin 4} {s : State} {j : TpzJob} {l : Nat × BitVec 24} (hon : domOn s 7 = true) (hsafe : s.pwr.safe = false)
    (hidle : jobOn s eng.val = none) (chain : Dma) (hnext : nextJob s eng.val = some j) (hl : j.lease = some l) :
    (jobGate s j = false → Runs (.topazJobStart eng chain) s (failedStart j 0x51 s)) ∧
    (jobGate s j = true → j.ents.isSome = true → Runs (.topazJobStart eng chain) s (setJob { j with eng := some eng.val } s)) ∧
    (jobGate s j = true → j.ents = none → j.inline = [] →
      Runs (.topazJobStart eng .error) s (failedStart j 0x50 s) ∧
      (∀ b, chainEnts j.nchain (padTo (16 * j.nchain) b) = none → Runs (.topazJobStart eng (.data b)) s (failedStart j 3 s)) ∧
      (∀ b ls, chainEnts j.nchain (padTo (16 * j.nchain) b) = some ls →
        Runs (.topazJobStart eng (.data b)) s (setCtx j.ctx (jobCtx j) (setJob { j with eng := some eng.val, ents := some ls } s)))) ∧
    (∀ ls, jobGate s j = true → j.ents = none → j.inline ≠ [] → chainEnts j.nchain (padTo (16 * j.nchain) j.inline) = some ls →
      Runs (.topazJobStart eng chain) s (setCtx j.ctx (jobCtx j) (setJob { j with eng := some eng.val, ents := some ls } s))) := by
  have hrun (chain : Dma) {t : State} (h : startJob j eng.val chain s = t) : Runs (.topazJobStart eng chain) s t :=
    (topazJobStart_leased hon hsafe hidle chain hnext hl).trans (congrArg Host.Outcome.next h)
  refine ⟨fun hgate => hrun _ (startJob_denied hgate), fun hgate hents => hrun _ (startJob_resumed hgate hents),
    fun hgate hents hin => ⟨hrun _ ?_, fun b hb => hrun _ ?_, fun b ls hb => hrun _ ?_⟩, fun ls hgate hents hin hb => hrun _ ?_⟩
  · rw [startJob_first hgate hents, if_pos hin]
  · rw [startJob_first hgate hents, if_pos hin]
    dsimp only
    rw [hb]
  · rw [startJob_first hgate hents, if_pos hin]
    dsimp only
    rw [hb]
  · rw [startJob_first hgate hents, if_neg hin]
    dsimp only
    rw [hb]

/-- Settles O39: jobs by what the gate, their chain and their input say; segments by the state that their close and their writing leave. -/
theorem topazEventsRule : Obligations.TopazEventsRule := by
  unfold Obligations.TopazEventsRule
  intro eng s
  refine ⟨fun hon hsafe hidle chain => ⟨topazJobStart_none hon hsafe hidle chain, fun j l hnext hl => topazJobStart_clause hon hsafe hidle chain hnext hl⟩,
    ?_, ?_, ?_, ?_⟩
  case refine_1 =>
    intro hsafe
    refine ⟨fun chain => congrArg Host.Outcome.next (if_pos (.inr (.inl hsafe))), ?_, fun r => ?_⟩
    · change execTopazYield eng s = _
      unfold execTopazYield
      split
      · rfl
      · exact congrArg Host.Outcome.next (if_neg (fun h => by simp [hsafe] at h))
    · change execTopazJobEnd eng r s = _
      unfold execTopazJobEnd
      split
      · rfl
      · exact congrArg Host.Outcome.next (if_pos hsafe)
  case refine_2 =>
    intro j hj hsafe
    refine ⟨exec_topazYield_better hj hsafe, exec_topazYield_first hj, fun hgate => ⟨fun src d hd => ⟨?_, fun i o => ⟨freeBits 32 s, ?_⟩⟩, fun u hno => ?_,
      fun src d hd hver => ⟨?_, fun i o => ?_⟩⟩, fun r l ep hgate hl => exec_topazJobEnd_denied hj hsafe hgate hl r⟩
    · rw [Runs, exec_topazJobEnd hj hsafe hgate, hd]
      rfl
    · rw [Runs, exec_topazJobEnd hj hsafe hgate, hd]
      rfl
    · rw [Runs, exec_topazJobEnd hj hsafe hgate, hno]
    · rw [Runs, exec_topazJobEnd hj hsafe hgate, hd]
      exact congrArg Host.Outcome.next (closeJob_notVerified hver).1
    · rw [Runs, exec_topazJobEnd hj hsafe hgate, hd]
      exact congrArg Host.Outcome.next ((closeJob_notVerified hver).2 i o)
  case refine_3 =>
    intro rec r i u hrec hup hon hsafe hth hctx htail hdue hclosed hadm failed again s0 num data hacc
    obtain ⟨hnum, hmem⟩ := segClosed_host rec.toNat i num r data failed again u
    exact ⟨_, closedSeg rec.toNat i num r data, exec_segmentClose hrec hup hon hsafe hth hctx htail hdue hclosed hadm failed again hacc, hnum, hmem,
      closedSeg_fields ..⟩
  case refine_4 =>
    intro g hg hup
    refine ⟨fun hopen hbuf => ⟨exec_segmentWrite_error hg hup hopen hbuf, _, exec_segmentWrite hg hup hopen hbuf, segWritten_spec g s⟩,
      exec_segmentWrite_waits hg⟩

end Sys2Proof.Machine
end

section
/-! PROOFS. Field test slices, corrected errors, the TAP, and command timeouts (R177, R457 to R461, R464, R505, R533, R534). -/

namespace Sys2Proof.Machine

open Sys2Proof.Obl

/-! ### Slices that start (R462, R505) -/

/-- The state in which a slice of the run `r`, at the front of `rest`, has started. -/
def sliceBegun (r : AgtRun) (n : BitVec 16) (rest : List AgtRun) (s : State) : State :=
  let res : Tbl AgtResult := match tblFind n.toNat s.agt.results with
    | some v => tblSet n.toNat { v with slices := satAdd 16 v.slices 1 } s.agt.results
    | none => s.agt.results
  wr agtBusy 1 (wr agtInslice 1 (wr agtResultNo n.toNat { s with agt := { s.agt with runs := { r with since := some (now s) } :: rest, results := res } }))

theorem sliceBegun_spec (r : AgtRun) (n : BitVec 16) (rest : List AgtRun) (s : State) :
    (sliceBegun r n rest s).agt.runs = { r with since := some (now s) } :: rest ∧ rd (sliceBegun r n rest s) agtBusy = 1 ∧
      rd (sliceBegun r n rest s) agtInslice = 1 ∧ rd (sliceBegun r n rest s) agtResultNo = n.toNat := by
  unfold sliceBegun
  refine ⟨rfl, rd_wr_same _ _ _ (by decide), ?_, ?_⟩
  · rw [rd_wr_apart _ _ (by decide)]
    exact rd_wr_same _ _ _ (by decide)
  · rw [rd_wr_apart _ _ (by decide), rd_wr_apart _ _ (by decide), rd_wr_same _ _ _ (by decide)]
    exact Nat.mod_eq_of_lt n.isLt

section
variable {s : State} {r : AgtRun} {rest : List AgtRun} (hruns : s.agt.runs = r :: rest)
include hruns

theorem exec_agateSliceStart_held (h : now s < r.notBefore ∨ 2 ≤ s.onyx.thermal ∨ s.pwr.safe = true) : exec .agateSliceStart s = .next s := by
  have hno : r.since.isSome = true ∨ r.pauseEnd.isSome = true ∨ (!reached s r.notBefore) = true ∨ 2 ≤ s.onyx.thermal ∨ s.pwr.safe = true ∨
      s.pwr.hib ≠ .awake ∨ (r.result.isNone = true ∧ (!onyxUp s) = true) := by
    rcases h with ht | hth | hsafe
    · have hnot : reached s r.notBefore = false := eq_false_of_ne_true fun hr => absurd (reached_iff.mp hr) (Nat.not_le.mpr ht)
      exact .inr (.inr (.inl (by rw [hnot]; rfl)))
    · exact .inr (.inr (.inr (.inl hth)))
    · exact .inr (.inr (.inr (.inr (.inl hsafe))))
  change execAgateSliceStart s = _
  unfold execAgateSliceStart
  rw [hruns]
  exact congrArg Host.Outcome.next (if_pos hno)

variable (hsince : r.since = none) (hpause : r.pauseEnd = none) (hnb : r.notBefore ≤ now s) (hth : s.onyx.thermal < 2) (hsafe : s.pwr.safe = false)
  (hhib : s.pwr.hib = .awake)
include hsince hpause hnb hth hsafe hhib

/-- The run in progress goes on. -/
theorem exec_agateSliceStart_next {n : BitVec 16} (hres : r.result = some n) : exec .agateSliceStart s = .next (sliceBegun r n rest s) := by
  have hgo : ¬ (r.since.isSome = true ∨ r.pauseEnd.isSome = true ∨ (!reached s r.notBefore) = true ∨ 2 ≤ s.onyx.thermal ∨ s.pwr.safe = true ∨
      s.pwr.hib ≠ .awake ∨ (r.result.isNone = true ∧ (!onyxUp s) = true)) := by
    simp [hsince, hpause, reached_iff.mpr hnb, hth, hsafe, hhib, hres]
  have hsome : r.result.isSome = true := by rw [hres]; rfl
  change execAgateSliceStart s = _
  unfold execAgateSliceStart
  rw [hruns]
  refine congrArg Host.Outcome.next ((if_neg hgo).trans ?_)
  dsimp only
  rw [if_pos hsome]
  dsimp only
  split
  next hnone => cases hres.symm.trans hnone
  next n' hn' =>
    cases hres.symm.trans hn'
    rfl

/-- The next run begins under a number of its own. -/
theorem exec_agateSliceStart_begins (hres : r.result = none) (hup : onyxUp s = true) :
    exec .agateSliceStart s = .next (sliceBegun (runBegin r s).1 s.agt.next rest (runBegin r s).2) := by
  have hgo : ¬ (r.since.isSome = true ∨ r.pauseEnd.isSome = true ∨ (!reached s r.notBefore) = true ∨ 2 ≤ s.onyx.thermal ∨ s.pwr.safe = true ∨
      s.pwr.hib ≠ .awake ∨ (r.result.isNone = true ∧ (!onyxUp s) = true)) := by
    simp [hsince, hpause, reached_iff.mpr hnb, hth, hsafe, hhib, hres, hup]
  have hnone : ¬ r.result.isSome = true := by simp [hres]
  have hnum : (runBegin r s).1.result = some s.agt.next := rfl
  change execAgateSliceStart s = _
  unfold execAgateSliceStart
  rw [hruns]
  refine congrArg Host.Outcome.next ((if_neg hgo).trans ?_)
  dsimp only
  rw [if_neg hnone, hnum]
  rfl

end

/-! ### Slices that end (R462, R463) -/

/-- The state after a slice of the run `r`. -/
def sliceDone (r : AgtRun) (n : BitVec 16) (rest : List AgtRun) (t0 : Nat) (fails : List FailCell) (bad : Bool) (s : State) : State :=
  let r' := sliceRun s t0 fails bad r
  let res : Tbl AgtResult := match tblFind n.toNat s.agt.results with
    | some v => tblSet n.toNat { v with active := r'.actNs / 1000 } s.agt.results
    | none => s.agt.results
  wr agtInslice 0 (wr agtInpause (b2n (sliceOf s r).pause) { s with agt := { s.agt with runs := r' :: rest, results := res } })

theorem sliceDone_spec (r : AgtRun) (n : BitVec 16) (rest : List AgtRun) (t0 : Nat) (fails : List FailCell) (bad : Bool) (s : State) :
    (sliceDone r n rest t0 fails bad s).agt.runs = sliceRun s t0 fails bad r :: rest ∧ rd (sliceDone r n rest t0 fails bad s) agtInslice = 0 ∧
      rd (sliceDone r n rest t0 fails bad s) agtInpause = b2n (sliceOf s r).pause := by
  unfold sliceDone
  refine ⟨rfl, rd_wr_same _ _ _ (by decide), ?_⟩
  rw [rd_wr_apart _ _ (by decide), rd_wr_same _ _ _ (by decide)]
  cases (sliceOf s r).pause <;> rfl

section
variable {s : State} {r : AgtRun} {rest : List AgtRun} {t0 : Nat} {n : BitVec 16} (hruns : s.agt.runs = r :: rest) (hsince : r.since = some t0)
  (hres : r.result = some n)
include hruns hsince hres

/-- A slice ends when its work is done, and with what that work says of the run. -/
theorem exec_agateSliceEnd (pause fin : Bool) (fails : List FailCell) (bad : Bool) : exec (.agateSliceEnd pause fin fails bad) s = .next (
    if now s < sliceEnds t0 (sliceOf s r) ∨ pause ≠ (sliceOf s r).pause ∨ fin ≠ (sliceOf s r).fin then s
    else if (sliceOf s r).fin then runEnd (sliceRun s t0 fails bad r) n (sliceDone r n rest t0 fails bad s)
    else sliceDone r n rest t0 fails bad s) := by
  change execAgateSliceEnd pause fin fails bad s = _
  unfold execAgateSliceEnd
  rw [hruns]
  dsimp only
  rw [hsince, hres]
  rfl

end

/-! ### Corrected errors (R464) -/

section
variable {mac row : BitVec 16} {d : Nat} {s : State} (hd : macroDomain mac.toNat = some d) (hon : domOn s d = true)
include hd hon

/-- A row that the tracker does not hold yet takes a place, or the tracker overflows. -/
theorem exec_correctedErrorReport_new (hnew : s.agt.rows.find? (fun r => r.mac == mac.toNat && r.row == row.toNat) = none) (hthr : 1 < rd s agtCethr) :
    exec (.correctedErrorReport mac row) s = .next (
      if s.agt.rows.length < 64 then wr agtCetrkN (s.agt.rows.length + 1)
        { s with agt := { s.agt with rows := s.agt.rows ++ [{ mac := mac.toNat, row := row.toNat, count := 1, pending := false }] } }
      else wr agtCetrkOvf 1 s) := by
  have hgo : ¬ (!domOn s d) = true := by simp [hon]
  have hone : decide (rd s agtCethr ≤ 1) = false := decide_eq_false (Nat.not_le.mpr hthr)
  change execCorrectedErrorReport mac row s = _
  unfold execCorrectedErrorReport
  dsimp only
  rw [hd]
  refine congrArg Host.Outcome.next ((if_neg hgo).trans ?_)
  rw [hnew, hone]
  rfl

theorem exec_correctedErrorReport_full (hnew : s.agt.rows.find? (fun r => r.mac == mac.toNat && r.row == row.toNat) = none)
    (hfull : 64 ≤ s.agt.rows.length) : exec (.correctedErrorReport mac row) s = .next (wr agtCetrkOvf 1 s) := by
  have hgo : ¬ (!domOn s d) = true := by simp [hon]
  change execCorrectedErrorReport mac row s = _
  unfold execCorrectedErrorReport
  dsimp only
  rw [hd]
  refine congrArg Host.Outcome.next ((if_neg hgo).trans ?_)
  rw [hnew]
  exact if_neg (Nat.not_lt.mpr hfull)

/-- The tracker with the row counted once more, as `cnt` has it. -/
def rowCounted (mac row : BitVec 16) (cnt : Nat) (p : Bool) (s : State) : State :=
  let mine : CeRow → Bool := fun r => r.mac == mac.toNat && r.row == row.toNat
  { s with agt := { s.agt with rows := s.agt.rows.map (fun x => if mine x then { x with count := cnt, pending := p } else x) } }

/-- A row that the tracker holds is counted, and is pending at the limit. -/
theorem exec_correctedErrorReport_known {r : CeRow} (hrow : s.agt.rows.find? (fun r => r.mac == mac.toNat && r.row == row.toNat) = some r)
    (hpend : r.pending = false) : exec (.correctedErrorReport mac row) s = .next (
      if rd s agtCethr ≤ r.count + 1 then rowPending mac.toNat row.toNat (rowCounted mac row (r.count + 1) true s)
      else rowCounted mac row (r.count + 1) false s) := by
  have hgo : ¬ (!domOn s d) = true := by simp [hon]
  change execCorrectedErrorReport mac row s = _
  unfold execCorrectedErrorReport
  dsimp only
  rw [hd]
  refine congrArg Host.Outcome.next ((if_neg hgo).trans ?_)
  rw [hrow]
  dsimp only
  rw [hpend]
  by_cases hthr : rd s agtCethr ≤ r.count + 1
  · rw [decide_eq_true hthr, if_pos hthr]
    rfl
  · rw [decide_eq_false hthr, if_neg hthr]
    rfl

end

/-! ### The TAP (R533, R534) -/

theorem tapUpdate_spec (ir : BitVec 8) (pads : Bool) (s : State) : (tapUpdate ir pads s).tap = { ir := ir, pads := pads } ∧
    (tapUpdate ir pads s).boot.tapHold = pads ∧
    ((tapUpdate ir pads s).boot.tapHold = true → (tapUpdate ir pads s).pwr.faultN = true ∧ rd (tapUpdate ir pads s) coreEn = 1) := by
  cases pads with
  | false => exact ⟨rfl, rfl, fun h => Bool.noConfusion h⟩
  | true => exact ⟨rfl, rfl, fun _ => ⟨rfl, rd_wr_same _ _ _ (by decide)⟩⟩

/-! ### Timeouts (R177) -/

section
variable {q : Fin 4} {seq : BitVec 16} {s : State} {c : Cmd} {d : Nat} (hc : cmdAt s q.val seq = some c) (hstart : c.started.isSome = true)
  (hfin : c.fin = none) (hdead : c.deadline = some d)
include hc

theorem exec_commandTimeout : exec (.commandTimeout q seq) s = .next (if expires c s then recTidy (finish c stTimeout [] (undo c s)) else s) := by
  change execCommandTimeout q seq s = _
  unfold execCommandTimeout
  rw [hc]

omit hc
include hstart hfin hdead

theorem expires_iff : expires c s = true ↔ d ≤ now s ∧ (c.idem ≠ .oo ∨ (c.wait = .fuse ∧ s.boot.fuseWait ≠ [])) ∧ onyxUp s = true := by
  have hdue : due s c.deadline = true ↔ d ≤ now s := by rw [hdead]; exact reached_iff
  simp only [expires, Bool.and_eq_true, Bool.or_eq_true, decide_eq_true_eq, beq_iff_eq, Bool.not_eq_true', List.isEmpty_eq_false_iff, hstart, hfin, hdue,
    Option.isNone_none, true_and, and_assoc]

end

/-- The clauses of a slice that starts. -/
theorem agateSliceStart_clause {s : State} {r : AgtRun} {rest : List AgtRun} (hruns : s.agt.runs = r :: rest) (hsince : r.since = none)
    (hpause : r.pauseEnd = none) :
    (r.notBefore ≤ now s → s.onyx.thermal < 2 → s.pwr.safe = false → s.pwr.hib = .awake →
      (∀ n, r.result = some n → ∃ t, Runs .agateSliceStart s t ∧ t.agt.runs = { r with since := some (now s) } :: rest ∧ rd t agtBusy = 1 ∧
        rd t agtInslice = 1 ∧ rd t agtResultNo = n.toNat) ∧
      (r.result = none → onyxUp s = true → ∃ t n x k, Runs .agateSliceStart s t ∧
        t.agt.runs = { r with result := some n, prev := x, since := some k } :: rest ∧ rd t agtBusy = 1 ∧ rd t agtInslice = 1)) ∧
    (now s < r.notBefore ∨ 2 ≤ s.onyx.thermal ∨ s.pwr.safe = true → Runs .agateSliceStart s s) := by
  refine ⟨fun hnb hth hsafe hhib => ⟨fun n hres => ?_, fun hres hup => ?_⟩, exec_agateSliceStart_held hruns⟩
  · exact ⟨_, exec_agateSliceStart_next hruns hsince hpause hnb hth hsafe hhib hres, sliceBegun_spec ..⟩
  · obtain ⟨hr, hbusy, hin, _⟩ := sliceBegun_spec (runBegin r s).1 s.agt.next rest (runBegin r s).2
    exact ⟨_, s.agt.next, _, _, exec_agateSliceStart_begins hruns hsince hpause hnb hth hsafe hhib hres hup, hr, hbusy, hin⟩

/-- The clauses of a slice that ends. -/
theorem agateSliceEnd_clause {s : State} {r : AgtRun} {rest : List AgtRun} {t0 : Nat} {n : BitVec 16} (fails : List FailCell) (bad : Bool)
    (hruns : s.agt.runs = r :: rest) (hsince : r.since = some t0) (hres : r.result = some n) :
    let d := sliceOf s r
    let r' := sliceRun s t0 fails bad r
    (∀ pause fin, now s < sliceEnds t0 d ∨ pause ≠ d.pause ∨ fin ≠ d.fin → Runs (.agateSliceEnd pause fin fails bad) s s) ∧
    (sliceEnds t0 d ≤ now s →
      r'.since = none ∧ r'.notBefore = sliceEnds t0 d + 8000 ∧ r'.cells = r.cells ++ fails ∧
      (d.fin = false → d.pause = false → ∃ t, Runs (.agateSliceEnd false false fails bad) s t ∧ t.agt.runs = r' :: rest ∧ r'.pauseEnd = none ∧
        rd t agtInslice = 0 ∧ rd t agtInpause = 0) ∧
      (d.fin = false → d.pause = true → ∃ t, Runs (.agateSliceEnd true false fails bad) s t ∧ t.agt.runs = r' :: rest ∧
        r'.pauseEnd = some (sliceEnds t0 d + 1000 * rd s agtPause) ∧ rd t agtInslice = 0 ∧ rd t agtInpause = 1) ∧
      (d.fin = true → ∃ t, Runs (.agateSliceEnd d.pause true fails bad) s (runEnd r' n t) ∧ t.agt.runs = r' :: rest)) := by
  intro d r'
  have hrun (pause fin : Bool) := exec_agateSliceEnd hruns hsince hres pause fin fails bad
  obtain ⟨hr, hin, hp⟩ := sliceDone_spec r n rest t0 fails bad s
  have hpe : r'.pauseEnd = if d.pause then some (sliceEnds t0 d + 1000 * rd s agtPause) else none := rfl
  refine ⟨fun pause fin h => (hrun pause fin).trans (congrArg Host.Outcome.next (if_pos h)), fun hend => ⟨rfl, rfl, rfl, fun hfin hpause => ?_,
    fun hfin hpause => ?_, fun hfin => ?_⟩⟩
  · have hgo : ¬ (now s < sliceEnds t0 d ∨ false ≠ d.pause ∨ false ≠ d.fin) := by simp [hfin, hpause, hend]
    have hp0 : b2n d.pause = 0 := by rw [hpause]; rfl
    exact ⟨_, (hrun false false).trans (congrArg Host.Outcome.next ((if_neg hgo).trans (if_neg (ne_true_of_eq_false hfin)))), hr,
      hpe.trans (if_neg (ne_true_of_eq_false hpause)), hin, hp.trans hp0⟩
  · have hgo : ¬ (now s < sliceEnds t0 d ∨ true ≠ d.pause ∨ false ≠ d.fin) := by simp [hfin, hpause, hend]
    have hp1 : b2n d.pause = 1 := by rw [hpause]; rfl
    exact ⟨_, (hrun true false).trans (congrArg Host.Outcome.next ((if_neg hgo).trans (if_neg (ne_true_of_eq_false hfin)))), hr,
      hpe.trans (if_pos hpause), hin, hp.trans hp1⟩
  · have hgo : ¬ (now s < sliceEnds t0 d ∨ d.pause ≠ d.pause ∨ true ≠ d.fin) := by simp [hfin, hend]
    exact ⟨_, (hrun d.pause true).trans (congrArg Host.Outcome.next ((if_neg hgo).trans (if_pos hfin))), hr⟩

/-- Settles O40: slices by what their work says, rows by the tracker, and a timeout by `expires_iff`. -/
theorem agateTapTimeoutRule : Obligations.AgateTapTimeoutRule := by
  unfold Obligations.AgateTapTimeoutRule
  intro s
  refine ⟨fun r rest => agateSliceStart_clause, fun r rest t0 n fails bad => agateSliceEnd_clause fails bad, ?_, ?_, fun ir => ?_, rfl, ?_⟩
  case refine_1 =>
    intro r rest k hruns hpause hk
    have hdue : due s r.pauseEnd = true := by rw [hpause]; exact due_some hk
    change execRetentionPauseEnd s = _
    unfold execRetentionPauseEnd
    rw [hruns]
    exact congrArg Host.Outcome.next (if_pos hdue)
  case refine_2 =>
    intro mac row d hd hon mine
    refine ⟨exec_correctedErrorReport_full hd hon, fun hnew hroom hthr => ?_, fun r hrow hpend => ⟨fun hlow => ?_, fun hhigh => ?_⟩⟩
    · exact (exec_correctedErrorReport_new hd hon hnew hthr).trans (congrArg Host.Outcome.next (if_pos hroom))
    · exact (exec_correctedErrorReport_known hd hon hrow hpend).trans (congrArg Host.Outcome.next (if_neg (Nat.not_le.mpr hlow)))
    · exact (exec_correctedErrorReport_known hd hon hrow hpend).trans (congrArg Host.Outcome.next (if_pos hhigh))
  case refine_3 => exact ⟨_, rfl, tapUpdate_spec ..⟩
  case refine_4 =>
    intro q seq c d hc hstart hfin hdead
    have hiff := expires_iff (s := s) hstart hfin hdead
    refine ⟨fun hd hidem hup => (exec_commandTimeout hc).trans (congrArg Host.Outcome.next (if_pos (hiff.mpr ⟨hd, hidem, hup⟩))), fun hno => ?_⟩
    refine (exec_commandTimeout hc).trans (congrArg Host.Outcome.next (if_neg fun he => ?_))
    obtain ⟨hd, hidem, hup⟩ := hiff.mp he
    rcases hno with hearly | ⟨hoo, hwait⟩ | hdown
    · omega
    · exact hidem.elim (· hoo) (fun h => hwait h.1)
    · exact Bool.false_ne_true (hdown.symm.trans hup)

end Sys2Proof.Machine
end

section
/-! PROOFS. COMMAND_ACCEPT: the first fetched entry of queue 0 is judged, and the command it spells goes its way (R142, R143, R145, R146, R161). -/

namespace Sys2Proof.Machine

open Sys2Proof.Obl

section
variable {q : Fin 4} {f : Fetched} {s : State} (hnew : cmdAt s q.val (queue s q.val).exp = none)
include hnew

theorem acceptEntry_badCheck (hcheck : entryCheck f ≠ (entryHdr q f (queue s q.val).exp).check) :
    acceptEntry q f s = refuseEntry (entryHdr q f (queue s q.val).exp) (leAt f.entry 2 2) (rej stBadCheck) s := by
  unfold acceptEntry
  dsimp only
  rw [hnew]
  exact if_pos hcheck

variable (hcheck : entryCheck f = (entryHdr q f (queue s q.val).exp).check)
include hcheck

theorem acceptEntry_badSequence (hseq : par2 f.entry 0 ≠ (queue s q.val).exp ∨ f.entry.getD 5 0 ≠ 1) :
    acceptEntry q f s = refuseEntry (entryHdr q f (queue s q.val).exp) (leAt f.entry 2 2) (rej stBadSequence) s := by
  unfold acceptEntry
  dsimp only
  rw [hnew]
  exact (if_neg (not_not_intro hcheck)).trans (if_pos hseq)

variable (hseq : par2 f.entry 0 = (queue s q.val).exp) (hver : f.entry.getD 5 0 = 1)
include hseq hver

theorem acceptEntry_badOpcode (hop : fixedSizes (leAt f.entry 2 2) = none) :
    acceptEntry q f s = refuseEntry (entryHdr q f (queue s q.val).exp) (leAt f.entry 2 2) (rej stBadOpcode) s := by
  have hgo : ¬ (par2 f.entry 0 ≠ (queue s q.val).exp ∨ f.entry.getD 5 0 ≠ 1) := fun h => h.elim (· hseq) (· hver)
  unfold acceptEntry
  dsimp only
  rw [hnew]
  refine (if_neg (not_not_intro hcheck)).trans ((if_neg hgo).trans ?_)
  rw [hop]

/-- An entry whose parameters read as a command of the table, with nothing wrong in them, goes the way of that command. -/
theorem acceptEntry_command {r : Read} {sp : Spec} {l : List Nat} (hop : fixedSizes (leAt f.entry 2 2) = some l) (hsum : l.sum ≤ leAt f.entry 6 2)
    (hmax : leAt f.entry 6 2 ≤ 4080) (hind : (entryHdr q f (queue s q.val).exp).indirect = true ∨ leAt f.entry 6 2 ≤ 40)
    (hres : entryReserved f (leAt f.entry 6 2) = true) :
    let h := entryHdr q f (queue s q.val).exp
    let p := padTo (leAt f.entry 6 2) (if h.indirect then f.params else f.entry.drop 24)
    readCmd (leAt f.entry 2 2) h p = some r → specOf r.instr = some sp → parCheck (leAt f.entry 2 2) p r sp.par = none →
    acceptEntry q f s = scpAccept h r.instr { sp with par := none } s := by
  intro h p hread hspec hpar
  have hgo : ¬ (par2 f.entry 0 ≠ (queue s q.val).exp ∨ f.entry.getD 5 0 ≠ 1) := fun h => h.elim (· hseq) (· hver)
  have hlong : ¬ (4080 < leAt f.entry 6 2 ∨ ((!(entryHdr q f (queue s q.val).exp).indirect) = true ∧ 40 < leAt f.entry 6 2)) := by
    rintro (hm | ⟨hi, h40⟩)
    · omega
    · rcases hind with hi' | h40'
      · rw [hi'] at hi
        exact Bool.false_ne_true hi
      · omega
  unfold acceptEntry
  dsimp only
  rw [hnew]
  refine (if_neg (not_not_intro hcheck)).trans ((if_neg hgo).trans ?_)
  rw [hop]
  refine (if_neg hlong).trans ((if_neg (Nat.not_lt.mpr hsum)).trans ?_)
  rw [hread]
  dsimp only
  rw [hspec]
  dsimp only
  rw [hpar, hres]
  rfl

end

/-- The entry at the front of queue 0 is taken before any other. -/
theorem exec_commandAccept {f : Fetched} {rest : List Fetched} {s : State} (hserved : served s = true) (hf : (queue s 0).fetched = f :: rest) :
    exec .commandAccept s = .next (acceptEntry 0 f s) := by
  have hgo : ¬ (!served s) = true := by simp [hserved]
  have hhas : (!(queue s (0 : Fin 4).val).fetched.isEmpty) = true := by
    change (!(queue s 0).fetched.isEmpty) = true
    rw [hf]
    rfl
  have hnext : fetchedNext s = some 0 := if_pos hhas
  change execCommandAccept s = _
  unfold execCommandAccept
  refine congrArg Host.Outcome.next ((if_neg hgo).trans ?_)
  rw [hnext]
  change (match (queue s 0).fetched with | f :: _ => acceptEntry 0 f (if (0 : Fin 4) = 0 then s else tookFree s) | [] => s) = _
  rw [hf]
  rfl

/-- Settles O21: the entry of queue 0 is the one taken, and each check in the order of R146 has its equation. -/
theorem commandAcceptJudges : Obligations.CommandAcceptJudges := by
  unfold Obligations.CommandAcceptJudges
  intro f rest s hserved hf hnew
  have hrun {t : State} (h : acceptEntry 0 f s = t) : Runs .commandAccept s t := (exec_commandAccept hserved hf).trans (congrArg Host.Outcome.next h)
  refine ⟨fun hcheck => hrun (acceptEntry_badCheck (q := 0) hnew hcheck), fun hcheck hseq => hrun (acceptEntry_badSequence (q := 0) hnew hcheck hseq),
    fun hcheck hseq hver hop => hrun (acceptEntry_badOpcode (q := 0) hnew hcheck hseq hver hop), ?_⟩
  intro r sp hcheck hseq hver plen p hl hmax hind hres hread _ hspec hpar
  obtain ⟨l, hop, hsum⟩ := hl
  exact hrun (acceptEntry_command (q := 0) hnew hcheck hseq hver hop hsum hmax hind hres hread hspec hpar)

end Sys2Proof.Machine
end

section
/-! PROOFS. Queues that an interface's reset takes back to CMP + 1 (R160, R165), and the host link reset (R105, R137, R139, R156, R160, R166). -/

namespace Sys2Proof.Machine

open Sys2Proof.Obl

/-! ### Tables and folds over a list without repetition -/

theorem tblFind_delRange {α : Type} (lo hi k : Nat) (t : Tbl α) :
    tblFind k (tblDelRange lo hi t) = if lo ≤ k ∧ k < hi then none else tblFind k t := by
  induction t with
  | nil => simp [tblDelRange, tblFind]
  | cons e t ih =>
    obtain ⟨j, w⟩ := e
    rw [tblDelRange]
    split
    next hin =>
      rw [ih, tblFind]
      split
      · rfl
      next hout =>
        refine (if_neg fun (hjk : j = k) => hout ?_).symm
        rwa [← hjk]
    next hout =>
      rw [tblFind, tblFind]
      split
      next heq => rw [if_neg (fun h => hout (heq ▸ h))]
      · exact ih

theorem rdW_resetRegs {b lo hi k : Nat} (s : State) (h : ¬ (rk b lo ≤ k ∧ k < rk b hi)) : rdW (resetRegs b lo hi s) k = rdW s k := by
  simp only [rdW, resetRegs, tblGet, tblFind_delRange, if_neg h]

theorem rdW_resetRegs_in {b lo hi k : Nat} (s : State) (h : rk b lo ≤ k ∧ k < rk b hi) : rdW (resetRegs b lo hi s) k = regReset k := by
  simp only [rdW, resetRegs, tblGet, tblFind_delRange, if_pos h, Option.getD_none]

/-- What a fold leaves at `q`, where each step changes what belongs to its own element alone. -/
theorem foldl_point {σ β : Type*} {f : σ → Nat → σ} {view : Nat → σ → β} (hother : ∀ s j q, j ≠ q → view q (f s j) = view q s) {l : List Nat}
    (hl : l.Nodup) {q : Nat} (hq : q ∈ l) (s : σ) : ∃ u, view q u = view q s ∧ view q (l.foldl f s) = view q (f u q) := by
  induction l generalizing s with
  | nil => cases hq
  | cons j l ih =>
    obtain ⟨hj, hl'⟩ := List.nodup_cons.mp hl
    rcases eq_or_ne j q with rfl | hne
    · refine ⟨s, rfl, ?_⟩
      have hrest (m : List Nat) (hm : j ∉ m) (t : σ) : view j (m.foldl f t) = view j t := by
        induction m generalizing t with
        | nil => rfl
        | cons i m ihm =>
          rw [List.mem_cons, not_or] at hm
          rw [List.foldl_cons, ihm hm.2, hother t i j (Ne.symm hm.1)]
      exact hrest l hj _
    · obtain ⟨u, hu, hfold⟩ := ih hl' ((List.mem_cons.mp hq).resolve_left (Ne.symm hne)) (f s j)
      exact ⟨u, hu.trans (hother s j q hne), hfold⟩

theorem fromN_nodup (lo n : Nat) : (fromN lo n).Nodup := by
  rw [fromN_eq_range']
  exact List.nodup_range'

theorem mem_fromN {lo n k : Nat} : k ∈ fromN lo n ↔ lo ≤ k ∧ k < lo + n := by
  rw [fromN_eq_range', List.mem_range'_1]

/-! ### One queue that is taken back (R160) -/

/-- The registers of queue `q` (Table 6.2). -/
def queueReg (q r : Nat) : Nat := rk 10 (0x100 + 0x40 * q + r)

/-- The commands that an interface's reset leaves of queue `q`. -/
def cmdsKept (q : Nat) (l : List Cmd) : List Cmd :=
  (l.filter (fun c => !(c.queue == q && c.lref.isNone))).map (fun c => if c.queue == q then { c with suspended := true } else c)

/-- The state in which queue `q` stands at CMP + 1, before its registers follow. -/
def queueTaken (q : Nat) (s : State) : State :=
  setQueue q { queueReset with exp := cmpOf s q + 1, tail := cmpOf s q + 1 } { s with host := { s.host with
    cmds := cmdsKept q s.host.cmds, segs := s.host.segs.map (fun g => if g.queue == q then { g with written := false } else g) } }

/-- The ring's registers of queue `q`, but FETCH, take their reset values. -/
def ringRegsReset (q : Nat) (s : State) : State :=
  [0x00, 0x04, 0x10, 0x14, 0x18, 0x20, 0x28, 0x2C].foldl (fun s r => wrW (queueReg q r) (regReset (queueReg q r)) s) s

theorem resetQueue_split (q : Nat) (s : State) :
    resetQueue q s = wr (sqFetch q) (cmpOf s q + 1).toNat (ringRegsReset q (queueTaken q s)) := rfl

/-- The ring's registers are all that their reset changes. -/
theorem ringRegsReset_keeps {β : Type*} (g : State → β) (hg : ∀ k v s, g (wrW k v s) = g s) (q : Nat) (s : State) : g (ringRegsReset q s) = g s := by
  refine foldl_keeps g ?_ _ s
  intro s r
  exact hg ..

theorem rdW_ringRegsReset {q k : Nat} (h : ∀ r, r < 0x40 → k ≠ queueReg q r) (s : State) : rdW (ringRegsReset q s) k = rdW s k := by
  simp only [ringRegsReset, List.foldl_cons, List.foldl_nil]
  rw [rdW_wrW_other _ _ _ _ (h 0x2C (by decide)), rdW_wrW_other _ _ _ _ (h 0x28 (by decide)), rdW_wrW_other _ _ _ _ (h 0x20 (by decide)),
    rdW_wrW_other _ _ _ _ (h 0x18 (by decide)), rdW_wrW_other _ _ _ _ (h 0x14 (by decide)), rdW_wrW_other _ _ _ _ (h 0x10 (by decide)),
    rdW_wrW_other _ _ _ _ (h 0x04 (by decide)), rdW_wrW_other _ _ _ _ (h 0x00 (by decide))]

/-- ENABLE and the error of a queue are clear then. -/
theorem rdW_ringRegsReset_own (q : Nat) (s : State) : rdW (ringRegsReset q s) (queueReg q 0x18) = regReset (queueReg q 0x18) ∧
    rdW (ringRegsReset q s) (queueReg q 0x2C) = regReset (queueReg q 0x2C) := by
  have hne {r r' : Nat} (h : r ≠ r') : queueReg q r ≠ queueReg q r' := by
    simp only [queueReg, rk]
    omega
  simp only [ringRegsReset, List.foldl_cons, List.foldl_nil]
  refine ⟨?_, rdW_wrW_same ..⟩
  rw [rdW_wrW_other _ _ _ _ (hne (by decide)), rdW_wrW_other _ _ _ _ (hne (by decide)), rdW_wrW_other _ _ _ _ (hne (by decide)), rdW_wrW_same]

theorem resetQueue_host (q : Nat) (s : State) : (resetQueue q s).host = (queueTaken q s).host := by
  rw [resetQueue_split]
  exact ringRegsReset_keeps State.host (fun _ _ _ => rfl) q _

theorem resetQueue_ledger (q : Nat) (s : State) : (resetQueue q s).ledger = s.ledger ∧ (resetQueue q s).leases = s.leases := by
  rw [resetQueue_split]
  exact ⟨ringRegsReset_keeps State.ledger (fun _ _ _ => rfl) q _, ringRegsReset_keeps State.leases (fun _ _ _ => rfl) q _⟩

/-- Registers that belong to no queue, and those of another queue, stay. -/
theorem rdW_resetQueue {q k : Nat} (h : ∀ r, r < 0x40 → k ≠ queueReg q r) (s : State) : rdW (resetQueue q s) k = rdW s k := by
  have hfetch : k ≠ (sqFetch q).key := h 0x0C (by decide)
  rw [resetQueue_split, wr, rdW_wrW_other _ _ _ _ hfetch, rdW_ringRegsReset h]
  rfl

/-- What a queue is that an interface's reset has taken back. -/
theorem resetQueue_own {q : Nat} (hq : q < 4) (s : State) : rd (resetQueue q s) (sqFetch q) = (cmpOf s q + 1).toNat ∧
    queue (resetQueue q s) q = { queueReset with exp := cmpOf s q + 1, tail := cmpOf s q + 1 } ∧
    rd (resetQueue q s) (qErr q) = 0 ∧ rd (resetQueue q s) (cqEn q) = 0 := by
  have hreg (r : Nat) (hr : r ≠ 0x0C) : rdW (resetQueue q s) (queueReg q r) = rdW (ringRegsReset q (queueTaken q s)) (queueReg q r) := by
    have hne : queueReg q r ≠ (sqFetch q).key := by
      simp only [queueReg, sqFetch, hbq, rk]
      omega
    rw [resetQueue_split, wr, rdW_wrW_other _ _ _ _ hne]
  obtain ⟨hen, herr⟩ := rdW_ringRegsReset_own q (queueTaken q s)
  refine ⟨?_, ?_, ?_, ?_⟩
  · rw [resetQueue_split, rd_wr_same _ _ _ (Nat.le_of_ble_eq_true rfl)]
    exact Nat.mod_eq_of_lt (cmpOf s q + 1).isLt
  · rw [queue, resetQueue_host]
    exact tblGet_set_same ..
  · have h : rdW (resetQueue q s) (qErr q).key = regReset (queueReg q 0x2C) := (hreg 0x2C (by decide)).trans herr
    rw [rd, h]
    interval_cases q <;> decide
  · have h : rdW (resetQueue q s) (cqEn q).key = regReset (queueReg q 0x18) := (hreg 0x18 (by decide)).trans hen
    rw [rd, h]
    interval_cases q <;> decide

/-! ### The queues of one interface (R160, R165) -/

/-- Queue `q` is taken back where MSPI owns it, or where it does not. -/
def queueIf (mspi : Bool) (q : Nat) (s : State) : State := if mspiOwned s q = mspi then resetQueue q s else s

/-- The queues of one interface are taken back. -/
def queuesTaken (mspi : Bool) (s : State) : State := (fromN 0 4).foldl (fun s q => queueIf mspi q s) s

theorem queueIf_owner (mspi : Bool) (q : Nat) (s : State) : (queueIf mspi q s).host.owner = s.host.owner := by
  unfold queueIf
  split
  · rw [resetQueue_host]
    rfl
  · rfl

theorem queuesTaken_owner (mspi : Bool) (s : State) : (queuesTaken mspi s).host.owner = s.host.owner :=
  foldl_keeps (fun s => s.host.owner) (fun s q => queueIf_owner mspi q s) _ s

/-- What belongs to queue `q`: who owns it, the queue itself, its registers and its commands. -/
def queueView (q : Nat) (s : State) : BitVec 4 × QueueSt × (Fin 64 → Word32) × List Cmd :=
  (s.host.owner, queue s q, fun r => rdW s (queueReg q r.val), s.host.cmds.filter (fun c => c.queue == q))

theorem cmdsKept_filter_other {q j : Nat} (h : j ≠ q) (l : List Cmd) : (cmdsKept j l).filter (fun c => c.queue == q) = l.filter (fun c => c.queue == q) := by
  have hqueue : ((fun c : Cmd => c.queue == q) ∘ fun c => if c.queue == j then { c with suspended := true } else c) = fun c : Cmd => c.queue == q := by
    funext c
    simp only [Function.comp]
    split <;> rfl
  rw [cmdsKept, List.filter_map, hqueue, List.filter_filter]
  have hsame : ∀ c ∈ l.filter (fun c => (c.queue == q) && !(c.queue == j && c.lref.isNone)),
      (if c.queue == j then { c with suspended := true } else c) = c := by
    intro c hc
    have hcq : c.queue = q := by
      have := (List.mem_filter.mp hc).2
      simp only [Bool.and_eq_true, beq_iff_eq] at this
      exact this.1
    rw [if_neg (by simp [hcq, h.symm])]
  rw [List.map_congr_left hsame, List.map_id']
  refine List.filter_congr fun c _ => ?_
  by_cases hcq : c.queue = q
  · simp [hcq, h.symm]
  · simp [hcq]

/-- Every command that is left of a queue taken back holds a ledger entry, and stands. -/
theorem cmdsKept_filter_own {q : Nat} {l : List Cmd} {c : Cmd} (hc : c ∈ (cmdsKept q l).filter (fun c => c.queue == q)) :
    c.lref.isSome = true ∧ c.suspended = true := by
  obtain ⟨hmem, hcq⟩ := List.mem_filter.mp hc
  obtain ⟨d, hd, rfl⟩ := List.mem_map.mp hmem
  have hdq : d.queue = q := by
    rw [beq_iff_eq] at hcq
    rw [← hcq]
    split <;> rfl
  obtain ⟨_, hkeep⟩ := List.mem_filter.mp hd
  have hif : (d.queue == q) = true := beq_iff_eq.mpr hdq
  rw [if_pos hif]
  refine ⟨?_, rfl⟩
  rw [hif] at hkeep
  cases h : d.lref with
  | some i => rfl
  | none => simp [h] at hkeep

/-- A command that holds a ledger entry is left. -/
theorem mem_cmdsKept {q : Nat} {l : List Cmd} {c : Cmd} (hc : c ∈ l) (hl : c.lref.isSome = true) :
    ∃ d ∈ cmdsKept q l, d.queue = c.queue ∧ d.seq = c.seq ∧ d.instr = c.instr ∧ d.fin = c.fin ∧ d.lref = c.lref := by
  have hkeep : (!(c.queue == q && c.lref.isNone)) = true := by
    simp [Option.isNone_eq_false_iff.mpr hl]
  refine ⟨_, List.mem_map.mpr ⟨c, List.mem_filter.mpr ⟨hc, hkeep⟩, rfl⟩, ?_⟩
  split <;> exact ⟨rfl, rfl, rfl, rfl, rfl⟩

theorem queueView_queueIf (mspi : Bool) (s : State) (j q : Nat) (h : j ≠ q) : queueView q (queueIf mspi j s) = queueView q s := by
  unfold queueIf
  split
  · have hreg (r : Fin 64) : rdW (resetQueue j s) (queueReg q r.val) = rdW s (queueReg q r.val) := by
      refine rdW_resetQueue (fun r' hr' => ?_) s
      simp only [queueReg, rk]
      omega
    have hqueue : queue (resetQueue j s) q = queue s q := by
      rw [queue, resetQueue_host]
      exact tblGet_set_other _ _ _ _ _ (Ne.symm h)
    have hcmds : (resetQueue j s).host.cmds.filter (fun c => c.queue == q) = s.host.cmds.filter (fun c => c.queue == q) := by
      rw [resetQueue_host]
      exact cmdsKept_filter_other h _
    have howner : (resetQueue j s).host.owner = s.host.owner := by
      rw [resetQueue_host]
      rfl
    simp only [queueView, howner, hqueue, hreg, hcmds]
  · rfl

/-- What the reset leaves of a queue of the interface that is reset. -/
theorem queuesTaken_own {mspi : Bool} {q : Nat} (hq : q < 4) {s : State} (hown : mspiOwned s q = mspi) :
    rd (queuesTaken mspi s) (sqFetch q) = (cmpOf s q + 1).toNat ∧
    queue (queuesTaken mspi s) q = { queueReset with exp := cmpOf s q + 1, tail := cmpOf s q + 1 } ∧
    rd (queuesTaken mspi s) (qErr q) = 0 ∧ rd (queuesTaken mspi s) (cqEn q) = 0 ∧
    ∀ c ∈ (queuesTaken mspi s).host.cmds, c.queue = q → c.lref.isSome = true ∧ c.suspended = true := by
  obtain ⟨u, hu, hfold⟩ := foldl_point (view := queueView) (f := fun s q => queueIf mspi q s) (fun s j q h => queueView_queueIf mspi s j q h)
    (fromN_nodup 0 4) (mem_fromN.mpr ⟨Nat.zero_le q, by omega⟩) s
  simp only [queueView, Prod.mk.injEq] at hu hfold
  obtain ⟨hu1, -, hu3, -⟩ := hu
  obtain ⟨-, hf2, hf3, hf4⟩ := hfold
  have hq' : queueIf mspi q u = resetQueue q u := if_pos (by rw [mspiOwned, hu1]; exact hown)
  have hcmp : cmpOf u q = cmpOf s q := by
    have hk : rdW u (qCmp q).key = rdW s (qCmp q).key := congrFun hu3 ⟨0x24, by decide⟩
    rw [cmpOf, cmpOf, rd, rd, hk]
  rw [hq'] at hf2 hf3 hf4
  obtain ⟨hfetch, hqueue, herr, hen⟩ := resetQueue_own hq u
  have hreg (r : Fin 64) : rdW (queuesTaken mspi s) (queueReg q r.val) = rdW (resetQueue q u) (queueReg q r.val) := congrFun hf3 r
  have hr1 : rdW (queuesTaken mspi s) (sqFetch q).key = rdW (resetQueue q u) (sqFetch q).key := hreg ⟨0x0C, by decide⟩
  have hr2 : rdW (queuesTaken mspi s) (qErr q).key = rdW (resetQueue q u) (qErr q).key := hreg ⟨0x2C, by decide⟩
  have hr3 : rdW (queuesTaken mspi s) (cqEn q).key = rdW (resetQueue q u) (cqEn q).key := hreg ⟨0x18, by decide⟩
  rw [hcmp] at hfetch hqueue
  refine ⟨?_, hf2.trans hqueue, ?_, ?_, fun c hc hcq => ?_⟩
  · rw [← hfetch, rd, rd, hr1]
  · rw [← herr, rd, rd, hr2]
  · rw [← hen, rd, rd, hr3]
  · have hmem : c ∈ (queuesTaken mspi s).host.cmds.filter (fun c => c.queue == q) := List.mem_filter.mpr ⟨hc, beq_iff_eq.mpr hcq⟩
    rw [queuesTaken, hf4, resetQueue_host] at hmem
    exact cmdsKept_filter_own hmem

/-- A queue of the other interface stays as it is. -/
theorem queuesTaken_other {mspi : Bool} {q : Nat} (hq : q < 4) {s : State} (hown : mspiOwned s q ≠ mspi) : queue (queuesTaken mspi s) q = queue s q := by
  obtain ⟨u, hu, hfold⟩ := foldl_point (view := queueView) (f := fun s q => queueIf mspi q s) (fun s j q h => queueView_queueIf mspi s j q h)
    (fromN_nodup 0 4) (mem_fromN.mpr ⟨Nat.zero_le q, by omega⟩) s
  simp only [queueView, Prod.mk.injEq] at hu hfold
  obtain ⟨hu1, hu2, -, -⟩ := hu
  obtain ⟨-, hf2, -, -⟩ := hfold
  have hq' : queueIf mspi q u = u := if_neg (by rw [mspiOwned, hu1]; exact hown)
  rw [hq', hu2] at hf2
  exact hf2

theorem queuesTaken_cmds (mspi : Bool) (s : State) {c : Cmd} (hc : c ∈ s.host.cmds) (hl : c.lref.isSome = true) :
    ∃ d ∈ (queuesTaken mspi s).host.cmds, d.queue = c.queue ∧ d.seq = c.seq ∧ d.instr = c.instr ∧ d.fin = c.fin := by
  have hstep (s : State) (q : Nat) {c : Cmd} (hc : c ∈ s.host.cmds) (hl : c.lref.isSome = true) :
      ∃ d ∈ (queueIf mspi q s).host.cmds, d.queue = c.queue ∧ d.seq = c.seq ∧ d.instr = c.instr ∧ d.fin = c.fin ∧ d.lref = c.lref := by
    unfold queueIf
    split
    · rw [resetQueue_host]
      exact mem_cmdsKept hc hl
    · exact ⟨c, hc, rfl, rfl, rfl, rfl, rfl⟩
  unfold queuesTaken
  generalize fromN 0 4 = l
  induction l generalizing s c with
  | nil => exact ⟨c, hc, rfl, rfl, rfl, rfl⟩
  | cons q l ih =>
    obtain ⟨d, hd, h1, h2, h3, h4, h5⟩ := hstep s q hc hl
    obtain ⟨e, he, e1, e2, e3, e4⟩ := ih (queueIf mspi q s) hd (h5 ▸ hl)
    exact ⟨e, he, e1.trans h1, e2.trans h2, e3.trans h3, e4.trans h4⟩

/-- Of the rest of the state the queues' reset changes nothing that matters here, and no register that is none of theirs. -/
theorem queuesTaken_keeps (mspi : Bool) (s : State) : (queuesTaken mspi s).ledger = s.ledger ∧ (queuesTaken mspi s).leases = s.leases ∧
    (queuesTaken mspi s).host.link = s.host.link ∧ (queuesTaken mspi s).host.msi = s.host.msi ∧
    ∀ k, (∀ q r, q < 4 → r < 0x40 → k ≠ queueReg q r) → rdW (queuesTaken mspi s) k = rdW s k := by
  have hstep (s : State) (q : Nat) : (queueIf mspi q s).ledger = s.ledger ∧ (queueIf mspi q s).leases = s.leases ∧
      (queueIf mspi q s).host.link = s.host.link ∧ (queueIf mspi q s).host.msi = s.host.msi := by
    unfold queueIf
    split
    · rw [resetQueue_host]
      exact ⟨(resetQueue_ledger q s).1, (resetQueue_ledger q s).2, rfl, rfl⟩
    · exact ⟨rfl, rfl, rfl, rfl⟩
  refine ⟨foldl_keeps State.ledger (fun s q => (hstep s q).1) _ s, foldl_keeps State.leases (fun s q => (hstep s q).2.1) _ s,
    foldl_keeps (fun s => s.host.link) (fun s q => (hstep s q).2.2.1) _ s, foldl_keeps (fun s => s.host.msi) (fun s q => (hstep s q).2.2.2) _ s,
    fun k hk => ?_⟩
  have hfold (l : List Nat) (hl : ∀ q ∈ l, q < 4) (s : State) : rdW (l.foldl (fun s q => queueIf mspi q s) s) k = rdW s k := by
    induction l generalizing s with
    | nil => rfl
    | cons q l ih =>
      rw [List.foldl_cons, ih fun j hj => hl j (List.mem_cons_of_mem _ hj)]
      unfold queueIf
      split
      · exact rdW_resetQueue (fun r hr => hk q r (hl q List.mem_cons_self) hr) s
      · rfl
  exact hfold _ (fun q hq => by have := mem_fromN.mp hq; omega) s

/-! ### The leases of host DMA (R166) -/

/-- A notice changes the registers in nothing, and of the host's part the notices alone. -/
theorem notify_keeps (c d w : Nat) (s : State) : (notify c d w s).regs = s.regs ∧
    (notify c d w s).host = { s.host with notifs := (notify c d w s).host.notifs, lost := (notify c d w s).host.lost } := by
  unfold notify post
  split
  · exact ⟨rfl, rfl⟩
  · dsimp only [noteNow]
    split
    · split <;> exact ⟨rfl, rfl⟩
    · exact ⟨rfl, rfl⟩

/-- What the revocation of a lease leaves as it was: all that the reset's rule speaks of. -/
def besidesLeases (s : State) : Tbl Word32 × LedgerSt × Tbl QueueSt × List Cmd × LinkSt × Tbl Nat :=
  (s.regs, s.ledger, s.host.queues, s.host.cmds, s.host.link, s.host.msi)

theorem besidesLeases_leaseRevoke (n : Nat) (s : State) : besidesLeases (leaseRevoke n s) = besidesLeases s := by
  unfold leaseRevoke
  dsimp only
  split
  · rfl
  · obtain ⟨hregs, hhost⟩ := notify_keeps 12 n (leaseFreed (lease s n)).epoch.toNat
      (eventNow 0x03 2 n 0 (unclaim 6 n (setLease n (leaseFreed (lease s n)) s)))
    rw [besidesLeases, hregs, (tells_notify ..).ledger, hhost]
    rfl

theorem lease_leaseRevoke_same (n : Nat) (s : State) : (lease (leaseRevoke n s) n).state = 0 := by
  unfold leaseRevoke
  dsimp only
  split
  next h => exact h
  · rw [lease, (tells_notify ..).leases]
    exact congrArg Lease.state (tblGet_set_same ..)

theorem lease_leaseRevoke_other {j n : Nat} (h : j ≠ n) (s : State) : lease (leaseRevoke j s) n = lease s n := by
  unfold leaseRevoke
  dsimp only
  split
  · rfl
  · rw [lease, (tells_notify ..).leases]
    exact tblGet_set_other _ _ _ _ _ (Ne.symm h)

theorem besidesLeases_revokeWhere (p : Lease → Bool) (s : State) : besidesLeases (revokeWhere p s) = besidesLeases s := by
  refine foldl_keeps besidesLeases (fun s n => ?_) _ s
  split
  · exact besidesLeases_leaseRevoke n s
  · rfl

/-- A lease that `p` names is free afterwards; the others stay. -/
theorem lease_revokeWhere {p : Lease → Bool} {n : Nat} (hn : n < 64) (s : State) :
    (p (lease s n) = true → (lease (revokeWhere p s) n).state = 0) ∧ (p (lease s n) = false → lease (revokeWhere p s) n = lease s n) := by
  have hother (s : State) (j n : Nat) (h : j ≠ n) : lease (if p (lease s j) then leaseRevoke j s else s) n = lease s n := by
    split
    · exact lease_leaseRevoke_other h s
    · rfl
  obtain ⟨u, hu, hfold⟩ := foldl_point (view := fun n s => lease s n) (f := fun s n => if p (lease s n) then leaseRevoke n s else s) hother
    (fromN_nodup 0 64) (mem_fromN.mpr ⟨Nat.zero_le n, by omega⟩) s
  have hrevoke : lease (revokeWhere p s) n = lease (if p (lease s n) then leaseRevoke n u else u) n := by
    rw [← hu]
    exact hfold
  refine ⟨fun hp => ?_, fun hp => ?_⟩
  · rw [hrevoke, if_pos hp, lease_leaseRevoke_same]
  · rw [hrevoke, hp]
    exact hu

/-! ### PD_HOST's reset (R139, R156) -/

/-- The registers that PD_HOST's reset clears besides the queues'. -/
def hostRegsCleared (s : State) : State :=
  resetRegs 11 0 0x1000 (resetRegs 10 0x2000 0x4000 ([0x20, 0x34, 0x38].foldl (fun s r => wrW (rk 10 r) 0 s) (wr hbRun 0 s)))

theorem takeOwner_keeps (s : State) : takeOwner s = { s with host := { s.host with owner := (takeOwner s).host.owner } } := rfl

theorem pdHostReset_eq (s : State) : pdHostReset s = takeOwner { hostRegsCleared (queuesTaken false s) with
    host := { (hostRegsCleared (queuesTaken false s)).host with
      ownP := BitVec.ofNat 4 (rdW (hostRegsCleared (queuesTaken false s)) (rk 10 0x24)).toNat, msi := [] } } := by
  have hfold : (fromN 0 4).foldl (fun s q => if mspiOwned s q then s else resetQueue q s) s = queuesTaken false s := by
    refine congrArg (fun f => List.foldl f s (fromN 0 4)) (funext fun s => funext fun q => ?_)
    unfold queueIf
    cases mspiOwned s q <;> rfl
  unfold pdHostReset
  rw [hfold]
  rfl

theorem rdW_hostRegsCleared {k : Nat} (s : State) (hrun : k ≠ rk 10 0x1C) (h20 : k ≠ rk 10 0x20) (h34 : k ≠ rk 10 0x34) (h38 : k ≠ rk 10 0x38)
    (hmsi : ¬ (rk 10 0x2000 ≤ k ∧ k < rk 10 0x4000)) (hcfg : ¬ (rk 11 0 ≤ k ∧ k < rk 11 0x1000)) : rdW (hostRegsCleared s) k = rdW s k := by
  rw [hostRegsCleared, rdW_resetRegs _ hcfg, rdW_resetRegs _ hmsi, List.foldl_cons, List.foldl_cons, List.foldl_cons, List.foldl_nil,
    rdW_wrW_other _ _ _ _ h38, rdW_wrW_other _ _ _ _ h34, rdW_wrW_other _ _ _ _ h20]
  exact rdW_wrW_other _ _ _ _ hrun

/-- What PD_HOST's reset makes of `s`, whatever becomes of the epoch and the leases. -/
structure HostTaken (s t : State) : Prop where
  run : rd t hbRun = 0
  bme : rd t cfgBme = 0
  power : rd t cfgPower = 0
  msi : t.host.msi = []
  link : t.host.link = s.host.link
  ledger : t.ledger = s.ledger
  own : ∀ q, q < 4 → mspiOwned s q = false →
    rd t (sqFetch q) = (cmpOf s q + 1).toNat ∧ queue t q = { queueReset with exp := cmpOf s q + 1, tail := cmpOf s q + 1 } ∧
    rd t (qErr q) = 0 ∧ rd t (cqEn q) = 0 ∧ ∀ c ∈ t.host.cmds, c.queue = q → c.lref.isSome = true ∧ c.suspended = true
  other : ∀ q, q < 4 → mspiOwned s q = true → queue t q = queue s q
  cmds : ∀ c ∈ s.host.cmds, c.lref.isSome = true → ∃ d ∈ t.host.cmds, d.queue = c.queue ∧ d.seq = c.seq ∧ d.instr = c.instr ∧ d.fin = c.fin

theorem rd_hostRegsCleared_queue {q : Nat} (hq : q < 4) (f : Fld) {r : Nat} (hr : r < 0x40) (hf : f.key = queueReg q r) (s : State) :
    rd (hostRegsCleared s) f = rd s f := by
  have hk : rdW (hostRegsCleared s) f.key = rdW s f.key := by
    rw [hf]
    apply rdW_hostRegsCleared <;> simp only [queueReg, rk] <;> omega
  rw [rd, rd, hk]

theorem rd_hostRegsCleared_cfg {f : Fld} (hf : rk 11 0 ≤ f.key ∧ f.key < rk 11 0x1000) (h0 : fldGet f (regReset f.key) = 0) (s : State) :
    rd (hostRegsCleared s) f = 0 := by
  rw [rd, hostRegsCleared, rdW_resetRegs_in _ hf]
  exact h0

/-- Only registers are cleared there. -/
theorem hostRegsCleared_keeps (s : State) : hostRegsCleared s = { s with regs := (hostRegsCleared s).regs } := rfl

theorem rd_hostRegsCleared_run (s : State) : rd (hostRegsCleared s) hbRun = 0 := by
  have hk : rdW (hostRegsCleared s) hbRun.key = rdW (wr hbRun 0 s) hbRun.key := by
    rw [hostRegsCleared, rdW_resetRegs _ (by decide), rdW_resetRegs _ (by decide), List.foldl_cons, List.foldl_cons, List.foldl_cons, List.foldl_nil,
      rdW_wrW_other _ _ _ _ (by decide), rdW_wrW_other _ _ _ _ (by decide), rdW_wrW_other _ _ _ _ (by decide)]
  rw [rd, hk]
  exact rd_wr_same hbRun 0 _ (Nat.le_of_ble_eq_true rfl)

theorem hostTaken_pdHostReset (s : State) : HostTaken s (pdHostReset s) := by
  obtain ⟨hledger, -, hlink, -, -⟩ := queuesTaken_keeps false s
  have hown {q : Nat} (hq : q < 4) (h : mspiOwned s q = false) := queuesTaken_own hq h
  have hother {q : Nat} (hq : q < 4) (h : mspiOwned s q = true) : queue (queuesTaken false s) q = queue s q := queuesTaken_other hq (by simp [h])
  have hcmds {c : Cmd} := queuesTaken_cmds false s (c := c)
  rw [pdHostReset_eq]
  generalize queuesTaken false s = u at hledger hlink hown hother hcmds ⊢
  have hhost := congrArg State.host (hostRegsCleared_keeps u)
  have hledger' := congrArg State.ledger (hostRegsCleared_keeps u)
  have hrun := rd_hostRegsCleared_run u
  have hbme := rd_hostRegsCleared_cfg (f := cfgBme) (by decide) (by decide) u
  have hpower := rd_hostRegsCleared_cfg (f := cfgPower) (by decide) (by decide) u
  have hreg {q : Nat} (hq : q < 4) := fun f r hr hf => rd_hostRegsCleared_queue hq f (r := r) hr hf u
  generalize hostRegsCleared u = v at hhost hledger' hrun hbme hpower hreg ⊢
  have hqueue (q : Nat) : queue v q = queue u q := by rw [queue, queue, hhost]
  refine { run := hrun, bme := hbme, power := hpower, msi := rfl, link := (congrArg HostSt.link hhost).trans hlink, ledger := hledger'.trans hledger,
           own := fun q hq h => ?_, other := fun q hq h => (hqueue q).trans (hother hq h), cmds := fun c hc hl => ?_ }
  · obtain ⟨hfetch, hq', herr, hen, hc⟩ := hown hq h
    refine ⟨(hreg hq (sqFetch q) 0x0C (by decide) rfl).trans hfetch, (hqueue q).trans hq',
      (hreg hq (qErr q) 0x2C (by decide) rfl).trans herr, (hreg hq (cqEn q) 0x18 (by decide) rfl).trans hen, fun c hcm => hc c ?_⟩
    exact (congrArg HostSt.cmds hhost) ▸ hcm
  · obtain ⟨d, hd, hkept⟩ := hcmds hc hl
    exact ⟨d, (congrArg HostSt.cmds hhost).symm ▸ hd, hkept⟩

theorem pdHostReset_leases (s : State) : (pdHostReset s).leases = s.leases := by
  have hleases := (queuesTaken_keeps false s).2.1
  rw [pdHostReset_eq]
  generalize queuesTaken false s = u at hleases ⊢
  exact hleases

theorem pdHostReset_epoch (s : State) : rd (pdHostReset s) hbEpochPcie = rd s hbEpochPcie := by
  have hkeep : rdW (hostRegsCleared (queuesTaken false s)) hbEpochPcie.key = rdW s hbEpochPcie.key := by
    rw [rdW_hostRegsCleared _ (by decide) (by decide) (by decide) (by decide) (by decide) (by decide)]
    refine (queuesTaken_keeps false s).2.2.2.2 _ fun q r _ _ => ?_
    simp only [queueReg, hbEpochPcie, hb, rk]
    omega
  rw [pdHostReset_eq]
  exact congrArg (fldGet hbEpochPcie) hkeep

namespace HostTaken

/-- The end of leases changes nothing of it. -/
theorem besides {s t u : State} (h : HostTaken s t) (hu : besidesLeases u = besidesLeases t) : HostTaken s u := by
  simp only [besidesLeases, Prod.mk.injEq] at hu
  obtain ⟨hregs, hledger, hqueues, hcmds, hlink, hmsi⟩ := hu
  have hrd (f : Fld) : rd u f = rd t f := by rw [rd, rd, rdW, rdW, hregs]
  have hqueue (q : Nat) : queue u q = queue t q := by rw [queue, queue, hqueues]
  refine { run := (hrd _).trans h.run, bme := (hrd _).trans h.bme, power := (hrd _).trans h.power, msi := hmsi.trans h.msi,
           link := hlink.trans h.link, ledger := hledger.trans h.ledger, own := fun q hq ho => ?_,
           other := fun q hq ho => (hqueue q).trans (h.other q hq ho), cmds := ?_ }
  · rw [hrd, hrd, hrd, hqueue, hcmds]
    exact h.own q hq ho
  · rw [hcmds]
    exact h.cmds

/-- Nor does the epoch. -/
theorem epoch {s t : State} (h : HostTaken s t) (x : Nat) : HostTaken s (wr hbEpochPcie x t) := by
  have hrd {f : Fld} (hf : f.key ≠ hbEpochPcie.key) : rd (wr hbEpochPcie x t) f = rd t f := rd_wr_other _ _ _ _ hf
  refine { run := (hrd (by decide)).trans h.run, bme := (hrd (by decide)).trans h.bme, power := (hrd (by decide)).trans h.power, msi := h.msi,
           link := h.link, ledger := h.ledger, own := fun q hq ho => ?_, other := h.other, cmds := h.cmds }
  have hkey (r : Nat) : queueReg q r ≠ hbEpochPcie.key := by
    simp only [queueReg, hbEpochPcie, hb, rk]
    omega
  rw [hrd (hkey 0x0C), hrd (hkey 0x2C), hrd (hkey 0x18)]
  exact h.own q hq ho

/-- Of the state before it counts only what the rule speaks of. -/
theorem of_same {s s' t : State} (h : HostTaken s' t) (hregs : s'.regs = s.regs) (howner : s'.host.owner = s.host.owner)
    (hqueues : s'.host.queues = s.host.queues) (hcmds : s'.host.cmds = s.host.cmds) (hlink : s'.host.link = s.host.link)
    (hledger : s'.ledger = s.ledger) : HostTaken s t := by
  have howned (q : Nat) : mspiOwned s' q = mspiOwned s q := by rw [mspiOwned, mspiOwned, howner]
  have hcmp (q : Nat) : cmpOf s' q = cmpOf s q := by rw [cmpOf, cmpOf, rd, rd, rdW, rdW, hregs]
  have hqueue (q : Nat) : queue s' q = queue s q := by rw [queue, queue, hqueues]
  obtain ⟨hrun, hbme, hpower, hmsi, hlk, hled, hown, hother, hkept⟩ := h
  simp only [howned, hcmp, hqueue] at hown hother
  rw [hcmds] at hkept
  exact ⟨hrun, hbme, hpower, hmsi, hlk.trans hlink, hled.trans hledger, hown, hother, hkept⟩

end HostTaken

theorem dropNotifs_keeps (mspi : Bool) (s : State) : dropNotifs mspi s =
    { s with host := { s.host with notifs := (dropNotifs mspi s).host.notifs, lost := (dropNotifs mspi s).host.lost } } := by
  unfold dropNotifs
  split <;> rfl

/-- The state with the epoch raised and the queues taken back; the leases are then ended. -/
def linkTaken (s : State) : State :=
  wr hbEpochPcie (hostEpochNext (rd (pdHostReset (dropNotifs false s)) hbEpochPcie)) (pdHostReset (dropNotifs false s))

/-- A lease of host DMA that is held. -/
def hostDmaLease (l : Lease) : Bool := l.state ≠ 0 && l.owner == 0x01

theorem linkReset_eq (s : State) : linkReset true s = revokeWhere hostDmaLease (linkTaken s) := rfl

theorem hostTaken_linkReset (s : State) : HostTaken s (linkReset true s) := by
  have hdrop := dropNotifs_keeps false s
  have hpd : HostTaken s (pdHostReset (dropNotifs false s)) := by
    refine (hostTaken_pdHostReset _).of_same ?_ ?_ ?_ ?_ ?_ ?_ <;> rw [hdrop]
  rw [linkReset_eq]
  exact (hpd.epoch _).besides (besidesLeases_revokeWhere hostDmaLease (linkTaken s))

theorem rd_linkReset_epoch (s : State) : rd (linkReset true s) hbEpochPcie = hostEpochNext (rd s hbEpochPcie) := by
  have hregs : (linkReset true s).regs = (linkTaken s).regs := by
    rw [linkReset_eq]
    exact (Prod.mk.inj (besidesLeases_revokeWhere hostDmaLease (linkTaken s))).1
  have hold : rd (pdHostReset (dropNotifs false s)) hbEpochPcie = rd s hbEpochPcie := by
    rw [pdHostReset_epoch, dropNotifs_keeps]
    rfl
  have hlt : hostEpochNext (rd s hbEpochPcie) < 2 ^ 16 := by
    have h : rd s hbEpochPcie < 2 ^ 16 := rd_lt s hbEpochPcie
    unfold hostEpochNext
    split <;> omega
  have hrd : rd (linkReset true s) hbEpochPcie = rd (linkTaken s) hbEpochPcie := by rw [rd, rd, rdW, rdW, hregs]
  rw [hrd, linkTaken, hold]
  exact (rd_wr_same hbEpochPcie _ _ (Nat.le_of_ble_eq_true rfl)).trans (Nat.mod_eq_of_lt hlt)

/-- The leases of host DMA are ended, and no other lease changes. -/
theorem lease_linkReset {n : Nat} (hn : n < 64) (s : State) :
    ((lease (linkReset true s) n).state = 0 ∨ (lease (linkReset true s) n).owner ≠ 1) ∧ ((lease s n).owner ≠ 1 → lease (linkReset true s) n = lease s n) := by
  have hold : lease (linkTaken s) n = lease s n := by
    change lease (pdHostReset (dropNotifs false s)) n = lease s n
    rw [lease, pdHostReset_leases, dropNotifs_keeps]
    rfl
  obtain ⟨hends, hkeeps⟩ := lease_revokeWhere (p := hostDmaLease) hn (linkTaken s)
  rw [hold] at hends hkeeps
  rw [linkReset_eq]
  have hp : hostDmaLease (lease s n) = true ↔ (lease s n).state ≠ 0 ∧ (lease s n).owner = 1 := by
    rw [hostDmaLease, Bool.and_eq_true, decide_eq_true_eq, beq_iff_eq]
  by_cases hd : hostDmaLease (lease s n) = true
  · exact ⟨Or.inl (hends hd), fun ho => absurd (hp.mp hd).2 ho⟩
  · rw [hkeeps (Bool.eq_false_of_not_eq_true hd)]
    rw [hp, not_and_or, not_not] at hd
    exact ⟨hd, fun _ => rfl⟩

/-! ### The link events -/

/-- The state with the link down, where the reset says so. -/
def linkDown (kind : LinkResetKind) (s : State) : State :=
  if kind = .flr ∨ kind = .d3hotToD0 then s else { s with host := { s.host with link := { s.host.link with up := false } } }

theorem linkDown_up (kind : LinkResetKind) (s : State) : (linkDown kind s).host.link.up = (s.host.link.up && decide (kind = .flr ∨ kind = .d3hotToD0)) := by
  unfold linkDown
  split
  next h => simp [h]
  next h => simp [h]

theorem linkResetOf_eq (kind : LinkResetKind) {s : State} (hon : domOn s 2 = true) (hreq : s.boot.resetReq = none) :
    linkResetOf kind s = if earlyBoot s then pdHostReset (linkDown kind s) else linkReset true (linkDown kind s) := by
  unfold linkResetOf
  dsimp only
  rw [if_neg (by simp [hon, hreq])]
  cases kind <;> rfl

theorem linkResetOf_absorbed (kind : LinkResetKind) {s : State} (hreq : s.boot.resetReq ≠ none) : linkResetOf kind s = s := by
  unfold linkResetOf
  exact if_pos (Or.inr (Option.isSome_iff_ne_none.mpr hreq))

/-- What PD_HOST's reset makes of the state with the link down. -/
theorem HostTaken.rule {kind : LinkResetKind} {s t : State} (h : HostTaken (linkDown kind s) t) :
    rd t hbRun = 0 ∧ rd t cfgBme = 0 ∧ inD3 t = false ∧ t.host.msi = [] ∧
      t.host.link.up = (s.host.link.up && decide (kind = .flr ∨ kind = .d3hotToD0)) ∧ t.ledger = s.ledger ∧
      (∀ q, q < 4 → mspiOwned s q = false →
        rd t (sqFetch q) = (cmpOf s q + 1).toNat ∧ queue t q = { queueReset with exp := cmpOf s q + 1, tail := cmpOf s q + 1 } ∧
        rd t (qErr q) = 0 ∧ rd t (cqEn q) = 0) ∧
      (∀ q, q < 4 → mspiOwned s q = true → queue t q = queue s q) ∧
      (∀ c ∈ t.host.cmds, mspiOwned s c.queue = false → c.queue < 4 → c.lref.isSome = true ∧ c.suspended = true) ∧
      (∀ c ∈ s.host.cmds, c.lref.isSome = true → ∃ d ∈ t.host.cmds, d.queue = c.queue ∧ d.seq = c.seq ∧ d.instr = c.instr ∧ d.fin = c.fin) := by
  obtain ⟨hrun, hbme, hpower, hmsi, hlink, hledger, hown, hother, hcmds⟩ := h
  have hup := (congrArg LinkSt.up hlink).trans (linkDown_up kind s)
  have hsame : (linkDown kind s).ledger = s.ledger ∧ (∀ q, mspiOwned (linkDown kind s) q = mspiOwned s q) ∧ (∀ q, cmpOf (linkDown kind s) q = cmpOf s q) ∧
      (∀ q, queue (linkDown kind s) q = queue s q) ∧ (linkDown kind s).host.cmds = s.host.cmds := by
    unfold linkDown
    split <;> exact ⟨rfl, fun _ => rfl, fun _ => rfl, fun _ => rfl, rfl⟩
  obtain ⟨hl, ho, hc, hq, hm⟩ := hsame
  simp only [ho, hc, hq, hm] at hown hother hcmds
  refine ⟨hrun, hbme, ?_, hmsi, hup, hledger.trans hl, fun q hq ho => ?_, hother, fun c hc ho hq => ?_, hcmds⟩
  · rw [inD3, hpower]
    rfl
  · obtain ⟨h1, h2, h3, h4, -⟩ := hown q hq ho
    exact ⟨h1, h2, h3, h4⟩
  · obtain ⟨-, -, -, -, h5⟩ := hown c.queue hq ho
    exact h5 c hc rfl

/-- Settles O18: from S11 on the reset is PD_HOST's, the next epoch, and the end of host DMA's leases; before S11 PD_HOST's alone. -/
theorem hostLinkResetRule : Obligations.HostLinkResetRule := by
  intro kind s hon hd3
  have hexec : ¬ (kind = .d3hotToD0 ∧ (!inD3 s) = true) := by
    rintro ⟨hk, hno⟩
    rw [hd3 hk] at hno
    exact absurd hno (by decide)
  have hreset : exec (.hostLinkReset kind) s = .next (linkResetOf kind s) := congrArg Host.Outcome.next (if_neg hexec)
  refine ⟨fun hreq => ?_, fun hreq => ?_, fun hno => congrArg Host.Outcome.next (if_pos ⟨rfl, by rw [hno]; rfl⟩), fun hstep hif => ?_⟩
  · exact hreset.trans (congrArg Host.Outcome.next (linkResetOf_absorbed kind hreq))
  · rw [linkResetOf_eq kind hon hreq] at hreset
    have hepoch : rd (linkDown kind s) hbEpochPcie = rd s hbEpochPcie := by
      unfold linkDown
      split <;> rfl
    have hleases : (linkDown kind s).leases = s.leases := by
      unfold linkDown
      split <;> rfl
    cases he : earlyBoot s
    · rw [he, if_neg (by decide)] at hreset
      obtain ⟨hrun, hbme, hd, hmsi, hup, hledger, hown, hother, hstand, hkept⟩ := (hostTaken_linkReset (linkDown kind s)).rule
      refine ⟨_, hreset, hrun, hbme, hd, hmsi, ?_, hup, hledger, hown, hother, hstand, hkept, fun _ n hn => ?_, fun h => absurd h (by decide)⟩
      · exact (rd_linkReset_epoch _).trans (by rw [hepoch]; rfl)
      · have hlease : lease (linkDown kind s) n = lease s n := by rw [lease, lease, hleases]
        have h := lease_linkReset hn (linkDown kind s)
        rw [hlease] at h
        exact h
    · rw [he, if_pos rfl] at hreset
      obtain ⟨hrun, hbme, hd, hmsi, hup, hledger, hown, hother, hstand, hkept⟩ := (hostTaken_pdHostReset (linkDown kind s)).rule
      exact ⟨_, hreset, hrun, hbme, hd, hmsi, (pdHostReset_epoch _).trans hepoch, hup, hledger, hown, hother, hstand, hkept,
        fun h => absurd h (by decide), fun _ => (pdHostReset_leases _).trans hleases⟩
  · refine congrArg Host.Outcome.next (if_pos ?_)
    simp only [Bool.and_eq_true, Bool.or_eq_true, decide_eq_true_eq, bne_iff_ne]
    exact ⟨⟨hon, hstep⟩, hif⟩

end Sys2Proof.Machine
end

section
/-! PROOFS. MSPI transactions (R117, R141, R144, R163 to R165). -/

namespace Sys2Proof.Machine

open Sys2Proof.Obl

/-! ### What a transaction is served with -/

/-- The state once a valid transaction has been seen (R117). -/
def mspiSeenOf (s : State) : State := { s with boot := { s.boot with mspiSeen := true } }

theorem mspiServe_early {s : State} (hon : mspiOn s = true) (hstep : s.boot.step ≤ 4) (hmin : minimal s = false) (f : State → State) :
    mspiServe f s = mspiAnswer 5 [] s := by
  unfold mspiServe
  rw [hon, hmin]
  exact (if_neg (by decide)).trans (if_pos ⟨hstep, rfl⟩)

theorem mspiServe_late {s : State} (hon : mspiOn s = true) (hlate : 4 < s.boot.step ∨ minimal s = true) (f : State → State) :
    mspiServe f s = f (mspiSeenOf s) := by
  unfold mspiServe
  rw [hon]
  refine (if_neg (by decide)).trans (if_neg ?_)
  rintro ⟨hstep, hmin⟩
  rcases hlate with h | h
  · omega
  · rw [h] at hmin
    exact absurd hmin (by decide)

theorem regClear_host (k : Nat) (s : State) : (regClear k s).host = s.host := by
  unfold regClear
  split
  · split <;> rfl
  · rfl

/-! ### The on-chip ring of a queue that MSPI owns (R24, R144) -/

/-- What the host sent of a fetched entry. -/
def sentOf (f : Fetched) : BitVec 16 × List Byte × List Byte := (f.slotSeq, f.entry, f.params)

theorem fetchPut_spec (n : Nat) (seq : BitVec 16) (b p : List Byte) (s : State) :
    (queue (fetchPut n seq b p s) n).ring = (queue s n).ring ∧ (queue (fetchPut n seq b p s) n).tail = (queue s n).tail ∧
    (queue (fetchPut n seq b p s) n).fetched.map sentOf = (queue s n).fetched.map sentOf ++ [(seq, b, p)] ∧
    rd (fetchPut n seq b p s) (sqFetch n) = (seq + 1).toNat ∧ (fetchPut n seq b p s).host.mspiResp = s.host.mspiResp ∧
    (fetchPut n seq b p s).host.cmds = s.host.cmds := by
  let u := queue s n
  let wh : WH := { cmdHeader n (BitVec.ofNat 16 (leAt b 0 2)) (leAt b 6 2) with stamp := (rtbNs s).extractLsb' 0 40 }
  have hq : queue (fetchPut n seq b p s) n = { u with fetched := u.fetched ++ [{ slotSeq := seq, entry := b, params := p, wh := wh }] } :=
    tblGet_set_same ..
  refine ⟨?_, ?_, ?_, ?_, rfl, rfl⟩
  · rw [hq]
  · rw [hq]
  · rw [hq, List.map_append]
    rfl
  · exact (rd_wr_same (sqFetch n) _ _ (Nat.le_of_ble_eq_true rfl)).trans (Nat.mod_eq_of_lt (seq + 1).isLt)

/-- All that waits in the ring is fetched, in order. -/
theorem fetchPuts_spec (n : Nat) (l : List Fetched) (s : State) :
    let t := l.foldl (fun s f => fetchPut n f.slotSeq f.entry f.params s) s
    (queue t n).ring = (queue s n).ring ∧ (queue t n).tail = (queue s n).tail ∧
    (queue t n).fetched.map sentOf = (queue s n).fetched.map sentOf ++ l.map sentOf ∧
    (∀ f, l.getLast? = some f → rd t (sqFetch n) = (f.slotSeq + 1).toNat) ∧ t.host.mspiResp = s.host.mspiResp ∧ t.host.cmds = s.host.cmds := by
  induction l generalizing s with
  | nil => exact ⟨rfl, rfl, (List.append_nil _).symm, fun f hf => (by cases hf), rfl, rfl⟩
  | cons f l ih =>
    obtain ⟨hring, htail, hfetched, hreg, hresp, hcmds⟩ := fetchPut_spec n f.slotSeq f.entry f.params s
    obtain ⟨iring, itail, ifetched, ireg, iresp, icmds⟩ := ih (fetchPut n f.slotSeq f.entry f.params s)
    refine ⟨iring.trans hring, itail.trans htail, ifetched.trans ?_, fun g hg => ?_, iresp.trans hresp, icmds.trans hcmds⟩
    · rw [hfetched, List.append_assoc]
      rfl
    · cases l with
      | nil =>
        cases hg
        exact hreg
      | cons g' l => exact ireg g hg

/-- The state with an entry more in the ring of queue `n`, answered OK. -/
def submitted (n : Nat) (seq : BitVec 16) (e p : List Byte) (s : State) : State :=
  mspiAnswer 0 [] (setQueue n { queue s n with ring := (queue s n).ring ++ [{ slotSeq := seq, entry := e, params := p }], tail := seq + 1 } s)

theorem queue_submitted (n : Nat) (seq : BitVec 16) (e p : List Byte) (s : State) :
    queue (submitted n seq e p s) n = { queue s n with ring := (queue s n).ring ++ [{ slotSeq := seq, entry := e, params := p }], tail := seq + 1 } :=
  tblGet_set_same ..

/-- What the ring's fetch makes of a submission. -/
theorem ringFetch_submitted (n : Nat) (seq : BitVec 16) (e p : List Byte) (s : State) :
    let t := ringFetch n (submitted n seq e p s)
    t.host.mspiResp = some (0, []) ∧ (queue t n).tail = seq + 1 ∧ t.host.cmds = s.host.cmds ∧ (queue t n).ring = [] ∧
    rd t (sqFetch n) = (seq + 1).toNat ∧
    (queue t n).fetched.map sentOf = (queue s n).fetched.map sentOf ++ (queue s n).ring.map sentOf ++ [(seq, e, p)] := by
  have hq := queue_submitted n seq e p s
  have hresp : (submitted n seq e p s).host.mspiResp = some (0, []) := rfl
  have hcmds : (submitted n seq e p s).host.cmds = s.host.cmds := rfl
  generalize submitted n seq e p s = u at hq hresp hcmds ⊢
  have hempty : queue (setQueue n { queue u n with ring := [] } u) n = { queue u n with ring := [] } := tblGet_set_same ..
  obtain ⟨iring, itail, ifetched, ireg, iresp, icmds⟩ := fetchPuts_spec n (queue u n).ring (setQueue n { queue u n with ring := [] } u)
  rw [hempty] at iring itail ifetched
  refine ⟨iresp.trans hresp, itail.trans (by rw [hq]), icmds.trans hcmds, iring, ireg { slotSeq := seq, entry := e, params := p } (by rw [hq]; exact List.getLast?_concat ..), ifetched.trans ?_⟩
  rw [hq, List.map_append, List.append_assoc]
  rfl

/-! ### The rows -/

/-- Before S4 DONE every transaction is answered with STATUS 5. -/
theorem mspi_early {s : State} (hon : mspiOn s = true) (hstep : s.boot.step ≤ 4) (hmin : minimal s = false) (off : BitVec 16) (v : BitVec 32) (q : BitVec 8)
    (e p : List Byte) : Runs (.mspiRegRead off) s (mspiAnswer 5 [] s) ∧ Runs (.mspiRegWrite off v) s (mspiAnswer 5 [] s) ∧
      Runs (.submit q e p) s (mspiAnswer 5 [] s) ∧ Runs (.fetchCq q) s (mspiAnswer 5 [] s) ∧ Runs .resync s (mspiAnswer 5 [] s) ∧
      Runs (.mspiBadRequest true) s (mspiAnswer 5 [] s) :=
  have hserve (f : State → State) : Host.Outcome.next (mspiServe f s) = .next (mspiAnswer 5 [] s) := congrArg Host.Outcome.next (mspiServe_early hon hstep hmin f)
  ⟨hserve _, hserve _, hserve _, hserve _, hserve _, (congrArg Host.Outcome.next (if_pos rfl)).trans (hserve _)⟩

section
variable {s : State} (hon : mspiOn s = true) (hlate : 4 < s.boot.step ∨ minimal s = true)
include hon hlate

theorem exec_mspiRegRead (off : BitVec 16) : exec (.mspiRegRead off) s = .next (
    if off.toNat % 4 = 0 then regClear (rk 10 off.toNat) (mspiAnswer 0 (le 4 (regView (mspiSeenOf s) (rk 10 off.toNat)).toNat) (mspiSeenOf s))
    else regClear (rk 10 (off.toNat / 4 * 4 + 4)) (regClear (rk 10 (off.toNat / 4 * 4)) (mspiAnswer 0 (barBytes (mspiSeenOf s) off.toNat 4) (mspiSeenOf s)))) :=
  congrArg Host.Outcome.next (mspiServe_late hon hlate _)

theorem exec_mspiRegWrite (off : BitVec 16) (v : BitVec 32) : exec (.mspiRegWrite off v) s = .next (mspiAnswer 0 []
    (if off.toNat % 4 = 0 then hbWrite true off.toNat v (mspiSeenOf s) else bump badAcc (mspiSeenOf s))) :=
  congrArg Host.Outcome.next (mspiServe_late hon hlate _)

theorem exec_mspiBadRequest : exec (.mspiBadRequest true) s = .next (bump mspiStat (mspiAnswer 2 [] (mspiSeenOf s))) :=
  congrArg Host.Outcome.next ((if_pos rfl).trans (mspiServe_late hon hlate _))

theorem exec_submit (q : BitVec 8) (e p : List Byte) : exec (.submit q e p) s = .next (
    if !submitLen e p then bump mspiStat (mspiAnswer 2 [] (mspiSeenOf s))
    else if 4 ≤ q.toNat ∨ !mspiOwned s q.toNat then bump mspiStat (mspiAnswer 3 [] (mspiSeenOf s))
    else if !inWindow q.toNat (BitVec.ofNat 16 (rd s (sqFetch q.toNat)) + BitVec.ofNat 16 (queue s q.toNat).ring.length) s then mspiAnswer 4 [] (mspiSeenOf s)
    else if served s then
      ringFetch q.toNat (submitted q.toNat (BitVec.ofNat 16 (rd s (sqFetch q.toNat)) + BitVec.ofNat 16 (queue s q.toNat).ring.length) e p (mspiSeenOf s))
    else submitted q.toNat (BitVec.ofNat 16 (rd s (sqFetch q.toNat)) + BitVec.ofNat 16 (queue s q.toNat).ring.length) e p (mspiSeenOf s)) :=
  congrArg Host.Outcome.next (mspiServe_late hon hlate _)

/-- A queue that is none of MSPI's is answered with STATUS 3. -/
theorem submit_foreign {q : BitVec 8} {e p : List Byte} (hlen : submitLen e p = true) (hq : 4 ≤ q.toNat ∨ mspiOwned s q.toNat = false) :
    Runs (.submit q e p) s (bump mspiStat (mspiAnswer 3 [] (mspiSeenOf s))) := by
  have hq' : 4 ≤ q.toNat ∨ (!mspiOwned s q.toNat) = true := hq.imp_right fun h => by rw [h]; rfl
  refine (exec_submit hon hlate q e p).trans (congrArg Host.Outcome.next ?_)
  rw [hlen]
  exact (if_neg (by decide)).trans (if_pos hq')

section
variable {q : BitVec 8} {e p : List Byte} (hlen : submitLen e p = true) (hq : q.toNat < 4) (hown : mspiOwned s q.toNat = true)
include hlen hq hown

/-- A submission in the window goes into the queue's ring, and is fetched at once where commands are served. -/
theorem exec_submit_inWindow (hwin : inWindow q.toNat (BitVec.ofNat 16 (rd s (sqFetch q.toNat)) + BitVec.ofNat 16 (queue s q.toNat).ring.length) s = true) :
    exec (.submit q e p) s = .next (if served s then
      ringFetch q.toNat (submitted q.toNat (BitVec.ofNat 16 (rd s (sqFetch q.toNat)) + BitVec.ofNat 16 (queue s q.toNat).ring.length) e p (mspiSeenOf s))
    else submitted q.toNat (BitVec.ofNat 16 (rd s (sqFetch q.toNat)) + BitVec.ofNat 16 (queue s q.toNat).ring.length) e p (mspiSeenOf s)) := by
  refine (exec_submit hon hlate q e p).trans (congrArg Host.Outcome.next ?_)
  rw [hlen, hown, hwin]
  exact (if_neg (by decide)).trans ((if_neg (by simp [hq])).trans (if_neg (by decide)))

theorem exec_submit_outside (hwin : inWindow q.toNat (BitVec.ofNat 16 (rd s (sqFetch q.toNat)) + BitVec.ofNat 16 (queue s q.toNat).ring.length) s = false) :
    Runs (.submit q e p) s (mspiAnswer 4 [] (mspiSeenOf s)) := by
  refine (exec_submit hon hlate q e p).trans (congrArg Host.Outcome.next ?_)
  rw [hlen, hown, hwin]
  exact (if_neg (by decide)).trans ((if_neg (by simp [hq])).trans (if_pos rfl))

end

/-- The entry at the read cursor, with the phase it was written in. -/
def cursorEntry (q : Nat) (s : State) : Option (Nat × Cpl) := (queue s q).written.find? (fun x => x.1 == (queue s q).cursor)

/-- The state after the entry `x` at the cursor of queue `q` has been fetched. -/
def fetchedCq (q : Nat) (x : Nat × Cpl) (s : State) : State :=
  mspiAnswer 0 (cplBytes x.2 (if rd s (cqTail q) ≤ x.1 then 1 - rd s (cqPhase q) else rd s (cqPhase q)) ++ (x.2.payload.drop 16).take x.2.room)
    (setQueue q { queue s q with cursor := ((queue s q).cursor + 1) % ringSize s q } s)

theorem fetchCq_foreign {q : BitVec 8} (hq : 4 ≤ q.toNat ∨ mspiOwned s q.toNat = false) :
    Runs (.fetchCq q) s (bump mspiStat (mspiAnswer 3 [] (mspiSeenOf s))) :=
  congrArg Host.Outcome.next ((mspiServe_late hon hlate _).trans (if_pos (hq.imp_right fun (h : mspiOwned s q.toNat = false) =>
    show (!mspiOwned s q.toNat) = true by rw [h]; rfl)))

theorem fetchCq_none {q : BitVec 8} (hq : q.toNat < 4) (hown : mspiOwned s q.toNat = true) (h : cursorEntry q.toNat s = none) :
    Runs (.fetchCq q) s (mspiAnswer 0 [] (mspiSeenOf s)) := by
  have hno : ¬ (4 ≤ q.toNat ∨ (!mspiOwned (mspiSeenOf s) q.toNat) = true) := by
    change ¬ (4 ≤ q.toNat ∨ (!mspiOwned s q.toNat) = true)
    simp [hown, hq]
  have h' : (queue (mspiSeenOf s) q.toNat).written.find? (fun x => x.1 == (queue (mspiSeenOf s) q.toNat).cursor) = none := h
  refine congrArg Host.Outcome.next ((mspiServe_late hon hlate _).trans ((if_neg hno).trans ?_))
  dsimp only
  rw [h']

theorem fetchCq_some {q : BitVec 8} (hq : q.toNat < 4) (hown : mspiOwned s q.toNat = true) {x : Nat × Cpl} (h : cursorEntry q.toNat s = some x) :
    Runs (.fetchCq q) s (fetchedCq q.toNat x (mspiSeenOf s)) := by
  have hno : ¬ (4 ≤ q.toNat ∨ (!mspiOwned (mspiSeenOf s) q.toNat) = true) := by
    change ¬ (4 ≤ q.toNat ∨ (!mspiOwned s q.toNat) = true)
    simp [hown, hq]
  have h' : (queue (mspiSeenOf s) q.toNat).written.find? (fun x => x.1 == (queue (mspiSeenOf s) q.toNat).cursor) = some x := h
  refine congrArg Host.Outcome.next ((mspiServe_late hon hlate _).trans ((if_neg hno).trans ?_))
  dsimp only
  rw [h']
  rfl

/-- The state whose MSPI queues have been taken back, with the ownership that then holds. -/
def resynced (s : State) : State :=
  takeOwner { queuesTaken true (dropNotifs true s) with host := { (queuesTaken true (dropNotifs true s)).host with
    ownM := BitVec.ofNat 4 (rdW (queuesTaken true (dropNotifs true s)) (rk 10 0x24)).toNat } }

theorem exec_resync : exec .resync s = .next (mspiAnswer 0 (le 2 (hostEpochNext (rd (resynced (mspiSeenOf s)) hbEpochMspi)))
    (wr hbEpochMspi (hostEpochNext (rd (resynced (mspiSeenOf s)) hbEpochMspi)) (resynced (mspiSeenOf s)))) :=
  congrArg Host.Outcome.next (mspiServe_late hon hlate _)

end

/-- What a resynchronisation makes of the queues; the epoch's registers stay. -/
theorem resynced_spec (s : State) : rd (resynced s) hbEpochMspi = rd s hbEpochMspi ∧ ∀ q, q < 4 → mspiOwned s q = true →
    rd (resynced s) (sqFetch q) = (cmpOf s q + 1).toNat ∧ queue (resynced s) q = { queueReset with exp := cmpOf s q + 1, tail := cmpOf s q + 1 } := by
  have hdrop := dropNotifs_keeps true s
  have hregs : (dropNotifs true s).regs = s.regs := by rw [hdrop]
  have howned (q : Nat) : mspiOwned (dropNotifs true s) q = mspiOwned s q := by rw [mspiOwned, mspiOwned, hdrop]
  have hcmp (q : Nat) : cmpOf (dropNotifs true s) q = cmpOf s q := by rw [cmpOf, cmpOf, rd, rd, rdW, rdW, hregs]
  obtain ⟨-, -, -, -, hkeep⟩ := queuesTaken_keeps true (dropNotifs true s)
  have hepoch : rdW (queuesTaken true (dropNotifs true s)) hbEpochMspi.key = rdW s hbEpochMspi.key := by
    refine (hkeep _ fun q r _ _ => ?_).trans (by rw [rdW, rdW, hregs])
    simp only [queueReg, hbEpochMspi, hb, rk]
    omega
  have hown {q : Nat} (hq : q < 4) (h : mspiOwned s q = true) := queuesTaken_own hq ((howned q).trans h)
  unfold resynced
  generalize queuesTaken true (dropNotifs true s) = u at hepoch hown ⊢
  refine ⟨congrArg (fldGet hbEpochMspi) hepoch, fun q hq h => ?_⟩
  obtain ⟨hfetch, hqueue, -⟩ := hown hq h
  rw [hcmp] at hfetch hqueue
  exact ⟨hfetch, hqueue⟩

/-- RESYNC answers the next epoch, and the MSPI queues are at CMP + 1. -/
theorem resync_runs {s : State} (hon : mspiOn s = true) (hlate : 4 < s.boot.step ∨ minimal s = true) :
    ∃ t, Runs .resync s t ∧ rd t hbEpochMspi = (if rd s hbEpochMspi = 65535 then 1 else rd s hbEpochMspi + 1) ∧
      t.host.mspiResp = some (0, le 2 (rd t hbEpochMspi)) ∧ ∀ q, q < 4 → mspiOwned s q = true →
        rd t (sqFetch q) = (cmpOf s q + 1).toNat ∧ queue t q = { queueReset with exp := cmpOf s q + 1, tail := cmpOf s q + 1 } := by
  obtain ⟨hepoch, hqueues⟩ := resynced_spec (mspiSeenOf s)
  have hrun := exec_resync hon hlate
  generalize resynced (mspiSeenOf s) = u at hrun hepoch hqueues
  have hlt : hostEpochNext (rd u hbEpochMspi) < 2 ^ 16 := by
    have h : rd u hbEpochMspi < 2 ^ 16 := rd_lt u hbEpochMspi
    unfold hostEpochNext
    split <;> omega
  have hnew : rd (wr hbEpochMspi (hostEpochNext (rd u hbEpochMspi)) u) hbEpochMspi = hostEpochNext (rd u hbEpochMspi) :=
    (rd_wr_same hbEpochMspi _ _ (Nat.le_of_ble_eq_true rfl)).trans (Nat.mod_eq_of_lt hlt)
  refine ⟨_, hrun, hnew.trans (by rw [hepoch]; rfl), congrArg (fun e => some ((0 : BitVec 8), le 2 e)) hnew.symm, fun q hq h => ?_⟩
  obtain ⟨hfetch, hqueue⟩ := hqueues q hq h
  refine ⟨(rd_wr_other hbEpochMspi (sqFetch q) _ u ?_).trans hfetch, hqueue⟩
  simp only [sqFetch, hbq, hbEpochMspi, hb, rk]
  omega

/-- Settles O20: before S4 DONE STATUS 5; afterwards each transaction is served, and a wrong CRC is always counted. -/
theorem mspiCompletes : Obligations.MspiCompletes := by
  intro s hon seen turned
  refine ⟨congrArg Host.Outcome.next ((if_neg (by decide)).trans (if_pos hon)), fun hstep hmin off v q e p => mspi_early hon hstep hmin off v q e p,
    fun hlate => ⟨exec_mspiBadRequest hon hlate, fun off h => ?_, fun off h => ?_, fun off v h => ?_, fun off v h => ?_, fun q e p hlen => ?_,
      fun q e p hlen hq => submit_foreign hon hlate hlen hq, fun q e p hlen hq hown => ⟨fun hwin => exec_submit_outside hon hlate hlen hq hown hwin, fun hwin => ?_⟩,
      fun q hq => fetchCq_foreign hon hlate hq, fun q hq hown => ⟨fun h => fetchCq_none hon hlate hq hown h, fun i c h => ?_⟩, resync_runs hon hlate⟩⟩
  · exact (exec_mspiRegRead hon hlate off).trans (congrArg Host.Outcome.next (if_pos h))
  · refine ⟨_, (exec_mspiRegRead hon hlate off).trans (congrArg Host.Outcome.next (if_neg h)), ?_⟩
    rw [regClear_host, regClear_host]
    rfl
  · exact (exec_mspiRegWrite hon hlate off v).trans (congrArg (fun t => Host.Outcome.next (mspiAnswer 0 [] t)) (if_pos h))
  · exact (exec_mspiRegWrite hon hlate off v).trans (congrArg (fun t => Host.Outcome.next (mspiAnswer 0 [] t)) (if_neg h))
  · exact (exec_submit hon hlate q e p).trans (congrArg Host.Outcome.next (if_pos (by rw [hlen]; rfl)))
  · have hrun := exec_submit_inWindow hon hlate hlen hq hown hwin
    cases hserved : served s
    · rw [hserved, if_neg (by decide)] at hrun
      have hnew := queue_submitted q.toNat (BitVec.ofNat 16 (rd s (sqFetch q.toNat)) + BitVec.ofNat 16 (queue s q.toNat).ring.length) e p (mspiSeenOf s)
      exact ⟨_, hrun, rfl, by rw [hnew], rfl, fun _ => ⟨by rw [hnew]; rfl, by rw [hnew]; rfl, rfl⟩, fun h => absurd h (by decide)⟩
    · rw [hserved, if_pos rfl] at hrun
      obtain ⟨hresp, htail, hcmds, hring, hreg, hfetched⟩ := ringFetch_submitted q.toNat
        (BitVec.ofNat 16 (rd s (sqFetch q.toNat)) + BitVec.ofNat 16 (queue s q.toNat).ring.length) e p (mspiSeenOf s)
      exact ⟨_, hrun, hresp, htail, hcmds, fun h => absurd h (by decide), fun _ => ⟨hring, hreg, hfetched⟩⟩
  · have hq' : queue (fetchedCq q.toNat (i, c) (mspiSeenOf s)) q.toNat =
        { queue s q.toNat with cursor := ((queue s q.toNat).cursor + 1) % ringSize s q.toNat } := tblGet_set_same ..
    exact ⟨_, fetchCq_some hon hlate hq hown h, by rw [hq'], by rw [hq'], rfl⟩

end Sys2Proof.Machine
end

section
/-! PROOFS. BAR0 writes with an action (R147, R148, R151, R152, R157, Table 6.2). -/

namespace Sys2Proof.Machine

open Sys2Proof.Obl

theorem div_mod_of_getLsbD {n k : Nat} {v : BitVec n} (h : v.getLsbD k = true) : v.toNat / 2 ^ k % 2 = 1 := by
  rwa [BitVec.getLsbD, Nat.testBit_eq_decide_div_mod_eq, decide_eq_true_eq] at h

/-! ### HEAD and the doorbell -/

section
variable {q : Fin 4} {v : BitVec 32} {s : State} (hup : pcieUp s = true)
include hup

theorem hbCqhead_own (hepoch : epochOk s q.val v) (hown : mspiOwned s q.val = false) :
    let u := queue s q.val
    let hd := v.toNat % 4096
    let acked := u.written.takeWhile (fun e => e.1 ≠ hd)
    let t := setQueue q.val { u with written := u.written.drop acked.length, head := hd, cursor := hd } s
    Runs (.hbCqhead q v) s (updQ q.val (acked.foldl (fun t e => retire q.val e.2 t) t)) := by
  have hno : ¬ ((v.extractLsb' 16 8).toNat ≠ ownerEpoch s q.val % 256 ∨ mspiOwned s q.val ≠ false) := fun h =>
    h.elim (fun h => h hepoch) (fun h => h hown)
  exact congrArg Host.Outcome.next ((if_pos hup).trans (if_neg hno))

theorem hbCqhead_stale (h : ¬epochOk s q.val v ∨ mspiOwned s q.val = true) : Runs (.hbCqhead q v) s (bump badAcc s) := by
  have hstale : (v.extractLsb' 16 8).toNat ≠ ownerEpoch s q.val % 256 ∨ mspiOwned s q.val ≠ false :=
    h.imp_right fun h => by rw [h]; decide
  exact congrArg Host.Outcome.next ((if_pos hup).trans (if_pos hstale))

theorem hbSqdb_stopped (hepoch : epochOk s q.val v) (hown : mspiOwned s q.val = false) (herr : rd s (qErr q.val) ≠ 0) : Runs (.hbSqdb q v) s s := by
  have hown' : ¬ mspiOwned s q.val = true := by
    rw [hown]
    decide
  exact congrArg Host.Outcome.next ((if_pos hup).trans ((if_neg hown').trans ((if_neg (not_not_intro hepoch)).trans (if_pos (Or.inr herr)))))

end

/-! ### The heartbeat (R157) -/

theorem heartbeat_returns {v : BitVec 32} {s : State} (hnew : rd s hbHeartbeat ≠ v.toNat) (habsent : s.host.absent = true) (honyx : onyxUp s = true) :
    heartbeat v s = refresh { wr hbHeartbeat v.toNat s with host := { s.host with absent := false, hbMisses := 0 } } := by
  refine if_pos ?_
  simp only [Bool.and_eq_true, decide_eq_true_eq]
  exact ⟨⟨hnew, habsent⟩, honyx⟩

theorem heartbeat_present {v : BitVec 32} {s : State} (habsent : s.host.absent = false) : heartbeat v s = wr hbHeartbeat v.toNat s := by
  refine if_neg ?_
  simp only [Bool.and_eq_true, decide_eq_true_eq]
  rintro ⟨⟨-, h⟩, -⟩
  exact absurd (habsent.symm.trans h) (by decide)

/-! ### Acknowledged segments (R152) -/

/-- The state in which HB_SEGACK stands at the number taken. -/
def segAckPut (v : BitVec 32) (s : State) : State :=
  wr segAck (if later32 v s.host.segLast then s.host.segLast else v).toNat (if later32 v s.host.segLast then bump badAcc s else s)

/-- The covered segments, of which the ledger entries end, once the ring is rid of them. -/
def segsTaken (v : BitVec 32) (s : State) : State :=
  (s.host.segs.filter (fun g => !later32 g.num v)).foldl (fun s g => ledgerRelease g.lref (ledgerPhase g.lref 4 0 0 s))
    { s with host := { s.host with segs := s.host.segs.filter (fun g => later32 g.num v) } }

theorem segAckWrite_eq (v : BitVec 32) (s : State) : segAckWrite v s =
    if minimal (segAckPut v s) then segAckPut v s else segsTaken (if later32 v s.host.segLast then s.host.segLast else v) (segAckPut v s) := rfl

theorem segAckPut_keeps (v : BitVec 32) (s : State) : (segAckPut v s).host = s.host ∧ (segAckPut v s).ledger = s.ledger ∧
    minimal (segAckPut v s) = minimal s := by
  have hput (x : Nat) (t : State) : minimal (wr segAck x t) = minimal t := by
    rw [minimal, minimal, flag, flag, rd_wr_other _ _ _ _ (by decide)]
  have hbump (t : State) : minimal (bump badAcc t) = minimal t := by
    rw [minimal, minimal, flag, flag, rd_bump_other _ (by decide)]
  unfold segAckPut
  rw [hput]
  split
  · exact ⟨rfl, rfl, hbump s⟩
  · exact ⟨rfl, rfl, rfl⟩

theorem segAckPut_regs (v : BitVec 32) (s : State) :
    rd (segAckPut v s) segAck = (if later32 v s.host.segLast then s.host.segLast else v).toNat ∧
    (later32 v s.host.segLast = true → rd (segAckPut v s) badAcc = min (rd s badAcc + 1) 65535) := by
  refine ⟨(rd_wr_same segAck _ _ (Nat.le_of_ble_eq_true rfl)).trans (Nat.mod_eq_of_lt (BitVec.isLt _)), fun h => ?_⟩
  rw [segAckPut, rd_wr_other _ _ _ _ (by decide), if_pos h]
  exact rd_bump_same s (by decide)

theorem ledgerRelease_keeps (i : Nat) (s : State) : (ledgerRelease i s).regs = s.regs ∧ (ledgerRelease i s).host = s.host := ⟨rfl, rfl⟩

theorem segsTaken_keeps (v : BitVec 32) (s : State) : (segsTaken v s).regs = s.regs ∧
    (segsTaken v s).host = { s.host with segs := s.host.segs.filter (fun g => later32 g.num v) } := by
  have hstep (s : State) (g : Seg) : (ledgerRelease g.lref (ledgerPhase g.lref 4 0 0 s)).regs = s.regs ∧
      (ledgerRelease g.lref (ledgerPhase g.lref 4 0 0 s)).host = s.host := by
    obtain ⟨hregs, hhost⟩ := ledgerRelease_keeps g.lref (ledgerPhase g.lref 4 0 0 s)
    exact ⟨hregs.trans (ledgerPhase_regs ..), hhost.trans (ledgerPhase_host ..)⟩
  exact ⟨foldl_keeps State.regs (fun s g => (hstep s g).1) _ _, foldl_keeps State.host (fun s g => (hstep s g).2) _ _⟩

theorem hbSegack_runs {v : BitVec 32} {s : State} (hup : pcieUp s = true) :
    let upTo := if later32 v s.host.segLast then s.host.segLast else v
    ∃ t, Runs (.hbSegack v) s t ∧ rd t segAck = upTo.toNat ∧
      (later32 v s.host.segLast = true → rd t badAcc = min (rd s badAcc + 1) 65535) ∧
      (minimal s = false → t.host.segs = s.host.segs.filter (fun g => later32 g.num upTo)) ∧
      (minimal s = true → t.host.segs = s.host.segs ∧ t.ledger = s.ledger) := by
  intro upTo
  have hrun : exec (.hbSegack v) s = .next (segAckWrite v s) := congrArg Host.Outcome.next (if_pos hup)
  obtain ⟨hhost, hledger, hmin⟩ := segAckPut_keeps v s
  obtain ⟨hack, hbad⟩ := segAckPut_regs v s
  rw [segAckWrite_eq, hmin] at hrun
  cases h : minimal s
  · rw [h, if_neg (by decide)] at hrun
    obtain ⟨hregs, hhost'⟩ := segsTaken_keeps upTo (segAckPut v s)
    have hrd (f : Fld) : rd (segsTaken upTo (segAckPut v s)) f = rd (segAckPut v s) f := by rw [rd, rd, rdW, rdW, hregs]
    refine ⟨_, hrun, (hrd _).trans hack, fun hl => (hrd _).trans (hbad hl), fun _ => ?_, fun h => absurd h (by decide)⟩
    exact (congrArg HostSt.segs hhost').trans (by rw [hhost])
  · rw [h, if_pos rfl] at hrun
    exact ⟨_, hrun, hack, hbad, fun h => absurd h (by decide), fun _ => ⟨congrArg HostSt.segs hhost, hledger⟩⟩

/-! ### EN and RUN (R147, R162) -/

/-- The state of a ring that EN has started afresh. -/
def ringStarted (q : Nat) (s : State) : State :=
  wr (cqTail q) 0 (wr (cqPhase q) 1 (setQueue q { queue s q with written := [], head := 0, cursor := 0, unsig := 0, sigBy := none } s))

theorem cqcfgWrite_start {q : Nat} {v : BitVec 32} {s : State} (hwas : flag s (cqEn q) = false) (hen : v.getLsbD 31 = true) :
    cqcfgWrite q v s = ringStarted q (wr (cqSize q) v.toNat (wr (cqEn q) (v.toNat / 2147483648) s)) ∧
      rd (wr (cqSize q) v.toNat (wr (cqEn q) (v.toNat / 2147483648) s)) (cqEn q) = 1 := by
  have hset : rd (wr (cqSize q) v.toNat (wr (cqEn q) (v.toNat / 2147483648) s)) (cqEn q) = 1 := by
    rw [rd_wr_apart _ _ (by simp [apart, cqEn, cqSize, hbq]), rd_wr_same (cqEn q) _ _ (Nat.le_of_ble_eq_true rfl)]
    exact div_mod_of_getLsbD hen
  refine ⟨if_pos ?_, hset⟩
  rw [hwas, flag, hset]
  rfl

theorem ringStarted_spec (q : Nat) (s : State) : rd (ringStarted q s) (cqEn q) = rd s (cqEn q) ∧ rd (ringStarted q s) (cqSize q) = rd s (cqSize q) ∧
    rd (ringStarted q s) (cqTail q) = 0 ∧ rd (ringStarted q s) (cqPhase q) = 1 ∧ (queue (ringStarted q s) q).written = [] ∧
    (queue (ringStarted q s) q).head = 0 ∧ (ringStarted q s).host.cmds = s.host.cmds := by
  have hother {f : Fld} (h1 : apart (cqTail q) f = true) (h2 : apart (cqPhase q) f = true) : rd (ringStarted q s) f = rd s f := by
    rw [ringStarted, rd_wr_apart _ _ h1, rd_wr_apart _ _ h2]
    rfl
  have hq : queue (ringStarted q s) q = { queue s q with written := [], head := 0, cursor := 0, unsig := 0, sigBy := none } := tblGet_set_same ..
  refine ⟨hother ?_ ?_, hother ?_ ?_, rd_wr_same (cqTail q) 0 _ (Nat.le_of_ble_eq_true rfl), ?_, by rw [hq], by rw [hq], rfl⟩
  · simp [apart, cqEn, cqTail, hbq, rk]
  · simp [apart, cqEn, cqPhase, hbq, rk]
  · simp [apart, cqSize, cqTail, hbq, rk]
  · simp [apart, cqSize, cqPhase, hbq, rk]
  · rw [ringStarted, rd_wr_apart _ _ (by simp [apart, cqPhase, cqTail, hbq]), rd_wr_same (cqPhase q) _ _ (Nat.le_of_ble_eq_true rfl)]
    rfl

theorem hbCqcfgEnable_starts {q : Fin 4} {v : BitVec 32} {s : State} (hup : pcieUp s = true) (hwas : flag s (cqEn q.val) = false)
    (hen : v.getLsbD 31 = true) :
    ∃ t, Runs (.hbCqcfgEnable q v) s t ∧ rd t (cqEn q.val) = 1 ∧ rd t (cqSize q.val) = v.toNat % 8 ∧ rd t (cqTail q.val) = 0 ∧
      rd t (cqPhase q.val) = 1 ∧ (queue t q.val).written = [] ∧ (queue t q.val).head = 0 ∧ t.host.cmds = s.host.cmds := by
  obtain ⟨heq, hone⟩ := cqcfgWrite_start hwas hen
  obtain ⟨h1, h2, htail, hphase, hwritten, hhead, hcmds⟩ := ringStarted_spec q.val (wr (cqSize q.val) v.toNat (wr (cqEn q.val) (v.toNat / 2147483648) s))
  have hrun : exec (.hbCqcfgEnable q v) s = .next (cqcfgWrite q.val v s) := congrArg Host.Outcome.next (if_pos hup)
  rw [heq] at hrun
  exact ⟨_, hrun, h1.trans hone, h2.trans (rd_wr_same (cqSize q.val) _ _ (Nat.le_of_ble_eq_true rfl)), htail, hphase, hwritten, hhead, hcmds⟩

/-- The queues' errors, cleared. -/
def errsCleared (s : State) : State := (fromN 0 4).foldl (fun s q => wr (qErr q) 0 s) s

theorem errsCleared_spec (s : State) : (∀ k, k < 4 → rd (errsCleared s) (qErr k) = 0) ∧ (errsCleared s).host = s.host ∧
    ∀ f : Fld, (∀ k, f.key ≠ (qErr k).key) → rd (errsCleared s) f = rd s f := by
  refine ⟨fun k hk => ?_, foldl_keeps State.host (fun s q => (show (wr (qErr q) 0 s).host = s.host from rfl)) _ s, fun f hf => foldl_keeps (fun t => rd t f) (fun t k => rd_wr_other _ _ _ _ (hf k)) _ s⟩
  have hother (s : State) (j q : Nat) (h : j ≠ q) : rd (wr (qErr j) 0 s) (qErr q) = rd s (qErr q) := by
    refine rd_wr_other _ _ _ _ ?_
    simp only [qErr, hbq, rk]
    omega
  obtain ⟨u, -, hfold⟩ := foldl_point (view := fun q s => rd s (qErr q)) (f := fun s q => wr (qErr q) 0 s) hother (fromN_nodup 0 4)
    (mem_fromN.mpr ⟨Nat.zero_le k, by omega⟩) s
  exact hfold.trans (rd_wr_same (qErr k) 0 u (Nat.le_of_ble_eq_true rfl))

theorem hbCtrlRun_restarts {v : BitVec 32} {s : State} (hup : pcieUp s = true) (hwas : rd s hbRun = 0) (hset : v.getLsbD 0 = true) :
    ∃ t, Runs (.hbCtrlRun v) s t ∧ rd t hbRun = 1 ∧ rd t hbNotifyq = v.toNat / 256 % 16 ∧ (∀ k, k < 4 → rd t (qErr k) = 0) ∧ t.host = s.host := by
  have hrun' : rd (wr hbRun v.toNat (wr hbNotifyq (v.toNat / 256) s)) hbRun = 1 := by
    have h := div_mod_of_getLsbD hset
    rw [Nat.pow_zero, Nat.div_one] at h
    exact (rd_wr_same hbRun _ _ (Nat.le_of_ble_eq_true rfl)).trans h
  have hnotify : rd (wr hbRun v.toNat (wr hbNotifyq (v.toNat / 256) s)) hbNotifyq = v.toNat / 256 % 16 := by
    rw [rd_wr_apart _ _ (by decide)]
    exact rd_wr_same hbNotifyq _ _ (Nat.le_of_ble_eq_true rfl)
  obtain ⟨herr, hhost, hother⟩ := errsCleared_spec (wr hbRun v.toNat (wr hbNotifyq (v.toNat / 256) s))
  have hrun : exec (.hbCtrlRun v) s = .next (errsCleared (wr hbRun v.toNat (wr hbNotifyq (v.toNat / 256) s))) :=
    congrArg Host.Outcome.next ((if_pos hup).trans (if_pos ⟨hwas, hrun'⟩))
  have hkey (f : Fld) (hf : f.key = rk 10 0x1C) (k : Nat) : f.key ≠ (qErr k).key := by
    rw [hf]
    simp only [qErr, hbq, rk]
    omega
  exact ⟨_, hrun, (hother hbRun (hkey _ rfl)).trans hrun', (hother hbNotifyq (hkey _ rfl)).trans hnotify, herr, hhost⟩

/-- Settles O15: each write by the action of its register. -/
theorem hostRegisterWritesComplete : Obligations.HostRegisterWritesComplete := by
  intro q v s hup
  exact ⟨hbCqhead_own hup, hbCqhead_stale hup, hbSqdb_stopped hup,
    fun hnew habsent honyx => congrArg Host.Outcome.next ((if_pos hup).trans (heartbeat_returns hnew habsent honyx)),
    fun habsent => congrArg Host.Outcome.next ((if_pos hup).trans (heartbeat_present habsent)), hbSegack_runs hup,
    hbCqcfgEnable_starts hup, hbCtrlRun_restarts hup⟩

end Sys2Proof.Machine
end

section
/-! PROOFS. Register writes and reads of every block (R9, R13, R64, R74, R78, R79, R95, R141). -/

namespace Sys2Proof.Machine

open Sys2Proof.Obl

theorem fldGet_congr {f : Fld} {a b : Word32} (h : ∀ k, f.lo ≤ k → k < f.lo + f.w → a.getLsbD k = b.getLsbD k) : fldGet f a = fldGet f b := by
  refine Nat.eq_of_testBit_eq fun k => ?_
  simp only [fldGet, Nat.testBit_mod_two_pow, Nat.testBit_div_two_pow]
  by_cases hk : k < f.w
  · simp only [hk, decide_true, Bool.true_and]
    have := h (k + f.lo) (by omega) (by omega)
    simpa [BitVec.getLsbD] using this
  · simp [hk]

/-! ### A plain write (Table 0.5) -/

/-- The row of a register by its number. -/
theorem regRow_rk {b o : Nat} (ho : o < 65536) : regRow (rk b o / 65536) (rk b o % 65536) = regRow b o := by
  have h1 : rk b o / 65536 = b := by
    rw [rk]
    omega
  have h2 : rk b o % 65536 = o := by
    rw [rk]
    omega
  rw [h1, h2]

theorem regStore_none {b o : Nat} (ho : o < 65536) (h : regRow b o = none) (v : Word32) (s : State) : regStore (rk b o) v s = s := by
  unfold regStore
  rw [regRow_rk ho, h]

/-- A write changes the bits that its access code lets it change, and clears those that a one clears. -/
theorem regStore_some {b o : Nat} (ho : o < 65536) {r : RegRow} (h : regRow b o = some r) (v : Word32) (s : State) :
    regStore (rk b o) v s = { s with regs := (regStore (rk b o) v s).regs } ∧ (∀ j, j ≠ rk b o → rdW (regStore (rk b o) v s) j = rdW s j) ∧
    ∀ k, k < 32 → (rdW (regStore (rk b o) v s) (rk b o)).getLsbD k =
      ((if (BitVec.ofNat 32 r.rw).getLsbD k then v.getLsbD k else (rdW s (rk b o)).getLsbD k) && !((BitVec.ofNat 32 r.w1c).getLsbD k && v.getLsbD k)) := by
  unfold regStore
  rw [regRow_rk ho, h]
  dsimp only
  split
  next hz =>
    obtain ⟨hrw, hw1c⟩ := hz
    refine ⟨rfl, fun _ _ => rfl, fun k _ => ?_⟩
    rw [hrw, hw1c]
    simp
  · refine ⟨rfl, fun j hj => rdW_wrW_other _ _ _ _ hj, fun k hk => ?_⟩
    rw [rdW_wrW_same]
    simp only [BitVec.getLsbD_and, BitVec.getLsbD_or, BitVec.getLsbD_not, hk, decide_true, Bool.true_and]
    cases (BitVec.ofNat 32 r.rw).getLsbD k <;> cases (BitVec.ofNat 32 r.w1c).getLsbD k <;> simp

/-- A field that a write may change whole holds what was written. -/
theorem rd_regStore {b o : Nat} (ho : o < 65536) {r : RegRow} (h : regRow b o = some r) {f : Fld} (hf : f.key = rk b o) (hw : f.lo + f.w ≤ 32)
    (hrw : ∀ k, f.lo ≤ k → k < f.lo + f.w → (BitVec.ofNat 32 r.rw).getLsbD k = true ∧ (BitVec.ofNat 32 r.w1c).getLsbD k = false) (v : Word32) (s : State) :
    rd (regStore (rk b o) v s) f = fldGet f v := by
  rw [rd, hf]
  refine fldGet_congr fun k hlo hhi => ?_
  obtain ⟨h1, h2⟩ := hrw k hlo hhi
  rw [(regStore_some ho h v s).2.2 k (by omega), h1, h2]
  simp

/-! ### REGISTER_WRITE -/

theorem exec_registerWrite_block {b : BitVec 8} {off : BitVec 16} {v : BitVec 32} {s : State} (hon : domOn s 1 = true) (hb : 1 ≤ b.toNat) (hb' : b.toNat ≤ 9)
    (ho : off.toNat % 4 = 0) : exec (.registerWrite b off 4 v) s = .next (blockWrite b.toNat off.toNat v s) :=
  congrArg Host.Outcome.next ((if_neg (by omega)).trans ((if_neg (by omega)).trans (if_pos ⟨hb, hb', rfl, ho, hon⟩)))

theorem registerWrite_unanswered {b : BitVec 8} {off : BitVec 16} {sz : BitVec 8} {v : BitVec 32} {s : State} (h10 : b.toNat ≠ 10) (h11 : b.toNat ≠ 11)
    (h : ¬ (1 ≤ b.toNat ∧ b.toNat ≤ 9 ∧ sz = 4 ∧ off.toNat % 4 = 0 ∧ domOn s 1 = true)) : Runs (.registerWrite b off sz v) s s :=
  congrArg Host.Outcome.next ((if_neg h10).trans ((if_neg h11).trans (if_neg h)))

theorem registerWrite_host {off : BitVec 16} {sz : BitVec 8} {v : BitVec 32} {s : State} :
    (pcieUp s = false → Runs (.registerWrite 10 off sz v) s s) ∧
    (pcieUp s = true → sz ≠ 4 ∨ off.toNat % 4 ≠ 0 → Runs (.registerWrite 10 off sz v) s (bump badAcc s)) ∧
    (pcieUp s = true → sz = 4 → off.toNat % 4 = 0 → Runs (.registerWrite 10 off sz v) s (hbWrite false off.toNat v s)) := by
  refine ⟨fun hup => ?_, fun hup hbad => ?_, fun hup hsz ho => ?_⟩
  · exact congrArg Host.Outcome.next ((if_pos rfl).trans (if_pos (by rw [hup]; rfl)))
  · exact congrArg Host.Outcome.next ((if_pos rfl).trans ((if_neg (by rw [hup]; decide)).trans (if_pos hbad)))
  · exact congrArg Host.Outcome.next ((if_pos rfl).trans ((if_neg (by rw [hup]; decide)).trans (if_neg (by simp [hsz, ho]))))

theorem registerWrite_cfg {off : BitVec 16} {v : BitVec 32} {s : State} (hup : hostLinkUp s = true) (hstep : 5 ≤ s.boot.step) (ho : off.toNat % 4 = 0) :
    Runs (.registerWrite 11 off 4 v) s (cfgWrite off.toNat v s) := by
  refine congrArg Host.Outcome.next ((if_neg (by decide)).trans ((if_pos rfl).trans (if_pos ?_)))
  simp [hup, hstep, ho]

/-- A register that does not act on a write takes it plainly. -/
theorem blockWrite_plain {b o : Nat} (h : writeActs b o = false) (v : Word32) (s : State) : blockWrite b o v s = regStore (rk b o) v s := by
  simp only [writeActs, Bool.or_eq_false_iff, Bool.and_eq_false_iff, beq_eq_false_iff_ne, ne_eq] at h
  obtain ⟨⟨h7, h8⟩, h9⟩ := h
  unfold blockWrite
  refine (if_neg ?_).trans ((if_neg ?_).trans ((if_neg ?_).trans ((if_neg ?_).trans ((if_neg ?_).trans ((if_neg ?_).trans ((if_neg ?_).trans (if_neg ?_))))))) <;>
    rintro ⟨hb, ho⟩ <;> omega

theorem blockWrite_domReq (v : BitVec 32) (s : State) : blockWrite 7 0x004 v s = if v.getLsbD 31 then domReq (v.toNat % 16) (v.getLsbD 8) s else s := rfl
theorem blockWrite_hibCtl (v : BitVec 32) (s : State) : blockWrite 7 0x00C v s = hibCtlWrite v s := rfl
theorem blockWrite_rtbCmd (v : BitVec 32) (s : State) : blockWrite 9 0x030 v s = if v.getLsbD 0 then cmdStep s else s := rfl

theorem hibCtlWrite_stays {v : BitVec 32} {s : State} (h : v.getLsbD 0 = false ∨ s.pwr.hib ≠ .awake ∨ booted s = false) :
    hibCtlWrite v s = wr hibWakeNEn (v.toNat / 2) (wr hibTimerEn (v.toNat / 4) s) := by
  refine if_neg ?_
  rintro ⟨hgo, hawake, hboot⟩
  rcases h with h | h | h
  · exact absurd (hgo.symm.trans h) (by decide)
  · exact h hawake
  · exact absurd (hboot.symm.trans h) (by decide)

theorem audWrite_spec (v : BitVec 32) (s : State) :
    let t := wr audActive (rd (regStore (rk 8 0x60) v s) audSrc) (regStore (rk 8 0x60) v s)
    rd t audSrc = v.toNat % 2 ∧ rd t audActive = v.toNat % 2 ∧ t = { s with regs := t.regs } := by
  have hrow : regRow 8 0x60 = some ⟨8, 0x060, 4, 1, 3, 0, 0, 2⟩ := by decide
  have hsrc : rd (regStore (rk 8 0x60) v s) audSrc = v.toNat % 2 := by
    refine (rd_regStore (by decide) hrow rfl (by decide) (fun k _ hk => ?_) v s).trans ?_
    · have hk0 : k = 0 := Nat.lt_one_iff.mp hk
      subst hk0
      decide
    · simp [fldGet, audSrc, clk]
  obtain ⟨hregs, -, -⟩ := regStore_some (by decide) hrow v s
  generalize regStore (rk 8 0x60) v s = u at hsrc hregs ⊢
  refine ⟨(rd_wr_apart _ _ (by decide)).trans hsrc, (rd_wr_same audActive _ _ (Nat.le_of_ble_eq_true rfl)).trans ?_, ?_⟩
  · rw [hsrc]
    exact Nat.mod_mod _ _
  · rw [hregs]
    rfl

theorem rd_srcStored (v : BitVec 32) (s : State) : rd (regStore (rk 9 0x10) v s) rtbSrc = v.toNat % 4 := by
  have hrow : regRow 9 0x10 = some ⟨9, 0x010, 4, 1, 0x373, 0, 0, 0⟩ := by decide
  refine (rd_regStore (by decide) hrow rfl (by decide) (fun k _ hk => ?_) v s).trans ?_
  · have hk2 : k < 2 := hk
    interval_cases k <;> decide
  · simp [fldGet, rtbSrc, rtb]

theorem addendHi_addend (n : Nat) (s : State) :
    (addendHi n s).time.addend.toNat = clamp 4290672329 4299262263 (n % 256 * 4294967296 + (rdW s (rk 9 0x18)).toNat) := by
  rw [addendHi]
  generalize n % 256 * 4294967296 + (rdW s (rk 9 0x18)).toNat = a
  have hlt : max 4290672329 (min 4299262263 a) < 2 ^ 40 := by omega
  rw [(addendWrite_spec a s).1, clamp, BitVec.toNat_ofNat, Nat.mod_eq_of_lt hlt]

section
variable {v : BitVec 32} {s : State} (hon : domOn s 1 = true)
include hon

theorem registerWrite_domReq : (v.getLsbD 31 = true → Runs (.registerWrite 7 0x004 4 v) s (domReq (v.toNat % 16) (v.getLsbD 8) s)) ∧
    (v.getLsbD 31 = false → Runs (.registerWrite 7 0x004 4 v) s s) := by
  have hrun := exec_registerWrite_block (b := 7) (off := 0x004) (v := v) hon (by decide) (by decide) (by decide)
  exact ⟨fun h => hrun.trans (congrArg Host.Outcome.next ((blockWrite_domReq v s).trans (if_pos h))),
    fun h => hrun.trans (congrArg Host.Outcome.next ((blockWrite_domReq v s).trans (if_neg (by rw [h]; decide))))⟩

theorem registerWrite_hibCtl :
    (v.getLsbD 0 = false ∨ s.pwr.hib ≠ .awake ∨ booted s = false →
      Runs (.registerWrite 7 0x00C 4 v) s (wr hibWakeNEn (v.toNat / 2) (wr hibTimerEn (v.toNat / 4) s))) ∧
    (v.getLsbD 0 = true → s.pwr.hib = .awake → booted s = true →
      Runs (.registerWrite 7 0x00C 4 v) s (hibGo (wr hibWakeNEn (v.toNat / 2) (wr hibTimerEn (v.toNat / 4) s)))) := by
  have hrun := exec_registerWrite_block (b := 7) (off := 0x00C) (v := v) hon (by decide) (by decide) (by decide)
  exact ⟨fun h => hrun.trans (congrArg Host.Outcome.next ((blockWrite_hibCtl v s).trans (hibCtlWrite_stays h))),
    fun h1 h2 h3 => hrun.trans (congrArg Host.Outcome.next ((blockWrite_hibCtl v s).trans (if_pos ⟨h1, h2, h3⟩)))⟩

theorem registerWrite_coreRamp : ∃ t, Runs (.registerWrite 7 0x01C 4 v) s t ∧ rd t coreRamp = max 250 (min 16000 (v.toNat % 16384)) ∧
    t = { s with regs := t.regs } := by
  have hrun := exec_registerWrite_block (b := 7) (off := 0x01C) (v := v) hon (by decide) (by decide) (by decide)
  have hblock : blockWrite 7 0x01C v s = wr coreRamp (clamp 250 16000 (v.toNat % 16384)) s := rfl
  refine ⟨wr coreRamp (clamp 250 16000 (v.toNat % 16384)) s, hrun.trans (congrArg Host.Outcome.next hblock), ?_, rfl⟩
  have hlt : clamp 250 16000 (v.toNat % 16384) < 2 ^ 14 := by
    rw [clamp]
    omega
  exact (rd_wr_same coreRamp _ _ (Nat.le_of_ble_eq_true rfl)).trans (Nat.mod_eq_of_lt hlt)

theorem registerWrite_aud : ∃ t, Runs (.registerWrite 8 0x060 4 v) s t ∧ rd t audSrc = v.toNat % 2 ∧ rd t audActive = v.toNat % 2 ∧
    t = { s with regs := t.regs } := by
  have hrun := exec_registerWrite_block (b := 8) (off := 0x060) (v := v) hon (by decide) (by decide) (by decide)
  have hblock : blockWrite 8 0x060 v s = wr audActive (rd (regStore (rk 8 0x60) v s) audSrc) (regStore (rk 8 0x60) v s) := rfl
  exact ⟨_, hrun.trans (congrArg Host.Outcome.next hblock), audWrite_spec v s⟩

theorem registerWrite_rtbSrc : Runs (.registerWrite 9 0x010 4 v) s (srcWritten (rd s rtbSrc) (v.toNat % 4) (regStore (rk 9 0x10) v s)) := by
  have hrun := exec_registerWrite_block (b := 9) (off := 0x010) (v := v) hon (by decide) (by decide) (by decide)
  have hblock : blockWrite 9 0x010 v s = srcWritten (rd s rtbSrc) (rd (regStore (rk 9 0x10) v s) rtbSrc) (regStore (rk 9 0x10) v s) := rfl
  rw [rd_srcStored] at hblock
  exact hrun.trans (congrArg Host.Outcome.next hblock)

theorem registerWrite_addend : ∃ t, Runs (.registerWrite 9 0x01C 4 v) s t ∧
    t.time.addend.toNat = clamp 4290672329 4299262263 (v.toNat % 256 * 4294967296 + (rdW s (rk 9 0x18)).toNat) := by
  have hrun := exec_registerWrite_block (b := 9) (off := 0x01C) (v := v) hon (by decide) (by decide) (by decide)
  have hblock : blockWrite 9 0x01C v s = addendHi v.toNat s :=
    (if_neg (by decide)).trans ((if_neg (by decide)).trans ((if_neg (by decide)).trans ((if_neg (by decide)).trans ((if_neg (by decide)).trans (if_pos ⟨rfl, rfl⟩)))))
  exact ⟨addendHi v.toNat s, hrun.trans (congrArg Host.Outcome.next hblock), addendHi_addend v.toNat s⟩

theorem registerWrite_adj : ∃ t, Runs (.registerWrite 9 0x020 4 v) s t ∧ t.time.slew = v.toInt * 4294967296 ∧
    t = { s with time := { s.time with slew := t.time.slew } } := by
  have hrun := exec_registerWrite_block (b := 9) (off := 0x020) (v := v) hon (by decide) (by decide) (by decide)
  have hblock : blockWrite 9 0x020 v s = adjWrite v.toInt s := by
    rw [← sx_toInt]
    rfl
  exact ⟨adjWrite v.toInt s, hrun.trans (congrArg Host.Outcome.next hblock), rfl, rfl⟩

theorem registerWrite_rtbCmd : (v.getLsbD 0 = false → Runs (.registerWrite 9 0x030 4 v) s s) ∧
    (v.getLsbD 0 = true → Runs (.registerWrite 9 0x030 4 v) s (cmdStep s)) := by
  have hrun := exec_registerWrite_block (b := 9) (off := 0x030) (v := v) hon (by decide) (by decide) (by decide)
  exact ⟨fun h => hrun.trans (congrArg Host.Outcome.next ((blockWrite_rtbCmd v s).trans (if_neg (by rw [h]; decide)))),
    fun h => hrun.trans (congrArg Host.Outcome.next ((blockWrite_rtbCmd v s).trans (if_pos h)))⟩

end

theorem registerWriteCompletes : RegisterWriteCompletes := by
  intro b off sz v s o
  have ho : o < 65536 := off.isLt
  obtain ⟨hdown, hbad, hhost⟩ := registerWrite_host (off := off) (sz := sz) (v := v) (s := s)
  refine ⟨hdown, hbad, hhost, fun hup hstep hsz hal => hsz ▸ registerWrite_cfg hup hstep hal, fun hb hb' h => ?_, fun h => ?_, fun hon hb hb' hsz hal hplain => ?_,
    fun hon hsz => ?_⟩
  · refine registerWrite_unanswered (by omega) (by omega) ?_
    rintro ⟨-, -, hsz, hal, hon⟩
    rcases h with h | h | h
    · exact absurd (hon.symm.trans h) (by decide)
    · exact h hsz
    · exact h hal
  · have hb : b.toNat = 0 ∨ 11 < b.toNat := h.imp_left fun h => by rw [h]; rfl
    exact registerWrite_unanswered (by omega) (by omega) (by omega)
  · have hrun := exec_registerWrite_block (v := v) hon hb hb' hal
    rw [blockWrite_plain hplain, ← hsz] at hrun
    refine ⟨fun hnone => hrun.trans (congrArg Host.Outcome.next (regStore_none ho hnone v s)), fun r hr => ?_⟩
    exact ⟨_, hrun, regStore_some ho hr v s⟩
  · rw [hsz]
    exact ⟨(registerWrite_domReq hon).1, (registerWrite_domReq hon).2, (registerWrite_hibCtl hon).1, (registerWrite_hibCtl hon).2, registerWrite_coreRamp hon,
      registerWrite_aud hon, registerWrite_rtbSrc hon, registerWrite_addend hon, registerWrite_adj hon, (registerWrite_rtbCmd hon).1, (registerWrite_rtbCmd hon).2⟩

/-! ### Reads that clear or latch -/

theorem regClear_some {b o : Nat} (ho : o < 65536) {r : RegRow} (h : regRow b o = some r) (s : State) :
    regClear (rk b o) s = { s with regs := (regClear (rk b o) s).regs } ∧ rdW (regClear (rk b o) s) (rk b o) = rdW s (rk b o) &&& ~~~(BitVec.ofNat 32 r.rc) ∧
    ∀ j, j ≠ rk b o → rdW (regClear (rk b o) s) j = rdW s j := by
  unfold regClear
  rw [regRow_rk ho, h]
  dsimp only
  split
  next hz =>
    refine ⟨rfl, ?_, fun _ _ => rfl⟩
    have hall : ~~~(BitVec.ofNat 32 r.rc) = BitVec.allOnes 32 := by rw [hz]; rfl
    rw [hall, BitVec.and_allOnes]
  · exact ⟨rfl, rdW_wrW_same .., fun j hj => rdW_wrW_other _ _ _ _ hj⟩

theorem regClear_none {b o : Nat} (ho : o < 65536) (h : regRow b o = none) (s : State) : regClear (rk b o) s = s := by
  unfold regClear
  rw [regRow_rk ho, h]

theorem readUecnt_spec (s : State) : rd (readUecnt s) scrubUeN = 0 ∧ (∀ n, n < 8 → rd (readUecnt s) (scrubUe n) = 0) ∧
    readUecnt s = { s with regs := (readUecnt s).regs } := by
  have hother (s : State) (j n : Nat) (h : j ≠ n) : rd (wr (scrubUe j) 0 s) (scrubUe n) = rd s (scrubUe n) := by
    refine rd_wr_other _ _ _ _ ?_
    simp only [scrubUe, pwr, rk]
    omega
  have hcount (t : State) (n : Nat) : rd (wr (scrubUe n) 0 t) scrubUeN = rd t scrubUeN := by
    refine rd_wr_other _ _ _ _ ?_
    simp only [scrubUe, scrubUeN, pwr, rk]
    omega
  refine ⟨(foldl_keeps (fun t => rd t scrubUeN) hcount _ _).trans (rd_wr_same scrubUeN 0 s (Nat.le_of_ble_eq_true rfl)), fun n hn => ?_, ?_⟩
  · obtain ⟨u, -, hfold⟩ := foldl_point (view := fun n s => rd s (scrubUe n)) (f := fun s n => wr (scrubUe n) 0 s) hother (fromN_nodup 0 8)
      (mem_fromN.mpr ⟨Nat.zero_le n, by omega⟩) (wr scrubUeN 0 s)
    exact hfold.trans (rd_wr_same (scrubUe n) 0 u (Nat.le_of_ble_eq_true rfl))
  · have hregs (l : List Nat) (t : State) : l.foldl (fun s n => wr (scrubUe n) 0 s) t =
        { t with regs := (l.foldl (fun s n => wr (scrubUe n) 0 s) t).regs } := by
      induction l generalizing t with
      | nil => rfl
      | cons n l ih => exact ih (wr (scrubUe n) 0 t)
    exact hregs _ (wr scrubUeN 0 s)

/-- A low half that latches the upper half (R79). -/
theorem latchClk_zc {n : Nat} (hn : n < 4) (s : State) : latchClk (0x8C + 0x20 * n) s =
    { s with time := { s.time with latch := tblSet (rk 8 (0x90 + 0x20 * n)) ((zcOf s n).last.extractLsb' 32 32) s.time.latch } } := by
  interval_cases n <;> rfl

/-- Any other offset latches nothing. -/
theorem latchClk_other {o : Nat} (h1 : o ≠ 0x70) (h2 : o ≠ 0x78) (h3 : ∀ n, n < 4 → o ≠ 0x8C + 0x20 * n) (s : State) : latchClk o s = s := by
  have hno : ¬ (0x8C ≤ o ∧ o ≤ 0xEC ∧ (o - 0x8C) % 0x20 = 0) := by
    rintro ⟨hlo, hhi, hmod⟩
    exact h3 ((o - 0x8C) / 0x20) (by omega) (by omega)
  exact (if_neg h1).trans ((if_neg h2).trans (if_neg hno))

theorem registerReadCompletes : RegisterReadCompletes := by
  intro b off s
  have ho : off.toNat < 65536 := off.isLt
  refine ⟨fun hb hdown => ?_, fun hup hue => ?_, ⟨_, rfl, readUecnt_spec s⟩, ⟨_, rfl, readUecnt_spec s⟩, ⟨_, rfl, ?_, tblGet_set_same .., rfl⟩,
    ⟨_, rfl, tblGet_set_same .., rfl⟩, ⟨_, rfl, tblGet_set_same .., rfl⟩, fun n hn => ?_, fun o h1 h2 h3 => ?_⟩
  · exact congrArg Host.Outcome.next (if_pos ⟨hb, by rw [hdown]; rfl⟩)
  · have hread : exec (.rcRegisterRead b off) s = .next (regClear (rk b.toNat off.toNat) s) := by
      have hno : ¬ (b = 10 ∧ (!pcieUp s) = true) := by
        rintro ⟨hb, hdown⟩
        rcases hup with h | h
        · exact h hb
        · rw [h] at hdown
          exact absurd hdown (by decide)
      have hue' : ¬ (b.toNat = 7 ∧ off.toNat = 0x28) := fun ⟨h7, h28⟩ => hue ⟨BitVec.eq_of_toNat_eq h7, BitVec.eq_of_toNat_eq h28⟩
      exact congrArg Host.Outcome.next ((if_neg hno).trans (if_neg hue'))
    exact ⟨fun h => hread.trans (congrArg Host.Outcome.next (regClear_none ho h s)), fun r hr => ⟨_, hread, regClear_some ho hr s⟩⟩
  · exact (tblGet_set_other _ _ _ _ _ (by decide)).trans (tblGet_set_same ..)
  · have hoff : (BitVec.ofNat 16 (0x8C + 0x20 * n)).toNat = 0x8C + 0x20 * n := by
      rw [BitVec.toNat_ofNat, Nat.mod_eq_of_lt (by omega)]
    have hrun : exec (.latchingLoRead (BitVec.ofNat 16 (0x8C + 0x20 * n))) s = .next (latchClk (0x8C + 0x20 * n) s) :=
      congrArg (fun o => Host.Outcome.next (latchClk o s)) hoff
    rw [latchClk_zc hn] at hrun
    exact ⟨_, hrun, tblGet_set_same .., rfl⟩
  · refine congrArg Host.Outcome.next (latchClk_other (fun h => h1 (BitVec.eq_of_toNat_eq h)) (fun h => h2 (BitVec.eq_of_toNat_eq h)) (fun n hn h => h3 n hn ?_) s)
    refine BitVec.eq_of_toNat_eq ?_
    rw [h, BitVec.toNat_ofNat, Nat.mod_eq_of_lt (by omega)]

/-- Settles O16: a write by the register's access code or its action, a read by what it clears or latches. -/
theorem registerAccessCompletes : Obligations.RegisterAccessCompletes := ⟨registerWriteCompletes, registerReadCompletes⟩

end Sys2Proof.Machine
end

section
/-! PROOFS. Lease renewal and expiry (R216, R217), the ledger port (R204 to R208, R213, R218) and the Sealer (R220, R221). -/

namespace Sys2Proof.Machine

open Sys2Proof.Obl

/-! ### Leases -/

theorem holderOk_iff (l : Lease) (owner : BitVec 8) (epoch : BitVec 24) :
    holderOk l owner epoch = true ↔ (l.state = 1 ∨ l.state = 2) ∧ l.owner = owner ∧ l.epoch = epoch := decide_eq_true_iff

theorem leaseGrant_held {n owner rclass rindex dur : Nat} {s : State} (h : (lease s n).state ≠ 0) : leaseGrant n owner rclass rindex dur s = s :=
  if_neg fun hfree => h hfree.1

/-- A deadline that lies ahead on the 44-bit circle has not been reached. -/
theorem deadline_ahead {d t : BitVec 44} (hahead : (d - t).toNat < 2 ^ 43) (hne : d ≠ t) : ¬ (t - d).toNat < 2 ^ 43 := by
  have hpos : d.toNat ≠ t.toNat := fun h => hne (BitVec.eq_of_toNat_eq h)
  have hd : d.toNat < 2 ^ 44 := d.isLt
  have ht : t.toNat < 2 ^ 44 := t.isLt
  rw [BitVec.toNat_sub] at hahead ⊢
  omega

theorem leaseRenewAndExpiry : LeaseRenewAndExpiry := by
  intro n owner rclass rindex dur epoch s l
  refine ⟨fun hst ho he => ?_, fun hno => ?_, fun hst => ?_, fun hst b => ?_, fun hst hd => ?_, fun hst hahead hne => ?_⟩
  · exact congrArg Host.Outcome.next (if_pos ((holderOk_iff ..).mpr ⟨hst, ho, he⟩))
  · have hno' : ¬ holderOk (lease s n.val) owner epoch = true := fun h => hno ((holderOk_iff ..).mp h)
    exact ⟨congrArg Host.Outcome.next (if_neg hno'), congrArg Host.Outcome.next (if_neg hno')⟩
  · refine congrArg Host.Outcome.next ?_
    split
    · exact leaseGrant_held hst
    · rfl
  · refine congrArg Host.Outcome.next (if_neg ?_)
    rintro (h | ⟨h, -⟩)
    · exact absurd h (by decide)
    · exact absurd (hst.symm.trans h) (by decide)
  · refine congrArg Host.Outcome.next (if_pos ⟨hst, ?_⟩)
    have hzero : (BitVec.ofNat 44 (now s) - (lease s n.val).deadline).toNat = 0 := by
      rw [show (lease s n.val).deadline = BitVec.ofNat 44 (now s) from hd, BitVec.sub_self]
      rfl
    rw [hzero]
    decide
  · exact congrArg Host.Outcome.next (if_neg fun h => deadline_ahead hahead hne h.2)

/-! ### The ledger port -/

/-- From `s` to `t` no entry but `k`'s has changed, nor a register, nor the host's part. -/
def OnlyEntry (s t : State) (k : Nat) : Prop := (∀ m, m ≠ k → entry t m = entry s m) ∧ t.regs = s.regs ∧ t.host = s.host

theorem entry_setEntry_same (i : Nat) (e : LEntry) (s : State) : entry (setEntry i e s) i = e := tblGet_set_same ..

theorem entry_setEntry_other {i m : Nat} (h : m ≠ i) (e : LEntry) (s : State) : entry (setEntry i e s) m = entry s m := tblGet_set_other _ _ _ _ _ h

/-- The live map after the entry's bit is set. -/
theorem liveSet_spec (i : Nat) (s : State) : (∀ m, entry (liveSet i s) m = entry s m) ∧ (liveSet i s).regs = s.regs ∧ (liveSet i s).host = s.host ∧
    (liveSet i s).leases = s.leases ∧ (liveSet i s).journal = s.journal ∧ (liveSet i s).ledger.tail = s.ledger.tail ∧ i ∈ (liveSet i s).ledger.live ∧
    ∀ m, m ≠ i → (m ∈ (liveSet i s).ledger.live ↔ m ∈ s.ledger.live) := by
  unfold liveSet
  split
  next h => exact ⟨fun _ => rfl, rfl, rfl, rfl, rfl, rfl, List.contains_iff_mem.mp h, fun _ _ => Iff.rfl⟩
  · refine ⟨fun _ => rfl, rfl, rfl, rfl, rfl, rfl, List.mem_append_right _ (List.mem_singleton_self i), fun m hm => ?_⟩
    simp [hm]

/-- The entry that OPEN writes. -/
def openedEntry (i kind : Nat) (noack emerg : Bool) (s : State) : LEntry :=
  { entry s i with state := 0x1E, phase := 0, flags := BitVec.ofNat 8 ((if noack then 8 else 0) + (if emerg then 32 else 0)), fstatus := 0,
                   tepoch := (lease s 0).epoch, kind := BitVec.ofNat 8 kind, lsn := s.ledger.nextLsn }

theorem ledgerOpen_spec (i kind : Nat) (noack emerg : Bool) (s : State) :
    let t := ledgerOpen i kind noack emerg s
    OnlyEntry s t i ∧ entry t i = openedEntry i kind noack emerg s ∧ t.ledger.tail = some { index := i, lsn := s.ledger.nextLsn, mask := 0 } ∧
      t.ledger.nextLsn = s.ledger.nextLsn + 1 ∧ t.ledger.live = s.ledger.live :=
  ⟨⟨fun _ hm => tblGet_set_other _ _ _ _ _ hm, rfl, rfl⟩, tblGet_set_same .., rfl, rfl, rfl⟩

section
variable {tag : BitVec 24} {s : State}

/-- A write with another tag than lease 0's is denied. -/
theorem ledgerPort_denied (i : BitVec 14) (kind phase fst fl : BitVec 8) (noack emerg : Bool) (hgate : gateOk s 0 0x00 tag = false) :
    ∀ r, r ∈ [Instr.ledgerOpen i kind noack emerg tag, .ledgerCommit tag, .ledgerW0Update i phase fst fl tag, .ledgerRelease i tag] →
      Runs r s (leaseDenied 0 s) := by
  have hdeny (f : State → State) : ledgerWrite tag f s = leaseDenied 0 s := if_neg (by rw [hgate]; decide)
  intro r hr
  simp only [List.mem_cons, List.not_mem_nil, or_false] at hr
  rcases hr with rfl | rfl | rfl | rfl <;> exact congrArg Host.Outcome.next (hdeny _)

variable (hgate : gateOk s 0 0x00 tag = true)
include hgate

theorem ledgerWrite_ok (f : State → State) : ledgerWrite tag f s = f s := if_pos hgate

theorem ledgerOpen_runs {i : BitVec 14} {kind : BitVec 8} {noack emerg : Bool} (htail : s.ledger.tail = none) (hfree : (entry s i.toNat).state = 0)
    (hlo : 1 ≤ kind.toNat) (hhi : kind.toNat ≤ 4) (hroom : admitted (if emerg ∨ kind = 4 then 1 else 0) 1 s = true) :
    ∃ t, Runs (.ledgerOpen i kind noack emerg tag) s t ∧ OnlyEntry s t i.toNat ∧
      entry t i.toNat = { entry s i.toNat with state := 0x1E, phase := 0, fstatus := 0, tepoch := (lease s 0).epoch, kind := kind, lsn := s.ledger.nextLsn,
                                               flags := BitVec.ofNat 8 (8 * b2n noack + 32 * b2n emerg) } ∧
      (∃ c, t.ledger.tail = some { index := i.toNat, lsn := s.ledger.nextLsn, mask := 0, cmd := c }) ∧ t.ledger.nextLsn = s.ledger.nextLsn + 1 ∧
      t.ledger.live = s.ledger.live := by
  have htier : kindTier kind.toNat emerg = if emerg = true ∨ kind = 4 then 1 else 0 := by
    have hk : kind.toNat = 4 ↔ kind = 4 := ⟨fun h => BitVec.eq_of_toNat_eq h, fun h => by rw [h]; rfl⟩
    simp only [kindTier, hk]
  have hcond : s.ledger.tail.isNone = true ∧ (entry s i.toNat).state = 0 ∧ 1 ≤ kind.toNat ∧ kind.toNat ≤ 4 ∧
      admitted (kindTier kind.toNat emerg) 1 s = true := by
    rw [htier, htail]
    exact ⟨rfl, hfree, hlo, hhi, hroom⟩
  obtain ⟨⟨hothers, hregs, hhost⟩, hentry, -, hlsn, hlive⟩ := ledgerOpen_spec i.toNat kind.toNat noack emerg s
  have hrun : exec (.ledgerOpen i kind noack emerg tag) s = _ := congrArg Host.Outcome.next ((ledgerWrite_ok hgate _).trans (if_pos hcond))
  have hflags : (if noack then 8 else 0) + (if emerg then 32 else 0) = 8 * b2n noack + 32 * b2n emerg := by
    cases noack <;> cases emerg <;> rfl
  refine ⟨_, hrun, ⟨hothers, hregs, hhost⟩, hentry.trans ?_, ⟨_, rfl⟩, hlsn, hlive⟩
  rw [openedEntry, hflags, BitVec.ofNat_toNat, BitVec.setWidth_eq]

/-- An entry all of whose words have been written is committed as it is. -/
theorem exec_ledgerCommit {x : LTail} (htail : s.ledger.tail = some x) (hmask : x.mask = 15) : exec (.ledgerCommit tag) s = .next (match x.cmd with
    | some c => if c.noack then enlist c (ledgerCommit s) else pushCpl c.queue (acceptedCpl c stAccepted 0) (enlist c (ledgerCommit s))
    | none => ledgerCommit s) := by
  have hfill : fillOpen s = s := by
    unfold fillOpen
    rw [htail]
    exact if_pos hmask
  refine congrArg Host.Outcome.next ((ledgerWrite_ok hgate _).trans ?_)
  dsimp only
  rw [hfill, htail]
  rfl

theorem ledgerCommit_runs {x : LTail} (htail : s.ledger.tail = some x) (hmask : x.mask = 15) (hcmd : x.cmd = none) :
    ∃ t, Runs (.ledgerCommit tag) s t ∧ OnlyEntry s t x.index ∧ entry t x.index = { entry s x.index with state := 0xE1, phase := 0 } ∧
      t.ledger.tail = none ∧ x.index ∈ t.ledger.live ∧ (∀ m, m ≠ x.index → (m ∈ t.ledger.live ↔ m ∈ s.ledger.live)) := by
  have hrun := exec_ledgerCommit hgate htail hmask
  rw [hcmd] at hrun
  obtain ⟨hentries, hregs, hhost, -, -, -, hin, hlive⟩ := liveSet_spec x.index (setEntry x.index { entry s x.index with state := 0xE1, phase := 0 } s)
  have hstate : ledgerCommit s = (let u := ueFix (6 * x.index) 1 (liveSet x.index (setEntry x.index { entry s x.index with state := 0xE1, phase := 0 } s))
      { u with ledger := { u.ledger with tail := none } }) := by
    unfold ledgerCommit
    rw [htail]
  refine ⟨_, hrun, ?_⟩
  dsimp only
  rw [hstate]
  refine ⟨⟨fun m hm => (hentries m).trans (entry_setEntry_other hm _ _), hregs, hhost⟩, (hentries _).trans (entry_setEntry_same ..), rfl, hin, hlive⟩

theorem ledgerW0Update_runs {i : BitVec 14} {phase fst fl : BitVec 8} (hlive : (entry s i.toNat).state = 0xE1)
    (hup : (entry s i.toNat).phase.toNat ≤ phase.toNat) (hmax : phase.toNat ≤ 5) (hidem : phase ≠ 2 ∨ (entry s i.toNat).idem = 2) :
    ∃ t, Runs (.ledgerW0Update i phase fst fl tag) s t ∧ OnlyEntry s t i.toNat ∧ t.ledger.live = s.ledger.live ∧
      entry t i.toNat = { entry s i.toNat with phase := phase, fstatus := if 3 ≤ phase.toNat then fst else (entry s i.toNat).fstatus,
                                               flags := (entry s i.toNat).flags ||| (fl &&& 0x3F) } := by
  have hflags : BitVec.ofNat 8 (fl.toNat % 64) = fl &&& 0x3F := by
    refine BitVec.eq_of_toNat_eq ?_
    rw [BitVec.toNat_and, BitVec.toNat_ofNat]
    exact (Nat.mod_eq_of_lt (by omega)).trans (Nat.and_two_pow_sub_one_eq_mod fl.toNat 6).symm
  have hrun : exec (.ledgerW0Update i phase fst fl tag) s = _ :=
    congrArg Host.Outcome.next ((ledgerWrite_ok hgate _).trans ((if_pos ⟨hmax, hidem⟩).trans (if_pos ⟨hlive, hup⟩)))
  refine ⟨_, hrun, ⟨fun m hm => entry_setEntry_other hm _ _, rfl, rfl⟩, rfl, (entry_setEntry_same ..).trans ?_⟩
  rw [hflags, BitVec.ofNat_toNat, BitVec.setWidth_eq, BitVec.ofNat_toNat, BitVec.setWidth_eq]

theorem ledgerRelease_runs {i : BitVec 14} (hst : (entry s i.toNat).state = 0xE1 ∨ (entry s i.toNat).state = 0x78) :
    ∃ t, Runs (.ledgerRelease i tag) s t ∧ OnlyEntry s t i.toNat ∧ (entry t i.toNat).state = 0 ∧ (entry t i.toNat).lsn = (entry s i.toNat).lsn ∧
      i.toNat ∉ t.ledger.live ∧ (∀ m, m ≠ i.toNat → (m ∈ t.ledger.live ↔ m ∈ s.ledger.live)) := by
  have hrun : exec (.ledgerRelease i tag) s = .next (ledgerRelease i.toNat s) := congrArg Host.Outcome.next ((ledgerWrite_ok hgate _).trans (if_pos hst))
  have hentry : entry (ledgerRelease i.toNat s) i.toNat =
      { entry s i.toNat with state := 0, phase := 0, flags := 0, fstatus := 0, tepoch := 0, kind := 0 } := entry_setEntry_same ..
  have hlive : (ledgerRelease i.toNat s).ledger.live = s.ledger.live.filter (· ≠ i.toNat) := rfl
  refine ⟨_, hrun, ⟨fun m hm => entry_setEntry_other hm _ _, rfl, rfl⟩, by rw [hentry], by rw [hentry], ?_, fun m hm => ?_⟩
  · rw [hlive]
    simp
  · rw [hlive]
    simp [hm]

end

theorem ledgerPortRule : LedgerPortRule := by
  intro i kind phase fst fl noack emerg tag s n e others
  refine ⟨ledgerPort_denied i kind phase fst fl noack emerg, fun hgate => ⟨ledgerOpen_runs hgate, fun x c htail hmask hcmd => ?_,
    fun x htail hmask hcmd => ledgerCommit_runs hgate htail hmask hcmd, ledgerW0Update_runs hgate, ledgerRelease_runs hgate⟩⟩
  have hrun := exec_ledgerCommit hgate htail hmask
  rw [hcmd] at hrun
  exact hrun

/-! ### The Sealer -/

/-- What the revocation of a lease leaves as it was, of what the Sealer reads. -/
theorem leaseRevoke_sealed (n : Nat) (s : State) : (leaseRevoke n s).ledger = s.ledger ∧ (leaseRevoke n s).journal = s.journal ∧
    (leaseRevoke n s).pwr = s.pwr := by
  have hnote (c d w : Nat) (t : State) : (notify c d w t).ledger = t.ledger ∧ (notify c d w t).journal = t.journal ∧ (notify c d w t).pwr = t.pwr := by
    unfold notify post
    split
    · exact ⟨rfl, rfl, rfl⟩
    · dsimp only [noteNow]
      split
      · split <;> exact ⟨rfl, rfl, rfl⟩
      · exact ⟨rfl, rfl, rfl⟩
  unfold leaseRevoke
  dsimp only
  split
  · exact ⟨rfl, rfl, rfl⟩
  · exact hnote ..

/-- The record of what became of entry `i`, and its event to Onyx. -/
def sealerRecords (code i : Nat) (e : LEntry) (s : State) : State :=
  sealerTells i e (journalNow code 0x03 8 i (e.lsn.toNat % 4294967296) (entryEvidence e) s)

theorem sealerRecords_spec (code i : Nat) (e : LEntry) (s : State) : (sealerRecords code i e s).ledger = s.ledger ∧
    (sealerRecords code i e s).leases = s.leases ∧
    ∃ r, tblFind s.journal.wridx (sealerRecords code i e s).journal.recs = some r ∧ r.code = BitVec.ofNat 16 code ∧ r.d0 = BitVec.ofNat 32 i := by
  have htold := tells_journalNow code 0x03 8 i (e.lsn.toNat % 4294967296) (entryEvidence e) s
  refine ⟨htold.ledger, htold.leases, ?_⟩
  change ∃ r, tblFind s.journal.wridx (journalNow code 0x03 8 i (e.lsn.toNat % 4294967296) (entryEvidence e) s).journal.recs = some r ∧ _
  unfold journalNow
  dsimp only
  split <;> exact ⟨_, tblFind_set_same .., rfl, rfl⟩

/-- The open entry is complete and reads whole (R221). -/
def openWhole (ue : Bool) (x : LTail) (s : State) : Bool :=
  !ue && !entryUe s x.index && decide ((entry s x.index).state = 0x1E) && decide ((entry s x.index).lsn = x.lsn) && decide (x.mask = 15) &&
    bchkOk (entry s x.index)

theorem openWhole_iff (ue : Bool) (x : LTail) (s : State) : openWhole ue x s = true ↔
    ue = false ∧ entryUe s x.index = false ∧ (entry s x.index).state = 0x1E ∧ (entry s x.index).lsn = x.lsn ∧ x.mask = 15 ∧
      crc32c (entryBody (entry s x.index)) = (entry s x.index).bchk := by
  simp only [openWhole, bchkOk, Bool.and_eq_true, Bool.not_eq_true', decide_eq_true_eq, and_assoc]

/-- The state with the tail closed and the entry `e'` in its place. -/
def tailClosed (x : LTail) (e' : LEntry) (s : State) : State :=
  ueFix (6 * x.index) 1 (setEntry x.index e' { s with ledger := { s.ledger with tail := none } })

/-- The open entry becomes LIVE, with SEALED. -/
def entrySealed (x : LTail) (s : State) : State :=
  let u := tailClosed x { entry s x.index with state := 0xE1, phase := 0, flags := (entry s x.index).flags &&& 0x28 ||| 1 } s
  liveSet x.index { u with ledger := { u.ledger with sealed := u.ledger.sealed ++ x.cmd.toList } }

/-- The open entry becomes VOID. -/
def entryVoided (x : LTail) (s : State) : State := tailClosed x { entry s x.index with state := 0x78 } s

/-- What the Sealer does once lease 0 is revoked. -/
def tailSealed (ue : Bool) (x : LTail) (s : State) : State :=
  if openWhole ue x s then sealerRecords 0x100 x.index (entry s x.index) (entrySealed x s)
  else sealerRecords 0x101 x.index (entry s x.index) (entryVoided x s)

theorem sealerAct_none {ue : Bool} {s : State} (h : (sealerRevoke s).ledger.tail = none) : sealerAct ue s = sealerRevoke s := by
  unfold sealerAct
  dsimp only
  rw [h]

theorem sealerAct_some {ue : Bool} {s : State} {x : LTail} (h : (sealerRevoke s).ledger.tail = some x) : sealerAct ue s = tailSealed ue x (sealerRevoke s) := by
  unfold sealerAct
  generalize sealerRevoke s = u at h ⊢
  dsimp only
  rw [h]
  rfl

theorem tailSealed_leases (ue : Bool) (x : LTail) (s : State) : (tailSealed ue x s).leases = s.leases := by
  unfold tailSealed
  split
  · rw [(sealerRecords_spec ..).2.1]
    exact (liveSet_spec ..).2.2.2.1
  · rw [(sealerRecords_spec ..).2.1]
    rfl

/-- What the Sealer makes of the open entry. -/
theorem tailSealed_spec (ue : Bool) (x : LTail) (s : State) :
    let t := tailSealed ue x s
    t.ledger.tail = none ∧ (∀ m, m ≠ x.index → entry t m = entry s m) ∧
      (openWhole ue x s = true → entry t x.index = { entry s x.index with state := 0xE1, phase := 0, flags := (entry s x.index).flags &&& 0x28 ||| 1 } ∧
        x.index ∈ t.ledger.live ∧ (∃ r, tblFind s.journal.wridx t.journal.recs = some r ∧ r.code = 0x100 ∧ r.d0 = BitVec.ofNat 32 x.index)) ∧
      (openWhole ue x s = false → entry t x.index = { entry s x.index with state := 0x78 } ∧ t.ledger.live = s.ledger.live ∧
        (∃ r, tblFind s.journal.wridx t.journal.recs = some r ∧ r.code = 0x101 ∧ r.d0 = BitVec.ofNat 32 x.index)) := by
  intro t
  have hentry {u v : State} (h : u.ledger = v.ledger) (m : Nat) : entry u m = entry v m := by rw [entry, entry, h]
  cases hw : openWhole ue x s
  · have ht : t = sealerRecords 0x101 x.index (entry s x.index) (entryVoided x s) := if_neg (by rw [hw]; decide)
    obtain ⟨hledger, -, hrec⟩ := sealerRecords_spec 0x101 x.index (entry s x.index) (entryVoided x s)
    rw [← ht] at hledger hrec
    have hlive : (entryVoided x s).ledger.live = s.ledger.live := rfl
    refine ⟨congrArg LedgerSt.tail hledger, fun m hm => (hentry hledger m).trans (entry_setEntry_other hm _ _), fun h => absurd h (by decide),
      fun _ => ⟨(hentry hledger _).trans (entry_setEntry_same ..), (congrArg LedgerSt.live hledger).trans hlive, hrec⟩⟩
  · have ht : t = sealerRecords 0x100 x.index (entry s x.index) (entrySealed x s) := if_pos hw
    obtain ⟨hledger, -, hrec⟩ := sealerRecords_spec 0x100 x.index (entry s x.index) (entrySealed x s)
    rw [← ht] at hledger hrec
    have hjournal : (entrySealed x s).journal = s.journal := (liveSet_spec ..).2.2.2.2.1
    rw [hjournal] at hrec
    obtain ⟨hentries, -, -, -, -, htail, hin, -⟩ := liveSet_spec x.index
      (let u := tailClosed x { entry s x.index with state := 0xE1, phase := 0, flags := (entry s x.index).flags &&& 0x28 ||| 1 } s
       { u with ledger := { u.ledger with sealed := u.ledger.sealed ++ x.cmd.toList } })
    refine ⟨(congrArg LedgerSt.tail hledger).trans htail, fun m hm => (hentry hledger m).trans ((hentries m).trans (entry_setEntry_other hm _ _)),
      fun _ => ⟨(hentry hledger _).trans ((hentries _).trans (entry_setEntry_same ..)), ?_, hrec⟩, fun h => absurd h (by decide)⟩
    rw [hledger]
    exact hin

theorem sealerRule : SealerRule := by
  intro ue s hdue
  have hact : exec (.sealerTrigger ue) s = .next (sealerAct ue s) := congrArg Host.Outcome.next (if_pos hdue)
  obtain ⟨hledger, hjournal, hpwr⟩ := leaseRevoke_sealed 0 s
  refine ⟨fun htail howner => ?_, fun x htail howner => ?_⟩
  · have hrevoke : sealerRevoke s = leaseRevoke 0 s := if_pos howner
    rw [sealerAct_none (by rw [hrevoke, hledger, htail]), hrevoke] at hact
    exact hact
  · have hrevoke : sealerRevoke s = leaseRevoke 0 s := if_pos howner
    rw [sealerAct_some (by rw [hrevoke, hledger, htail]), hrevoke] at hact
    have hlease := lease_leaseRevoke_same 0 s
    generalize leaseRevoke 0 s = u at hact hledger hjournal hpwr hlease
    obtain ⟨htail', hothers, hwhole, hvoid⟩ := tailSealed_spec ue x u
    have hentry (m : Nat) : entry u m = entry s m := by rw [entry, entry, hledger]
    have hue : entryUe u x.index = entryUe s x.index := by rw [entryUe, entryUe, ueIn, ueIn, hpwr]
    have hiff := openWhole_iff ue x u
    rw [hentry, hue] at hiff
    simp only [hentry, hjournal, hledger] at hothers hwhole hvoid
    refine ⟨_, hact, htail', fun _ => ?_, hothers, fun h => hwhole (hiff.mpr h), fun h => hvoid (Bool.eq_false_of_not_eq_true fun h' => h (hiff.mp h'))⟩
    rw [lease, tailSealed_leases]
    exact hlease

/-- Settles O54: the lease unit, the ledger port and the Sealer. -/
theorem leaseAndLedgerRule : Obligations.LeaseAndLedgerRule := ⟨leaseRenewAndExpiry, ledgerPortRule, sealerRule⟩

end Sys2Proof.Machine
end

section
/-! PROOFS. What each kind of reset keeps and clears (R104 to R108, R123, R135, R136). -/

namespace Sys2Proof.Machine

open Sys2Proof.Obl

/-! ### POR and the cold reset -/

theorem fuseAbort_idle {s : State} (h : s.boot.fuseOp = none) : fuseAbort s = s := by
  unfold fuseAbort
  dsimp only
  rw [h]

/-- With no eFuse operation under way everything is reset but what the fuses and the flash hold. -/
theorem deviceReset_idle {s : State} (h : s.boot.fuseOp = none) : deviceReset s = { State.reset with
    pending := s.pending, free := s.free, hostMem := s.hostMem,
    boot := { bootReset with fuses := s.boot.fuses, flash := s.boot.flash, verified := s.boot.verified, dir := s.boot.dir },
    onyx := { onyxReset with temp := s.onyx.temp } } := by
  unfold deviceReset
  rw [fuseAbort_idle h]

/-- A cold reset, from the device reset of `s`. -/
def coldFrom (s r : State) : State :=
  { r with regs := [], time := { r.time with aoRun := s.time.aoRun, refRun := s.time.refRun }, tap := s.tap,
           agt := { r.agt with rows := s.agt.rows.filter (·.pending) }, boot := { r.boot with hdr := { hdrReset with lastReset := 1 }, tapHold := s.tap.pads } }

theorem porAndColdResetClear : PorAndColdResetClear := by
  intro s hop cleared
  have hreset : deviceReset s = cleared := deviceReset_idle hop
  exact ⟨congrArg Host.Outcome.next hreset, congrArg (fun r => Host.Outcome.next (coldFrom s r)) hreset⟩

/-! ### The warm reset -/

/-- The start of a warm reset: S1 lies ahead, CORE_EN is high, PD_CTRL switches on. -/
def warmStart (cause : Nat) (fault : Bool) (s : State) : State :=
  let hd := { s.boot.hdr with lastReset := 2, warmCause := cause }
  let s := { s with boot := { s.boot with step := 1, warm := true, hdr := hd },
                    pwr := { s.pwr with hib := .awake, safe := false, safeStuck := false, shutdown := false, faultN := fault,
                                        cur := some { dom := 1, on := true, pgBy := now s + stageUs 1 + 32, pgSeen := false, failed := false } } }
  seqUpd (wr coreEn 1 (wr (domStat 1) 1 s))

theorem warmNow_split (cause : Nat) (ddr : Bool) (s : State) : ∃ u, warmNow cause ddr s = warmStart cause (faultAfter s) (ctrlLost u) := ⟨_, rfl⟩

theorem rd_seqUpd {f : Fld} (h : f.key ≠ rk 7 8) (s : State) : rd (seqUpd s) f = rd s f := by
  rw [seqUpd, rd_wr_other _ _ _ _ h, rd_wr_other _ _ _ _ h, rd_wr_other _ _ _ _ h]

theorem warmStart_spec (cause : Nat) (fault : Bool) (s : State) :
    let t := warmStart cause fault s
    t.boot.step = 1 ∧ t.boot.warm = true ∧ t.boot.hdr.lastReset = 2 ∧ t.boot.hdr.warmCause = cause ∧ t.pwr.safe = false ∧ t.pwr.hib = .awake ∧
      rd t coreEn = 1 ∧ rd t (domStat 1) = 1 ∧ t.claims = s.claims := by
  refine ⟨rfl, rfl, rfl, rfl, rfl, rfl, ?_, ?_, rfl⟩
  · exact (rd_seqUpd (by decide) _).trans (rd_wr_same coreEn 1 _ (Nat.le_of_ble_eq_true rfl))
  · exact (rd_seqUpd (by decide) _).trans ((rd_wr_other _ _ _ _ (by decide)).trans (rd_wr_same (domStat 1) 1 _ (Nat.le_of_ble_eq_true rfl)))

theorem ctrlLost_claims (s : State) : (ctrlLost s).claims = [] := rfl

/-- What a warm reset leaves. -/
theorem warmNow_spec (cause : Nat) (ddr : Bool) (s : State) :
    let t := warmNow cause ddr s
    t.boot.step = 1 ∧ t.boot.warm = true ∧ t.boot.hdr.lastReset = 2 ∧ t.boot.hdr.warmCause = cause ∧ t.pwr.safe = false ∧ t.pwr.hib = .awake ∧
      rd t coreEn = 1 ∧ rd t (domStat 1) = 1 ∧ t.claims = [] := by
  obtain ⟨u, hu⟩ := warmNow_split cause ddr s
  have hclaims := ctrlLost_claims u
  rw [hu]
  generalize ctrlLost u = v at hclaims ⊢
  obtain ⟨h1, h2, h3, h4, h5, h6, h7, h8, h9⟩ := warmStart_spec cause (faultAfter s) v
  exact ⟨h1, h2, h3, h4, h5, h6, h7, h8, h9.trans hclaims⟩

/-! ### Its sources (Table 5.1) -/

theorem warmSource_iff {c : Nat} {s : State} (hon : domOn s 1 = true) (hstep : 3 ≤ s.boot.step) : warmSource c s = true ↔
    (c = 1 ∧ ¬(s.pwr.safe = true ∨ minimal s = true) ∧ booted s = true ∧ onyxUp s = true) ∨
    (c = 2 ∧ ¬(s.pwr.safe = true ∨ minimal s = true) ∧ s.boot.started = true) ∨ (c = 3 ∧ ¬(s.pwr.safe = true ∨ minimal s = true)) ∨
    (c = 4 ∧ (minimal s = true ∨ (s.pwr.safe = true ∧ s.pwr.safeStuck = false ∧ s.onyx.phase ≠ .off ∧ (s.pwr.shutdown = true → s.onyx.temp < 115)))) := by
  have hhot : tooHot s = false ↔ (s.pwr.shutdown = true → s.onyx.temp < 115) := by
    rw [tooHot, Bool.and_eq_false_imp]
    simp only [decide_eq_false_iff_not, not_le]
  simp only [warmSource, hon, hstep, decide_true, Bool.true_and, Bool.or_eq_true, Bool.and_eq_true, beq_iff_eq, Bool.not_eq_true', Bool.or_eq_false_iff,
    bne_iff_ne, hhot, not_or, Bool.not_eq_true, and_assoc, or_assoc]

/-- The state whose reset the boot ROM's command has prepared (R123). -/
def resetTold (c : Nat) (s : State) : State := if c = 4 then devResetPrep s else s

theorem resetTold_keeps (c : Nat) (s : State) : (resetTold c s).boot.resetReq = s.boot.resetReq ∧ (resetTold c s).boot.fuseOp = s.boot.fuseOp ∧
    (resetTold c s).host = s.host ∧ (resetTold c s).regs = s.regs := by
  unfold resetTold devResetPrep
  split
  · split <;> exact ⟨rfl, rfl, rfl, rfl⟩
  · exact ⟨rfl, rfl, rfl, rfl⟩

theorem fuseBusy_congr {s t : State} (hop : t.boot.fuseOp = s.boot.fuseOp) (hhost : t.host = s.host) : fuseBusy t = fuseBusy s := by
  rw [fuseBusy, fuseBusy, hop, lifecycleUnsaid, lifecycleUnsaid, hhost]

theorem romReplies_congr {s t : State} (hhost : t.host = s.host) (hregs : t.regs = s.regs) : romReplies t = romReplies s := by
  have hqueue (q : Nat) : queue t q = queue s q := by rw [queue, queue, hhost]
  simp only [romReplies, minimal, flag, rd, rdW, hregs, hqueue]

/-- A requested reset follows where nothing holds it back. -/
theorem resetDue_now {s : State} {c : Nat} {d : Bool} (hreq : s.boot.resetReq = some (c, some d)) (hfuse : fuseBusy s = false) (hrom : romReplies s = false) :
    resetDue s = warmNow c d s := by
  unfold resetDue
  rw [hreq]
  exact if_neg (by rw [hfuse, hrom]; decide)

theorem resetDue_waits {s : State} (hfuse : fuseBusy s = true) : resetDue s = s := by
  unfold resetDue
  split
  · rfl
  · exact if_pos (by rw [hfuse]; rfl)

theorem warmReset_absorbed {c : Nat} {d : Option Bool} {s : State} (h : s.boot.resetReq ≠ none) : warmReset c d s = s :=
  if_pos (Option.isSome_iff_ne_none.mpr h)

theorem warmReset_request {c : Nat} {d : Option Bool} {s : State} (h : s.boot.resetReq = none) :
    warmReset c d s = resetDue { s with boot := { s.boot with resetReq := some (c, d) } } := if_neg (by rw [h]; decide)

/-- A warm reset by one of its sources. -/
theorem warmReset_runs {cause : BitVec 8} {ddr : Bool} {s : State} (hsource : warmSource cause.toNat s = true) :
    (s.boot.resetReq = none → fuseBusy s = false → romReplies s = false →
      ∃ t, Runs (.warmReset cause ddr) s t ∧ t.boot.step = 1 ∧ t.boot.warm = true ∧ t.boot.hdr.lastReset = 2 ∧ t.boot.hdr.warmCause = cause.toNat ∧
        t.pwr.safe = false ∧ t.pwr.hib = .awake ∧ rd t coreEn = 1 ∧ rd t (domStat 1) = 1 ∧ t.claims = []) ∧
    (s.boot.resetReq = none → fuseBusy s = true → Runs (.warmReset cause ddr) s
      { resetTold cause.toNat s with boot := { (resetTold cause.toNat s).boot with resetReq := some (cause.toNat, some ddr) } }) ∧
    (s.boot.resetReq ≠ none → Runs (.warmReset cause ddr) s (resetTold cause.toNat s)) := by
  have hrun : exec (.warmReset cause ddr) s = .next (warmReset cause.toNat (some ddr) (resetTold cause.toNat s)) :=
    congrArg Host.Outcome.next (if_pos hsource)
  obtain ⟨hreq, hop, hhost, hregs⟩ := resetTold_keeps cause.toNat s
  generalize resetTold cause.toNat s = u at hrun hreq hop hhost hregs
  refine ⟨fun h hfuse hrom => ?_, fun h hfuse => ?_, fun h => ?_⟩
  · have hfuse' : fuseBusy { u with boot := { u.boot with resetReq := some (cause.toNat, some ddr) } } = false := (fuseBusy_congr hop hhost).trans hfuse
    have hrom' : romReplies { u with boot := { u.boot with resetReq := some (cause.toNat, some ddr) } } = false := (romReplies_congr hhost hregs).trans hrom
    rw [warmReset_request (hreq.trans h), resetDue_now rfl hfuse' hrom'] at hrun
    exact ⟨_, hrun, warmNow_spec ..⟩
  · have hfuse' : fuseBusy { u with boot := { u.boot with resetReq := some (cause.toNat, some ddr) } } = true := (fuseBusy_congr hop hhost).trans hfuse
    rw [warmReset_request (hreq.trans h), resetDue_waits hfuse'] at hrun
    exact hrun
  · rw [warmReset_absorbed (by rw [hreq]; exact h)] at hrun
    exact hrun

/-! ### Domain resets -/

theorem domainReset_switches {dom : Fin 12} {s : State} (hon : domOn s 1 = true) (hdom : 4 ≤ dom.val) (hreq : s.boot.resetReq = none) :
    Runs (.domainReset dom) s (domReq dom.val true (domReq dom.val false s)) :=
  congrArg Host.Outcome.next ((if_neg (by simp [hon, hreq])).trans ((if_neg (by omega)).trans (if_neg (by omega))))

theorem domainReset_warm {dom : Fin 12} {s : State} (hon : domOn s 1 = true) (hstep : 3 ≤ s.boot.step) (hdom : dom.val = 1 ∨ dom.val = 3)
    (hsafe : s.pwr.safe = false) (hreq : s.boot.resetReq = none) :
    Runs (.domainReset dom) s (resetDue { s with boot := { s.boot with resetReq := some (3, none) } }) := by
  have hgo : ¬ (s.boot.step < 3 ∨ s.pwr.safe = true) := by
    rw [hsafe]
    rintro (h | h)
    · omega
    · exact absurd h (by decide)
  exact congrArg Host.Outcome.next ((if_neg (by simp [hon, hreq])).trans ((if_pos hdom).trans ((if_neg hgo).trans (warmReset_request hreq))))

theorem warmAndDomainReset : WarmAndDomainReset := by
  intro cause ddr s c held source told hon hstep
  have hiff : warmSource cause.toNat s = true ↔ source := warmSource_iff hon hstep
  exact ⟨fun hs => warmReset_runs (hiff.mpr hs), fun hno => congrArg Host.Outcome.next (if_neg fun h => hno (hiff.mp h)),
    fun dom hdom hreq => domainReset_switches hon hdom hreq, fun dom hdom hsafe hreq => domainReset_warm hon hstep hdom hsafe hreq⟩

/-- Settles O55: POR and the cold reset by what they keep, the warm reset by its sources, a domain reset by its domain. -/
theorem resetKindsRule : Obligations.ResetKindsRule := ⟨porAndColdResetClear, warmAndDomainReset⟩

end Sys2Proof.Machine
end
